-- ==== Sys2Proof/Word.lean ====
section
/-! DEFINITION. The word types of the device: registers are 32 bits and little-endian (R9), memory is bytes, the
Sluice and the banks move 64-byte lines (R273). -/

namespace Sys2Proof

/-- A register (R9), a descriptor word (R389) or a record word (R123). -/
abbrev Word := BitVec 32

/-- A byte of a stream, an image, the Store or host memory. -/
abbrev Byte := BitVec 8

/-- One 64-byte line of a bank or of a Sluice message (R273). -/
abbrev Line := BitVec 512

/-- A 64-bit address or information field. -/
abbrev DWord := BitVec 64

/-- The 4,096 data bits of a configuration frame (R120). -/
abbrev FrameBits := BitVec 4096

/-- A descriptor: 16 little-endian words, word 0 in the low bits (R389). -/
abbrev Desc := BitVec 512

end Sys2Proof
end

