-- ==== Sys2Proof/Syntax.lean ====
section
/-! DEFINITION. The commands of the block: one constructor of `Instr` for each row of spec/opcode_table.json. The
table gives no operand fields, so the operands are the ones the cited rules speak of: the register path and the value
written, the issuer and the descriptor, the unit acted on, and what reaches the device from outside at that step
(what a read returned, what the cells read as, what a module or a line presented). -/

namespace Sys2Proof

/-- Where a descriptor comes from: a submission ring of a host port (R354) or a management interface's slot (R598). -/
inductive Issuer where
  | ring (port sq : Nat)
  | smbus
  | jtag
  deriving DecidableEq, Repr

/-- Who makes a register access (R632, R593). -/
inductive Path where
  | host (port : Nat)
  | hostPart (port : Nat)    -- an access that is not of one whole aligned DW (R349)
  | smbus
  | jtag
  deriving DecidableEq, Repr

/-- A register of a host port's configuration space that serves a feature of R343: Device Control and Device Control 2 (R347),
Link Control and L1 PM Substates Control 1 (R526), the power management control and status register, the Message Control of
MSI-X (R376), the read-only class code and Device Serial Number; Command and Status and the BAR words of the Type 0 header; and
those of the other capabilities: Advanced Error Reporting, Link Control 2, Secondary PCI Express, Data Link Feature, Physical Layer
16.0 and 32.0 GT/s, Lane Margining (by lane) and LTR. -/
inductive CfgReg where
  | deviceControl
  | deviceControl2
  | linkControl
  | l1Substates
  | powerControl
  | msixControl
  | classCode
  | serialLow
  | serialHigh
  | command
  | bar (word : Nat)
  | uncStatus
  | uncMask
  | uncSeverity
  | corStatus
  | corMask
  | linkControl2
  | linkControl3
  | laneError
  | dataLink
  | phy16Status
  | phy32Control
  | phy32Status
  | laneMargin (lane : Nat)
  | ltrLatency
  deriving DecidableEq, Repr

/-- The space of a host port in which a register access lies (R348). BAR4 takes a DW, or a QW with the DW that follows (R349).
A management interface reaches the registers of BAR0 alone. -/
inductive Space where
  | bar0
  | bar2
  | bar4 (high : Option Word)
  | config (r : CfgReg)
  deriving DecidableEq, Repr

/-- A management interface (R590, R602). -/
inductive MgmtIf where
  | smbus
  | jtag
  deriving DecidableEq, Repr

/-- Who reads a register with REG_READ: a management interface by its command (R592, R593), or a host, whose reads of its spaces
without a row of their own the same row carries (assumption 81). -/
inductive RegReader where
  | mgmt (via : MgmtIf)
  | host (path : Path) (space : Space)
  | alert                              -- the SMBus host reads the Alert Response Address (R590)
  deriving DecidableEq, Repr

/-- The PEC byte of an SMBus command (R590). -/
inductive Pec where
  | right
  | wrong
  | missing
  deriving DecidableEq, Repr

/-- The straps sampled during a start-up (R169, R170, R538, R590). -/
structure Straps where
  cfgMode : BitVec 3
  cfgPull : Bool
  smbAddr : BitVec 2
  lfxtEn  : Bool
  deriving DecidableEq, Repr, Inhabited

/-- What the sense path finds in the cells at a start-up beyond the stored values: the units (pan index, or 64 for the
global area) whose selected VALID reads at normal but not at tightened margin (R132), the frames of active planes (unit,
unit-relative address) that are low-margin (R140), and those that fail their check at normal margin (R137, R139). -/
structure StartCells where
  weakValid  : List Nat
  weakFrames : List (Nat × Nat)
  badFrames  : List (Nat × Nat)
  deriving DecidableEq, Repr, Inhabited

/-- The 8-byte record header of a device stream without TYPE, which the row names, and LENGTH, which is the payload's
(R172). -/
structure RecHdr where
  flags  : Byte
  target : BitVec 16
  deriving DecidableEq, Repr

/-- How a frame write read back (R121). -/
inductive WriteCheck where
  | first    -- the first write reads back
  | retried  -- the first fails, the second reads back
  | failed   -- both fail
  deriving DecidableEq, Repr

/-- How the bytes a lane waits for arrive: they do, the Store cannot correct its read of unit `unit`, or the read of host
memory fails (R149, R188, R369). -/
inductive Arrival where
  | ok
  | storeFail (unit : Nat)
  | hostFail
  deriving DecidableEq, Repr

/-- When DONE is released (R196, R199). -/
inductive DoneHow where
  | ready        -- PPS_ALIGN 0
  | ppsEdge      -- the chosen PPS edge
  | waitExpired  -- PPS_WAIT seconds without an edge
  deriving DecidableEq, Repr

/-- A read of host memory as it completes (R369). -/
inductive HostRead where
  | data (bytes : List Byte)
  | unsupported
  | aborted
  | poisoned
  | timedOut
  deriving DecidableEq, Repr

/-- SECDED outcome of the flits of a message (R286). -/
inductive FlitErr where
  | none
  | single (words : Nat)
  | doubleData
  | doubleHeader (router : Nat)
  deriving DecidableEq, Repr

/-- A request as a requester presents it at an ingress (R273, R280). -/
structure SlReq where
  ingress : Nat
  addr    : DWord
  write   : Bool
  len     : BitVec 3        -- lines minus 1
  tid     : BitVec 6
  be      : DWord
  data    : List Line       -- one line for each line written
  err     : FlitErr
  deriving DecidableEq, Repr

/-- A contender of an arbitration: the tier and rank of R36. -/
structure Contender where
  tier : Nat
  rank : Nat
  deriving DecidableEq, Repr

/-- The state a CLOSE sets (R283). -/
inductive CloseTo where
  | held
  | refusing
  | empty
  deriving DecidableEq, Repr

/-- Causes of a lost link, in the numbering of LINK_LOST (R458). -/
inductive LinkCause where
  | signalLost | lockLost | replayLimit | helloChanged | helloMissing | creditError | pcsLoss
  deriving DecidableEq, Repr

/-- A packet of a Brera link as its blocks give it (R437, R438), with the CRC of its END block. -/
structure Packet where
  rsp     : Bool
  seq     : BitVec 12
  addr    : DWord
  be      : DWord
  dstDev  : BitVec 14
  srcDev  : BitVec 14
  src     : BitVec 16
  xid     : BitVec 16
  write   : Bool
  len     : BitVec 3
  hops    : BitVec 4
  status  : Byte
  payload : List Line
  crc     : Word
  broken  : Bool    -- a control block of another type fell inside it (R437)
  ack     : BitVec 12
  ackValid : Bool
  rspCredits : BitVec 4
  reqCredits : BitVec 4
  deriving DecidableEq, Repr

/-- The codewords that the FEC decoder of a port corrected, and could not correct, since the line before (R459). -/
structure FecCount where
  corrected     : BitVec 16
  uncorrectable : BitVec 16
  deriving DecidableEq, Repr

/-- A received HELLO block (R437). -/
structure Hello where
  device  : BitVec 14
  tandem  : Bool
  relay   : Bool
  port    : BitVec 7
  seen    : Bool
  lanes   : BitVec 2
  rate    : BitVec 2
  version : BitVec 4
  rspCells : Byte
  reqCells : Byte
  deriving DecidableEq, Repr

/-- A SLEEP block (R437, R455). -/
inductive SleepKind where
  | request
  | accept
  | refuse
  deriving DecidableEq, Repr

/-- How an I²C byte ended on the wire (R487); at a target's first byte, the address that was sent before it. -/
inductive I2cEnd where
  | ack
  | nack
  | arbLost
  | address (a : BitVec 10) (ten : Bool)
  deriving DecidableEq, Repr

/-- The error that ended a CAN frame, as ISO 11898-1 names them (R488). -/
inductive CanErr where
  | stuff
  | form
  | ack
  | bit1
  | bit0
  | crc
  deriving DecidableEq, Repr

/-- How a CAN frame ended (R488): complete, `age` × 2^−16 ns after its start of frame; arbitration lost; an error frame, with
whether a dominant bit followed the error flag; a recessive res bit. -/
inductive CanEnd where
  | sent (age : DWord)
  | arbLost
  | error (kind : CanErr) (dominantAfter : Bool)
  | pex
  deriving DecidableEq, Repr

/-- A pad's level, and for how long it has stood, in 0.1 µs (R477). -/
structure PinLevel where
  level : Bool
  held : Nat
  deriving DecidableEq, Repr

/-- A scan of the boundary register: what is latched at its end, and whether it is made under the EXTEST form in force, which has no
row of its own for it, instead of under SAMPLE/PRELOAD (R602; assumption 87). -/
structure BoundaryScan where
  update : Option (BitVec 2624)
  extest : Bool
  deriving DecidableEq, Repr

/-- What a management interface carries as one command (R592): the command code and its data bytes. -/
structure MgmtFrame where
  code : Byte
  data : List Byte
  deriving DecidableEq, Repr

/-- What an END record brings: its payload, and what the frames that the load still has to fill read back as, in the order
of their writes. -/
structure EndData where
  payload : List Byte
  checks : List WriteCheck
  deriving DecidableEq, Repr

/-- The defects that a bank's self-test finds in a slot: how many cells, the first of them in line `line`. -/
structure Defects where
  cells : Nat
  line : Nat
  deriving DecidableEq, Repr

/-- The PERST_N pin of a host port takes a level. -/
structure PerstLevel where
  port : Nat
  level : Bool
  deriving DecidableEq, Repr

/-- The commands. The mnemonics are in LAWS.json. -/
inductive Instr where
  -- start-up
  | powerOnResetRelease (straps : Straps) (cells : StartCells)
  | brownOut (completes : Bool) (unsaved : List Nat)
  | progN (straps : Straps) (cells : StartCells)
  | doneRelease (how : DoneHow)
  | ioEnable (wireHigh : Bool)
  | pinBankEnable (bank : Nat) (vccioOk : Bool) (us : Nat)
  | catalogueLoaded (badUnit : Option Nat)
  | saveUnitErase (unit : Nat)
  | startCountUnitErase (unit : Nat)
  -- configuration port
  | syncSequence (pad : Nat)
  | chainRecord (h : RecHdr) (payload : List Byte)
  | nopRecord (h : RecHdr) (payload : List Byte)
  | regwRecord (h : RecHdr) (payload : List Byte)
  | keyRecord (h : RecHdr) (payload : List Byte)
  | tagRecord (h : RecHdr) (payload : List Byte)
  | pansetRecord (h : RecHdr) (payload : List Byte)
  | framesRecord (h : RecHdr) (payload : List Byte) (checks : List WriteCheck)
  | endRecord (h : RecHdr) (x : EndData)
  | unknownRecord (ty : Byte) (h : RecHdr) (payload : List Byte)
  | foreignRecord (ty : Byte) (h : RecHdr) (payload : List Byte)
  -- staging and commit
  | stagingFrame (lane : Nat) (arrival : Arrival) (check : WriteCheck)
  | passEnd (lane : Nat)
  | qack (pan : Nat)
  | quiesceTimeout (pan : Nat)
  | portDrained (pan : Nat)
  | captureDone (pan : Nat)
  | commitPoint (pan : Nat)
  | recordWordWritten (pan : Nat)
  | planeSwitch (pan : Nat)
  | borderRelease (pan : Nat)
  -- descriptors
  | nop (iss : Issuer) (d : Desc)
  | place (iss : Issuer) (d : Desc)
  | evict (iss : Issuer) (d : Desc)
  | migrate (iss : Issuer) (d : Desc)
  | hint (iss : Issuer) (d : Desc)
  | bind (iss : Issuer) (d : Desc)
  | poolCreate (iss : Issuer) (d : Desc)
  | poolFree (iss : Issuer) (d : Desc)
  | copy (iss : Issuer) (d : Desc)
  | fill (iss : Issuer) (d : Desc)
  | scrub (iss : Issuer) (d : Desc)
  | retire (iss : Issuer) (d : Desc)
  | fliptest (iss : Issuer) (d : Desc)
  | snapshot (iss : Issuer) (d : Desc)
  | storeImage (iss : Issuer) (d : Desc)
  | storeEraseDone (unit : Nat)
  | storeProgramDone (readsBack : Bool)
  | vaultWrite (iss : Issuer) (d : Desc)
  | vaultRead (iss : Issuer) (d : Desc) (readOk : Bool)
  | timeSet (iss : Issuer) (d : Desc)
  | timeAdj (iss : Issuer) (d : Desc)
  | wait (iss : Issuer) (d : Desc)
  | fence (iss : Issuer) (d : Desc)
  | loopback (iss : Issuer) (d : Desc)
  | badOpcode (iss : Issuer) (d : Desc)
  -- the Sluice
  | sluiceRequest (r : SlReq)
  | reqStarvation (router : Nat) (output : Nat)
  | arbitrationStarvation (resource tier rank : Nat)   -- the resource and the starved contender
  | lookup (ingress : Nat)
  | reply (ingress : Nat)
  | inval (router : Nat)
  | reserve (ingress : Nat) (dest : Nat)
  | grant (dest : Nat)
  | slotReturn (ingress : Nat) (dest : Nat)
  | close (pan : Nat) (st : CloseTo)
  | open (pan : Nat)
  | endpointRequest (pan : Nat)
  | endpointResponse (pan : Nat) (itag : Nat) (status : Byte) (data : List Line)
  | responseDelivery (ingress : Nat)
  | domainWakeOnAccess (domain : Nat)
  | domainReady (domain : Nat)
  | resleepTimeout (domain : Nat)
  -- banks
  | bankRequest (bank : Nat)
  | scrubStep (bank : Nat)
  | zeroFillStep (bank : Nat)
  | bankSelftestStep (bank : Nat) (defects : Defects) (badLines : List Nat)
  | recodeStep (bank : Nat)
  | bankCtrlWrite (path : Path) (bank : Nat) (value : Word)
  | flipArm (path : Path) (bank : Nat) (value : Word)
  | clearCe (path : Path) (bank : Nat) (value : Word)
  | clearUe (path : Path) (bank : Nat) (value : Word)
  | bankParityFault (bank : Nat)
  | pageCopyPass (bank : Nat)
  | pageMark (ingress : Nat) (bank : Nat)
  | pageMoveFinish (bank : Nat)
  -- host ports
  | hostLinkUp (port : Nat) (speed : BitVec 3) (width : BitVec 4) (reversed : Bool) (polarity : Byte)
  | hostLinkDown (port : Nat)
  | perstN (pin : PerstLevel)
  | hotReset (port : Nat)
  | functionLevelReset (port : Nat)
  | hostPortParityFault (port : Nat)
  | orphansCleared (port : Nat)
  | sqDoorbell (port sq : Nat) (value : Word)   -- `sq` is the page: 0–15, or 21–255, which serve no ring (R357)
  | cancelDoorbell (port sq : Nat) (value : Word)
  | cqDoorbell (port cq : Nat) (value : Word)
  | eqDoorbell (port : Nat) (value : Word)
  | ringEnable (port ring : Nat) (value : Word)
  | ringDisable (port ring : Nat) (value : Word)
  | hostCtrlEnable (port : Nat) (value : Word)
  | descriptorFetch (port sq : Nat)
  | preread (port sq : Nat)
  | hostReadCompletion (port : Nat) (read : Nat) (result : HostRead)
  | busyRetry (iss : Issuer) (exec : Nat)
  | busyWindowExpiry (iss : Issuer) (exec : Nat)
  | msixHoldoffExpiry (port ring : Nat)
  | msixUnmask (port vector : Nat)             -- a vector, or 64 for the function mask
  -- background services
  | marginCheck (lowMargin : Bool) (failsNormal : Bool)
  | signatureCheck (badFrame : Option Nat)
  | deferredVerify (badFrame : Option Nat)
  | panSelftestDone (defect : Option (Nat × Nat))
  | wearSizeWrite (path : Path) (value : Word)
  | telemetrySample (temps : List (BitVec 16)) (volts : List (BitVec 16)) (vccioOk : BitVec 16)
  | teleClear (path : Path) (value : Word)
  | teleRec0Read (path : Path)
  -- power
  | pfwReturnTimeout (straps : Straps) (cells : StartCells)
  | unitStopAccept (unit : Nat)
  | unitStopRefuse (unit : Nat)
  | wakeEvent (code : BitVec 4) (unit : Nat) (straps : Straps) (cells : StartCells)
  | wakeComplete (asleepUs : Nat)
  -- clocks
  | pllLossOfLock (pll : Nat)
  | pllRelock (pll : Nat)
  | clkMeasStart (path : Path) (value : Word)
  | clkMeasDone (count : Nat)
  -- time
  | ppsEdge (backHalfNs : Nat)
  | alarmArm (path : Path) (value : Word)
  | timeIncFracWrite (path : Path) (value : Word)
  | timeCtrlWrite (path : Path) (value : Word)
  | timeSecLoRead (path : Path)
  | deepEntryC0 (coarse : BitVec 48)
  | wakeReloadC1 (coarse : BitVec 48)
  -- link ports
  | linkTrainStart (port : Nat) (signal : BitVec 4)
  | pcsLinkUp (port : Nat) (partner : Word)
  | pcsLinkLost (port : Nat) (cause : LinkCause)
  | hello (port : Nat) (h : Hello)
  | helloSend (port : Nat)
  | helloMissing (port : Nat)
  | trainTimeout (port : Nat)
  | breraLinkLost (port : Nat) (cause : LinkCause)
  | breraPacket (port : Nat) (p : Packet)
  | nak (port : Nat) (seq : BitVec 12)
  | linkIdleBlock (port : Nat) (ack : BitVec 12) (ackValid : Bool) (rspCredits reqCredits : Byte)
  | ackTimeout (port : Nat)
  | xidTimeout (port : Nat) (entry : Nat)
  | xidQuarantineEnd (port : Nat) (entry : Nat)
  | relayBlock (port : Nat) (state : Bool)
  | sysStart (atPps : Bool)
  | sleepBlock (port : Nat) (kind : SleepKind)
  | sleepAnswerTimeout (port : Nat)
  | signalLost (port : Nat)
  | rxLine (port : Nat) (words : List DWord) (ctrl : List Byte) (fec : FecCount) (age : Word)
  | txLinePull (port : Nat)
  | txUnderrun (port : Nat)
  | linkParityFault (port : Nat)
  | routeTableWrite (path : Path) (port : Nat) (value : Word)
  -- field ports
  | fportStart (port : Nat)
  | uartRxCharacter (port : Nat) (ch : BitVec 9) (parityBit stopBit stop2Bit : Bool)
  | uartTxCharacter (port : Nat)
  | spiByte (port : Nat) (byteIn : Byte)
  | spiCsEnd (port : Nat)
  | i2cByte (port : Nat) (byteIn : Byte) (ended : I2cEnd) (first : Bool) (readReq : Bool) (stopped : Bool)
  | i2cStretchTimeout (port : Nat)
  | canRxFrame (port : Nat) (words : List Word) (ended : CanEnd)
  | canTxFrame (port : Nat) (ended : CanEnd)
  | canBusOff (port : Nat)
  | fportParityFault (port : Nat)
  | fportTxdataWrite (path : Path) (port : Nat) (value : Word)
  | fportRxdataRead (path : Path) (port : Nat)
  | fieldChannelTx (pan : Nat) (channel : Nat) (value : Word)
  -- pins
  | pinSelWrite (path : Path) (pin : Nat) (value : Word)
  | pinEdge (pin : Nat) (level : PinLevel)
  | pinBankParityFault (bank : Nat)
  -- pan registers and fuses
  | panGsrWrite (path : Path) (pan : Nat) (value : Word)
  | userGsrWire (pan : Nat) (level : Bool)
  | fuseNarrow (path : Path) (value : Word)
  | fuseProgram (via : MgmtIf) (word : BitVec 16) (mask : Word)
  | fuseLock (via : MgmtIf) (lock : Byte)
  | fuseRollback (via : MgmtIf) (value : BitVec 16)
  -- management path
  | mirrorRead (via : MgmtIf) (unit : BitVec 16)
  | unitCmdStop (via : MgmtIf) (unit : BitVec 16) (epoch : BitVec 16) (param : Byte)
  | unitCmdStart (via : MgmtIf) (unit : BitVec 16) (epoch : BitVec 16) (param : Byte)
  | unitCmdRecover (via : MgmtIf) (unit : BitVec 16) (epoch : BitVec 16) (param : Byte)
  | unitCmdRetire (via : MgmtIf) (unit : BitVec 16) (epoch : BitVec 16) (param : Byte)
  | unitCmdReturn (via : MgmtIf) (unit : BitVec 16) (epoch : BitVec 16) (param : Byte)
  | unitCmdLoop (via : MgmtIf) (unit : BitVec 16) (epoch : BitVec 16) (param : Byte)
  | rdbkStart (via : MgmtIf) (kind : Byte) (plane : Byte) (target : Word)
  | rdbkData (via : MgmtIf)
  | descSubmit (via : MgmtIf) (d : Desc)
  | descResult (via : MgmtIf)
  | bufWrite (via : MgmtIf) (offset : BitVec 16) (bytes : List Byte)
  | bufRead (via : MgmtIf) (offset : BitVec 16) (length : Byte)
  | regRead (by_ : RegReader) (offset : Word)
  | regWrite (via : MgmtIf) (offset : Word) (value : Word)
  | smbusBadCommand (code : Byte) (pec : Pec)
  | jtagSamplePreload (scan : BoundaryScan) (pads : BitVec 2624)
  | jtagMgmtAccess (frame : MgmtFrame)
  | jtagRdbkStream (bits : Nat)
  | jtagBypass (ir : Byte)
  | bistStart (path : Path) (value : Word)
  | prbsEnable (path : Path) (value : Word)
  -- reads that clear or snapshot
  | hostDropCountRead (path : Path) (port : Nat)
  | hostEqLostRead (path : Path) (port : Nat)
  | hostLostCplRead (path : Path) (port : Nat)
  | linkFecCeRead (path : Path) (port : Nat)
  | linkFecUeRead (path : Path) (port : Nat)
  | linkReplayRead (path : Path) (port : Nat)
  | linkDropRead (path : Path) (port : Nat)
  | fportCountRead (path : Path) (port : Nat)
  | mgmtCountRead (path : Path)
  | testCfgCountRead (path : Path)
  | cfgPassCountRead (path : Path)
  | cfgFramesRead (path : Path)
  | glbUptimeLoRead (path : Path)
  | registerWrite (path : Path) (space : Space) (offset : Word) (value : Word)
  -- fabric and faults
  | userClockEdge (pan : Nat) (edges : List (Nat × Bool))
  | laneParityFault (lane : Nat)
  | managementParityFault (via : MgmtIf)
  | quadPllLossOfLock (quad : Nat)
  | fuseBitVerified (via : MgmtIf) (verifies : Bool)
  -- commands without operands
  | vaultIndexBuilt
  | cfgTimeout
  | passStart
  | prestageStart
  | vaultCompaction
  | timeSetPpsTimeout
  | slewEnd
  | invalAck
  | calibration
  | panSelftestStart
  | tokenRefill
  | activityWindowEnd
  | pfwAssert
  | pfwReturn
  | pwrStopTimeout
  | lfCrystalTimeout
  | ppsLost
  | refLost
  | refReturn
  | coarseCalibration
  | holdoverTick
  | ppsOutPulse
  | ppsOutFall
  | alarmFire
  | timeUnitParityFault
  | relaySend
  | smbusSclTimeout
  | jtagIdcode
  | jtagExtest
  | jtagClamp
  | jtagHighz
  | jtagExtestPulse
  | jtagExtestTrain
  | jtagInstructionExit
  | deviceParityFault
  | rakeParityFault
  | portControllerParityFault
  | storeParityFault
  deriving DecidableEq, Repr

end Sys2Proof
end

