-- ==== Sys2Proof/Decode.lean ====
section
/-! DEFINITION. The table of the spec gives none of its rows any bits: the commands are events and accesses, not words.
So no word spells a command. -/

namespace Sys2Proof

/-- The command a word spells by the table's bits: none, since no row gives bits. -/
def decodeTableWord (_nbits _w : Nat) : Option Instr := none

end Sys2Proof
end

