-- ==== Sys2Proof/Machine/Tab.lean ====
section
/-! DEFINITION. Sparse tables: a list of (key, value) pairs, keys strictly rising, no entry equal to what an unlisted
key reads as. Every array of units, memory or register bank of State is one, so equal arrays are equal data. -/

namespace Sys2Proof.Machine

/-- A sparse array: unlisted keys read as a default that the accessors name. -/
abbrev Tab (α : Type) := List (Nat × α)

/-- The value at key `i`, `d` where no entry lists it. -/
def Tab.get {α : Type} (d : α) : Tab α → Nat → α
  | [], _ => d
  | (k, v) :: t, i => if i = k then v else Tab.get d t i

/-- Put `v` at key `i` in key order, replacing what stands there. -/
def Tab.put {α : Type} : Tab α → Nat → α → Tab α
  | [], i, v => [(i, v)]
  | (k, w) :: t, i, v =>
    if i = k then (i, v) :: t
    else if i < k then (i, v) :: (k, w) :: t
    else (k, w) :: Tab.put t i v

/-- Remove the entry at key `i`. -/
def Tab.del {α : Type} (t : Tab α) (i : Nat) : Tab α := t.filter fun e => decide (e.1 ≠ i)

/-- Write `v` at key `i`: writing the default removes the entry. -/
def Tab.set {α : Type} [DecidableEq α] (d : α) (t : Tab α) (i : Nat) (v : α) : Tab α :=
  if v = d then t.del i else t.put i v

/-- Change the value at key `i` by `f`. -/
def Tab.modify {α : Type} [DecidableEq α] (d : α) (t : Tab α) (i : Nat) (f : α → α) : Tab α :=
  t.set d i (f (t.get d i))

/-- Write the values of a list at consecutive keys. -/
def Tab.setList {α : Type} [DecidableEq α] (d : α) : Tab α → Nat → List α → Tab α
  | t, _, [] => t
  | t, i, v :: vs => Tab.setList d (t.set d i v) (i + 1) vs

/-- Read `n` consecutive keys from `i`. -/
def Tab.getList {α : Type} (d : α) (t : Tab α) (i : Nat) : Nat → List α
  | 0 => []
  | n + 1 => t.get d i :: Tab.getList d t (i + 1) n

/-- The entries whose key satisfies `p`. -/
def Tab.keep {α : Type} (p : Nat → Bool) (t : Tab α) : Tab α := t.filter fun e => p e.1

/-- Every key of the tail is above `k` (helper of `Tab.wf`). -/
def Tab.above {α : Type} (k : Nat) : Tab α → Bool
  | [] => true
  | (j, _) :: t => decide (k < j) && Tab.above k t

/-- The canonical form: keys strictly rising, no entry equal to the default. -/
def Tab.wf {α : Type} [DecidableEq α] (d : α) : Tab α → Bool
  | [] => true
  | (k, v) :: t => decide (v ≠ d) && Tab.above k t && Tab.wf d t

end Sys2Proof.Machine
end

