-- ==== Sys2Proof/Machine/Bits.lean ====
section
/-! DEFINITION. Bit fields, byte order and small arithmetic over words. Multi-byte fields are little-endian (R9). -/

namespace Sys2Proof.Machine

/-- `n` bits of a natural number from bit `lo`. -/
def nfld (x lo n : Nat) : Nat := (x >>> lo) % 2 ^ n

/-- Field [lo+n−1:lo] of a register. -/
def fld (w : Word) (lo n : Nat) : Nat := nfld w.toNat lo n

/-- Bit `i` of a register. -/
def bit (w : Word) (i : Nat) : Bool := w.getLsbD i

/-- 1 or 0. -/
def b2n (b : Bool) : Nat := if b then 1 else 0

/-- A register from its fields: (value, low bit, width). -/
def pack (fs : List (Nat × Nat × Nat)) : Word :=
  BitVec.ofNat 32 (fs.foldl (fun a f => a + (f.1 % 2 ^ f.2.2) * 2 ^ f.2.1) 0)

/-- A 64-bit value from its fields. -/
def pack64 (fs : List (Nat × Nat × Nat)) : DWord :=
  BitVec.ofNat 64 (fs.foldl (fun a f => a + (f.1 % 2 ^ f.2.2) * 2 ^ f.2.1) 0)

/-- Write field [lo+n−1:lo] of a register. -/
def setFld (w : Word) (lo n v : Nat) : Word :=
  let mask : Nat := (2 ^ n - 1) * 2 ^ lo
  BitVec.ofNat 32 ((w.toNat - (w.toNat &&& mask)) + (v % 2 ^ n) * 2 ^ lo)

/-- Write bit `i` of a register. -/
def setBit (w : Word) (i : Nat) (b : Bool) : Word := setFld w i 1 (b2n b)

/-- Keep the bits of `mask` from `new`, the others from `old`: a write of RW fields (R10). -/
def merge {n : Nat} (mask old new : BitVec n) : BitVec n := (old &&& ~~~mask) ||| (new &&& mask)

/-- Add to a counter that saturates (R11). -/
def satAdd {n : Nat} (x : BitVec n) (k : Nat) : BitVec n :=
  if x.toNat + k ≥ 2 ^ n then BitVec.allOnes n else BitVec.ofNat n (x.toNat + k)

/-- Add one to a counter that saturates. -/
def satInc {n : Nat} (x : BitVec n) : BitVec n := satAdd x 1

/-- The `n` bytes of a number, least significant first. -/
def leBytes (n x : Nat) : List Byte :=
  match n with
  | 0 => []
  | n + 1 => BitVec.ofNat 8 x :: leBytes n (x / 256)

/-- The `n` bytes of a number, most significant first. -/
def beBytes (n x : Nat) : List Byte := (leBytes n x).reverse

/-- The number that bytes spell, least significant first. -/
def ofLe : List Byte → Nat
  | [] => 0
  | b :: bs => b.toNat + 256 * ofLe bs

/-- The number that bytes spell, most significant first. -/
def ofBe (bs : List Byte) : Nat := ofLe bs.reverse

/-- `n` bytes of a list from offset `o`, 0 past its end. -/
def slice (bs : List Byte) (o n : Nat) : List Byte :=
  let s := (bs.drop o).take n
  s ++ List.replicate (n - s.length) 0

/-- A little-endian field of `n` bytes at offset `o`. -/
def leAt (bs : List Byte) (o n : Nat) : Nat := ofLe (slice bs o n)

/-- A little-endian 32-bit word at offset `o`. -/
def wordAt (bs : List Byte) (o : Nat) : Word := BitVec.ofNat 32 (leAt bs o 4)

/-- Word `i` of a descriptor (R389). -/
def dword (d : Desc) (i : Nat) : Word := BitVec.ofNat 32 (d.toNat >>> (32 * i))

/-- Words `i` and `i+1` of a descriptor as one 64-bit value. -/
def dqword (d : Desc) (i : Nat) : DWord := BitVec.ofNat 64 (d.toNat >>> (32 * i))

/-- The bytes of a line, byte 0 first (R297). -/
def lineBytes (l : Line) : List Byte := leBytes 64 l.toNat

/-- A line from its bytes. -/
def lineOf (bs : List Byte) : Line := BitVec.ofNat 512 (ofLe (bs.take 64))

/-- The lowest element of a list by a key, the earliest on a tie. -/
def argMin {α : Type} (f : α → Int) : List α → Option α
  | [] => none
  | x :: xs =>
    match argMin f xs with
    | none => some x
    | some y => if f y < f x then some y else some x

/-- Division that rounds up. -/
def ceilDiv (a b : Nat) : Nat := (a + b - 1) / b

/-- The first index below `n` that satisfies `p`. -/
def firstBelow (n : Nat) (p : Nat → Bool) : Option Nat := (List.range n).find? p

/-- Apply a state change for each element, in order. -/
def foldS {σ α : Type} (f : σ → α → σ) (s : σ) (l : List α) : σ := l.foldl f s

/-- The signed value of a number of `n` bits. -/
def toSigned (n x : Nat) : Int := if x % 2 ^ n ≥ 2 ^ (n - 1) then (x % 2 ^ n : Nat) - (2 ^ n : Nat) else (x % 2 ^ n : Nat)

/-- A signed number clamped to 32 bits. -/
def satS32 (x : Int) : Word :=
  if x ≥ 2 ^ 31 then 0x7FFFFFFF else if x < -(2 ^ 31) then 0x80000000 else BitVec.ofInt 32 x

/-- A signed number clamped to 64 bits. -/
def satS64 (x : Int) : DWord :=
  if x ≥ 2 ^ 63 then 0x7FFFFFFFFFFFFFFF else if x < -(2 ^ 63) then 0x8000000000000000 else BitVec.ofInt 64 x

/-- A number clamped to 32 bits. -/
def satU32 (x : Nat) : Word := if x ≥ 2 ^ 32 then 0xFFFFFFFF else BitVec.ofNat 32 x

end Sys2Proof.Machine
end

