-- ==== Sys2Proof/Machine/Bch.lean ====
section
/-! DEFINITION. The page code: a binary BCH code over GF(2^16) (R300, R301, R303). Polynomials over GF(2) are natural
numbers, bit i the coefficient of x^i. Check bit j stands at x^j and data bit i at x^(16t + i) (assumption 12). -/

namespace Sys2Proof.Machine

/-- The field polynomial x^16 + x^12 + x^3 + x + 1 without its top bit (R300). -/
def gfPoly : Nat := 0x100B

/-- Multiply by α. -/
def gfTimesA (a : Nat) : Nat := if a ≥ 0x8000 then ((a * 2) % 0x10000) ^^^ gfPoly else a * 2

/-- Product in GF(2^16). -/
def gfMul (a b : Nat) : Nat :=
  ((List.range 16).foldl (fun (s : Nat × Nat) i => (if b.testBit i then s.1 ^^^ s.2 else s.1, gfTimesA s.2)) (0, a)).1

/-- Power by squaring over 16 bits of exponent. -/
def gfPow (a e : Nat) : Nat :=
  ((List.range 16).foldl (fun (s : Nat × Nat) i => (if e.testBit i then gfMul s.1 s.2 else s.1, gfMul s.2 s.2)) (1, a)).1

/-- Inverse: the (2^16 − 2)th power. -/
def gfInv (a : Nat) : Nat := gfPow a 0xFFFE

/-- Multiply a polynomial with coefficients in GF(2^16), lowest first, by (x + r). -/
def gfTimesLinear (p : List Nat) (r : Nat) : List Nat :=
  List.zipWith (· ^^^ ·) (0 :: p) (p.map (gfMul r) ++ [0])

/-- The minimal polynomial of α^i, as a polynomial over GF(2). -/
def minPoly (i : Nat) : Nat :=
  let cs := ((List.range 16).foldl (fun (s : List Nat × Nat) _ => (gfTimesLinear s.1 s.2, gfMul s.2 s.2)) ([1], gfPow 2 i)).1
  cs.foldr (fun c a => a * 2 + c % 2) 0

/-- Product of polynomials over GF(2), the second of at most `n` bits. -/
def clMul (n a b : Nat) : Nat := (List.range n).foldl (fun s i => if b.testBit i then s ^^^ (a <<< i) else s) 0

/-- Remainder of a polynomial of fewer than `n + deg` bits modulo `g` of degree `deg`. -/
def clMod (g deg n a : Nat) : Nat :=
  (List.range n).foldl (fun s i => if s.testBit (deg + n - 1 - i) then s ^^^ (g <<< (n - 1 - i)) else s) a

/-- The generator for strength `t`: the minimal polynomials of α, α^3, …, α^(2t−1), all distinct and of degree 16. -/
def bchGen (t : Nat) : Nat := (List.range t).foldl (fun g i => clMul 17 g (minPoly (2 * i + 1))) 1

/-- Product modulo the generator. -/
def bchMulMod (g deg a b : Nat) : Nat := clMod g deg deg (clMul deg a b)

/-- x^e modulo the generator, for e below 2^16. -/
def bchXpow (g deg e : Nat) : Nat :=
  ((List.range 16).foldl (fun (s : Nat × Nat) i => (if e.testBit i then bchMulMod g deg s.1 s.2 else s.1, bchMulMod g deg s.2 s.2)) (1, 2)).1

/-- Errors a strength corrects (R301). -/
def strength (t : BitVec 2) : Nat := match t.toNat with | 0 => 0 | 1 => 8 | 2 => 16 | _ => 32

/-- The check bits' contribution of the bits `diff` of line `n` at strength `t` (R302). -/
def lineCheck (t : BitVec 2) (n : Nat) (diff : Line) : BitVec 512 :=
  let k := strength t
  if k = 0 ∨ diff = 0 then 0
  else
    let deg := 16 * k
    let g := bchGen k
    BitVec.ofNat 512 (bchMulMod g deg (clMod g deg 512 diff.toNat) (bchXpow g deg (deg + 512 * n)))

/-- The check bits of a page's lines at strength `t`. -/
def pageCheck (t : BitVec 2) (ls : List Line) : BitVec 512 :=
  (ls.foldl (fun (s : Nat × BitVec 512) l => (s.1 + 1, s.2 ^^^ lineCheck t s.1 l)) (0, 0)).2

/-- Evaluate a polynomial over GF(2), of `n` bits, at `x`. -/
def evalBits (n p x : Nat) : Nat :=
  (List.range n).foldl (fun s i => gfMul s x ^^^ (if p.testBit (n - 1 - i) then 1 else 0)) 0

/-- Evaluate a polynomial with coefficients in GF(2^16), lowest first. -/
def evalGf (p : List Nat) (x : Nat) : Nat := p.foldr (fun c s => gfMul s x ^^^ c) 0

/-- State of the search for the error locator: locator, previous locator, its discrepancy, length, gap. -/
structure Locator where
  c : List Nat
  b : List Nat
  bd : Nat
  l : Nat
  m : Nat
  deriving DecidableEq, Repr

/-- c + k·x^m·b. -/
def gfAddShift (c b : List Nat) (k m : Nat) : List Nat :=
  let s := List.replicate m 0 ++ b.map (gfMul k)
  let n := max c.length s.length
  List.zipWith (· ^^^ ·) (c ++ List.replicate (n - c.length) 0) (s ++ List.replicate (n - s.length) 0)

/-- One step of the search, with the syndromes from index `i` backwards. -/
def locStep (s : Locator) (i : Nat) (rev : List Nat) : Locator :=
  let d := (List.zipWith gfMul s.c rev).foldl (· ^^^ ·) 0
  if d = 0 then { s with m := s.m + 1 }
  else
    let c' := gfAddShift s.c s.b (gfMul d (gfInv s.bd)) s.m
    if 2 * s.l ≤ i then { c := c', b := s.c, bd := d, l := i + 1 - s.l, m := 1 }
    else { s with c := c', m := s.m + 1 }

/-- The error locator of a list of syndromes. -/
def locator (syn : List Nat) : Locator :=
  ((syn.foldl (fun (a : Locator × Nat × List Nat) x => (locStep a.1 a.2.1 (x :: a.2.2), a.2.1 + 1, x :: a.2.2))
    ({ c := [1], b := [1], bd := 1, l := 0, m := 1 }, 0, [])).1)

/-- The error positions that a page's difference from a codeword gives, or none when more than `t` errors are present
(R303). `rem` is the stored check bits plus the check bits computed from the data. -/
def bchErrors (t : BitVec 2) (rem : BitVec 512) : Option (List Nat) :=
  let k := strength t
  if k = 0 then none
  else if rem = 0 then some []
  else
    let deg := 16 * k
    let syn := (List.range (2 * k)).map fun j => evalBits deg rem.toNat (gfPow 2 (j + 1))
    let loc := locator syn
    if loc.l > k then none
    else
      let n := 32768 + deg
      let pos := ((List.range n).foldl (fun (s : List Nat × Nat) p =>
        (if evalGf loc.c s.2 = 0 then p :: s.1 else s.1, gfMul s.2 (gfInv 2))) ([], 1)).1.reverse
      if pos.length = loc.l then some pos else none

end Sys2Proof.Machine
end

