-- ==== Sys2Proof/Machine/Crc.lean ====
section
/-! DEFINITION. The checks of the device: CRC-32C (R120, R123, R299) and CRC-64 (R135). -/

namespace Sys2Proof.Machine

/-- One bit of the reflected CRC-32C register (polynomial 0x1EDC6F41, reflected 0x82F63B78). -/
def crc32cBit (c : BitVec 32) : BitVec 32 := if c.getLsbD 0 then (c >>> 1) ^^^ 0x82F63B78#32 else c >>> 1

/-- One byte into the register. -/
def crc32cByte (c : BitVec 32) (b : Byte) : BitVec 32 :=
  (List.range 8).foldl (fun a _ => crc32cBit a) (c ^^^ b.setWidth 32)

/-- CRC-32C of bytes: initial value and final XOR 0xFFFFFFFF (R120). -/
def crc32c (bs : List Byte) : Word := bs.foldl crc32cByte 0xFFFFFFFF#32 ^^^ 0xFFFFFFFF#32

/-- The frame check: the 512 data bytes, the minor and the column (R120). -/
def frameCheck (data : FrameBits) (minor column : Nat) : Word :=
  crc32c (leBytes 512 data.toNat ++ [BitVec.ofNat 8 minor, BitVec.ofNat 8 column])

/-- One byte into the CRC-64 register, most significant bit first (R135). -/
def crc64Byte (c : BitVec 64) (b : Byte) : BitVec 64 :=
  (List.range 8).foldl (fun (a : BitVec 64) _ => if a.getLsbD 63 then (a <<< 1) ^^^ 0x42F0E1EBA9EA3693#64 else a <<< 1)
    (c ^^^ (b.setWidth 64 <<< 56))

/-- The golden signature over frame checks, each 4 bytes least significant first (R135). -/
def signature (checks : List Word) : DWord :=
  checks.foldl (fun c w => (leBytes 4 w.toNat).foldl crc64Byte c) 0

/-- One byte into the CRC-32 register of an Ethernet frame check sequence, reflected. -/
def fcsByte (c : BitVec 32) (b : Byte) : BitVec 32 :=
  (List.range 8).foldl (fun (a : BitVec 32) _ => if a.getLsbD 0 then (a >>> 1) ^^^ 0xEDB88320#32 else a >>> 1) (c ^^^ b.setWidth 32)

/-- The frame check sequence that R434 rewrites. The spec names the FCS of IEEE 802.3; its polynomial is PRESUMED from
that standard (assumption 51). -/
def fcs (bs : List Byte) : Word := bs.foldl fcsByte 0xFFFFFFFF#32 ^^^ 0xFFFFFFFF#32

end Sys2Proof.Machine
end

