-- ==== Sys2Proof/Machine/StFabric.lean ====
section
/-! DEFINITION. The state types of a pan's fabric (chapters "Pans, Product-Term Blocks and Macrocells" and "Pipelined
Interconnect and Pan Borders"): what its configuration frames select, and what it holds while it runs. -/

namespace Sys2Proof.Machine

/-- What drives a wire, an input or a control of the fabric. Every wire but the shared bus wires has one driver (R90).
Macrocells are named by their pan macrocell index (R50). -/
inductive Src where
  | zero
  | one
  | seg (id : Nat)                         -- a routing segment, numbered as `segOf` reads it (R91)
  | bus (row wire : Nat)                   -- a shared bus wire read by a block of its row (R99)
  | out (mc : Nat)                         -- OUT of a macrocell (R62)
  | fb (mc : Nat)                          -- FB of a macrocell (R62)
  | border (edge port : Nat)               -- an inward border port (R106)
  | ramQ (ram port bit : Nat)              -- a fabric RAM output (R80)
  | macP (unit bit : Nat)                  -- P of a multiply-add unit (R85)
  | macLow (unit bit : Nat)                -- LOWOUT (R85)
  | macOvf (unit : Nat)                    -- OVF (R88)
  | pinIn (slot : Nat)                     -- pin port input slot (R475)
  | qreq                                   -- the quiesce request wire (R223)
  | chan (c bit : Nat)                     -- field channel c: 0–31 the oldest RX entry, 32 its VALID, 33 READY of TX (R475)
  | sysStart                               -- SYS_START behind its synchroniser (R453)
  deriving DecidableEq, Repr, Inhabited

/-- A clock input: a spine clock 0–15, or none. -/
abbrev ClkSel := Option Nat

/-- The 30 unpublished bits of a macrocell, decoded (R57, R58, R60–R65). INIT and PERSIST are published (R67). -/
structure MacroCfg where
  xorSel : Nat := 0        -- R60
  mode : Nat := 4          -- R61
  outQ : Bool := false     -- OUT selects Q (R62)
  fbQ : Bool := false      -- FB selects Q (R62)
  clkSel : Nat := 3        -- R63: 0 BCLK0, 1 BCLK1, 2 PTCLK, 3 NONE
  clkFall : Bool := false  -- falling edge, or low level transparent
  ceSel : Nat := 0         -- R64
  srKind : Nat := 0        -- R65
  srSrc : Nat := 3         -- R65
  cptTaken : Bool := false -- product term 4m+3 withdrawn although no role uses it (R57)
  cascade : Bool := false  -- sends its sum down (R58)
  send : Option Int := some 0 -- the OR that cluster m feeds, as an offset from m (R55, R56); none: no OR
  deriving DecidableEq, Repr, Inhabited

/-- The wire clock of a switch point (R94). -/
inductive WireClk where
  | none
  | spine (c : Nat)
  | bclk0
  deriving DecidableEq, Repr, Inhabited

/-- A routing segment: its driver, the tap of a pan-long wire, and whether its wire register is enabled (R91, R94). -/
structure SegCfg where
  drv : Src := .zero
  tap : Nat := 0           -- PH: logic column, PV: row of the driving tap
  reg : Bool := false
  deriving DecidableEq, Repr, Inhabited

/-- The local routing of one block and its switch point: bits 2,560–4,095 of minor 2b + 1 (R51). -/
structure LocalCfg where
  inputs : Tab Src := []              -- 48 inputs (R53); unlisted ZERO
  bclk0 : ClkSel := none
  bclk1 : ClkSel := none
  bce0 : Option Nat := none           -- input that drives it (R64)
  bce1 : Option Nat := none
  bsr0 : Option Nat := none
  bsr1 : Option Nat := none
  wireClk : WireClk := .none
  segs : Tab SegCfg := []             -- segments that start here: 56·direction + number (R91)
  ph : Tab SegCfg := []               -- PH wires of the row that are driven here
  pv : Tab SegCfg := []               -- PV wires of the column that are driven here
  busEn : Tab Nat := []               -- bus wire w of the row → enable select of this position (R100)
  deriving DecidableEq, Repr, Inhabited

/-- A PT block: the inputs, the array bits (product term → connected columns), the block controls, the macrocells. -/
structure BlockCfg where
  inputs : Tab Src := []              -- 48 inputs (R53); unlisted ZERO
  terms : Tab (List Nat) := []        -- product term 0–63 → columns connected (R53)
  bclk0 : ClkSel := none
  bclk1 : ClkSel := none
  bce0 : Option Nat := none           -- input that drives it (R64)
  bce1 : Option Nat := none
  bsr0 : Option Nat := none
  bsr1 : Option Nat := none
  wireClk : WireClk := .none          -- of the wire registers of its switch point (R94)
  ptoe : List Nat := []               -- macrocells whose control term enables a bus driver (R100)
  cells : Tab MacroCfg := []
  deriving DecidableEq, Repr, Inhabited

/-- One port of a fabric RAM block (R79, R80). -/
structure RamPortCfg where
  width : Nat := 7
  wmode : Nat := 0
  outReg : Bool := false
  clk : ClkSel := none
  clkFall : Bool := false
  en : Src := .zero
  we : Src := .zero
  be : List Src := []
  addr : List Src := []
  data : List Src := []
  deriving DecidableEq, Repr, Inhabited

/-- A fabric RAM block: 0 TDP, 1 SDP, 2 ROM (R79). -/
structure RamCfg where
  mode : Nat := 2
  a : RamPortCfg := {}
  b : RamPortCfg := {}
  deriving DecidableEq, Repr, Inhabited

/-- A multiply-add unit (R85–R89). -/
structure MacCfg where
  opFixed : Option (BitVec 3) := some 0
  opSrc : List Src := []
  shift : Nat := 1
  regIn : Bool := false
  regMul : Bool := false
  regOut : Bool := false
  sat : Bool := false
  clk : ClkSel := none
  clkFall : Bool := false
  ce : Src := .one
  rst : Src := .zero
  a : List Src := []
  b : List Src := []
  c : List Src := []
  deriving DecidableEq, Repr, Inhabited

/-- A border port's options (R108). -/
structure BorderCfg where
  drv : Src := .zero       -- outward: what drives it
  mode : Nat := 0          -- OUT_* or IN_*
  outReg : Bool := false
  clk : ClkSel := none
  inDefault : Bool := false
  deriving DecidableEq, Repr, Inhabited

/-- A pin slot of the pin port (R475): what drives its output and its output enable. -/
structure PinPortCfg where
  out : Src := .zero
  oe : Src := .zero
  deriving DecidableEq, Repr, Inhabited

/-- What the frames of a border/clock column select (R51, R72, R102, R108, R223, R475). -/
structure BorderColCfg where
  borders : Tab BorderCfg := []       -- edge·256 + port
  busClk : Tab ClkSel := []           -- row → bus sample clock (R102)
  pinPort : Tab PinPortCfg := []      -- pin slot 0–47
  pinClk : ClkSel := none             -- pin port clock (R475)
  userGsr : Option Src := none        -- the user GSR wire, in column 0 (R72)
  qack : Option Src := none           -- the wire that QACK is taken from (R223)
  chanReady : Tab (Option Src) := []  -- field channel → READY of RX; none: always ready (R475)
  startClk : ClkSel := none           -- clock of the SYS_START synchroniser; none: SYS_START is not selected (R453)
  spine : Tab (Option Nat) := []      -- spine clock → output 4·(k − 3) + j of PLL k, or clock pin from 52 (R110, R115, R539)
  deriving DecidableEq, Repr, Inhabited

/-- What the frames of a pan's plane select. -/
structure FabricCfg where
  blocks : Tab BlockCfg := []         -- 32·L + row
  segs : Tab SegCfg := []             -- by segment number
  busEn : Tab Nat := []               -- (row·16 + wire)·64 + L → enable select (R100)
  busClk : Tab ClkSel := []           -- row → bus sample clock (R102)
  rams : Tab RamCfg := []             -- pan RAM index (R50)
  macs : Tab MacCfg := []             -- pan unit index (R50)
  borders : Tab BorderCfg := []       -- edge·256 + port
  pinPort : Tab PinPortCfg := []      -- pin slot 0–47
  userGsr : Option Src := none        -- the user GSR wire (R72)
  qack : Option Src := none           -- the QACK wire (R223)
  chanReady : Tab (Option Src) := []  -- READY of the RX field channels (R475)
  startClk : ClkSel := none           -- clock of the SYS_START synchroniser (R453)
  pinClk : ClkSel := none             -- pin port clock (R475)
  spine : Tab (Option Nat) := []      -- source of each spine clock (R110)
  deriving DecidableEq, Repr, Inhabited

/-- The registers of a multiply-add unit: the input stage, the multiply stage and the output stage (R86). -/
structure MacRegs where
  a : BitVec 27 := 0
  b : BitVec 18 := 0
  c : BitVec 48 := 0
  op : BitVec 3 := 0
  mprod : BitVec 48 := 0
  mc : BitVec 48 := 0
  mop : BitVec 3 := 0
  p : BitVec 48 := 0
  low : BitVec 26 := 0
  ovf : Bool := false
  deriving DecidableEq, Repr, Inhabited

/-- What a pan's fabric holds while it runs (R61–R66, R71, R80, R85, R94, R103, R108). -/
structure Fabric where
  q : Tab Bool := []                 -- storage elements by pan macrocell index
  init : Tab (Option Bool) := []     -- restored values that stand for INIT under GSR (R70, R74)
  clkLevel : Tab Bool := []          -- level of each spine clock, for latches
  pt : Tab Bool := []                -- last level of each control product term, for PTCLK edges (R63)
  wire : Tab Bool := []              -- wire registers by segment (R94)
  keep : Tab Bool := []              -- bus keepers, row·16 + wire (R103)
  ram : Tab (BitVec 36) := []        -- ×36 words, 1024·ram + word (R83)
  ramLatch : Tab (BitVec 72) := []   -- read latch, 2·ram + port (R80)
  ramOut : Tab (BitVec 72) := []     -- output register, 2·ram + port
  mac : Tab MacRegs := []
  bOut : Tab Bool := []              -- outward border registers, edge·256 + port
  bIn : Tab (BitVec 3) := []         -- inward register or synchroniser stages, edge·256 + port
  bHold : Tab Bool := []             -- OUT_HOLD values kept by a clamp (R109)
  gsrSeen : Tab Nat := []            -- active edges since GSR was released, up to 3: 2·clock + falling, 32 + macrocell for PTCLK (R70)
  holdSeen : Tab Nat := []           -- the same for hold (R71)
  pinOut : Tab (BitVec 2) := []      -- pin port outputs: bit 0 data, bit 1 enable (R475)
  pinIn : Tab Bool := []             -- pin port inputs as the crossbar gives them
  start : BitVec 3 := 0              -- stages of the SYS_START synchroniser, the last is bit 2 (R453)
  userGsr : Bool := false            -- level of the user GSR wire
  qreq : Bool := false               -- QREQ on its routing wire (R223)
  deriving DecidableEq, Repr, Inhabited

/-- Sluice port states of a pan (R283). -/
inductive PortSt where
  | opened
  | held
  | refusing
  | empty
  deriving DecidableEq, Repr, Inhabited

/-- A pan: its fabric, the registers of the PAN block, its GSR and hold sources, borders, gang and pin handover. -/
structure Pan where
  fab : Fabric := {}
  active : Nat := 0                  -- PAN_PLANE.ACTIVE (R146)
  selected : Bool := false           -- a record is selected (R131, R133)
  empty : Bool := false
  blank : Bool := false
  shadowValid : Bool := false
  shadowWriting : Bool := false
  verified : Bool := false
  verifyFail : Bool := false
  sigFail : Bool := false
  failed : Bool := false             -- the active plane failed verification since it was selected (R137)
  reinforced : Bool := false
  settledAtStart : Bool := false
  tie : Bool := false
  lowMargin : Bool := false
  failFrame : BitVec 16 := 0
  module : Word := 0                 -- PAN_MODULE (R145)
  seq : Word := 0                    -- PAN_SEQ
  link : Word := 0                   -- LINK of the selected record: gang shape and place (R124)
  digest : DWord := 0
  softAssert : Bool := false         -- PAN_GSR.ASSERT (R76)
  softHold : Bool := false
  userEn : Bool := true
  userSeen : Bool := false
  srcConfig : Bool := false          -- sources of R72
  srcCommitHold : Bool := false
  srcCommitGsr : Bool := false
  srcEmpty : Bool := false
  srcStop : Bool := false
  srcPfw : Bool := false
  selfTest : Bool := false           -- GSR held by pan self-test (R555)
  persistCount : BitVec 16 := 0      -- PAN_PERSIST (R77)
  persistOver : Bool := false
  persistRestored : Bool := false
  persistMismatch : Bool := false
  collWW : Bool := false             -- PAN_RAM_COLL (R78)
  collWR : Bool := false
  collFirst : BitVec 7 := 0
  collCount : BitVec 16 := 0
  busCont : Word := 0                -- PAN_BUS_CONT (R105)
  shut : Bool := true                -- the pan clamps its four edges (R109, R111)
  port : PortSt := .empty            -- R283
  qreq : Bool := false               -- the device raises QREQ (R223)
  qack : Bool := false               -- QACK as sampled (R640)
  handover : Bool := false           -- its pins are in handover (R473)
  stagedOp : Option Nat := none      -- operation whose checked image the shadow holds
  stopPend : Option Nat := none      -- a management STOP waits for QACK: 0 SMBus, 1 JTAG (R595)
  deriving DecidableEq, Repr, Inhabited

end Sys2Proof.Machine
end

