-- ==== Sys2Proof/Machine/StConfig.lean ====
section
/-! DEFINITION. The state types of the planes, the Store, the vault and the configuration engine (chapters
"Non-Volatile Planes, Commit and the Store" and "Configuration Streams, Chains and Start-Up"). -/

namespace Sys2Proof.Machine

/-- A commit record, ten words (R123). -/
structure CommitRec where
  seq : Word := 0
  module : Word := 0
  digest : DWord := 0
  sig : DWord := 0
  link : Word := 0
  rcheck : Word := 0
  valid : Word := 0
  settled : Word := 0
  deriving DecidableEq, Repr, Inhabited

/-- The non-volatile part of a pan (0–63) or of the global area (64): two planes, two record slots, wear counters. -/
structure NvUnit where
  frames : Tab FrameBits := []   -- plane·8192 + relative address; data bits (R120)
  recA : CommitRec := {}
  recB : CommitRec := {}
  stageA : Word := 0             -- R143
  stageB : Word := 0
  retry : Word := 0
  refresh : Word := 0
  record : Word := 0
  saved : Bool := false          -- PAN_PERSIST.SAVED, kept through start-up (R77)
  start : Word := 0              -- global area: START committed with the load (R174), by plane
  startB : Word := 0
  deriving DecidableEq, Repr, Inhabited

/-- A header copy of the Store (R148). -/
structure StoreHdr where
  format : Word := 0xFFFFFFFF
  seq : Word := 0xFFFFFFFF
  erases : Tab Nat := []         -- erase counts by unit
  worn : List Nat := []          -- worn-unit map
  retPans : List Nat := []       -- retirement map
  retBanks : List Nat := []
  retLinks : List Nat := []
  check : Word := 0xFFFFFFFF
  valid : Word := 0xFFFFFFFF
  deriving DecidableEq, Repr, Inhabited

/-- A catalogue entry (R150). -/
structure CatEntry where
  module : Word := 0
  shape : BitVec 4 := 0          -- W−1 in [1:0], H−1 in [3:2]
  keySlot : Byte := 0
  secVersion : Word := 0
  length : Word := 0
  firstUnit : Nat := 0
  units : Nat := 0
  digest : List Byte := []       -- SHA-384, 48 bytes
  deriving DecidableEq, Repr, Inhabited

/-- A catalogue half (R150). -/
structure CatHalf where
  seq : Word := 0xFFFFFFFF
  entries : List CatEntry := []
  check : Word := 0xFFFFFFFF
  valid : Word := 0xFFFFFFFF
  deriving DecidableEq, Repr, Inhabited

/-- A persistent save slot of a pan in one save unit (R155). -/
structure SaveSlot where
  module : Word := 0xFFFFFFFF
  digest : DWord := 0xFFFFFFFFFFFFFFFF
  seq : Word := 0xFFFFFFFF
  values : List Bool := []
  check : Word := 0xFFFFFFFF
  valid : Word := 0xFFFFFFFF
  consumed : Word := 0xFFFFFFFF
  deriving DecidableEq, Repr, Inhabited

/-- A start entry (R157). -/
structure StartEntry where
  count : Word
  check : Word
  valid : Word
  deriving DecidableEq, Repr

/-- A vault record in the log: header and data (R158). -/
structure VaultRec where
  id : BitVec 16
  owner : Byte
  length : BitVec 16
  seq : Word
  data : List Byte
  dcheck : Word
  hcheck : Word
  valid : Word
  deriving DecidableEq, Repr

/-- What the Store keeps without power (R147–R158). The module library is bytes; the other regions are their records,
with the check words of the published layouts. -/
structure StoreNv where
  hdr0 : StoreHdr := {}
  hdr1 : StoreHdr := {}
  half0 : CatHalf := {}
  half1 : CatHalf := {}
  lib : Tab Byte := []            -- unit·65536 + offset, default 0xFF (erased)
  save0 : Tab SaveSlot := []      -- unit 1,984 by pan
  save1 : Tab SaveSlot := []      -- unit 1,985
  start0 : List StartEntry := []  -- unit 1,986, in order
  start1 : List StartEntry := []  -- unit 1,987
  log : Tab (List VaultRec) := [] -- unit 1,988–2,047 → records in order
  head : Nat := 1988              -- log unit that takes the next record
  pffSkipped : Bool := false      -- CFG_VAULT.PFF_SKIPPED, kept through start-up (R163)
  deriving DecidableEq, Repr, Inhabited

/-- Where a STORE_IMAGE, or a header write of the retirement map, stands (R152, R596). -/
inductive StorePhase where
  | waiting                       -- for its turn, or for the catalogue index
  | readHeader
  | readResource
  | erasing (units : List Nat)    -- the run still to erase (step 1)
  | readBody
  | programming                   -- step 2
  | eraseHalf (units : List Nat)  -- step 3
  | writeHalf                     -- step 4
  | eraseHeader                   -- step 5: the copy that was not written last
  | writeHeader
  deriving DecidableEq, Repr

/-- A STORE_IMAGE in progress, or a header write for the retirement map (exec none). -/
structure StoreJob where
  exec : Option Nat
  iss : Issuer := .smbus
  desc : Desc := 0
  image : List Byte := []
  first : Nat := 0
  units : Nat := 0
  copies : Nat := 1               -- header copies still to write
  phase : StorePhase
  deriving DecidableEq, Repr

/-- Where a vault operation stands: it waits for the index, reads its data, or waits for its record to be programmed. -/
inductive VaultPhase where
  | waiting | reading | ready
  deriving DecidableEq, Repr

/-- A VAULT_WRITE or VAULT_READ in progress (R159). -/
structure VaultJob where
  exec : Nat
  iss : Issuer
  desc : Desc
  write : Bool
  readOk : Bool
  data : List Byte := []
  phase : VaultPhase
  deriving DecidableEq, Repr

/-- The Store's volatile part (R151, R162, R163). -/
structure StoreCtl where
  ready : Bool := false
  vaultReady : Bool := false
  half : Nat := 0
  cat : List CatEntry := []
  catSeq : Word := 0
  jobs : List StoreJob := []      -- STORE_IMAGE is served one at a time, in order
  vjobs : List VaultJob := []
  work : StoreHdr := {}           -- erase counts, worn-unit map and retirement map as the device holds them
  deriving DecidableEq, Repr, Inhabited

/-- Where the bytes of an image come from. -/
inductive ImgSrc where
  | store (firstUnit len : Nat)
  | host (bytes : List Byte)
  deriving DecidableEq, Repr

/-- A frame a segment yields, or the error found at that place (R180–R182). -/
inductive FrameItem where
  | lit (addr : Nat) (data : FrameBits) (chk : Word)
  | gen (addr : Nat) (data : FrameBits)
  | rep (addr : Nat) (src : Nat)
  | err (status : Byte) (addr : BitVec 24)
  deriving DecidableEq, Repr

/-- Kinds of staging pass (R209). -/
inductive PassKind where
  | real
  | pre
  | carryLogic   -- the state-bearing logic frames of a MIGRATE with CARRY (R249)
  | carryRam     -- its RAM content frames
  deriving DecidableEq, Repr

/-- A staging pass into one pan's shadow (R165–R167). -/
structure Pass where
  kind : PassKind
  exec : Option Nat              -- operation; none for a pre-stage
  pan : Nat
  anchor : Nat
  member : Nat
  module : Word
  digest : DWord
  full : List Byte               -- catalogue digest to compare, empty for a host image
  lane : Option Nat := none
  plane : Nat := 0
  img : ImgSrc
  force : Bool := false
  carry : Bool := false          -- skips the state-bearing frames in step 1 of R249
  next : Nat := 0                -- next relative address to write, 0–6144
  written : Nat := 0
  recv : Nat := 0                -- carried frames taken
  items : List FrameItem := []
  segPos : Nat := 0              -- offset of the next segment in the image
  segEnd : Nat := 0              -- end of the member image
  epoch : Nat := 0               -- key epoch of the next segment
  key : List Byte := []          -- current key epoch's key, empty before the first
  ended : Bool := false          -- the member's END group was seen
  lastAddr : Int := -1
  census : Tab (BitVec 2 × Bool) := []  -- bus wire → ON drivers (saturating), any dynamic driver (R187)
  age : Nat := 0                 -- order of start, to find the newest pre-stage (R238)
  deriving DecidableEq, Repr

/-- A full device load in progress (R173–R177, R183, R184). Device frames are numbered in their order: 6,144·pan + relative
address, then 393,216 + index of the global area. -/
structure Load where
  devtypeOk : Bool := false
  secverOk : Bool := false
  design : Word := 0
  start : Word := 0
  keyed : Bool := false          -- a KEY record was taken
  nonce : List Byte := []
  key : List Byte := []          -- the current key epoch's key
  epoch : Nat := 0
  epochFrames : Nat := 0
  aad : List Byte := []          -- of the current epoch so far
  ct : List Byte := []
  pansets : Tab (Option (Bool × Byte × Word × DWord)) := []  -- by pan: EMPTY, shape, MODULE, DIGEST
  last : Option Nat := none      -- device frame last taken
  frames : Nat := 0              -- frames received
  seen : List Nat := []          -- units of which a frame was taken
  started : Bool := false        -- a PANSET or FRAMES record was taken
  census : Tab (BitVec 2 × Bool) := []  -- of the pan being loaded
  lastTag : Bool := false        -- the record before was TAG
  short : Bool := false          -- that TAG closed an epoch of fewer than 256 frames
  deriving DecidableEq, Repr, Inhabited

/-- Where a start-up stands (R201, R202). -/
inductive StartPhase where
  | held           -- internal reset held (R612)
  | waitStream     -- R202
  | waitDone       -- ready or waiting for PPS (R196)
  | waitIo         -- DONE released, waiting for the wire (R197)
  | user
  | failed         -- R139, or a failed load of a blank device
  deriving DecidableEq, Repr, Inhabited

/-- What caused a start-up. -/
inductive StartCause where
  | cold
  | progN
  | dormant
  deriving DecidableEq, Repr, Inhabited

/-- The configuration engine: port, chain, lanes, start-up (R164–R209). -/
structure CfgEng where
  phase : StartPhase := .held
  cause : StartCause := .cold
  synced : Bool := false         -- the sync sequence has been seen
  errLatched : Bool := false     -- CFG_ERR_N low (R200)
  blank : Bool := false
  posSet : Bool := false
  pos : Byte := 0
  ignored : Bool := false
  mode : BitVec 3 := 0
  pull : Bool := false
  errStatus : Byte := 0          -- CFG_ERR, CFG_ERR_ADDR (R206)
  errSource : BitVec 4 := 0
  err : Bool := false
  errOver : Bool := false
  specFail : BitVec 16 := 0
  errAddr : BitVec 24 := 0
  errPan : BitVec 6 := 0
  opts : Word := 0               -- START options in force (R207)
  ppsMissed : Bool := false
  deferred : Bool := false
  bootTime : BitVec 16 := 0      -- CFG_BOOT (R208)
  loaded : Bool := false
  loadFailed : Bool := false
  bootLoaded : Bool := false
  bootLoadFailed : Bool := false
  bootProg : Bool := false
  bootDormant : Bool := false
  doneReleased : Bool := false
  wireHigh : Bool := false
  ioEnabled : Bool := false
  load : Option Load := none
  passes : List Pass := []       -- waiting and running passes, oldest first
  passCtr : Nat := 0
  passCount : Word := 0          -- CFG_PASS_COUNT, CFG_FRAMES (chapter 19)
  framesCount : Word := 0
  weakFrames : List (Nat × Nat) := [] -- frames that this start-up finds low-margin, or failing
  badFrames : List (Nat × Nat) := []
  lfxtEn : Bool := false
  smbAddr : BitVec 2 := 0
  pfwStops : Bool := false       -- no non-volatile write starts (R130)
  deriving DecidableEq, Repr, Inhabited

end Sys2Proof.Machine
end

