-- ==== Sys2Proof/Machine/StPlace.lean ====
section
/-! DEFINITION. The state types of units, of the placement engine and of pools (chapters "Architecture and the Unit
Model" and "Placement: the Rake, the Windrow and Pools"). -/

namespace Sys2Proof.Machine

/-- Unit states (R15). -/
inductive UState where
  | off | idle | staged | running | quiesced | asleep | faulted | retired
  deriving DecidableEq, Repr, Inhabited

/-- A unit's state register: state and epoch (R15, R23), and the state held before ASLEEP (R21). -/
structure UnitSt where
  st : UState := .off
  epoch : BitVec 16 := 0
  prior : UState := .off
  deriving DecidableEq, Repr, Inhabited

/-- An entry of a module's resource section (R179, R220): kind, member, the 12 parameter bytes. -/
structure ResEntry where
  kind : Byte
  member : Nat
  params : List Byte
  deriving DecidableEq, Repr

/-- Kinds of Rake operation that move through phases. -/
inductive OpKind where
  | place | evict | migrate
  deriving DecidableEq, Repr

/-- Where an operation stands (R41, R249, R254). -/
inductive OpPhase where
  | waitHeader   -- reads the image header of a host image (R399)
  | waitRes      -- reads its resource section
  | staging      -- passes run or wait for lanes, or a pre-stage is waited for
  | quiesce      -- QREQ raised, waiting for QACK
  | capture      -- MIGRATE with CARRY: the source drains and is read (R250)
  | carry        -- the state-bearing frames are written
  | records      -- record words are written while ports drain (R127, R128)
  | release      -- past the commit point: SETTLED words, plane switch, INVAL, border release
  deriving DecidableEq, Repr

/-- A record word to write: unit, slot (0 A, 1 B), word 0–9, value (R127). -/
structure RecJob where
  unit : Nat
  slot : Nat
  word : Nat
  value : Word
  deriving DecidableEq, Repr

/-- A tag-map entry (R226–R228): the member pan, LOCAL and the owner (0–3 host port, 0xE none, 0xF management). -/
structure TagBind where
  pan : Nat
  loc : Nat
  owner : BitVec 4
  deriving DecidableEq, Repr

/-- An operation of the Rake in progress, keyed by its execution record (R210, R211). -/
structure Op where
  kind : OpKind
  iss : Issuer
  desc : Desc
  phase : OpPhase
  module : Word
  digest : DWord := 0
  full : List Byte := []             -- catalogue digest; empty for a host image
  shapeW : Nat := 1
  shapeH : Nat := 1
  keySlot : Nat := 0xFF
  secVersion : Nat := 0
  res : List ResEntry := []
  resBuf : List Byte := []           -- bytes of a host image's resource section so far
  img : ImgSrc := .host []
  hostLen : Nat := 0
  hostAddr : Nat := 0
  dst : Nat := 0                     -- destination anchor (the module's anchor for EVICT)
  src : Nat := 0                     -- source anchor of a MIGRATE
  dsts : List Nat := []              -- destination members
  srcs : List Nat := []              -- source members of a MIGRATE or EVICT
  hit : Bool := false
  hitWait : Bool := false            -- waits for a pre-stage in progress (R237)
  prior : List (Nat × UState) := []  -- state of each pan before the operation (R43)
  needAck : List Nat := []           -- pans whose QACK is awaited
  held : List Nat := []              -- pans that went RUNNING → QUIESCED for this operation
  toDrain : List Nat := []
  passed : List Nat := []            -- destination members whose passes have ended
  kept : Tab (Tab FrameBits) := []   -- destination pan → image contents of its state-bearing logic frames (R249)
  capQ : Tab (Tab (Option Bool)) := [] -- destination pan → captured Q of its storage elements (R250)
  capRam : Tab (Tab (BitVec 36)) := [] -- destination pan → captured RAM words
  jobs : List RecJob := []           -- record words still to write, in order
  root : Nat := 0                    -- pan of the root record
  settle : List RecJob := []         -- SETTLED words still to write after the commit point
  seq : Word := 0
  committed : Bool := false
  switched : Bool := false
  invalDone : Bool := false
  tags : List (Nat × TagBind) := []  -- bindings this operation makes
  removed : List (Nat × TagBind) := [] -- bindings an EVICT has removed
  deriving DecidableEq, Repr

/-- A Windrow entry (R232). -/
structure WinEntry where
  valid : Bool := false
  writing : Bool := false
  module : Word := 0
  anchor : Nat := 0
  member : Nat := 0
  digest : DWord := 0
  age : Nat := 0
  deriving DecidableEq, Repr, Inhabited

/-- A pool (R242). `pages[k]` is (bank, page) of pool page k. -/
structure Pool where
  size : Nat
  stripe : Nat
  home : Nat
  follow : Bool
  owner : BitVec 4
  set : List Nat
  pages : List (Nat × Nat)
  deriving DecidableEq, Repr

/-- Where a page move stands (R325). -/
inductive MovePhase where
  | waiting            -- not started
  | copy (passes : Nat) -- passes made
  | close              -- the page is MOVING; page marks arrive
  deriving DecidableEq, Repr

/-- A page move of a pool page to bank `dstBank` (R325). The pages are known once it has started. -/
structure PageMove where
  handle : Nat
  k : Nat
  dstBank : Nat
  phase : MovePhase := .waiting
  srcBank : Nat := 0
  srcPage : Nat := 0
  dstPage : Nat := 0
  dirty : DWord := 0
  marks : List Nat := []        -- ingresses whose page mark has arrived
  deriving DecidableEq, Repr

/-- A module of the successor history with the modules placed next after it (R234), newest last. -/
structure HistEntry where
  module : Word
  next : List Word
  deriving DecidableEq, Repr

/-- The placement engine (R210–R265). -/
structure Rake where
  ctrl : Word := 0x30
  weights : Word := 0x10080204
  hitw : Word := 0x3FF
  exclLo : Word := 0
  exclHi : Word := 0
  temp : Word := 0x6946
  quiesce : Word := 0x3E8
  forceCount : Word := 0
  forceLog : Word := 0
  forceModule : Word := 0
  specStarted : Word := 0
  specHits : Word := 0
  specLost : Word := 0
  specFrames : Word := 0
  last : Word := 0
  lastCost : Word := 0
  lastOf : Option Nat := none       -- execution record of the decision that RAKE_LAST shows
  buckets : Tab Int := []
  ops : Tab (Option Op) := []       -- by execution record
  windrow : Tab WinEntry := []      -- by pan
  hints : List (Word × Nat) := []   -- module and partition of its issuer, oldest first, at most 8
  hist : List HistEntry := []       -- least recently placed first, at most 256
  lastPlaced : Option Word := none
  pendPred : Option (Word × Nat) := none -- the pending prediction, with the partition it came from (R235)
  tags : Tab (Option TagBind) := []
  res : Tab (Nat × List ResEntry) := [] -- width and resource section of the module placed at each anchor (R220, R231)
  pools : Tab (Option Pool) := []
  moves : List PageMove := []
  mapReady : Bool := false
  skipped : Bool := false
  poolCtrl : Word := 0x201
  follows : BitVec 16 := 0
  fails : BitVec 16 := 0
  deriving DecidableEq, Repr, Inhabited

end Sys2Proof.Machine
end

