-- ==== Sys2Proof/Machine/StSluice.lean ====
section
/-! DEFINITION. The state types of the on-chip network and of the memory banks (chapters "The Sluice On-Chip Network"
and "Memory Banks and the Page Code"). -/

namespace Sys2Proof.Machine

/-- Who waits for the response of a Sluice request. -/
inductive Requester where
  | pan (p tid : Nat)               -- a module, its TID (R281)
  | exec (e : Nat) (pos : Nat)      -- a descriptor, the byte position of the chunk (R366)
  | link (port : Nat) (src : BitVec 16) (dev : BitVec 14) (xid : BitVec 16)  -- a request brought in by a link (R447)
  | rx (port : Nat)                 -- a receive line of an 802.3 port (R430)
  | tx (port : Nat)                 -- a transmit line pulled by an 802.3 port (R430)
  deriving DecidableEq, Repr

/-- Where a request of the Sluice stands. -/
inductive ReqStage where
  | lookup                          -- behind a translation miss (R274)
  | wantSlot (dest : Nat)           -- its ingress holds no slot of the destination (R278)
  | atOutput (b page line : Nat)    -- in the router, while the bank's queue is full (R310)
  | bank (b page line : Nat)        -- in the bank's queue
  | portQueue (pan loc : Nat)       -- on its way to, or queued at, a pan port
  | atModule (pan itag : Nat)       -- accepted on RQI
  | egress (port : Nat)             -- sent, or waiting for credits, at a link egress
  | responding                      -- its response is on the way to the ingress
  deriving DecidableEq, Repr

/-- A request of the Sluice in flight. Destinations of egress slots: pan 0–63, link port n at 64 + n. -/
structure SlIn where
  ingress : Nat
  by_ : Requester
  addr : DWord
  write : Bool
  lines : Nat
  be : DWord
  data : List Line
  poison : Bool                     -- a data word carries a double-bit error (R286)
  flip : Option (Nat × Word)        -- FLIPTEST: word and mask (R321)
  stage : ReqStage
  tier : Nat
  hops : Nat := 0                   -- HOPS of a request in transit (R447)
  loc : Nat := 0                    -- LOCAL at a pan endpoint
  reached : Option (Nat × Nat × Nat) := none -- bank, page and line that a translation gave
  deriving DecidableEq, Repr

/-- A response on its way to its ingress: a status and data for each line. -/
structure SlResp where
  rid : Nat
  lines : List (Byte × Line)
  deriving DecidableEq, Repr

/-- What a translation answers (R274): an endpoint or one pool page, with the partitions of the owner. -/
inductive Trans where
  | endpoint (pan loc : Nat)
  | page (handle k bank page : Nat)
  deriving DecidableEq, Repr

/-- A cache entry of an ingress: the tag, and what the tag map answered. -/
structure TcEntry where
  tag : Nat
  trans : Trans
  owner : BitVec 4
  size : Nat                        -- pool size in pages, 0 for an endpoint
  deriving DecidableEq, Repr

/-- A LOOKUP at the control attachment, or its REPLY on the way back (R270). -/
structure Miss where
  tag : Nat
  k : Nat
  reply : Option (Option TcEntry)   -- none: LOOKUP; some none: unbound
  sent : Nat := 0                   -- place of the REPLY among what the control attachment has sent
  deriving DecidableEq, Repr

/-- An ingress (R268, R274, R279). -/
structure Ingress where
  cache : List TcEntry := []        -- most recently used first, at most 512
  misses : List Miss := []          -- at most 16
  hit : Word := 0
  miss : Word := 0
  inval : Word := 0
  resp : List SlResp := []          -- responses that have arrived, oldest first
  slots : Tab Nat := []             -- granted, unspent slots by destination
  deriving DecidableEq, Repr, Inhabited

/-- A destination with egress slots (R278): the reservation table in order of arrival, and the inbound queue. -/
structure SlDest where
  table : List (Nat × Nat) := []    -- (ingress, slots asked)
  queue : List Nat := []            -- requests queued at the destination, oldest first
  granted : Nat := 0                -- slots granted and not yet given back
  deriving DecidableEq, Repr, Inhabited

/-- An INVAL on its way (R275). -/
inductive InvalKind where
  | tags (l : List Nat)
  | page (handle k : Nat)
  | all
  deriving DecidableEq, Repr

/-- An INVAL with the routers it has not yet reached, and the operation that waits for the INVAL_ACK. -/
structure Inval where
  kind : InvalKind
  left : List Nat
  exec : Option Nat
  sent : Nat := 0                   -- place among what the control attachment has sent
  deriving DecidableEq, Repr

/-- The Sluice (R266–R295). -/
structure Sluice where
  ctrl : Word := 0x10000
  halted : Bool := false
  faultRouter : BitVec 6 := 0
  invalCount : Word := 0
  invalLast : BitVec 16 := 0
  invalMax : BitVec 16 := 0
  err : Word := 0                   -- SLUICE_ERR (R294)
  errHeld : Bool := false           -- a response stands recorded since the flags were last all clear
  errAddr : DWord := 0
  errSrc : Word := 0
  ce : Word := 0
  ingress : Tab Ingress := []       -- 0–91
  dests : Tab SlDest := []          -- pan 0–63, link port n at 64 + n
  reqs : Tab (Option SlIn) := []
  nextReq : Nat := 0
  invals : List Inval := []
  ctlSent : Nat := 0                -- REPLY and INVAL messages that the control attachment has sent (R270)
  boost : List (Nat × Contender) := [] -- starved requests granted ahead (R38), by resource
  marks : List (Nat × Nat × Nat) := [] -- page marks on their way: ingress, bank, and the pool page's key
  transit : List SlIn := []         -- reads that have left in transit and return a poisoned word (R286)
  deriving DecidableEq, Repr, Inhabited

/-- A slot's spare area but for the guards (R298). -/
structure SlotSt where
  written : Bool := false
  poisoned : Bool := false
  t : BitVec 2 := 3
  fail : DWord := 0
  check : BitVec 512 := 0
  deriving DecidableEq, Repr, Inhabited

/-- A log entry of a bank (R340). -/
structure BankLog where
  page : Nat
  slot : Nat
  line : Nat
  cause : BitVec 3
  bits : Nat
  deriving DecidableEq, Repr

/-- A slot borrowed by self-test with its test buffer (R329). -/
structure Borrow where
  slot : Nat
  lines : Tab Line
  guards : Tab Word
  st : SlotSt
  deriving DecidableEq, Repr

/-- A bank (R296–R342). -/
structure Bank where
  ctrl : Word := 0x1F
  lines : Tab Line := []            -- slot·64 + line
  guards : Tab Word := []
  slots : Tab SlotSt := []
  remap : Tab (Option Nat) := []    -- page → spare slot; unlisted: its own slot
  defective : List Nat := []
  spareUsed : List Nat := []        -- spare slots in use or defective after use
  alloc : List Nat := []            -- pages that belong to a pool, ascending
  ce : BitVec 24 := 0
  ceDropped : BitVec 8 := 0
  poisons : BitVec 16 := 0
  ueDropped : BitVec 8 := 0
  responses : BitVec 8 := 0
  ceLog : List BankLog := []
  ueLog : List BankLog := []
  flipMask : Word := 0
  flipWord : BitVec 5 := 0
  flipArm : Bool := false
  flipApplied : Bool := false
  recode : Option Nat := none       -- next page of the re-encode pass
  zfPage : Option (Nat × Nat) := none -- page under fill, next line
  scrubNext : Nat := 0
  stNext : Nat := 0
  stFails : BitVec 8 := 0
  borrow : Option Borrow := none
  queue : List Nat := []            -- requests waiting, oldest first, at most 32
  deriving DecidableEq, Repr, Inhabited

end Sys2Proof.Machine
end

