-- ==== Sys2Proof/Machine/StHost.lean ====
section
/-! DEFINITION. The state types of the host ports, their rings and the descriptors that execute (chapters "Host Ports,
Partitions and Rings" and "Descriptor Reference"). -/

namespace Sys2Proof.Machine

/-- Ring states of HOST_SQ_STATE (R386). -/
inductive SqState where
  | disabled | running | stopped | error | draining
  deriving DecidableEq, Repr, Inhabited

/-- A submission ring (R354–R365). -/
structure Sq where
  baseLo : Word := 0
  baseHi : Word := 0
  cfg : Word := 0x400
  head : Nat := 0
  tail : Nat := 0
  st : SqState := .disabled
  held : List Desc := []            -- fetched descriptors from HEAD onward (R360)
  fetching : Nat := 0               -- descriptors of the read in progress
  preread : Tab (List Byte) := []   -- pre-read COPY sources by ring index (R365)
  cancel : Nat := 0                 -- descriptors a CANCEL still has to complete (R363)
  after : List (Nat × Word) := []   -- doorbells that follow a CANCEL, in order
  gen : Nat := 0                    -- increments when run-ahead is discarded, so late reads are dropped
  stopOn : Option Nat := none       -- the descriptor before carries STOP_ON_ERROR and has not completed
  deriving DecidableEq, Repr, Inhabited

/-- A completion ring, or the event ring (R354, R387, R388). -/
structure Cq where
  baseLo : Word := 0
  baseHi : Word := 0
  cfg : Word := 0x400
  head : Nat := 0
  tail : Nat := 0
  phase : Bool := true
  enabled : Bool := false
  reserved : Nat := 0
  holding : Bool := false           -- HOLDOFF µs have not passed since the last message (R376)
  owed : Bool := false              -- a message for held requests is owed
  deriving DecidableEq, Repr, Inhabited

/-- Why a port reads host memory (R644). -/
inductive ReadWhy where
  | fetch (sq idx n gen : Nat)
  | cancelFetch (sq idx n gen : Nat)
  | preread (sq idx gen : Nat)
  | dropped                         -- a pre-read whose descriptor has started without it
  | copySrc (exec pos : Nat)
  | image (exec : Nat)              -- header, resource section or body, by the operation's phase
  | vaultData (exec : Nat)
  deriving DecidableEq, Repr

/-- A read of host memory in progress. -/
structure HostReadSt where
  why : ReadWhy
  addr : DWord
  len : Nat
  sent : Bool                       -- it has left the port
  deriving DecidableEq, Repr

/-- An entry of the MSI-X table (R348). -/
structure MsixEntry where
  addr : DWord := 0
  data : Word := 0
  masked : Bool := true
  deriving DecidableEq, Repr, Inhabited

/-- An event with its stamp, before it is written (R374, R394). -/
structure HeldEv where
  unit : Nat
  code : Nat
  status : Nat
  data : DWord
  stamp : List Word
  deriving DecidableEq, Repr

/-- The configuration space of a port's function, as far as it serves R343. PRESUMED: the layout and the reset values are
those of the standard (assumption 81). -/
structure CfgSpace where
  devCtl : BitVec 16 := 0x2010      -- Device Control
  devCtl2 : BitVec 16 := 0          -- Device Control 2
  linkCtl : BitVec 16 := 0          -- Link Control
  l1Sub : Word := 0                 -- L1 PM Substates Control 1
  pmcsr : BitVec 16 := 0x0008       -- power management control and status, with No_Soft_Reset
  msixOn : Bool := false            -- MSI-X Enable
  fmask : Bool := false             -- MSI-X function mask
  more : Tab Word := []             -- the registers of `cfgHeld`, each under its key
  deriving DecidableEq, Repr, Inhabited

/-- A host port (R343–R388). -/
structure HostPort where
  ctrl : Word := 0x03E80006
  linkUp : Bool := false
  speed : BitVec 3 := 0
  width : BitVec 4 := 0
  reversed : Bool := false
  polarity : Byte := 0
  orphans : Bool := false
  err : BitVec 6 := 0
  errDesc : Word := 0x1F
  abortAddr : DWord := 0
  dropFiltered : BitVec 16 := 0
  dropBad : BitVec 16 := 0
  eqFull : BitVec 16 := 0
  eqDisabled : BitVec 16 := 0
  lostCpl : Word := 0
  pfLo : Tab Word := []
  pfHi : Tab Word := []
  sqs : Tab Sq := []
  cqs : Tab Cq := []
  eq : Cq := {}
  eqLost : Nat := 0                 -- events discarded since the last EVENTS_LOST (R375)
  evHeld : List HeldEv := []        -- events raised while the port was ASLEEP, written at wake
  table : Tab MsixEntry := []       -- MSI-X table
  conf : CfgSpace := {}             -- configuration space
  perst : Bool := false             -- PERST_N is low
  lost : Bool := false              -- the host was lost while the port was ASLEEP from RUNNING
  pendBits : Tab Bool := []         -- MSI-X pending bits
  reads : Tab (Option HostReadSt) := []
  nextRead : Nat := 0
  loop : Option Nat := none         -- loopback set by the management path (R597)
  query : Tab Word := []            -- selection registers kept per reader (R632)
  posted : List (DWord × List Byte × Bool) := [] -- writes to host memory that wait until the function may make requests
  deriving DecidableEq, Repr, Inhabited

/-- A line request of a COPY or FILL: its byte position within the copy, its bytes, and its data when it writes. -/
structure Chunk where
  pos : Nat
  len : Nat
  read : Bool
  data : List Byte
  deriving DecidableEq, Repr

/-- A data movement in progress (R366–R368, R406, R407). -/
structure Xfer where
  srcSl : Bool
  dstSl : Bool
  src : DWord
  dst : DWord
  len : Nat
  pattern : Option DWord := none    -- FILL
  rcur : Nat := 0                   -- source bytes asked for
  wcur : Nat := 0                   -- destination bytes written or formed into requests
  got : List Byte := []             -- source bytes at hand from `wcur` on
  ahead : List (Nat × List Byte) := [] -- source bytes that came before their turn
  out : List Chunk := []            -- outstanding line requests
  hostOut : Bool := false           -- a host read is outstanding
  busy : List Chunk := []           -- answered BUSY (R367)
  again : List Chunk := []          -- to be reissued
  retry : Bool := false             -- reissued requests run: nothing else is issued
  busyWin : Bool := false           -- the BUSY window runs
  busyOver : Bool := false          -- it has expired
  fail : Option (Nat × Nat) := none -- lowest failing position and its status (R368)
  deriving DecidableEq, Repr

/-- What an executing descriptor waits for. -/
inductive ExecKind where
  | rake                                        -- an operation in `Rake.ops`
  | xfer (x : Xfer)
  | flip (addr : DWord) (sent : Bool) (line : Line) (word : Nat) (mask : Word) -- FLIPTEST
  | store                                       -- a job in `StoreCtl.jobs`
  | vault
  | time                                        -- TIME_SET or TIME_ADJ in progress
  | wait                                        -- WAIT
  | fence (left : List Nat) (n : Nat)
  | inval (unit : Nat) (info : DWord) (free : List (Nat × Nat))  -- a tag-map change waits for its INVAL_ACK; pages to free
  | waitRake (d : Desc)                         -- held while the Rake is QUIESCED or gated (R213), or the map is not ready
  deriving DecidableEq, Repr

/-- A descriptor that has started (R361) and has not completed. -/
structure Exec where
  iss : Issuer
  opcode : Byte
  flags : Byte
  tag : BitVec 16
  idx : Nat                                     -- its index in the ring
  kind : ExecKind
  orphan : Bool := false                        -- its port left RUNNING (R351)
  deriving DecidableEq, Repr

end Sys2Proof.Machine
end

