-- ==== Sys2Proof/Machine/StIo.lean ====
section
/-! DEFINITION. The state types of the link ports, the field ports, the pins, the time unit, the power controller and the
clocks (chapters "Link Ports and the Brera Link" to "Power States and Clocks"). -/

namespace Sys2Proof.Machine

/-- A received or transmit line of an 802.3 port before it is packed (R431). -/
structure RxLine where
  words : List DWord
  ctrl : List Byte
  startWord : Option (BitVec 3)
  stamp : DWord
  lost : Bool                       -- words were lost before this line (R432)
  report : Bool := false            -- a transmit report (R433)
  deriving DecidableEq, Repr, Inhabited

/-- An entry of the outstanding table of an egress (R448). -/
inductive XidSt where
  | free
  | used (rid : Nat)
  | quarantine
  deriving DecidableEq, Repr, Inhabited

/-- A packet kept until it is acknowledged (R440): its SEQ and how often it has been replayed in a row. -/
structure Unacked where
  pkt : Packet
  replays : Nat
  deriving DecidableEq, Repr

/-- A link port (R423–R465). Link-layer state of a tandem pair is kept in the lower lead port (R444). -/
structure LinkPort where
  ctrl : Word := 0
  inForce : Word := 0               -- LINK_CTRL as sampled when the port began to train (R427)
  training : Bool := false
  ownSeen : Bool := false           -- own HELLO carries SEEN 1 (R441)
  helloRun : Nat := 0               -- consecutive identical HELLOs with SEEN 1
  lastHello : Option Hello := none
  peer : Option Hello := none       -- the accepted HELLO (R464)
  signal : BitVec 4 := 0
  lock : Bool := false
  aligned : Bool := false
  anDone : Bool := false
  fecLock : Bool := false
  hiBer : Bool := false
  peerAsleep : Bool := false
  waking : Bool := false            -- the lanes are driven to wake the peer (R455)
  tandemSingle : Bool := false
  ready : Bool := false             -- trained, waiting for its tandem partner (R444)
  err : BitVec 14 := 0
  an : Word := 0xF9
  anPartner : Word := 0
  fecCe : Word := 0
  fecUe : Word := 0
  ptp : Word := 3
  brera : Word := 0x3E8
  credRsp : Nat := 0
  credReq : Nat := 0
  replays : BitVec 16 := 0
  crcErrs : BitVec 16 := 0
  relayIn : Bool := false
  relayOut : Bool := false
  loop : Option Nat := none
  loopHist : BitVec 31 := 0         -- the checker's last 31 bits, the newest lowest (R457)
  loopGood : Nat := 0               -- error-free blocks in a row before lock
  loopLocked : Bool := false
  loopErrs : BitVec 16 := 0
  loopGen : BitVec 31 := 0x7FFFFFFF -- the generator's last 31 bits, the newest lowest (R457; the seed is assumption 55)
  eq : Word := 0x15
  eqInForce : Word := 0x15          -- LINK_EQ as sampled when the port began to train (R427, R622)
  dropRx : BitVec 16 := 0
  dropLate : BitVec 16 := 0
  txSeq : BitVec 12 := 0            -- SEQ of the next new packet
  unacked : List Unacked := []      -- replay buffer, oldest first (R440)
  sendQ : List Packet := []         -- packets waiting for credits, oldest first
  rxSeq : BitVec 12 := 0            -- expected SEQ
  rxAny : Bool := false             -- a packet has been accepted since training (ACK_VALID)
  nakSent : Bool := false
  gap : Bool := false               -- a packet of this link failed or ran ahead of the expected SEQ
  rxReq : List Packet := []         -- requests that wait for admission (R447)
  retRsp : Nat := 0                 -- credits to return
  retReq : Nat := 0
  ackDue : Bool := false            -- a packet has been accepted since the last acknowledgement went out (R437)
  xids : Tab XidSt := []            -- outstanding table, 512 entries (R448)
  bound : Option (Nat × Nat × Nat) := none  -- anchor of the module, member pan, LOCAL (R430)
  rxBuf : List RxLine := []
  rxBusy : Bool := false            -- the oldest received line is on its way to the module
  rxLost : Bool := false
  txOut : Nat := 0                  -- READs of transmit lines outstanding
  txLines : List (Line × Bool) := [] -- lines of a frame whose correction field is updated, and which ask for it (R434)
  txMid : Bool := false             -- a frame has started on transmit
  txDiscard : Bool := false         -- the rest of an underrun frame is discarded (R432)
  sleepAsked : Bool := false        -- SLEEP REQUEST sent, waiting for its answer (R455)
  sleepOk : Bool := false           -- ACCEPT received
  deriving DecidableEq, Repr, Inhabited

/-- A field port (R480–R497). -/
structure FPort where
  ctrl : Word := 0
  kind : BitVec 2 := 0              -- KIND in force (R480)
  fmtUse : Word := 8                -- FPORT_FMT in force
  clkUse : Word := 0x6C80
  nbtUse : Word := 0
  dbtUse : Word := 0
  bound : Option (Nat × Nat × Nat) := none -- anchor, member pan, field channel (R483)
  loop : Option Nat := none
  bus : BitVec 3 := 0
  err : BitVec 12 := 0
  clk : Word := 0x6C80
  fmt : Word := 8
  fifo : Word := 0x80
  nbt : Word := 0
  dbt : Word := 0
  tecErr : Nat := 0
  recErr : Nat := 0
  lec : BitVec 3 := 0
  idMatch : Word := 0
  idMask : Word := 0
  txCount : BitVec 16 := 0
  rxCount : BitVec 16 := 0
  tx : List Word := []
  rx : List Word := []
  above : Bool := false             -- RX_LEVEL has risen to the threshold (R482)
  csLow : Option Nat := none        -- SPI: chip select held low
  heldRx : Option Word := none      -- SPI target: the last byte, until the next or CS_N's rise shows CS_END (R486);
                                    -- I²C target: the entry that waits for room in the RX FIFO while SCL is stretched (R487)
  selected : Bool := false          -- SPI target selected, or I²C target addressed
  reading : Bool := false           -- I²C target: the address asked for a read
  lanes : BitVec 4 := 0             -- SPI: the last levels on IO0–IO3
  laneOe : BitVec 4 := 0            -- SPI: the lanes that the port drives (R467)
  integrating : Bool := false       -- CAN FD: woken, bus integration not yet complete (R490)
  protoSeen : Bool := false         -- PROTOCOL was raised since FPORT_ERR was clear (R489)
  i2cHold : Bool := false           -- I²C: the bus is held between bytes
  i2cDrop : Bool := false           -- I²C: TX entries are still discarded, up to the next one with STOP (R487)
  deriving DecidableEq, Repr, Inhabited

/-- A pin (R468–R479): its live entry, an entry waiting to take effect, and its levels. -/
structure Pin where
  sel : Word := 0x06000002          -- SOURCE 0x002, HANDOVER 3
  level : Bool := false             -- raw pad level
  filtered : Bool := false
  out : Bool := false               -- last driven level
  oe : Bool := false
  pend : Bool := false              -- PIN_EVENT_PEND
  evCfg : BitVec 2 := 0
  wakeEn : Bool := false
  kept : Bool := false              -- what it gave its sink as its bank went to ASLEEP (R490)
  pull : BitVec 2 := 0              -- what pulls the pad: 0 nothing, 1 weak up, 2 weak down, 3 keeper
  clamped : Bool := false           -- the clamp edge of a handover has passed and its release has not (R473)
  clampOut : Bool := false          -- the level driven at that edge
  clampOe : Bool := false           -- and its OE
  deriving DecidableEq, Repr, Inhabited

/-- The pins, the crossbar and the pin banks (R466–R495). -/
structure Pins where
  ctrl : Word := 3
  pins : Tab Pin := []
  sinkSel : Tab (Option (BitVec 2)) := [] -- DEFAULT and INVERT as loaded or written; none: a blank device's (R469)
  conflict : Tab Bool := []         -- sticky PIN_CONFLICT by sink
  bankCfg : Tab Word := []          -- xor 0x10
  filter : Tab Word := []           -- xor 0x01010101
  loop : Tab (BitVec 2) := []       -- PIN_LOOP by bank
  enabled : Tab Bool := []          -- pin bank enabled (R197)
  vccioOk : BitVec 16 := 0
  deriving DecidableEq, Repr, Inhabited

/-- A TIME_SET or TIME_ADJ in progress (R416, R417). -/
inductive TimeCmd where
  | setPps (exec : Nat) (sec : BitVec 48) (ns : BitVec 30) (frac : BitVec 16)
  | slew (exec : Nat) (left : Int) (rate : Nat) (us : Nat)  -- remaining offset in 2^−40 ns, ppb, µs taken
  deriving DecidableEq, Repr

/-- The holdover record latched at C0 (R511). -/
structure HoldRec where
  c0 : BitVec 48 := 0
  f0 : Nat := 0                     -- fine time, units of 2^−40 ns
  cal : Word := 0x77359400
  slewReg : Word := 0x13882710
  holdover : Word := 0xFFFFFFFF
  quality : BitVec 3 := 0
  alarmSec : Word := 0
  alarmNs : Word := 0
  alarmAt : Option (BitVec 48) := none -- coarse count at which an armed alarm fires (R516)
  slew : Option TimeCmd := none
  deriving DecidableEq, Repr, Inhabited

/-- The time unit (R498–R521). -/
structure TimeU where
  sec : BitVec 48 := 0
  ns : BitVec 30 := 0
  frac : BitVec 40 := 0             -- 16 visible and 24 further fraction bits (R498)
  ctrl : Word := 0x8B
  quality : BitVec 3 := 0
  srcInt : Bool := true
  refOk : Bool := false
  ppsOk : Bool := false
  firstEdge : Bool := true          -- the next edge is valid whatever its interval (R506)
  slewing : Option (Int × Nat) := none -- a PPS slew: offset left in 2^−40 ns, rate ppb
  cmd : Option TimeCmd := none
  calValid : Bool := false
  incCalRef : Bool := false
  incCalInt : Bool := false
  retro : Bool := false
  lockCount : Nat := 0
  steps : BitVec 8 := 0
  snapHi : BitVec 16 := 0
  snapNs : BitVec 30 := 0
  snapFrac : BitVec 16 := 0
  snapQ : BitVec 3 := 0
  incRef : BitVec 40 := 0           -- ns [39:32], fraction [31:0] in 2^−32 ns (R503)
  incInt : BitVec 40 := 0x0500000000
  incHold : BitVec 8 := 0           -- TIME_INC_NS as written and not yet applied
  incPend : Bool := false
  incFresh : Bool := false          -- the running source's increment was written since its last cycle (R504)
  stepLimit : Word := 0x3E8
  slewReg : Word := 0x13882710
  ppsErr : Word := 0
  cal : Word := 0x77359400
  holdover : Word := 0xFFFFFFFF
  alarmSec : Word := 0
  alarmNs : Word := 0
  alarmOut : Bool := false          -- crossbar source 0x012
  ppsOut : Word := 0x6401
  ppsLevel : Bool := false
  ppsSecond : BitVec 48 := 0        -- whole second of the last PPS_OUT pulse
  lastEdge : Int := 0               -- captured time of the previous valid edge, 2^−40 ns, moved by later steps
  winN : Nat := 0                   -- source cycles counted in the calibration window
  winLeft : Nat := 0                -- intervals left in it; 0: not started
  winSize : Nat := 0                -- intervals of the window that runs (R504)
  alarmRang : Bool := false         -- the alarm has fired since the entry into sleep began (R516, R531)
  coarse : BitVec 48 := 0           -- always-on (R499)
  coarseAcc : Nat := 0              -- fine time since its last tick, 2^−32 ns, while the source runs
  calStart : Option (BitVec 48 × Int) := none -- coarse window: start tick, fine time (R505)
  calBad : Bool := false
  calSlew : Int := 0                -- what PPS slews applied inside the window
  slept : Option HoldRec := none
  capPps : Option (BitVec 48) := none -- last PPS edge against the coarse counter (R512)
  deriving DecidableEq, Repr, Inhabited

/-- Phases of the sleep controller (R545). -/
inductive PwrPhase where
  | awake | entering | asleep | waking
  deriving DecidableEq, Repr, Inhabited

/-- The sleep controller (R522–R547). -/
structure Pwr where
  mode : Word := 0
  phase : PwrPhase := .awake
  step : Nat := 0
  modeIn : BitVec 3 := 0            -- MODE sampled by the WAIT (R525)
  keepIn : BitVec 128 := 0
  resleepIn : BitVec 16 := 0
  waitExec : Option Nat := none
  asked : List Nat := []            -- units of the step that have not answered
  refused : List (Nat × Nat) := []  -- refusers of the step with their reason
  stopped : List Nat := []          -- units that have accepted
  stopTimeout : Word := 0x3E8
  wakeEn : Word := 0x7F
  wakeCause : Word := 0             -- always-on (R544)
  lastRefuser : Word := 0
  abortCount : Word := 0
  earlyCount : Word := 0
  lastSleep : Word := 0             -- always-on
  refuse : Tab (BitVec 8) := []     -- by class
  en : BitVec 127 := 0x7FFFFFFFFFFFFFFFFFFFFFFFFFFFFFFF -- PWR_DOMAIN_EN
  keep : BitVec 128 := 0
  early : Option (BitVec 4 × Nat × Straps × StartCells) := none -- latched wake event, and what a start-up would find (R529)
  awoken : List Nat := []           -- domains awake under R536
  slept : List Nat := []            -- domains asleep or gated
  waking : List Nat := []           -- domains whose wake on access runs
  savedPans : List Nat := []        -- pans whose save was written at a DEEP or DORMANT entry
  wakeCode : Byte := 0              -- cause of the wake in progress
  wakeUnit : BitVec 16 := 0
  dropAt : BitVec 48 := 0           -- coarse count at the end of the drop (R544)
  pfwNap : Bool := false            -- PFW_N asserted in NAP or DEEP, device to be woken (R534)
  rakeMoved : Bool := false         -- the entry took the Rake to QUIESCED (R213)
  deriving DecidableEq, Repr, Inhabited

/-- A general PLL (R539–R541, R548). -/
structure Pll where
  cfg : Word := 0
  frac : Word := 0
  out : Word := 0
  locked : Bool := false
  stopped : Bool := false
  gated : Bool := false
  losses : BitVec 8 := 0
  deriving DecidableEq, Repr, Inhabited

/-- The clocks (R537–R550). -/
structure Clk where
  ctrl : Word := 1
  trimmed : Bool := false
  lfXtal : Bool := false
  lfFail : Bool := false
  inCfg : Word := 0
  plls : Tab Pll := []
  qpll : BitVec 24 := 0
  qrate : Tab Nat := []             -- line rate of each quad PLL (R425)
  err : BitVec 18 := 0
  measSel : Word := 0
  measBusy : Bool := false
  measCount : Word := 0
  deriving DecidableEq, Repr, Inhabited

end Sys2Proof.Machine
end

