-- ==== Sys2Proof/Machine/StServ.lean ====
section
/-! DEFINITION. The state types of background services, telemetry, fuses, partitions, the management path and test
(chapters "Background Services and Telemetry" to "Management Path, Readback and Test"), and what the device emits. -/

namespace Sys2Proof.Machine

/-- Background services (R551–R567). -/
structure Bgs where
  ctrl : Word := 0x7F
  scrubPeriod : Word := 0xE10
  sigPeriod : Word := 0xE10
  refreshPeriod : Word := 0xA8
  stPeriod : Word := 0x00180064
  zfGap : Word := 0
  calPeriod : Word := 0xA
  wearSize : Word := 0xF4240
  wearRate : Word := 0x0019009E
  refreshPasses : BitVec 8 := 0
  sigPasses : BitVec 8 := 0
  pstLast : BitVec 6 := 0
  pstLastFail : Bool := false
  pstFirst : Option (BitVec 6) := none
  pstFails : BitVec 8 := 0
  pstAborts : BitVec 8 := 0
  refreshPos : Nat := 0            -- pan·6144 + relative address of the next frame in the margin scan
  refreshShadow : Bool := false    -- the scan is at the shadow frame of that address
  refreshCount : Nat := 0          -- frames reinforced in the pass
  sigNext : Nat := 0
  sigQueue : List Nat := []        -- pans committed since their last check, in order (R554)
  deferTodo : List Nat := []       -- pans awaiting deferred verification (R553)
  deferCount : Nat := 0            -- pans that deferred verification has verified
  pstRun : Option Nat := none      -- pan under self-test
  pstNext : Nat := 0
  pstDemand : Bool := false        -- the test was started by TEST_BIST_SEL (R604)
  bstRun : Option Nat := none      -- bank under on-demand self-test, see R604
  bstFail : Option Nat := none
  preTokens : Tab Nat := []        -- tokens drawn by pre-stages since the start-up (R561)
  deriving DecidableEq, Repr, Inhabited

/-- A temperature sensor or voltage monitor (R560, R561). -/
structure Sensor where
  cur : BitVec 16 := 0
  max : BitVec 16 := 0
  min : BitVec 16 := 0
  avg : BitVec 16 := 0
  n : Word := 0                    -- samples since cleared
  exc : Word := 0                  -- excursions of a monitor
  hot : Bool := false
  cold : Bool := false
  outRange : Bool := false
  deriving DecidableEq, Repr, Inhabited

/-- Activity of a pan or bank in a window (R561). -/
structure Activity where
  w0 : Word := 0
  w1 : Word := 0
  w2 : Word := 0
  cycles : Nat := 0                -- active spine-clock cycles of a pan, which W1 gives in units of 1,024
  deriving DecidableEq, Repr, Inhabited

/-- Telemetry (R560–R569). Sensors: 0–63 pans, 64–71 die, 72–83 voltage monitors. -/
structure Tele where
  ctrl : Word := 0x10A
  alert : Word := 0x00D80569
  sel : Tab Word := []             -- by reader: host port, 4 management
  latch : Tab Word := []           -- reader·4 + word 1–3
  sensors : Tab Sensor := []
  panNow : Tab Activity := []      -- the running window
  panLast : Tab Activity := []     -- the last complete window
  bankNow : Tab Activity := []
  bankLast : Tab Activity := []
  erases : Word := 0               -- Store erases since the start-up
  deriving DecidableEq, Repr, Inhabited

/-- A partition in force (R580, R581). -/
structure Partition where
  pans : BitVec 64 := 0
  banks : BitVec 128 := 0
  links : BitVec 96 := 0
  fports : BitVec 24 := 0
  pinBanks : BitVec 16 := 0
  grants : BitVec 16 := 0          -- W10 [31:16]: TIME, POWER, STORE_WRITE, VAULT [7:3], SLOTS [15:8]
  tagLo : BitVec 16 := 0
  tagHi : BitVec 16 := 0
  handleLo : BitVec 16 := 0
  handleHi : BitVec 16 := 0
  regs : BitVec 13 := 0
  all : Bool := false              -- of a template whose ENABLE is 0: the units that no word names are in it too (R581)
  narrowed : Bool := false
  deriving DecidableEq, Repr, Inhabited

/-- A fuse command in progress: the words of bits still to program (R599). -/
structure FuseJob where
  via : MgmtIf
  op : Nat                         -- 0 FUSE_PROGRAM, 1 FUSE_LOCK, 2 FUSE_ROLLBACK
  word : Nat                       -- word of a FUSE_PROGRAM
  arg : Nat                        -- lock number, or new counter value
  left : List Nat                  -- fuses still to program, in order
  started : Bool                   -- its checks are made
  silent : Bool := false           -- its interface has abandoned the transaction (R590): no response
  cut : Bool := false              -- PFW_N asserted as its bits were programmed: it ends after the bit in progress (R599)
  deriving DecidableEq, Repr

/-- Fuses, their mirror and the partitions (R570–R589). -/
structure Fuse where
  mirror : Tab Word := []          -- by word
  sensedKeys : Tab Word := []      -- words 16–95 and 224–232 as sensed: in force until the next start-up (R571)
  sensed : Bool := false
  narrowErr : Bool := false        -- FUSE_STATUS.NARROW_ERR
  parts : Tab Partition := []      -- 0–3 host port, 4 management
  jobs : List FuseJob := []        -- oldest first; the first runs, a later one stalls (R577)
  condOk : Bool := true            -- VCC_NV and temperature within R617
  deriving DecidableEq, Repr, Inhabited

/-- A readback in progress or held (R600, R601). -/
structure Rdbk where
  bytes : List Byte
  pan : Option Nat                 -- the pan a capture reserves
  bit : Nat := 0                   -- bits of the first byte already shifted (R602)
  deriving DecidableEq, Repr

/-- What the response that an interface owes waits for (R592): a STOP of a pan (R595), or a fuse command (R599). -/
inductive MgmtWait where
  | stop (pan : Nat)
  | fuse
  deriving DecidableEq, Repr

/-- A UNIT_CMD that has come to an ASLEEP unit: the unit, its action and expected epoch, the epoch that the unit holds while
ASLEEP, and the one it has after the wake, which may be more than one transition (R31). -/
structure LateCmd where
  unit : Nat
  action : Nat
  expected : BitVec 16
  held : BitVec 16
  woken : Option (BitVec 16) := none   -- the unit's epoch as its wake left it
  deriving DecidableEq, Repr

/-- A management interface (R590–R598). -/
structure Mgmt where
  slot : Nat := 0                  -- 0 empty, 1 running, 2 complete
  cpl : List Byte := []            -- completion record
  exec : Option Nat := none
  desc : Option Desc := none       -- submitted, not yet started
  buf : Tab Byte := []
  rdbk : Option Rdbk := none
  wait : Option MgmtWait := none
  late : Option LateCmd := none    -- the UNIT_CMD that waits for the wake of its unit
  count : BitVec 16 := 0
  drCode : Option Byte := none     -- the MGMT_ACCESS command whose response is awaited (R602)
  deriving DecidableEq, Repr, Inhabited

/-- The MGMT block and JTAG (R602–R607). -/
structure MgmtBlk where
  ctrl : Word := 3
  err : BitVec 6 := 0
  last : Word := 0
  jtagOver : Option (BitVec 8) := none -- instruction in force that overrides the pins (R603)
  boundary : BitVec 2624 := 0
  query : Tab Word := []           -- selection registers of the management path (R632)
  deriving DecidableEq, Repr, Inhabited

/-- The TEST block (R604, R608). -/
structure TestU where
  ctrl : Word := 0
  bistSel : Word := 0
  bistResult : Word := 0
  bistBusy : Bool := false
  prbsCtrl : Word := 0
  prbsLock : Word := 0
  prbsErr : Word := 0
  cfgCount : Word := 0
  deriving DecidableEq, Repr, Inhabited

/-- Power-fail warning and reset state (R130, R612–R616, R643). -/
structure Pfw where
  asserted : Bool := false
  returnWait : Bool := false
  savedN : Nat := 0
  deriving DecidableEq, Repr, Inhabited

/-- The GLB block (R636–R639). -/
structure Glb where
  startCount : Word := 0
  doneSec : Word := 0
  doneNs : Word := 0
  scratch : Word := 0
  lastUnit : BitVec 16 := 0
  lastStatus : Byte := 0
  lastCount : BitVec 8 := 0
  uptime : Nat := 0                -- time since the last DONE release, in 2^−32 ns (R638)
  uptimeRun : Bool := false
  uptimeHi : Word := 0             -- snapshot of bits 63–32
  sysStart : Bool := false         -- SYS_START has risen (R453)
  deriving DecidableEq, Repr, Inhabited

/-- What the device emits, in order: messages, words and levels at its pins. -/
inductive Output where
  | hostWrite (port : Nat) (addr : DWord) (bytes : List Byte) (relaxed : Bool)
  | hostRead (port read : Nat) (addr : DWord) (len : Nat)
  | pme (port : Nat)
  | ltr (port micros : Nat)
  | msix (port vector : Nat) (addr : DWord) (data : Word)
  | regValue (port : Nat) (offset : Word) (value : Word)
  | mgmtResponse (via : MgmtIf) (bytes : List Byte)
  | mgmtNack (via : MgmtIf)
  | tdo (bits : List Bool)
  | cfgDout (bytes : List Byte)
  | rsi (pan tid line : Nat) (status : Byte) (data : Line) (last : Bool)
  | rqi (pan itag loc : Nat) (offset : BitVec 34) (write : Bool) (lines : Nat) (src : BitVec 16) (dev : BitVec 14)
      (be : DWord) (data : List Line)
  | qreq (pan : Nat) (level : Bool)
  | linkPacket (port : Nat) (p : Packet)
  | linkNak (port : Nat) (seq : BitVec 12)
  | linkHello (port : Nat) (h : Hello)
  | linkSleep (port : Nat) (k : SleepKind)
  | linkRelay (port : Nat) (state : Bool)
  | linkIdle (port : Nat) (ack : BitVec 12) (ackValid : Bool) (rspCredits reqCredits : Byte)
  | linkAn (port : Nat) (abilities : Word)
  | linkWake (port : Nat)
  | txLine (port : Nat) (line : Line)
  | uartChar (port : Nat) (frame : List Bool) (de : Bool)
  | spiByte (port : Nat) (line : Byte) (cs : BitVec 2) (mode : BitVec 2) (lanes : Nat)
  | i2cByte (port : Nat) (start : Bool) (byte : Option Byte) (nack : Bool)
  | i2cStop (port : Nat)
  | canFrame (port : Nat) (words : List Word)
  | channelRx (pan channel : Nat) (entry : Word)
  | ppsOut (level : Bool)
  deriving DecidableEq, Repr

end Sys2Proof.Machine
end

