-- ==== Sys2Proof/Machine/State.lean ====
section
/-! DEFINITION. The state of the block: everything the spec gives the device, the queue of waiting commands, and the
state right after reset. -/

namespace Sys2Proof.Machine

/-- The device: what outlives power first, then the volatile subsystems, then the model's own fields. -/
structure Dev where
  fuses : Tab Word := []               -- 512 fuse words (R570)
  nv : Tab NvUnit := []                -- pans 0–63, global area 64 (R119–R143)
  storeNv : StoreNv := {}              -- the Store (R147–R158)
  units : Tab UnitSt := []             -- by 16-bit unit ID (R7, R15)
  glb : Glb := {}
  pans : Tab Pan := []
  cfg : CfgEng := {}
  store : StoreCtl := {}
  rake : Rake := {}
  sl : Sluice := {}
  routes : Tab Word := []              -- route table by device ID (R446)
  banks : Tab Bank := []
  hps : Tab HostPort := []
  execs : Tab (Option Exec) := []
  nextExec : Nat := 0
  links : Tab LinkPort := []
  fports : Tab FPort := []
  pins : Pins := {}
  time : TimeU := {}
  pwr : Pwr := {}
  clk : Clk := {}
  bgs : Bgs := {}
  tele : Tele := {}
  fuse : Fuse := {}
  mgmt : Tab Mgmt := []                -- 0 SMBus, 1 JTAG
  mblk : MgmtBlk := {}
  test : TestU := {}
  pfw : Pfw := {}
  freeCtr : Nat := 0                   -- model's own: counts the free values taken
  out : List Output := []              -- model's own: what the device has emitted, oldest first
  deriving DecidableEq, Repr, Inhabited

/-- The state: the device and the commands that wait, first in, first out. -/
structure State where
  dev : Dev := {}
  pending : List Instr := []
  deriving DecidableEq, Repr

/-- Why a command stops the run. -/
inductive Fault where
  /-- The command names a unit, ring, pin or index that the device does not have (`Instr.wf` fails). Raised by
  `runCmd`. Safe: no such command reaches the hardware. -/
  | noSuchUnit
  deriving DecidableEq, Repr

/-- Why the model refuses a command. -/
inductive Refusal where
  /-- The command has no meaning yet. Raised by `exec`'s refused arms only. Safe. -/
  | notModelled (mnemonic : String)
  deriving DecidableEq, Repr

/-- The machine right after reset: the supplies are applied and the internal power-on reset is held (R612), so every
unit is OFF with epoch 0x0000 (R17) and every register stands at its Reset value (R12). The non-volatile state is that
of a blank part (DESIGN CHOICE, assumption 2). No command waits. -/
def State.reset : State := {}

end Sys2Proof.Machine
end

