-- ==== Sys2Proof/Config.lean ====
section
/-! DEFINITION. What the spec leaves to the part, and the free values: constants without a body, so that no proof can
lean on a value that the spec does not give. -/

namespace Sys2Proof.Machine

/-- What the I/O-ring frames of the global area hold (R468): the select arrays and the pin-bank registers. -/
structure IoRingCfg where
  pinSel : Tab Word := []
  sinkSel : Tab (Option (BitVec 2)) := []
  bankCfg : Tab Word := []
  filter : Tab Word := []
  evCfg : Tab (BitVec 2) := []
  wakeEn : Tab Bool := []
  deriving DecidableEq, Repr, Inhabited

/-- The FPORT registers a blank device does not have at Reset (R468, R496). -/
structure FportInit where
  ctrl : Word := 0
  clk : Word := 0x6C80
  fmt : Word := 8
  fifo : Word := 0x80
  nbt : Word := 0
  dbt : Word := 0
  idMatch : Word := 0
  idMask : Word := 0
  deriving DecidableEq, Repr, Inhabited

/-- What the hard-block frames of the global area hold (R468, R540, R544). -/
structure HardCfg where
  fports : Tab FportInit := []
  plls : Tab Pll := []
  clkIn : Word := 0
  domainEn : BitVec 127 := 0x7FFFFFFFFFFFFFFFFFFFFFFFFFFFFFFF
  deriving DecidableEq, Repr, Inhabited

end Sys2Proof.Machine

namespace Sys2Proof.Config

open Sys2Proof.Machine

/-- The places with which the places 0–6,143 of a block's array bits are exchanged, one after the other, to give the order of
the array (R52, R53). -/
opaque arraySwap : Nat → Nat

/-- What bits 2–31 of a macrocell's 32 bits select (R52, R67). -/
opaque macrocell : BitVec 30 → MacroCfg

/-- What the local routing bits of block `blk` select (R51, R52); it may differ from block to block. -/
opaque localRouting : (blk : Nat) → BitVec 1536 → LocalCfg

/-- What the control frames of a RAM column, minors 54–63, and the local routing of its switch points select for RAM block `r`
(R51, R52, R92). -/
opaque ramControl : (r : Nat) → List FrameBits → List (BitVec 1536) → RamCfg

/-- What the eight frames of multiply-add unit `u` and the local routing of its switch points select (R51, R52, R92). -/
opaque macUnit : (u : Nat) → List FrameBits → List (BitVec 1536) → MacCfg

/-- What drives the outward border port `i`, by the local routing of its switch point (R52, R92, R105). -/
opaque borderDrive : (i : Nat) → BitVec 1536 → Src

/-- What the 64 frames of border/clock column `g` select (R51, R52). -/
opaque borderClock : (g : Nat) → List FrameBits → BorderColCfg

/-- The unpublished layout of the I/O-ring frames (R468): frames of the global area by index 0–1,023. -/
opaque ioRing : Tab FrameBits → IoRingCfg

/-- The unpublished layout of the hard-block frames (R468, R540): frames of the global area by index 1,024–2,047. -/
opaque hardBlocks : Tab FrameBits → HardCfg

/-- The order of the boundary register's cells is in a file of the supplier (R602): the value and the output enable that
it gives a user pin. -/
opaque boundaryPin : Nat → BitVec 2624 → Bool × Bool

/-- A free bit: the value a combinational loop settles to, and every bit the spec leaves open. -/
opaque freeBool : Nat → Bool

/-- What a wire of a loop without a settled value reads as: by the counter, the pan and the wire. -/
opaque loopValue : Nat → Nat → Src → Bool

/-- A free word. -/
opaque freeWord : Nat → Word

/-- A free line. -/
opaque freeLine : Nat → Line

/-- A free byte. -/
opaque freeByte : Nat → Byte

/-- The nominal level of the rail VCCO_CFG in mV, a choice of the board (R609). -/
opaque vccoCfg : Nat

/-- *f*VCO in MHz of a PLL whose reference is a clock of the board (R539, R549): by the PLL and its settings. -/
opaque vcoMHz : Nat → Word → Word → BitVec 16

end Sys2Proof.Config
end

