-- ==== Sys2Proof/WellFormed.lean ====
section
/-! DEFINITION. Which commands name things the device has: unit, ring, pin, router and ingress indices within the
ranges of R7, and lists of the lengths the rules give. -/

namespace Sys2Proof

/-- A host port exists (R7). -/
def Issuer.wf : Issuer → Bool
  | .ring p q => p < 4 && q < 16
  | .smbus => true
  | .jtag => true

/-- The reader's path exists. -/
def Path.wf : Path → Bool
  | .host p => p < 4
  | .hostPart p => p < 4
  | .smbus => true
  | .jtag => true

/-- Only a host port has other spaces than BAR0, and every access of R349's form rule lies in BAR0 or BAR2. -/
def Path.has : Path → Space → Bool
  | .host _, _ => true
  | .hostPart _, .bar2 => true
  | _, s => s == .bar0

/-- A request names an ingress of R268 and carries one line of data for each line it writes (R280). -/
def SlReq.wf (r : SlReq) : Bool :=
  r.ingress < 92 && (if r.write then r.data.length == r.len.toNat + 1 else r.data.isEmpty) &&
    (match r.err with
     | .doubleHeader k => k < 64
     | _ => true)

/-- A packet carries at most eight lines (R438). -/
def Packet.wf (p : Packet) : Bool := p.payload.length ≤ 8

/-- The cells named exist: 64 pans of 6,144 frames, and the global area of 2,048 (R119, R176). -/
def StartCells.wf (c : StartCells) : Bool :=
  let ok (f : Nat × Nat) : Bool := (f.1 < 64 && f.2 < 6144) || (f.1 == 64 && f.2 < 2048)
  c.weakValid.all (· < 65) && c.weakFrames.all ok && c.badFrames.all ok

/-- The ranges of a command's operands. -/
def Instr.wf : Instr → Bool
  | .powerOnResetRelease _ c => c.wf
  | .progN _ c => c.wf
  | .pinBankEnable b _ _ => b < 16
  | .catalogueLoaded u => u.all (· < 2048)
  | .saveUnitErase u => u == 1984 || u == 1985
  | .startCountUnitErase u => u == 1986 || u == 1987
  | .stagingFrame l _ _ | .passEnd l => l < 4
  | .qack p | .quiesceTimeout p | .portDrained p | .captureDone p | .planeSwitch p | .borderRelease p => p < 64
  | .commitPoint p | .recordWordWritten p => p < 65
  | .nop i _ | .place i _ | .evict i _ | .migrate i _ | .hint i _ | .bind i _ | .poolCreate i _ | .poolFree i _
  | .copy i _ | .fill i _ | .scrub i _ | .retire i _ | .fliptest i _ | .snapshot i _ | .storeImage i _
  | .vaultWrite i _ | .vaultRead i _ _ | .timeSet i _ | .timeAdj i _ | .wait i _ | .fence i _ | .loopback i _
  | .badOpcode i _ => i.wf
  | .storeEraseDone u => u < 2048
  | .sluiceRequest r => r.wf
  | .reqStarvation r o => r < 64 && o < 9
  | .lookup i | .reply i | .responseDelivery i => i < 92
  | .inval r => r < 64
  | .reserve i d | .slotReturn i d => i < 92 && d < 160
  | .grant d => d < 160
  | .close p _ | .open p | .endpointRequest p => p < 64
  | .endpointResponse p t _ d => p < 64 && t < 32 && d.length ≤ 8
  | .domainWakeOnAccess d | .domainReady d | .resleepTimeout d => d < 127
  | .bankRequest b | .scrubStep b | .zeroFillStep b | .recodeStep b | .bankParityFault b | .pageCopyPass b
  | .pageMoveFinish b => b < 128
  | .bankSelftestStep b x l => b < 128 && x.line < 64 && l.all (· < 64)
  | .bankCtrlWrite p b _ | .flipArm p b _ | .clearCe p b _ | .clearUe p b _ => p.wf && b < 128
  | .pageMark i b => i < 92 && b < 128
  | .hostLinkUp p _ w _ _ => p < 4 && (w == 1 || w == 2 || w == 4 || w == 8)
  | .hostLinkDown p | .perstN ⟨p, _⟩ | .hotReset p | .functionLevelReset p | .hostPortParityFault p | .orphansCleared p
  | .hostCtrlEnable p _ | .eqDoorbell p _ => p < 4
  | .sqDoorbell p q _ => p < 4 && (q < 16 || (21 ≤ q && q < 256))
  | .cancelDoorbell p q _ | .descriptorFetch p q | .preread p q => p < 4 && q < 16
  | .cqDoorbell p q _ => p < 4 && q < 4
  | .ringEnable p r _ | .ringDisable p r _ | .msixHoldoffExpiry p r => p < 4 && r < 21
  | .hostReadCompletion p _ _ => p < 4
  | .busyRetry i _ | .busyWindowExpiry i _ => i.wf
  | .msixUnmask p v => p < 4 && v ≤ 64
  | .signatureCheck f | .deferredVerify f => f.all (· < 6144)
  | .panSelftestDone d => d.all fun x => x.1 < 4
  | .wearSizeWrite p _ | .teleClear p _ | .teleRec0Read p | .clkMeasStart p _ | .alarmArm p _
  | .timeIncFracWrite p _ | .timeCtrlWrite p _ | .timeSecLoRead p | .fuseNarrow p _ | .bistStart p _
  | .prbsEnable p _ | .mgmtCountRead p | .testCfgCountRead p | .cfgPassCountRead p | .cfgFramesRead p
  | .glbUptimeLoRead p => p.wf
  | .registerWrite p s _ _ => p.wf && p.has s
  | .telemetrySample t v _ => t.length == 72 && v.length == 12
  | .unitStopAccept u | .unitStopRefuse u => u < 65536
  | .wakeEvent _ u _ c => u < 65536 && c.wf
  | .pllLossOfLock p | .pllRelock p => p < 16
  | .linkTrainStart p _ | .pcsLinkUp p _ | .pcsLinkLost p _ | .hello p _ | .helloSend p | .helloMissing p
  | .trainTimeout p | .breraLinkLost p _ | .nak p _ | .linkIdleBlock p _ _ _ _ | .ackTimeout p | .relayBlock p _
  | .sleepBlock p _ | .sleepAnswerTimeout p | .signalLost p | .txLinePull p | .txUnderrun p
  | .linkParityFault p => p < 96
  | .breraPacket p k => p < 96 && k.wf
  | .xidTimeout p e | .xidQuarantineEnd p e => p < 96 && e < 512
  | .rxLine p w c _ _ => p < 96 && w.length == c.length && w.length ≤ 6
  | .routeTableWrite a p _ => a.wf && p < 96
  | .fportStart p | .uartRxCharacter p _ _ _ _ | .uartTxCharacter p | .spiByte p _ | .spiCsEnd p | .i2cByte p _ _ _ _ _
  | .i2cStretchTimeout p | .canTxFrame p _ | .canBusOff p | .fportParityFault p => p < 24
  | .canRxFrame p w _ => p < 24 && w.length ≤ 18
  | .fportTxdataWrite a p _ => a.wf && p < 24
  | .fportRxdataRead a p | .fportCountRead a p => a.wf && p < 24
  | .fieldChannelTx p c _ => p < 64 && c < 4
  | .pinSelWrite a p _ => a.wf && p < 768
  | .pinEdge p _ => p < 768
  | .pinBankParityFault b => b < 16
  | .panGsrWrite a p _ => a.wf && p < 64
  | .userGsrWire p _ => p < 64
  | .regRead (.mgmt _) _ | .regRead .alert _ => true
  | .regRead (.host a _) _ => a.wf && decide (a ≠ .smbus) && decide (a ≠ .jtag)
  | .hostDropCountRead a p | .hostEqLostRead a p | .hostLostCplRead a p => a.wf && p < 4
  | .linkFecCeRead a p | .linkFecUeRead a p | .linkReplayRead a p | .linkDropRead a p => a.wf && p < 96
  | .bufWrite _ _ b => decide (1 ≤ b.length) && decide (b.length ≤ 238)
  | .userClockEdge p e => p < 64 && e.all (·.1 < 16)
  | .laneParityFault l => l < 4
  | .quadPllLossOfLock q => q < 24
  | .pfwReturnTimeout _ c => c.wf
  | .brownOut _ ps => ps.all fun p => decide (p < 64)
  | .doneRelease _ | .ioEnable _ | .vaultIndexBuilt | .syncSequence _ | .chainRecord _ _
  | .nopRecord _ _ | .regwRecord _ _ | .keyRecord _ _ | .tagRecord _ _ | .pansetRecord _ _ | .framesRecord _ _ _
  | .endRecord _ _ | .unknownRecord _ _ _ | .foreignRecord _ _ _ | .cfgTimeout | .passStart | .prestageStart
  | .storeProgramDone _ | .vaultCompaction | .timeSetPpsTimeout | .slewEnd | .arbitrationStarvation _ _ _ | .invalAck
  | .marginCheck _ _ | .calibration | .panSelftestStart | .tokenRefill | .activityWindowEnd | .pfwAssert | .pfwReturn
  | .pwrStopTimeout | .wakeComplete _ | .lfCrystalTimeout | .clkMeasDone _ | .ppsEdge _ | .ppsLost | .refLost
  | .refReturn | .coarseCalibration | .holdoverTick | .ppsOutPulse | .ppsOutFall | .alarmFire | .timeUnitParityFault
  | .deepEntryC0 _ | .wakeReloadC1 _ | .relaySend | .sysStart _ | .fuseProgram _ _ _ | .fuseLock _ _
  | .fuseRollback _ _ | .mirrorRead _ _ | .unitCmdStop _ _ _ _ | .unitCmdStart _ _ _ _ | .unitCmdRecover _ _ _ _
  | .unitCmdRetire _ _ _ _ | .unitCmdReturn _ _ _ _ | .unitCmdLoop _ _ _ _ | .rdbkStart _ _ _ _ | .rdbkData _
  | .descSubmit _ _ | .descResult _ | .bufRead _ _ _ | .regWrite _ _ _ | .smbusBadCommand _ _
  | .smbusSclTimeout | .jtagIdcode | .jtagSamplePreload _ _ | .jtagExtest | .jtagClamp | .jtagHighz
  | .jtagExtestPulse | .jtagExtestTrain | .jtagMgmtAccess _ | .jtagRdbkStream _ | .jtagBypass _
  | .jtagInstructionExit | .deviceParityFault | .rakeParityFault | .portControllerParityFault | .storeParityFault
  | .managementParityFault _ | .fuseBitVerified _ _ => true

end Sys2Proof
end

