-- ==== Sys2Proof/Machine/Ops.lean ====
section
/-! DEFINITION. The named operations every family uses: running a command, units and their transitions, partitions,
events, interrupts, completions and the start of a descriptor. -/

namespace Sys2Proof.Machine

/-- The outcome type of the block. -/
abbrev Res := Host.Outcome State Fault Refusal

/-- Run a command's effect on the device; the queue is untouched. A command that names what the device does not have
is a fault. -/
def runCmd (i : Instr) (f : Dev → Dev) (s : State) : Res :=
  if i.wf then .next { s with dev := f s.dev } else .fault .noSuchUnit

/-! ### Unit IDs (R7) -/

/-- Unit ID of pan `p`. -/
def uPan (p : Nat) : Nat := 0x1000 + p
/-- Unit ID of bank `n`. -/
def uBank (n : Nat) : Nat := 0x2000 + n
/-- Unit ID of link port `n`. -/
def uLink (n : Nat) : Nat := 0x3000 + n
/-- Unit ID of field port `f`. -/
def uFport (f : Nat) : Nat := 0x4000 + f
/-- Unit ID of host port `n`. -/
def uHost (n : Nat) : Nat := 0x5000 + n
/-- Unit ID of pin bank `b`. -/
def uPinBank (b : Nat) : Nat := 0x6000 + b
/-- The time unit. -/
def uTime : Nat := 0x7000
/-- Configuration lane `l`. -/
def uLane (l : Nat) : Nat := 0x8000 + l
/-- The configuration port and chain controller. -/
def uCfgPort : Nat := 0x8FFF
/-- The Rake. -/
def uRake : Nat := 0x9000
/-- Sluice router `r`. -/
def uRouter (r : Nat) : Nat := 0xA000 + r
/-- The Store. -/
def uStore : Nat := 0xB000
/-- Background services. -/
def uBgs : Nat := 0xC000
/-- Clock unit `k`. -/
def uClk (k : Nat) : Nat := 0xE000 + k
/-- A management interface. -/
def uMgmt : MgmtIf → Nat
  | .smbus => 0xF000
  | .jtag => 0xF001

/-- Class and index of a unit ID. -/
def unitClass (u : Nat) : Nat := u / 4096 % 16
/-- Index of a unit ID within its class. -/
def unitIdx (u : Nat) : Nat := u % 4096

/-- How many units each class has, the port controller apart (R7). -/
def classCount : Nat → Nat
  | 0x0 => 1 | 0x1 => 64 | 0x2 => 128 | 0x3 => 96 | 0x4 => 24 | 0x5 => 4 | 0x6 => 16 | 0x7 => 1
  | 0x8 => 4 | 0x9 => 1 | 0xA => 64 | 0xB => 1 | 0xC => 1 | 0xD => 127 | 0xE => 16 | 0xF => 2
  | _ => 0

/-- The unit exists. -/
def unitExists (u : Nat) : Bool := u == uCfgPort || (u < 65536 && unitIdx u < classCount (unitClass u))

/-- Every unit of the device, in ascending ID. -/
def allUnits : List Nat :=
  (List.range 16).flatMap fun c =>
    (List.range (classCount c)).map (fun i => c * 4096 + i) ++ (if c = 8 then [uCfgPort] else [])

/-- The states of R15 as numbers. -/
def UState.code : UState → Nat
  | .off => 0 | .idle => 1 | .staged => 2 | .running => 3 | .quiesced => 4 | .asleep => 5 | .faulted => 6 | .retired => 7

/-- States a class uses (R16). -/
def legalState (u : Nat) (s : UState) : Bool :=
  let c := unitClass u
  match s with
  | .off => true
  | .idle => c == 1 || c == 3 || c == 4 || c == 5 || c == 8
  | .staged => c == 1
  | .running => true
  | .quiesced => c == 1 || c == 3 || c == 4 || c == 9 || c == 0xC
  | .asleep => c != 0xE && c != 0xF
  | .faulted => c != 0xC && c != 0xD
  | .retired => c == 1 || c == 2 || c == 3 || c == 0xF

/-! ### Accessors -/

/-- A unit's state register. -/
def Dev.unit (d : Dev) (u : Nat) : UnitSt := d.units.get {} u
/-- A unit's state. -/
def Dev.ust (d : Dev) (u : Nat) : UState := (d.unit u).st
/-- A pan. -/
def Dev.pan (d : Dev) (p : Nat) : Pan := d.pans.get {} p
/-- Replace a pan. -/
def Dev.setPan (d : Dev) (p : Nat) (v : Pan) : Dev := { d with pans := d.pans.set {} p v }
/-- Change a pan. -/
def Dev.modPan (d : Dev) (p : Nat) (f : Pan → Pan) : Dev := d.setPan p (f (d.pan p))
/-- The non-volatile part of a pan (0–63) or of the global area (64). -/
def Dev.nvu (d : Dev) (u : Nat) : NvUnit := d.nv.get {} u
/-- Change it. -/
def Dev.modNv (d : Dev) (u : Nat) (f : NvUnit → NvUnit) : Dev := { d with nv := d.nv.modify {} u f }
/-- A bank. -/
def Dev.bank (d : Dev) (n : Nat) : Bank := d.banks.get {} n
/-- Replace a bank. -/
def Dev.setBank (d : Dev) (n : Nat) (v : Bank) : Dev := { d with banks := d.banks.set {} n v }
/-- Change a bank. -/
def Dev.modBank (d : Dev) (n : Nat) (f : Bank → Bank) : Dev := d.setBank n (f (d.bank n))
/-- A host port. -/
def Dev.hp (d : Dev) (p : Nat) : HostPort := d.hps.get {} p
/-- Change a host port. -/
def Dev.modHp (d : Dev) (p : Nat) (f : HostPort → HostPort) : Dev := { d with hps := d.hps.modify {} p f }
/-- A submission ring of a port. -/
def HostPort.sq (h : HostPort) (q : Nat) : Sq := h.sqs.get {} q
/-- A completion ring of a port. -/
def HostPort.cq (h : HostPort) (q : Nat) : Cq := h.cqs.get {} q
/-- Change a submission ring. -/
def Dev.modSq (d : Dev) (p q : Nat) (f : Sq → Sq) : Dev := d.modHp p fun h => { h with sqs := h.sqs.modify {} q f }
/-- Change a completion ring. -/
def Dev.modCq (d : Dev) (p q : Nat) (f : Cq → Cq) : Dev := d.modHp p fun h => { h with cqs := h.cqs.modify {} q f }
/-- A link port. -/
def Dev.link (d : Dev) (n : Nat) : LinkPort := d.links.get {} n
/-- Change a link port. -/
def Dev.modLink (d : Dev) (n : Nat) (f : LinkPort → LinkPort) : Dev := { d with links := d.links.modify {} n f }
/-- A field port. -/
def Dev.fport (d : Dev) (n : Nat) : FPort := d.fports.get {} n
/-- Change a field port. -/
def Dev.modFport (d : Dev) (n : Nat) (f : FPort → FPort) : Dev := { d with fports := d.fports.modify {} n f }
/-- A pin. -/
def Dev.pin (d : Dev) (n : Nat) : Pin := d.pins.pins.get {} n
/-- Change a pin. -/
def Dev.modPin (d : Dev) (n : Nat) (f : Pin → Pin) : Dev :=
  { d with pins := { d.pins with pins := d.pins.pins.modify {} n f } }
/-- An executing descriptor. -/
def Dev.exec (d : Dev) (e : Nat) : Option Exec := d.execs.get none e
/-- Change what an executing descriptor waits for. -/
def Dev.setKind (d : Dev) (e : Nat) (k : ExecKind) : Dev :=
  { d with execs := d.execs.modify none e fun o => o.map fun x => { x with kind := k } }
/-- An operation of the Rake. -/
def Dev.op (d : Dev) (e : Nat) : Option Op := d.rake.ops.get none e
/-- Replace or remove an operation of the Rake. -/
def Dev.setOp (d : Dev) (e : Nat) (o : Option Op) : Dev :=
  { d with rake := { d.rake with ops := d.rake.ops.set none e o } }
/-- A management interface's state. -/
def Dev.mg (d : Dev) : MgmtIf → Mgmt
  | .smbus => d.mgmt.get {} 0
  | .jtag => d.mgmt.get {} 1
/-- Change it. -/
def Dev.modMg (d : Dev) (v : MgmtIf) (f : Mgmt → Mgmt) : Dev :=
  { d with mgmt := d.mgmt.modify {} (match v with | .smbus => 0 | .jtag => 1) f }
/-- What the device emits next. -/
def Dev.emit (d : Dev) (o : Output) : Dev := { d with out := d.out ++ [o] }
/-- Take the next free value's index. -/
def Dev.takeFree (d : Dev) : Nat × Dev := (d.freeCtr, { d with freeCtr := d.freeCtr + 1 })

/-! ### Arbitration (R36–R38, R272) -/

/-- The requesters of R36. Background services stand in R36's order: 0 scrub, 1 signature check, 2 refresh, 3 calibration,
4 bank self-test, 5 pan self-test, 6 zero-fill; then 7 page copies and 8 re-encoding, which R311 puts into the tier and R36
does not list (assumption 80). -/
inductive Claimant where
  | power
  | mgmt (via : MgmtIf)
  | host (port ring : Nat)
  | rake
  | lane (l : Nat)
  | cfgPort
  | pan (p : Nat)
  | background (k : Nat)
  deriving DecidableEq, Repr

/-- Tier and rank of a requester (R36). -/
def Claimant.contender : Claimant → Contender
  | .power => ⟨1, 0⟩
  | .mgmt .smbus => ⟨2, 0⟩
  | .mgmt .jtag => ⟨2, 1⟩
  | .host p q => ⟨3, 16 * p + q⟩
  | .rake => ⟨4, 0⟩
  | .lane l => ⟨4, 1 + l⟩
  | .cfgPort => ⟨4, 5⟩
  | .pan p => ⟨5, p⟩
  | .background k => ⟨6, k⟩

/-- The contender of the earliest tier wins, then the lowest rank (R36). -/
def contenderBefore (a b : Contender) : Bool := decide (a.tier < b.tier) || (a.tier == b.tier && decide (a.rank < b.rank))

/-- 0 for tiers 1 and 2, 1 for a request that has starved at resource `res`, 2 for any other (R38). -/
def Dev.grantLevel (d : Dev) (res : Nat) (c : Contender) : Nat := if c.tier ≤ 2 then 0 else if d.sl.boost.contains (res, c) then 1 else 2

/-- Of two contenders at a resource, the first is granted (R36, R38). -/
def Dev.grantBefore (d : Dev) (res : Nat) (a b : Contender) : Bool :=
  decide (d.grantLevel res a < d.grantLevel res b) || (d.grantLevel res a == d.grantLevel res b && contenderBefore a b)

/-- A contender is granted a resource: it starves no longer. -/
def Dev.grantTo (d : Dev) (res : Nat) (c : Contender) : Dev :=
  { d with sl := { d.sl with boost := d.sl.boost.filter fun x => x != (res, c) } }

/-- Contender of a Sluice request: the tier of its ingress, then the ingress index (R272). -/
def SlIn.contender (q : SlIn) : Contender := ⟨q.tier, q.ingress⟩

/-- Put a list into an order, equal elements as they stood. -/
def orderBy {α : Type} (before : α → α → Bool) (l : List α) : List α := l.foldr ins []
where
  /-- Put an element before the first that does not come before it. -/
  ins (x : α) : List α → List α
    | [] => [x]
    | y :: ys => if before y x then y :: ins x ys else x :: y :: ys

/-! ### Partitions (R580–R583) -/

/-- The partition of a template whose ENABLE is 0 (R581). -/
def openPartition : Partition :=
  { pans := BitVec.allOnes 64, banks := BitVec.allOnes 128, links := BitVec.allOnes 96, fports := BitVec.allOnes 24
    pinBanks := BitVec.allOnes 16, grants := BitVec.allOnes 16, tagLo := 1, tagHi := 0xEFFF, handleLo := 0xF000
    handleHi := 0xFFFF, regs := BitVec.allOnes 13, all := true }

/-- Partition 0–3 of a host port, 4 of the management path. -/
def Dev.part (d : Dev) (i : Nat) : Partition := d.fuse.parts.get openPartition i

/-- The partition includes some port of the quad. -/
def Partition.hasQuad (p : Partition) (q : Nat) : Bool := (List.range 4).any fun j => p.links.getLsbD (4 * q + j)

/-- Partition number `i` includes unit `u` (R580, R581, R583). -/
def Dev.inPart (d : Dev) (i u : Nat) : Bool :=
  let p := d.part i
  let k := unitIdx u
  match unitClass u with
  | 0x1 => p.pans.getLsbD k
  | 0x2 => p.banks.getLsbD k
  | 0x3 => p.links.getLsbD k
  | 0x4 => p.fports.getLsbD k
  | 0x5 => p.all || i == 4 || i == k
  | 0x6 => p.pinBanks.getLsbD k
  | 0x7 => p.grants.getLsbD 0
  | 0xD =>
    if k < 64 then p.pans.getLsbD k
    else if k < 80 then (List.range 8).any fun j => p.banks.getLsbD (8 * (k - 64) + j)
    else if k < 104 then p.hasQuad (k - 80)
    else if k < 108 then p.all || i == 4 || i == k - 104
    else if k == 108 || k ≥ 125 then true
    else p.pinBanks.getLsbD (k - 109) || (List.range 2).any fun j => p.fports.getLsbD (2 * (k - 109) + j)
  | 0xF => p.all || i == 4
  | _ => true

end Sys2Proof.Machine

namespace Sys2Proof

open Sys2Proof.Machine

/-- The reader's partition number: host port 0–3, management path 4 (R632). -/
def Path.reader : Path → Nat
  | .host p | .hostPart p => p
  | _ => 4

/-- The access is of one aligned DW with all four byte enables (R349). -/
def Path.whole : Path → Bool
  | .hostPart _ => false
  | _ => true

/-- The issuer's partition number. -/
def Issuer.reader : Issuer → Nat
  | .ring p _ => p
  | _ => 4

/-- The unit that issues a descriptor. -/
def Issuer.unit : Issuer → Nat
  | .ring p _ => uHost p
  | .smbus => uMgmt .smbus
  | .jtag => uMgmt .jtag

/-- The requester that an issuer is (R36). -/
def Issuer.claimant : Issuer → Claimant
  | .ring p q => .host p q
  | .smbus => .mgmt .smbus
  | .jtag => .mgmt .jtag

/-- The owner code of what an issuer makes: 0–3 host port, 0xF management path (R228). -/
def Issuer.owner : Issuer → BitVec 4
  | .ring p _ => BitVec.ofNat 4 p
  | _ => 0xF

end Sys2Proof

namespace Sys2Proof.Machine

/-- A tag lies in the range a partition grants, clipped to the endpoint tags (R581). -/
def Partition.hasTag (p : Partition) (t : Nat) : Bool :=
  p.tagLo.toNat ≤ t && t ≤ p.tagHi.toNat && 1 ≤ t && t ≤ 0xEFFF

/-- A handle lies in the range a partition grants. -/
def Partition.hasHandle (p : Partition) (t : Nat) : Bool :=
  p.handleLo.toNat ≤ t && t ≤ p.handleHi.toNat && 0xF000 ≤ t && t ≤ 0xFFFF

/-- The grants of W10 (R580). -/
def Partition.time (p : Partition) : Bool := p.grants.getLsbD 0
/-- Power control. -/
def Partition.power (p : Partition) : Bool := p.grants.getLsbD 1
/-- STORE_WRITE. -/
def Partition.storeWrite (p : Partition) : Bool := p.grants.getLsbD 2
/-- Vault records of owner `o` (0–3, 4 management path). -/
def Partition.vault (p : Partition) (o : Nat) : Bool := p.grants.getLsbD (3 + o)
/-- Module images of key slot `s`; 0xFF needs no grant (R413). -/
def Partition.slot (p : Partition) (s : Nat) : Bool := s == 0xFF || (s < 8 && p.grants.getLsbD (8 + s))

/-! ### Interrupts and events (R374–R376, R394) -/

/-- Entries of a ring (R354). -/
def ringSize (cfg : Word) : Nat := 2 ^ fld cfg 8 5

/-- Unconsumed records of a CQ or the EQ. -/
def Cq.count (c : Cq) : Nat := (c.tail + ringSize c.cfg - c.head) % ringSize c.cfg

/-- Slots the device may still write (R355). -/
def Cq.free (c : Cq) : Nat := ringSize c.cfg - 1 - c.count

/-- The function is in D3hot (R343). -/
def CfgSpace.d3 (c : CfgSpace) : Bool := c.pmcsr.getLsbD 0 && c.pmcsr.getLsbD 1

/-- The registers of the configuration space that hold a word each: the key it is kept under, its reset value, the bits that a
write sets and those that a 1 clears. PRESUMED: the standard's layout and reset values; but Command stands at 0x0006 at reset,
Memory Space and Bus Master enabled, since R348 and R350 ask for no more than a RUNNING port (DESIGN CHOICE; assumption 81). -/
def cfgHeld : CfgReg → Option (Nat × Word × Word × Word)
  | .command => some (0, 0x00100006, 0x00000146, 0xF9000000)
  | .bar 0 => some (10, 0x4, 0xFFC00000, 0)
  | .bar 1 => some (11, 0, 0xFFFFFFFF, 0)
  | .bar 2 => some (12, 0x4, 0xFFF00000, 0)
  | .bar 3 => some (13, 0, 0xFFFFFFFF, 0)
  | .bar 4 => some (14, 0x4, 0xFFFFE000, 0)
  | .bar 5 => some (15, 0, 0xFFFFFFFF, 0)
  | .uncStatus => some (1, 0, 0, 0x001FF030)
  | .uncMask => some (2, 0, 0x001FF030, 0)
  | .uncSeverity => some (3, 0x00062030, 0x001FF030, 0)
  | .corStatus => some (4, 0, 0, 0x000031C1)
  | .corMask => some (5, 0x00002000, 0x000031C1, 0)
  | .linkControl2 => some (6, 0x00000005, 0x0000FFBF, 0)
  | .linkControl3 => some (7, 0, 0x00000003, 0)
  | .laneError => some (8, 0, 0, 0x000000FF)
  | .dataLink => some (9, 0x80000001, 0, 0)
  | .phy16Status => some (16, 0, 0, 0x00000010)
  | .phy32Control => some (17, 0, 0x00000703, 0)
  | .phy32Status => some (18, 0, 0, 0x00000020)
  | .ltrLatency => some (19, 0, 0x1FFF1FFF, 0)
  | .laneMargin k => if k < 8 then some (32 + k, 0x00009C38, 0x0000FF7F, 0) else none
  | _ => none

/-- A held register's word. -/
def CfgSpace.word (c : CfgSpace) (r : CfgReg) : Word :=
  match cfgHeld r with
  | some (k, reset, _, _) => c.more.get reset k
  | none => 0

/-- Change a held register's word. -/
def CfgSpace.modWord (c : CfgSpace) (r : CfgReg) (f : Word → Word) : CfgSpace :=
  match cfgHeld r with
  | some (k, reset, _, _) => { c with more := c.more.modify reset k f }
  | none => c

/-- The function takes accesses of its BARs: it is in D0, with Memory Space enabled (R343). -/
def CfgSpace.serves (c : CfgSpace) : Bool := !c.d3 && bit (c.word .command) 1

/-- The function makes requests of its own: it is in D0, with Bus Master enabled (R343). -/
def CfgSpace.asks (c : CfgSpace) : Bool := !c.d3 && bit (c.word .command) 2

/-- The function sends MSI-X messages: they are enabled, and it is not masked (R343, R376). -/
def CfgSpace.sends (c : CfgSpace) : Bool := c.msixOn && !c.fmask

/-- A port is RUNNING and its function may make requests (R343, R350). -/
def Dev.hostRuns (d : Dev) (p : Nat) : Bool := d.ust (uHost p) == .running && (d.hp p).conf.asks

/-- A posted write to host memory leaves the port; it waits there while the function may make no request (R343). -/
def Dev.postHost (d : Dev) (p : Nat) (addr : DWord) (bs : List Byte) (relaxed : Bool) : Dev :=
  if (d.hp p).conf.asks then d.emit (.hostWrite p addr bs relaxed)
  else d.modHp p fun h => { h with posted := h.posted ++ [(addr, bs, relaxed)] }

/-- Send an MSI-X message to the address that the vector's table entry holds, or set its pending bit while the vector or the
function is masked, MSI-X is not enabled, or the function may make no request (R343, R344, R376). A port that is not RUNNING
writes nothing to host memory (R350). -/
def Dev.sendMsix (d : Dev) (p v : Nat) : Dev :=
  let m := (d.hp p).table.get {} v
  if d.ust (uHost p) != .running then d
  else if m.masked || !(d.hp p).conf.sends || !(d.hp p).conf.asks then d.modHp p fun h => { h with pendBits := h.pendBits.set false v true }
  else d.emit (.msix p v m.addr m.data)

/-- The vector of a ring is requested: sent at once, or held while HOLDOFF runs (R376). -/
def Cq.request (c : Cq) : Cq × Bool :=
  if !bit c.cfg 1 then (c, false)
  else if c.holding then ({ c with owed := true }, false)
  else ({ c with holding := decide (fld c.cfg 24 8 ≠ 0) }, true)

/-- Ring base address (R354). -/
def ringBase (lo hi : Word) : Nat := hi.toNat * 2 ^ 32 + fld lo 12 20 * 4096

/-- Write one record at TAIL and advance it (R370, R371). -/
def Cq.advance (c : Cq) : Cq :=
  if c.tail + 1 < ringSize c.cfg then { c with tail := c.tail + 1 } else { c with tail := 0, phase := !c.phase }

/-- The time of an event record (R394). -/
def Dev.stampWords (d : Dev) : List Word :=
  [BitVec.ofNat 32 d.time.sec.toNat,
   pack [(d.time.sec.toNat / 2 ^ 32, 0, 16), (d.time.frac.toNat / 2 ^ 24, 16, 16)],
   pack [(d.time.ns.toNat, 0, 30)], pack [(d.time.quality.toNat, 0, 3)]]

/-- The bytes of words, little-endian. -/
def wordsBytes (ws : List Word) : List Byte := ws.flatMap fun w => leBytes 4 w.toNat

/-- The bytes of an event record (R394). -/
def eventBytes (phase : Bool) (e : HeldEv) : List Byte :=
  wordsBytes ([pack [(e.code, 0, 8), (e.status, 8, 8), (unitClass e.unit, 16, 4), (b2n phase, 31, 1)], pack [(e.unit, 0, 16)]] ++
    e.stamp ++ [e.data.setWidth 32, (e.data >>> 32).setWidth 32])

/-- Write an event into the EQ of a port that has room (R374). -/
def Dev.writeEvent (d : Dev) (p : Nat) (e : HeldEv) : Dev :=
  let q := (d.hp p).eq
  let d1 := d.emit (.hostWrite p (BitVec.ofNat 64 (ringBase q.baseLo q.baseHi + 32 * q.tail)) (eventBytes q.phase e) false)
  let (q2, msg) := q.advance.request
  let d2 := d1.modHp p fun h => { h with eq := q2 }
  if msg then d2.sendMsix p (fld q.cfg 16 6) else d2

/-- Write the EVENTS_LOST event that is owed once two slots are free (R374, R375). -/
def Dev.flushLost (d : Dev) (p : Nat) : Dev :=
  let h := d.hp p
  if h.eqLost > 0 && h.eq.enabled && 2 ≤ h.eq.free then
    (d.modHp p fun h => { h with eqLost := 0 }).writeEvent p
      { unit := uHost p, code := 0x02, status := 0, data := BitVec.ofNat 64 (h.eqLost % 2 ^ 32), stamp := d.stampWords }
  else d

/-- Deliver a stamped event to a RUNNING port (R374, R356). -/
def Dev.deliverEvent (d : Dev) (p : Nat) (e : HeldEv) : Dev :=
  let h := d.hp p
  if !h.eq.enabled then d.modHp p fun h => { h with eqDisabled := satInc h.eqDisabled }
  else
    let d1 := d.flushLost p
    let h1 := d1.hp p
    if h1.eqLost > 0 || h1.eq.free = 0 then
      d1.modHp p fun h => { h with eqFull := satInc h.eqFull, eqLost := h.eqLost + 1 }
    else d1.writeEvent p e

/-- A function that may make no request holds an event until it may; in D3hot it sets PME_Status and asks for PME where PME_En is set (R343). PRESUMED: no rule
says what raises PME (assumption 81). -/
def Dev.holdForD0 (d : Dev) (p : Nat) (e : HeldEv) : Dev :=
  let d1 := d.modHp p fun h => { h with evHeld := h.evHeld ++ [e], conf := { h.conf with pmcsr := h.conf.pmcsr ||| if h.conf.d3 then 0x8000 else 0 } }
  if (d.hp p).conf.d3 && (d.hp p).conf.pmcsr.getLsbD 8 && !(d.hp p).conf.pmcsr.getLsbD 15 then d1.emit (.pme p) else d1

/-- Raise an event at one host port (R374, R350, R351). A port that sleeps from RUNNING writes it at its wake; one whose rings
still wait for orphans discards it. -/
def Dev.eventAt (d : Dev) (p u code status : Nat) (data : DWord) : Dev :=
  let e : HeldEv := { unit := u, code := code, status := status, data := data, stamp := d.stampWords }
  let o := d.unit (uHost p)
  match o.st with
  | .running =>
    if (d.hp p).orphans then d.modHp p fun h => { h with lostCpl := satInc h.lostCpl }
    else if !(d.hp p).conf.asks then d.holdForD0 p e
    else d.deliverEvent p e
  | .asleep =>
    if o.prior == .running then d.modHp p fun h => { h with evHeld := h.evHeld ++ [e] }
    else d.modHp p fun h => { h with eqDisabled := satInc h.eqDisabled }
  | _ =>
    if (d.hp p).orphans then d.modHp p fun h => { h with lostCpl := satInc h.lostCpl }
    else d.modHp p fun h => { h with eqDisabled := satInc h.eqDisabled }

/-- At its wake, or its return to D0, a port writes the events it held (R374). -/
def Dev.flushHeld (d : Dev) (p : Nat) : Dev :=
  let l := (d.hp p).evHeld
  if !d.hostRuns p then d else
  foldS (fun d e => d.deliverEvent p e) (d.modHp p fun h => { h with evHeld := [] }) l

/-- Raise an event of unit `u` on the event ring of each host whose partition includes `about` (R33, R374). -/
def Dev.eventFor (d : Dev) (about u code status : Nat) (data : DWord) : Dev :=
  foldS (fun d p => if d.inPart p about then d.eventAt p u code status data else d) d [0, 1, 2, 3]

/-- Raise an event of unit `u`. -/
def Dev.event (d : Dev) (u code status : Nat) (data : DWord) : Dev := d.eventFor u u code status data

/-! ### Transitions (R23, R33, R34) -/

/-- What causes a transition (R34). -/
inductive Cause where
  | host (port : Nat)
  | mgmt (via : MgmtIf)
  | device
  deriving DecidableEq, Repr

end Sys2Proof.Machine

namespace Sys2Proof

open Sys2Proof.Machine

/-- The cause that an issuer's command is. -/
def Issuer.cause : Issuer → Machine.Cause
  | .ring p _ => .host p
  | .smbus => .mgmt .smbus
  | .jtag => .mgmt .jtag

end Sys2Proof

namespace Sys2Proof.Machine

/-- CAUSE and ORIGIN of R34. -/
def Cause.code : Cause → Nat × Nat
  | .host p => (0, uHost p)
  | .mgmt v => (1, uMgmt v)
  | .device => (2, 0)

/-- The epoch after a transition: 0xFFFE is followed by 0x0000 (R23). -/
def nextEpoch (e : BitVec 16) : BitVec 16 := if e = 0xFFFE then 0 else e + 1

/-- A transition is reported to host port `p` (R33). -/
def reported (new old : UState) (c : Cause) (p : Nat) : Bool :=
  if new == .asleep || old == .asleep then false
  else if new == .faulted || new == .retired then true
  else match c with
    | .host q => q != p
    | .mgmt _ => true
    | .device => false

/-- Write a unit's state register: the new state, the next epoch (R23). -/
def Dev.putUnit (d : Dev) (u : Nat) (new : UState) : Dev :=
  let o := d.unit u
  { d with units := d.units.set {} u { st := new, epoch := nextEpoch o.epoch, prior := if new == .asleep then o.st else .off } }

/-- The notes a fault leaves: GLB_LAST_FAULT and MGMT_ERR.FAULT (R639, R593). -/
def Dev.noteFault (d : Dev) (u status : Nat) : Dev :=
  { d with
    glb := { d.glb with lastUnit := BitVec.ofNat 16 u, lastStatus := BitVec.ofNat 8 status, lastCount := satInc d.glb.lastCount }
    mblk := { d.mblk with err := d.mblk.err ||| 0x20 } }

/-- One transition of a unit's state (R23, R33). -/
def Dev.setUnit (d : Dev) (u : Nat) (new : UState) (c : Cause) : Dev :=
  let o := d.unit u
  if o.st = new then d
  else
    let d1 := d.putUnit u new
    let (cc, org) := c.code
    let data := pack64 [((d1.unit u).epoch.toNat, 0, 16), (new.code, 16, 4), (o.st.code, 20, 4), (cc, 24, 8), (org, 32, 16)]
    foldS (fun d p => if d.inPart p u && reported new o.st c p then d.eventAt p u 0x80 0 data else d) d1 [0, 1, 2, 3]

/-- A unit returns to a state that it held before; a return to FAULTED raises no FAULT event, and is noted (R43, R639). -/
def Dev.returnUnit (d : Dev) (u : Nat) (s : UState) (c : Cause) : Dev :=
  (if s == .faulted then d.noteFault u 0 else d).setUnit u s c

/-- A unit enters FAULTED: the FAULT event, then the transition (R20, R395). -/
def Dev.fault (d : Dev) (u status : Nat) (data : DWord) : Dev :=
  ((d.event u 0x81 status data).noteFault u status).setUnit u .faulted .device

/-! ### Status codes (R396) -/

/-- DONE. -/
def stDone : Nat := 0x00
/-- REFUSED. -/
def stRefused : Nat := 0x01
/-- EPOCH_STALE. -/
def stStale : Nat := 0x02
/-- CANCELLED. -/
def stCancelled : Nat := 0x03
/-- PERMISSION. -/
def stPerm : Nat := 0x04
/-- BAD_DESCRIPTOR. -/
def stBad : Nat := 0x05
/-- NO_ROOM. -/
def stNoRoom : Nat := 0x06
/-- WEAR_BUDGET. -/
def stWear : Nat := 0x07
/-- TIMEOUT. -/
def stTimeout : Nat := 0x08
/-- BUSY. -/
def stBusy : Nat := 0x09
/-- UNCORRECTABLE. -/
def stUncorr : Nat := 0x10
/-- HOST_ABORT. -/
def stHostAbort : Nat := 0x11
/-- TRUNCATED. -/
def stTrunc : Nat := 0x20
/-- WRONG_DEVICE. -/
def stWrongDev : Nat := 0x21
/-- FRAME_CHECK. -/
def stFrame : Nat := 0x22
/-- OUT_OF_REGION. -/
def stRegion : Nat := 0x23
/-- AUTH_FAIL. -/
def stAuth : Nat := 0x24
/-- ROLLBACK. -/
def stRollback : Nat := 0x25
/-- DRIVER_CONFLICT. -/
def stDriver : Nat := 0x26
/-- LINK_DOWN. -/
def stLinkDown : Nat := 0x30
/-- INTERNAL. -/
def stInternal : Nat := 0xFF

/-! ### Epoch checks (R28, R29) -/

/-- The outcome of R28 against the epoch `held`: none when the command may act. -/
def epochOutcome (held expected : BitVec 16) (busy legal : Bool) : Option Nat :=
  if expected ≠ 0xFFFF ∧ expected ≠ held then some stStale
  else if busy then some stBusy
  else if !legal then some stRefused
  else none

/-- The outcome of R28 against a unit's current epoch. -/
def Dev.epochCheck (d : Dev) (u : Nat) (expected : BitVec 16) (busy legal : Bool) : Option Nat :=
  epochOutcome (d.unit u).epoch expected busy legal

/-- INFO of a rejection: the unit's current epoch and state (R29). -/
def Dev.epochInfo (d : Dev) (u : Nat) : DWord :=
  pack64 [((d.unit u).epoch.toNat, 0, 16), ((d.ust u).code, 16, 4)]

/-! ### Completions (R370–R373, R393) -/

/-- Record words of a completion (R393). -/
def completionWords (tag : BitVec 16) (status sq : Nat) (phase : Bool) (unit head : Nat) (info : DWord) : List Word :=
  [pack [(tag.toNat, 0, 16), (status, 16, 8), (sq, 24, 4), (b2n phase, 31, 1)], pack [(unit, 0, 16), (head, 16, 16)],
   info.setWidth 32, (info >>> 32).setWidth 32]

/-- The executing descriptors, oldest first. -/
def Dev.running (d : Dev) : List (Nat × Exec) := d.execs.filterMap fun e => e.2.map fun x => (e.1, x)

/-- A descriptor of a port executes, be it an orphan (R351, R380). -/
def Exec.onPort (x : Exec) (p : Nat) : Bool :=
  match x.iss with
  | .ring q _ => q == p
  | _ => false

/-- A descriptor of a ring executes. -/
def Exec.onRing (x : Exec) (p q : Nat) : Bool :=
  match x.iss with
  | .ring a b => a == p && b == q && !x.orphan
  | _ => false

/-- Descriptors of a port that execute (R380). -/
def Dev.executing (d : Dev) (p : Nat) : Nat := (d.running.filter fun e => e.2.onPort p).length

/-- Write a completion record into a CQ that has a slot; `irq` requests its vector (R370, R376). -/
def Dev.writeCpl (d : Dev) (p sq : Nat) (tag : BitVec 16) (irq : Bool) (status unit : Nat) (info : DWord) : Dev :=
  let s := (d.hp p).sq sq
  let k := fld s.cfg 16 2
  let c := (d.hp p).cq k
  let d1 := d.postHost p (BitVec.ofNat 64 (ringBase c.baseLo c.baseHi + 16 * c.tail))
    (wordsBytes (completionWords tag status sq c.phase unit s.head info)) false
  let c1 := { c.advance with reserved := c.reserved - 1 }
  let (c2, msg) := if irq then c1.request else (c1, false)
  let d2 := d1.modCq p k fun _ => c2
  if msg then d2.sendMsix p (fld c.cfg 16 6) else d2

/-- Discard a ring's run-ahead and pre-read data (R363, R364, R356). -/
def Sq.discard (s : Sq) : Sq := { s with held := [], fetching := 0, preread := [], gen := s.gen + 1 }

/-- What a completion does to its ring: STOP_ON_ERROR and DRAINING (R364, R356). HEAD stands after the descriptor already, since
nothing later had started; a CANCEL that has moved it on is not undone (R363). -/
def Dev.ringAfter (d : Dev) (p sq e status : Nat) (stopFlag : Bool) : Dev :=
  let last := !(d.running.any fun x => x.2.onRing p sq)
  d.modSq p sq fun s =>
    let s1 := if s.stopOn = some e then { s with stopOn := none } else s
    let s2 := if stopFlag && status != stDone && s1.st == .running then
        { s1.discard with st := .stopped } else s1
    if s2.st == .draining && last then { s2 with st := .disabled } else s2

/-- End one descriptor: its record, its ring, its slot; fences are looked at by `Dev.complete`. -/
def Dev.endExec (d : Dev) (e status unit : Nat) (info : DWord) : Dev :=
  match d.exec e with
  | none => d
  | some x =>
    let d1 := { d with execs := d.execs.set none e none }
    match x.iss with
    | .ring p q =>
      if x.orphan then d1.modHp p fun h => { h with lostCpl := satInc h.lostCpl }
      else (d1.writeCpl p q x.tag (x.flags.getLsbD 3) status unit info).ringAfter p q e status (x.flags.getLsbD 0)
    | .smbus =>
      d1.modMg .smbus fun m => { m with slot := 2, exec := none, cpl := wordsBytes (completionWords x.tag status 0 true unit 0 info) }
    | .jtag =>
      d1.modMg .jtag fun m => { m with slot := 2, exec := none, cpl := wordsBytes (completionWords x.tag status 0 true unit 0 info) }

/-- Take a descriptor that has ended off every fence's list, and name a fence that waits for nothing more. -/
def Dev.fenceDone (d : Dev) (e : Nat) : Dev × Option (Nat × Nat × Nat) :=
  let d1 := { d with execs := d.execs.map fun y =>
    (y.1, y.2.map fun x =>
      match x.kind with
      | .fence l n => { x with kind := .fence (l.filter (· ≠ e)) n }
      | _ => x) }
  (d1, d1.running.findSome? fun y =>
    match y.2.kind with
    | .fence [] n => some (y.1, n, y.2.iss.unit)
    | _ => none)

/-- End a descriptor and every FENCE that waited only for it (R370, R421). -/
def Dev.completeN (d : Dev) : Nat → Nat → Nat → Nat → DWord → Dev
  | 0, _, _, _, _ => d
  | k + 1, e, status, unit, info =>
    let (d1, f) := (d.endExec e status unit info).fenceDone e
    match f with
    | none => d1
    | some (g, n, u) => d1.completeN k g stDone u (BitVec.ofNat 64 (n % 64))

/-- A descriptor completes (R370). -/
def Dev.complete (d : Dev) (e status unit : Nat) (info : DWord) : Dev :=
  d.completeN (d.running.length + 1) e status unit info

/-! ### Start of a descriptor (R361, R391, R598) -/

/-- Opcode of a descriptor. -/
def Desc.opcode (x : Desc) : Nat := fld (dword x 0) 0 8

/-- A ring may start the descriptor at its HEAD (R361). -/
def Dev.ringReady (d : Dev) (p q : Nat) (x : Desc) : Bool :=
  let h := d.hp p
  let s := h.sq q
  let c := h.cq (fld s.cfg 16 2)
  d.hostRuns p && !d.pwr.stopped.contains (uHost p) && bit h.ctrl 0 && !h.orphans && s.st == .running && s.cancel == 0 && s.held.head? == some x &&
    s.stopOn == none &&
    (!bit (dword x 0) 9 || !(d.running.any fun e => e.2.onRing p q)) &&
    !(d.running.any fun e => e.2.onRing p q && (match e.2.kind with | .fence _ _ => true | _ => false)) &&
    c.enabled && c.reserved < c.free && d.executing p < 32

/-- The outputs of a general PLL are gated or stopped: what it clocks stands still (R540, R541). -/
def Dev.pllDead (d : Dev) (k : Nat) : Bool := let p := d.clk.plls.get {} k; p.gated || p.stopped

/-- The issuer may start descriptor `x` now; the management path stands in the control domain (R45, R541). -/
def Dev.startable (d : Dev) (iss : Issuer) (x : Desc) : Bool :=
  match iss with
  | .ring p q => d.ringReady p q x
  | .smbus => (d.mg .smbus).desc == some x && !d.pllDead 0
  | .jtag => (d.mg .jtag).desc == some x && !d.pllDead 0

/-- Start it: HEAD advances, a CQ slot is reserved, the execution record is made. -/
def Dev.start (d : Dev) (iss : Issuer) (x : Desc) : Dev :=
  let e := d.nextExec
  let w0 := dword x 0
  let mk (idx : Nat) : Exec :=
    { iss := iss, opcode := BitVec.ofNat 8 (fld w0 0 8), flags := BitVec.ofNat 8 (fld w0 8 8), tag := BitVec.ofNat 16 (fld w0 16 16), idx := idx, kind := .rake }
  match iss with
  | .ring p q =>
    let s := (d.hp p).sq q
    let d1 := d.modSq p q fun s =>
      { s with held := s.held.tail, head := (s.head + 1) % ringSize s.cfg
               stopOn := if bit w0 8 then some e else s.stopOn }
    let d2 := d1.modCq p (fld s.cfg 16 2) fun c => { c with reserved := c.reserved + 1 }
    { d2 with execs := d2.execs.set none e (some (mk s.head)), nextExec := e + 1 }
  | .smbus =>
    let d1 := d.modMg .smbus fun m => { m with desc := none, exec := some e }
    { d1 with execs := d1.execs.set none e (some (mk 0)), nextExec := e + 1 }
  | .jtag =>
    let d1 := d.modMg .jtag fun m => { m with desc := none, exec := some e }
    { d1 with execs := d1.execs.set none e (some (mk 0)), nextExec := e + 1 }

/-- The flag checks of R391: reserved flags, and FORCE or PINNED where the opcode does not honour them. -/
def flagsOk (x : Desc) (force pinned : Bool) : Bool :=
  let w := dword x 0
  fld w 14 2 == 0 && (force || !bit w 12) && (pinned || !bit w 13)

/-- Every reserved bit of the words named is 0 (R391). -/
def reservedOk (x : Desc) (masks : List (Nat × Nat)) : Bool :=
  masks.all fun m => (dword x m.1).toNat &&& m.2 == 0

/-- Words i to 15 reserved whole. -/
def resFrom (i : Nat) : List (Nat × Nat) := (List.range (16 - i)).map fun j => (i + j, 0xFFFFFFFF)

/-- A pre-read for slot `i` of ring `q`. -/
def ReadWhy.prereads (q i : Nat) : ReadWhy → Bool
  | .preread a k _ => a == q && k == i
  | _ => false

/-- The pre-read bytes of a descriptor that has started, which its ring holds no longer: they are used or discarded, and what is
still asked for is dropped when it comes (R365). -/
def Dev.usePreread (d : Dev) (e : Nat) : List Byte × Dev :=
  match d.exec e with
  | some x =>
    (match x.iss with
     | .ring p q => (((d.hp p).sq q).preread.get [] x.idx,
         (d.modSq p q fun s => { s with preread := s.preread.set [] x.idx [] }).modHp p fun h => { h with
           reads := h.reads.map fun r => (r.1, r.2.map fun y => if y.why.prereads q x.idx then { y with why := .dropped } else y) })
     | _ => ([], d))
  | none => ([], d)

/-- Start a descriptor of opcode `op`, make the checks of R391 and go on with `k`, which gets the execution record's
number. A descriptor that may not start now changes nothing. -/
def Dev.begin (d : Dev) (iss : Issuer) (x : Desc) (op : Nat) (force pinned : Bool) (masks : List (Nat × Nat))
    (k : Dev → Nat → Dev) : Dev :=
  if Desc.opcode x = op ∧ d.startable iss x then
    let e := d.nextExec
    let d1 := d.start iss x
    if flagsOk x force pinned && reservedOk x masks then k d1 e else (d1.usePreread e).2.complete e stBad iss.unit 0
  else d

/-- As `Dev.begin`, of a descriptor that goes to a unit whose clock may stand still: there it waits, while one that its
reader finds bad ends at once (R391, R541). -/
def Dev.beginAt (d : Dev) (stalls : Bool) (iss : Issuer) (x : Desc) (op : Nat) (masks : List (Nat × Nat)) (k : Dev → Nat → Dev) : Dev :=
  if stalls && flagsOk x false false && reservedOk x masks then d else d.begin iss x op false false masks k

/-- The Sluice moves nothing: it is halted, or stands still for want of PLL 1 (R286, R541). -/
def Dev.sluiceStops (d : Dev) : Bool := d.sl.halted || d.pllDead 1

/-- A unit that has accepted the sleep controller's stop starts no work of its own (R526). -/
def Dev.gated (d : Dev) (u : Nat) : Bool := d.pwr.stopped.contains u

/-- Background services start activities (R526, R556). -/
def Dev.bgsRuns (d : Dev) : Bool := d.ust uBgs == .running && !d.gated uBgs && !d.pllDead 0

/-- A field of 48 bits and so on of the fine counter as one number in units of 2^−40 ns. -/
def TimeU.now (t : TimeU) : Int := ((t.sec.toNat * 10 ^ 9 + t.ns.toNat) * 2 ^ 40 + t.frac.toNat : Nat)

end Sys2Proof.Machine
end

