-- ==== Sys2Proof/Machine/Operands.lean ====
section
/-! DEFINITION. The operand forms of the commands: the place of a register in BAR0 (R629), the parts of a Sluice
address (R273) and the fields of a frame address (R182). -/

namespace Sys2Proof.Machine

/-- A block of BAR0 with its instance (R629). -/
inductive Blk where
  | glb | fuse | host (n : Nat) | rake | cfg | sluice | pool | pan (n : Nat) | bank (n : Nat) | link (n : Nat)
  | fport (n : Nat) | pin | time | pwr | clk | bgs | tele | mgmt | test
  deriving DecidableEq, Repr

/-- The block and the offset within its instance that a BAR0 offset names; none where no block lies (R629, R630). -/
def regBlock (o : Nat) : Option (Blk × Nat) :=
  let r := o % 65536
  if o < 0x10000 then some (.glb, o)
  else if o < 0x20000 then some (.fuse, r)
  else if o < 0x24000 then some (.host (r / 4096), r % 4096)
  else if o < 0x30000 then none
  else if o < 0x40000 then some (.rake, r)
  else if o < 0x50000 then some (.cfg, r)
  else if o < 0x60000 then some (.sluice, r)
  else if o < 0x70000 then some (.pool, r)
  else if o < 0x80000 then none
  else if o < 0x84000 then some (.pan ((o - 0x80000) / 256), o % 256)
  else if o < 0x100000 then none
  else if o < 0x108000 then some (.bank ((o - 0x100000) / 256), o % 256)
  else if o < 0x180000 then none
  else if o < 0x18C000 then some (.link ((o - 0x180000) / 512), o % 512)
  else if o < 0x200000 then none
  else if o < 0x201800 then some (.fport ((o - 0x200000) / 256), o % 256)
  else if o < 0x240000 then none
  else if o < 0x250000 then some (.pin, r)
  else if o < 0x280000 then none
  else if o < 0x290000 then some (.time, r)
  else if o < 0x2A0000 then some (.pwr, r)
  else if o < 0x2B0000 then some (.clk, r)
  else if o < 0x2C0000 then some (.bgs, r)
  else if o < 0x2D0000 then some (.tele, r)
  else if o < 0x2E0000 then some (.mgmt, r)
  else if o < 0x2F0000 then some (.test, r)
  else none

/-- Offset `o` is one of the words from `lo` to `hi`. -/
def wordIn (o lo hi : Nat) : Bool := decide (lo ≤ o) && decide (o ≤ hi) && o % 4 == 0

/-- A table of "Register Summary" lists the offset (R630). -/
def regListed : Blk → Nat → Bool
  | .glb, o => wordIn o 0 0x38 || wordIn o 0x8000 0xBFFC
  | .fuse, o => wordIn o 0 0x2C
  | .host _, o =>
    wordIn o 0 0x24 || wordIn o 0x40 0x7C || wordIn o 0x100 0x23C || wordIn o 0x240 0x24C
  | .rake, o => wordIn o 0 0x48 || wordIn o 0x100 0x1FC
  | .cfg, o => wordIn o 0 0x50
  | .sluice, o => wordIn o 0 0x34
  | .pool, o => wordIn o 0 0x14
  | .pan _, o => o == 0 || wordIn o 0x10 0x24 || wordIn o 0x30 0x40
  | .bank _, o => wordIn o 0 0x24
  | .link _, o => wordIn o 0 0x44
  | .fport _, o => wordIn o 0 0x34
  | .pin, o =>
    wordIn o 0 8 || wordIn o 0x40 0xBC || wordIn o 0x100 0x15C || wordIn o 0x180 0x1DC || wordIn o 0x200 0x2BC ||
      wordIn o 0x300 0x35C || wordIn o 0x400 0x5FC || wordIn o 0x1000 0x1BFC || wordIn o 0x4000 0x7FFC
  | .time, o => wordIn o 0 0x3C
  | .pwr, o => wordIn o 0 0x28 || wordIn o 0x30 0x5C
  | .clk, o => wordIn o 0 0x2C
  | .bgs, o => wordIn o 0 0x2C
  | .tele, o => wordIn o 0 0x1C
  | .mgmt, o => wordIn o 0 0x14
  | .test, o => wordIn o 0 0x1C

/-- The unit whose status word stands at an offset of UNIT_STATUS; none where the unit does not exist (R25). -/
def statusUnit (o : Nat) : Option Nat :=
  let c := (o - 0x8000) / 1024
  let i := (o - 0x8000) % 1024 / 4
  if c = 8 ∧ i = 255 then some uCfgPort
  else if i < classCount c then some (c * 4096 + i) else none

/-- Device ID of a Sluice address, bits [63:50] (R273). -/
def slDev (a : DWord) : Nat := nfld a.toNat 50 14
/-- Tag of a Sluice address, bits [49:34] (R273). -/
def slTag (a : DWord) : Nat := nfld a.toNat 34 16
/-- Offset of a Sluice address, bits [33:0] (R273). -/
def slOff (a : DWord) : Nat := nfld a.toNat 0 34

end Sys2Proof.Machine
end

