-- ==== Sys2Proof/Machine/Flags.lean ====
section
/-! DEFINITION. The flags of the device: what the access codes of R10 do to a register, the error flags of a host port,
the locks, and the filter of register accesses. -/

namespace Sys2Proof.Machine

/-- Write 1 to clear: a bit written 1 clears (R10). -/
def w1c {n : Nat} (old v : BitVec n) : BitVec n := old &&& ~~~v

/-- Set a flag of HOST_ERR; the first after all were clear loads HOST_ERR_DESC (R381, R382). -/
def Dev.hostErr (d : Dev) (p flag ring idx : Nat) : Dev :=
  d.modHp p fun h =>
    { h with
      err := h.err ||| BitVec.ofNat 6 (2 ^ flag)
      errDesc := if h.err = 0 then pack [(ring, 0, 5), (flag, 8, 3), (idx, 16, 16)] else h.errDesc }

/-- FETCH or ABORT: the failed address is loaded when neither was set (R381). -/
def Dev.hostErrAddr (d : Dev) (p flag ring idx : Nat) (a : DWord) : Dev :=
  let fresh := !(d.hp p).err.getLsbD 2 && !(d.hp p).err.getLsbD 3
  let d1 := d.hostErr p flag ring idx
  if fresh then d1.modHp p fun h => { h with abortAddr := a } else d1

/-- A filtered write is dropped and counted (R352); the response of a REG_WRITE carries PERMISSION (R593). -/
def Dev.dropWrite (d : Dev) : Path → Dev
  | .host p | .hostPart p => (d.hostErr p 5 0x1F 0).modHp p fun h => { h with dropFiltered := satInc h.dropFiltered }
  | .smbus => d.emit (.mgmtResponse .smbus [BitVec.ofNat 8 stPerm])
  | .jtag => d.emit (.mgmtResponse .jtag [BitVec.ofNat 8 stPerm])

/-- An access of an unsupported form (R349). -/
def Dev.badAccess (d : Dev) : Path → Dev
  | .host p | .hostPart p => (d.hostErr p 4 0x1F 0).modHp p fun h => { h with dropBad := satInc h.dropBad }
  | _ => d

/-- Word `w` of the fuse mirror (R571). -/
def Dev.mirrorWord (d : Dev) (w : Nat) : Word := d.fuse.mirror.get 0 w

/-- One fuse of the mirror. -/
def Dev.mirrorBit (d : Dev) (f : Nat) : Bool := bit (d.mirrorWord (f / 32)) (f % 32)

/-- Lock `n` is set: any of its three copies reads 1 (R575); a FAULTED device unit treats every lock as set (R20). -/
def Dev.locked (d : Dev) (n : Nat) : Bool :=
  d.ust 0 == .faulted || (List.range 3).any fun j => d.mirrorBit (256 + 3 * n + j)

/-- The unit whose membership decides a per-unit block. -/
def Blk.unit : Blk → Option Nat
  | .host n => some (uHost n)
  | .pan n => some (uPan n)
  | .bank n => some (uBank n)
  | .link n => some (uLink n)
  | .fport n => some (uFport n)
  | _ => none

/-- The register grant of W13 that a device-wide block needs (R580). -/
def Blk.grant : Blk → Option Nat
  | .glb => some 0 | .fuse => some 1 | .rake => some 2 | .cfg => some 3 | .sluice => some 4 | .pool => some 5
  | .time => some 6 | .pwr => some 7 | .clk => some 8 | .bgs => some 9 | .tele => some 10 | .mgmt => some 11
  | .test => some 12
  | _ => none

/-- The registers of a device-wide block that need no grant (R634, R587). -/
def regFree : Blk → Nat → Bool
  | .glb, o => decide (o < 0x8000) && o != 0x1C && o != 0x20 && o != 0x38
  | .fuse, o => o == 0 || o == 8 || o == 0xC || o == 0x24 || o == 0x28 || o == 0x2C
  | _, _ => false

/-- Every pin bank is in the partition (R635). -/
def Partition.allPins (p : Partition) : Bool := p.pinBanks == BitVec.allOnes 16

/-- A reader reaches a register (R352, R582, R634, R635). UNIT_STATUS and the select arrays go by the unit. -/
def Dev.reaches (d : Dev) (rd : Nat) (b : Blk) (o : Nat) (write : Bool) : Bool :=
  match b with
  | .host n => rd == 4 || rd == n
  | .pin =>
    if o < 0xC then rd == 4 || (d.part rd).allPins
    else if 0x1000 ≤ o && o < 0x1C00 then d.inPart rd (uPinBank ((o - 0x1000) / 4 / 48))
    else true
  | _ =>
    match b.unit with
    | some u => d.inPart rd u
    | none =>
      if b == .glb && decide (0x8000 ≤ o) then (match statusUnit o with | some u => d.inPart rd u | none => true)
      else regFree b o ||
        (match b.grant with
         | some g =>
           (d.part rd).regs.getLsbD g &&
             (!write || (if b == .time then (d.part rd).time else if b == .pwr then (d.part rd).power else true))
         | none => true)

/-! ### Paths to the registers (R349, R523, R591–R593, R602) -/

/-- Bits of a value as they shift out, least significant first. -/
def shiftOut (n x : Nat) : List Bool := (List.range n).map fun i => x.testBit i

/-- What Capture-DR of MGMT_ACCESS returns: the response as command code, count and data (R602). -/
def drBits (code : Byte) (bs : List Byte) : List Bool := shiftOut 2048 (ofLe ([code, BitVec.ofNat 8 bs.length] ++ bs))

/-- A response that its command has waited for; one that MGMT_ACCESS carries is captured in its data register (R592, R602). -/
def Dev.lateReply (d : Dev) (via : MgmtIf) (bs : List Byte) : Dev :=
  let d1 := d.emit (.mgmtResponse via bs)
  match via, (d.mg .jtag).drCode with
  | .jtag, some c => (d1.modMg .jtag fun m => { m with drCode := none }).emit (.tdo (drBits c bs))
  | _, _ => d1

/-- Count a command performed (R606). -/
def Dev.countMgmt (d : Dev) (via : MgmtIf) : Dev := d.modMg via fun m => { m with count := satInc m.count }

/-- An interface answers nothing: the internal reset is held (R612), the unit is FAULTED, or its fuse lock closes it (R20, R575). -/
def Dev.viaDead (d : Dev) (via : MgmtIf) : Bool :=
  d.cfg.phase == .held || d.ust (uMgmt via) == .faulted || d.ust (uMgmt via) == .retired

/-- The device sleeps or wakes, or its control domain stands still for want of PLL 0: what reaches it waits (R523, R541, R591). -/
def Dev.sleeps (d : Dev) : Bool := d.pwr.phase == .asleep || d.pwr.phase == .waking || d.pllDead 0

/-- An interface can receive a command although the device sleeps: it answers, no lock closes it, and an SMBus address is
not NACKed, as in DORMANT (R591). -/
def Dev.hears (d : Dev) (via : MgmtIf) : Bool :=
  !d.viaDead via &&
    (match via with
     | .smbus => !d.locked 7 && d.pwr.modeIn != 4
     | .jtag => !d.locked 4 && !d.locked 5)

/-- An interface takes a command: SMBus NACKs when it is FAULTED, disabled or limited; JTAG acts as BYPASS when it is
FAULTED or its private instructions are locked (R20, R575, R592, R602). In DORMANT the SMBus address is NACKed; otherwise a
command waits while the device sleeps, or while the response before it is not ready (R591, R592). -/
def Dev.carryFree (d : Dev) (via : MgmtIf) (mirror : Bool) (f : Dev → Dev) : Dev :=
  match via with
  | .smbus =>
    if d.viaDead .smbus || d.locked 7 || (d.sleeps && d.pwr.modeIn == 4) then
      d.emit (.mgmtNack .smbus)
    else if d.sleeps || (d.mg .smbus).wait.isSome then d
    else if d.locked 6 && !mirror then
      ({ d with mblk := { d.mblk with err := d.mblk.err ||| 0x04 } }).emit (.mgmtNack .smbus)
    else f d
  | .jtag =>
    if d.viaDead .jtag || d.locked 4 || d.locked 5 || d.sleeps || (d.mg .jtag).wait.isSome then d
    else f d

/-- As `Dev.carryFree`, of a command that the interface performs: it counts (R606). -/
def Dev.carry (d : Dev) (via : MgmtIf) (mirror : Bool) (f : Dev → Dev) : Dev := d.carryFree via mirror fun d => f (d.countMgmt via)

/-- A request of a host reaches its port: the link is up, and the port does not sleep (R350, R523). -/
def Dev.linkReaches (d : Dev) (p : Nat) : Bool :=
  (d.hp p).linkUp && (!d.sleeps || (decide (d.pwr.modeIn.toNat ≤ 2) && d.pwr.keepIn.getLsbD (104 + p)))

/-- A function logs an uncorrectable error in its AER status (R343). -/
def Dev.logAer (d : Dev) (p b : Nat) : Dev :=
  d.modHp p fun h => { h with conf := h.conf.modWord .uncStatus fun w => setBit w b true }

/-- An access of a path reaches the registers: a host's reaches its port, whose function serves its BARs; one that it does not
serve is an unsupported request (R343). -/
def Dev.access (d : Dev) (path : Path) (f : Dev → Dev) : Dev :=
  match path with
  | .host p | .hostPart p =>
    if !d.linkReaches p then d else if (d.hp p).conf.serves then f d else d.logAer p 20
  | .smbus => d.carry .smbus false f
  | .jtag => d.carry .jtag false f

/-- A write has been made: the management path's response is DONE (R593). -/
def Dev.wrote (d : Dev) : Path → Dev
  | .host _ | .hostPart _ => d
  | .smbus => d.emit (.mgmtResponse .smbus [BitVec.ofNat 8 stDone])
  | .jtag => d.emit (.mgmtResponse .jtag [BitVec.ofNat 8 stDone])

/-- What a read returns. -/
def Dev.returns (d : Dev) (path : Path) (off : Nat) (w : Word) : Dev :=
  match path with
  | .host p | .hostPart p => d.emit (.regValue p (BitVec.ofNat 32 off) w)
  | .smbus => d.emit (.mgmtResponse .smbus (leBytes 4 w.toNat))
  | .jtag => d.emit (.mgmtResponse .jtag (leBytes 4 w.toNat))

/-- A register write of a path: made where the register is reached and `ok` holds, else dropped and counted (R349, R352). -/
def Dev.filteredIf (d : Dev) (path : Path) (b : Blk) (o : Nat) (ok : Dev → Bool) (f : Dev → Dev) : Dev :=
  d.access path fun d =>
    if !path.whole then d.badAccess path else if d.reaches path.reader b o true && ok d then (f d).wrote path else d.dropWrite path

/-- A register write of a path. -/
def Dev.filtered (d : Dev) (path : Path) (b : Blk) (o : Nat) (f : Dev → Dev) : Dev := d.filteredIf path b o (fun _ => true) f

/-- A read through a path: what it returns, and the effect where the register is reached (R349, R352). -/
def Dev.readThrough (d : Dev) (path : Path) (b : Blk) (o off : Nat) (f : Dev → Word × Dev) : Dev :=
  d.access path fun d =>
    if !path.whole then (d.badAccess path).returns path off 0
    else if d.reaches path.reader b o false then
      let (w, d1) := f d
      d1.returns path off w
    else d.returns path off 0

end Sys2Proof.Machine
end

