-- ==== Sys2Proof/Machine/Banks.lean ====
section
/-! DEFINITION. Memory banks (chapter "Memory Banks and the Page Code"): pages and slots, the guard, the page code, the
outcomes of reads and writes, poison, zero-fill, re-encoding, scrub, the flip mask, retirement and self-test. Page
migration stands in Pools.lean. -/

namespace Sys2Proof.Machine

/-! ### Activity (R561) -/

/-- Count a bank's activity in the running window: foreground line operations, background ones, cycles held. -/
def Dev.bankAct (d : Dev) (n fg bg held : Nat) : Dev :=
  { d with tele := { d.tele with bankNow := d.tele.bankNow.modify {} n fun a =>
      { a with w0 := satAdd a.w0 fg, w1 := satAdd a.w1 bg, w2 := satAdd a.w2 held } } }

/-- Bank cycles for which a decode at strength T holds the port: up to the maximum of R312 (assumption 15). -/
def decodeCycles (t : BitVec 2) (k : Nat) : Nat :=
  fld (Config.freeWord k) 0 16 % (match t.toNat with | 0 => 1 | 1 => 105 | 2 => 129 | _ => 169)

/-- Count work of a bank on slot `s` that took `old` to `new` with these event codes: its line operations, and the cycles of R312
for which decode, re-seal, zero-fill on first write and the abort of a self-test held the port. -/
def Dev.bankWork (d : Dev) (n s : Nat) (old new : Bank) (codes : List Nat) (fg bg : Nat) (fill : Bool) : Dev :=
  let (k, d0) := d.takeFree
  let (j, d1) := d0.takeFree
  let zero := if fill && !(old.slots.get {} s).written && (new.slots.get {} s).written then 72 else 0
  let decode := if new.ce != old.ce || new.ceDropped != old.ceDropped || new.poisons != old.poisons then decodeCycles (old.slots.get {} s).t k else 0
  let abort := if old.borrow.any fun w => w.slot == s then fld (Config.freeWord j) 0 16 % 161 else 0
  d1.bankAct n fg bg (zero + 80 * codes.count 2 + decode + abort)

/-- Count beats of a pan's Sluice port. -/
def Dev.panBeats (d : Dev) (p k : Nat) : Dev :=
  { d with tele := { d.tele with panNow := d.tele.panNow.modify {} p fun a => { a with w0 := satAdd a.w0 k } } }

/-- Count active spine-clock cycles of a pan. -/
def Dev.panCycles (d : Dev) (p k : Nat) : Dev :=
  { d with tele := { d.tele with panNow := d.tele.panNow.modify {} p fun a => { a with cycles := a.cycles + k } } }

/-! ### Slots -/

/-- The slot that holds page `p` (R296). -/
def Bank.slotOf (b : Bank) (p : Nat) : Nat := (b.remap.get none p).getD p

/-- A slot's spare area. -/
def Bank.slot (b : Bank) (s : Nat) : SlotSt := b.slots.get {} s

/-- Change it. -/
def Bank.modSlot (b : Bank) (s : Nat) (f : SlotSt → SlotSt) : Bank := { b with slots := b.slots.modify {} s f }

/-- Line `n` of a slot. -/
def Bank.line (b : Bank) (s n : Nat) : Line := b.lines.get 0 (64 * s + n)

/-- The lines of a slot in ascending order. -/
def Bank.slotLines (b : Bank) (s : Nat) : List Line := b.lines.getList 0 (64 * s) 64

/-- The guard of a line (R299). -/
def guardOf (n : Nat) (l : Line) : Word := crc32c (lineBytes l ++ [BitVec.ofNat 8 n])

/-- The stored guard of a line matches (R299). -/
def Bank.guardOk (b : Bank) (s n : Nat) : Bool := b.guards.get 0 (64 * s + n) == guardOf n (b.line s n)

/-- The lines of a slot whose guards fail, ascending. -/
def Bank.failing (b : Bank) (s : Nat) : List Nat := (List.range 64).filter fun n => !b.guardOk s n

/-- Store a line with a fresh guard. -/
def Bank.putLine (b : Bank) (s n : Nat) (l : Line) : Bank :=
  { b with lines := b.lines.set 0 (64 * s + n) l, guards := b.guards.set 0 (64 * s + n) (guardOf n l) }

/-- A fail mask from lines. -/
def maskOf (ls : List Nat) : DWord := ls.foldl (fun m n => m ||| BitVec.ofNat 64 (2 ^ n)) 0

/-- Abort a borrowed slot's test: the buffer restores the lines, and the slot is tested again at its next turn (R330). -/
def Bank.abortBorrow (b : Bank) : Bank :=
  match b.borrow with
  | none => b
  | some w =>
    let put {α : Type} [DecidableEq α] (z : α) (t src : Tab α) : Tab α :=
      foldS (fun t n => t.set z (64 * w.slot + n) (src.get z n)) t (List.range 64)
    { b with lines := put 0 b.lines w.lines, guards := put 0 b.guards w.guards, slots := b.slots.set {} w.slot w.st, borrow := none }

/-- Whatever works on a slot that self-test has borrowed ends that test first (R330): the buffer never overwrites later
work. -/
def Bank.claim (b : Bank) (s : Nat) : Bank := if b.borrow.any fun w => w.slot == s then b.abortBorrow else b

/-! ### Logs and events (R316–R319) -/

/-- What a bank raises: event code, page, slot, line, cause, requester. -/
structure BankEv where
  code : Nat
  page : Nat
  slot : Nat
  line : Nat
  cause : Nat
  req : Nat
  deriving DecidableEq, Repr

/-- Log a correctable error (R316). -/
def Bank.logCe (b : Bank) (page slot line cause bits : Nat) : Bank :=
  let b1 := { b with ce := satInc b.ce }
  if b.ceLog.length < 16 then
    { b1 with ceLog := b.ceLog ++ [{ page := page, slot := slot, line := line, cause := BitVec.ofNat 3 cause, bits := min bits 63 }] }
  else { b1 with ceDropped := satInc b.ceDropped }

/-- A page becomes poisoned: mask, UE log, POISONED event (R308, R316, R318). -/
def Bank.poison (b : Bank) (page slot : Nat) (fails : List Nat) (cause req : Nat) : Bank × List BankEv :=
  let first := fails.headD 0
  let b1 := (b.modSlot slot fun x => { x with poisoned := true, fail := maskOf fails })
  let b2 := { b1 with poisons := satInc b1.poisons }
  let b3 := if b2.ueLog.length < 32 then
      { b2 with ueLog := b2.ueLog ++ [{ page := page, slot := slot, line := first, cause := BitVec.ofNat 3 cause, bits := 0 }] }
    else { b2 with ueDropped := satInc b2.ueDropped }
  (b3, [{ code := 1, page := page, slot := slot, line := first, cause := cause, req := req }])

/-- Raise a bank's events (R319). -/
def Dev.bankEvents (d : Dev) (n : Nat) (evs : List BankEv) : Dev :=
  foldS (fun d e => d.event (uBank n) e.code 0
    (pack64 [(e.page, 0, 7), (e.slot, 8, 8), (e.line, 16, 6), (e.cause, 24, 3), (e.req, 32, 16)])) d evs

/-! ### The page decode (R303) -/

/-- Flip a data bit of a slot: bit i of the page is bit i mod 512 of line i div 512 (R297, R300). -/
def Bank.flipBit (b : Bank) (s i : Nat) : Bank :=
  { b with lines := b.lines.modify 0 (64 * s + i / 512) fun l => l ^^^ BitVec.ofNat 512 (2 ^ (i % 512)) }

/-- Decode a page at the strength of its state: none when it FAILED, else the corrected bank and the errors located. -/
def Bank.decode (b : Bank) (s : Nat) : Option (Bank × Nat) :=
  let st := b.slot s
  let k := strength st.t
  if k = 0 then none
  else
    match bchErrors st.t (pageCheck st.t (b.slotLines s) ^^^ st.check) with
    | none => none
    | some pos =>
      let fails := b.failing s
      let data := (pos.filter fun p => decide (16 * k ≤ p)).map fun p => p - 16 * k
      if data.all fun i => fails.contains (i / 512) then
        let b1 := foldS (fun b i => b.flipBit s i) b data
        let b2 := foldS (fun b n => b.putLine s n (b.line s n)) b1 fails
        let chk := (pos.filter fun p => decide (p < 16 * k)).foldl (fun c p => c ^^^ BitVec.ofNat 512 (2 ^ p)) st.check
        some (b2.modSlot s fun x => { x with check := chk }, pos.length)
      else none

/-- A decode for a cause: a CORRECTED page is logged; a FAILED one is poisoned. Answers whether it is corrected. -/
def Bank.decodeFor (b : Bank) (page s cause req : Nat) (met : Option Nat) : Bank × Bool × List BankEv :=
  match b.decode s with
  | some (b1, bits) => (b1.logCe page s ((b.failing s).headD 0) cause bits, true, [])
  | none =>
    let fails := if strength (b.slot s).t = 0 then (match met with | some n => [n] | none => b.failing s) else b.failing s
    let (b1, evs) := b.poison page s fails cause req
    (b1, false, evs)

/-! ### Zero-fill (R304–R306) -/

/-- Write zero lines with fresh guards into lines `n` and on of a slot. -/
def Bank.zeroLines (b : Bank) (s : Nat) (ns : List Nat) : Bank := foldS (fun b n => b.putLine s n 0) b ns

/-- Zero-fill a page whole and set WRITTEN; a background fill of the page ends (R305, R306). -/
def Bank.zeroFill (b : Bank) (page : Nat) : Bank :=
  let s := b.slotOf page
  let b1 := (b.zeroLines s (List.range 64)).modSlot s fun _ =>
    { written := true, poisoned := false, t := BitVec.ofNat 2 (fld b.ctrl 0 2), fail := 0, check := 0 }
  if b1.zfPage.any (fun z => z.1 == page) then { b1 with zfPage := none } else b1

/-! ### Reads and writes (R307–R309) -/

/-- What one line operation answers; `empties`: it has left a poisoned page's fail mask empty (R309). -/
structure LineRes where
  bank : Bank
  status : Nat
  data : Line
  evs : List BankEv
  empties : Bool := false
  deriving DecidableEq, Repr

/-- An UNCORRECTABLE line response is counted (R316). -/
def Bank.countUe (b : Bank) : Bank := { b with responses := satInc b.responses }

/-- Read line `n` of a page for requester `req` (R307). -/
def Bank.readLine (b : Bank) (page n req : Nat) : LineRes :=
  let s := b.slotOf page
  let st := b.slot s
  if !st.written then { bank := b, status := stDone, data := 0, evs := [] }
  else if b.guardOk s n then { bank := b, status := stDone, data := b.line s n, evs := [] }
  else if st.poisoned then
    { bank := (b.modSlot s fun x => { x with fail := x.fail ||| maskOf [n] }).countUe, status := stUncorr, data := 0, evs := [] }
  else
    let (b1, ok, evs) := b.decodeFor page s 0 req (some n)
    if ok then { bank := b1, status := stDone, data := b1.line s n, evs := evs }
    else { bank := b1.countUe, status := stUncorr, data := 0, evs := evs }

/-- Merge bytes under byte enables. -/
def mergeBytes (be : DWord) (old new : Line) : Line :=
  lineOf ((List.range 64).map fun j =>
    if be.getLsbD j then BitVec.ofNat 8 (new.toNat >>> (8 * j)) else BitVec.ofNat 8 (old.toNat >>> (8 * j)))

/-- Store a line into a page; outside a poisoned page the check bytes follow (R302, R308). -/
def Bank.storeLine (b : Bank) (s n : Nat) (l : Line) : Bank :=
  let st := b.slot s
  let b1 := b.putLine s n l
  if st.poisoned then b1
  else b1.modSlot s fun x => { x with check := x.check ^^^ lineCheck x.t n (b.line s n ^^^ l) }

/-- Re-seal a poisoned page whose mask is empty (R309). -/
def Bank.reseal (b : Bank) (page s req : Nat) : Bank × List BankEv :=
  match b.failing s with
  | [] =>
    let t := BitVec.ofNat 2 (fld b.ctrl 0 2)
    (b.modSlot s fun x => { x with poisoned := false, t := t, check := pageCheck t (b.slotLines s) },
      [{ code := 2, page := page, slot := s, line := 0, cause := 2, req := req }])
  | fs => (b.modSlot s fun x => { x with fail := x.fail ||| maskOf fs }, [])

/-- A full-line write into a poisoned page (R307, R309). -/
def Bank.writePoisoned (b : Bank) (s n : Nat) (l : Line) (evs : List BankEv) : LineRes :=
  let b1 := (b.storeLine s n l).modSlot s fun x => { x with fail := x.fail &&& ~~~(maskOf [n]) }
  { bank := b1, status := stDone, data := 0, evs := evs, empties := (b1.slot s).fail == 0 }

/-- XOR the flip mask into word `w` of a stored line, after guard and check bytes are computed (R320). -/
def Bank.applyFlip (b : Bank) (s n w : Nat) (mask : Word) : Bank :=
  if w < 16 then { b with lines := b.lines.modify 0 (64 * s + n) fun l => l ^^^ (mask.setWidth 512 <<< (32 * w)) }
  else if w = 16 then { b with guards := b.guards.modify 0 (64 * s + n) fun g => g ^^^ mask }
  else b

/-- Write a line of a page for requester `req`; `be` all ones is a full-line write (R305, R307). -/
def Bank.writeLine (b : Bank) (page n req : Nat) (be : DWord) (l : Line) : LineRes :=
  let s := b.slotOf page
  let full := be == BitVec.allOnes 64
  let b0 := if (b.slot s).written then b else b.zeroFill page
  let merged (b : Bank) : Line := if full then l else mergeBytes be (b.line s n) l
  let cause := if full then 2 else 1
  if (b0.slot s).poisoned then
    if full then b0.writePoisoned s n l []
    else if b0.guardOk s n then { bank := b0.storeLine s n (merged b0), status := stDone, data := 0, evs := [] }
    else { bank := (b0.modSlot s fun x => { x with fail := x.fail ||| maskOf [n] }).countUe, status := stUncorr, data := 0, evs := [] }
  else if b0.guardOk s n then { bank := b0.storeLine s n (merged b0), status := stDone, data := 0, evs := [] }
  else
    let (b1, ok, evs) := b0.decodeFor page s cause req (some n)
    if ok then { bank := b1.storeLine s n (merged b1), status := stDone, data := 0, evs := evs }
    else if full then b1.writePoisoned s n l evs
    else { bank := b1.countUe, status := stUncorr, data := 0, evs := evs }

/-- Consume an armed flip mask at a foreground write (R320). -/
def Bank.takeFlip (b : Bank) (page n : Nat) : Bank :=
  if b.flipArm then
    let w := b.flipWord.toNat
    { b.applyFlip (b.slotOf page) n w b.flipMask with flipArm := false, flipApplied := b.flipApplied || decide (w ≤ 16) }
  else b

/-- The lines of a read request. -/
def Bank.readLines (b : Bank) (page req : Nat) : List Nat → Bank × List (Byte × Line) × List BankEv
  | [] => (b, [], [])
  | n :: ns =>
    let r := b.readLine page n req
    let (b2, rs, ev) := r.bank.readLines page req ns
    (b2, (BitVec.ofNat 8 r.status, r.data) :: rs, r.evs ++ ev)

/-- The lines of a write request; the first line takes an armed mask, or the request's own (R320, R321), before a re-seal that
the line causes (R309). The status is the first that is not DONE. -/
def Bank.writeLines (b : Bank) (page req : Nat) (be : DWord) (flip : Option (Nat × Word)) (first : Bool) :
    List (Nat × Line) → Bank × Nat × List BankEv
  | [] => (b, stDone, [])
  | (n, l) :: ns =>
    let r := b.writeLine page n req be l
    let b1 :=
      if first && r.status == stDone then
        (match flip with
         | some (w, m) => r.bank.applyFlip (r.bank.slotOf page) n w m
         | none => r.bank.takeFlip page n)
      else r.bank
    let (b2, ev2) := if r.empties then b1.reseal page (b1.slotOf page) req else (b1, [])
    let (b3, st, ev) := b2.writeLines page req be flip false ns
    (b3, if r.status = stDone then st else r.status, r.evs ++ ev2 ++ ev)

/-- A FAULTED or RETIRED bank answers every line UNCORRECTABLE, counted, with no effect (R316, R333, R334). -/
def Bank.refuseLines (b : Bank) (n : Nat) : Bank :=
  { b with responses := satAdd b.responses n }

/-! ### Background work and its conditions (R306, R311, R313, R314) -/

/-- A bank works by itself: it is RUNNING, has not accepted a stop, and its clock runs (R332, R334). -/
def Dev.bankWorks (d : Dev) (n : Nat) : Bool := d.ust (uBank n) == .running && !d.gated (uBank n) && !d.pwr.slept.contains (64 + n / 8) && !d.pllDead 2

/-- A bank's background work may run: the bank works and background services are not stopped (R332, R334, R556). -/
def Dev.bankBg (d : Dev) (n : Nat) : Bool := d.bankWorks n && d.bgsRuns

/-- Background work `k` takes bank `n`'s port: no foreground request waits, or the work has starved (R311, R38). -/
def Dev.bankTurn (d : Dev) (n k : Nat) : Bool :=
  match (d.bank n).queue.head?.bind fun r => d.sl.reqs.get none r with
  | none => true
  | some q => d.grantBefore (uBank n) (Claimant.background k).contender q.contender

/-- Background work `k` has had its turn. -/
def Dev.bankGrant (d : Dev) (n k : Nat) : Dev := d.grantTo (uBank n) (Claimant.background k).contender

/-- Scrub one page: outcome of R314 for cause SCRUB. Answers (correctables, poisonings). -/
def Bank.scrubPage (b : Bank) (page : Nat) : Bank × Nat × Nat × List BankEv :=
  let s := b.slotOf page
  let st := b.slot s
  let fs := b.failing s
  if !st.written then (b, 0, 0, [])
  else if st.poisoned then (b.modSlot s fun x => { x with fail := x.fail ||| maskOf fs }, 0, 0, [])
  else if fs = [] ∧ (strength st.t = 0 ∨ pageCheck st.t (b.slotLines s) = st.check) then (b, 0, 0, [])
  else
    let (b1, ok, evs) := b.decodeFor page s 3 0 none
    (b1, b2n ok, b2n (!ok), evs)

/-- The first page from `from` upward, wrapping once, that satisfies `p`. -/
def nextPage (start n : Nat) (p : Nat → Bool) : Option Nat :=
  ((List.range n).map fun i => (start + i) % n).find? p

/-- Background scrub visits the next written page (R314). -/
def opScrubStep (n : Nat) (d : Dev) : Dev :=
  let b := d.bank n
  if !d.bankBg n || !bit b.ctrl 4 || !bit d.bgs.ctrl 0 || !d.bankTurn n 0 then d
  else match nextPage b.scrubNext 128 (fun p => (b.slot (b.slotOf p)).written) with
    | none => d
    | some p =>
      let (b1, _, _, evs) := (b.claim (b.slotOf p)).scrubPage p
      (((d.bankGrant n 0).setBank n { b1 with scrubNext := (p + 1) % 128 }).bankEvents n evs).bankWork n (b.slotOf p) b b1
        (evs.map BankEv.code) 0 64 false

/-- Background zero-fill fills the next line (R306). -/
def opZeroFillStep (n : Nat) (d : Dev) : Dev :=
  let b := d.bank n
  if !d.bankBg n || !bit b.ctrl 2 || !bit d.bgs.ctrl 6 || !d.bankTurn n 6 then d
  else
    let here := match b.zfPage with
      | some z => some z
      | none => (firstBelow 128 fun p => !(b.slot (b.slotOf p)).written).map fun p => (p, 0)
    match here with
    | none => d
    | some (p, k) =>
      let b := b.claim (b.slotOf p)
      let d := d.bankGrant n 6
      if k ≥ 63 then
        let b1 := (b.putLine (b.slotOf p) 63 0).modSlot (b.slotOf p) fun _ =>
          { written := true, poisoned := false, t := BitVec.ofNat 2 (fld b.ctrl 0 2), fail := 0, check := 0 }
        (d.setBank n { b1 with zfPage := none }).bankAct n 0 1 0
      else (d.setBank n { b.putLine (b.slotOf p) k 0 with zfPage := some (p, k + 1) }).bankAct n 0 1 0

/-- The next page of a re-encode pass: written and not poisoned (R313). -/
def Bank.recodeNext (b : Bank) (start : Nat) : Option Nat :=
  ((List.range 128).drop start).find? fun p => let st := b.slot (b.slotOf p); st.written && !st.poisoned

/-- The re-encode pass takes its next page (R313); after its last it ends with RECODE_DONE. -/
def opRecodeStep (n : Nat) (d : Dev) : Dev :=
  let b := d.bank n
  match b.recode with
  | none => d
  | some start =>
    if !d.bankWorks n || !d.bankTurn n 8 then d
    else
      let finish (d : Dev) : Dev :=
        let (k, d1) := d.takeFree
        let w := Config.freeWord k
        (d1.modBank n fun b => { b with recode := none }).bankEvents n
          [{ code := 4, page := fld w 0 7, slot := fld w 8 8, line := 0, cause := 7, req := 0 }]
      match b.recodeNext start with
      | none => finish d
      | some p =>
        let s := b.slotOf p
        let old := b
        let b := b.claim s
        let t := BitVec.ofNat 2 (fld b.ctrl 0 2)
        let (b1, ok, evs) := if b.failing s = [] then (b, true, []) else b.decodeFor p s 7 0 none
        let b2 := if ok then b1.modSlot s fun x => { x with t := t, check := pageCheck t (b1.slotLines s) } else b1
        let d1 := (((d.bankGrant n 8).setBank n { b2 with recode := some (p + 1) }).bankEvents n evs).bankWork n s old b2
          (evs.map BankEv.code) 0 64 false
        match (d1.bank n).recodeNext (p + 1) with
        | none => finish d1
        | some _ => d1

/-! ### Self-test (R329–R331) -/

/-- Page that slot `s` holds, if any. -/
def Bank.pageOf (b : Bank) (s : Nat) : Option Nat :=
  (List.range 128).find? fun p => b.slotOf p == s

/-- Page of a move of pool pages that stands in bank `n`. -/
def Dev.movingPage (d : Dev) (n p : Nat) : Bool :=
  d.rake.moves.any fun m => (m.srcBank == n && m.srcPage == p && m.phase != .waiting) ||
    (m.dstBank == n && m.dstPage == p && m.phase != .waiting)

/-- Self-test may borrow slot `s` (R322, R329). -/
def Dev.mayBorrow (d : Dev) (n s : Nat) : Bool :=
  let b := d.bank n
  !b.defective.contains s && !(b.slot s).poisoned && (match b.pageOf s with | some p => !d.movingPage n p | none => true)

/-- The next slot in turn that self-test may borrow. -/
def Dev.borrowNext (d : Dev) (n : Nat) : Option Nat :=
  nextPage (d.bank n).stNext 136 (d.mayBorrow n)

/-- Copy a slot to the test buffer (R329). -/
def Bank.borrowSlot (b : Bank) (s : Nat) : Bank :=
  let take {α : Type} [DecidableEq α] (z : α) (t : Tab α) : Tab α := Tab.setList z [] 0 (t.getList z (64 * s) 64)
  { b with borrow := some { slot := s, lines := take 0 b.lines, guards := take 0 b.guards, st := b.slot s } }

/-- End the test of the borrowed slot with `defects` defective cells, the first in line `line`, and the lines that fail
verification (R319, R331, R340). -/
def Dev.endBorrow (d : Dev) (n s defects line : Nat) (fails : List Nat) : Dev × Bool :=
  let bad := (List.range 64).filter fails.contains
  let b0 := (d.bank n).abortBorrow
  let b := { b0 with stNext := (s + 1) % 136 }
  let written := (b.slot s).written
  let (k, d1) := d.takeFree
  let page := (b.pageOf s).getD (fld (Config.freeWord k) 0 7)
  if written && !bad.isEmpty then
    let b1 := foldS (fun b i => { b with lines := b.lines.set 0 (64 * s + i) (Config.freeLine (k + i)) }) b bad
    let (b2, evs) := b1.poison page s bad 6 0
    ((({ d1 with freeCtr := d1.freeCtr + 64 }).setBank n b2).bankEvents n evs, true)
  else if defects > 0 then
    let b1 := { b.logCe page s line 6 defects with stFails := satInc b.stFails }
    ((d1.setBank n b1).bankEvents n [{ code := 3, page := page, slot := s, line := line, cause := 6, req := 0 }], true)
  else (d.setBank n b, false)

/-- The on-demand self-test of a bank goes on to slot `s` + 1, or ends with its result (R604). -/
def Dev.bistBank (d : Dev) (n s : Nat) (failed : Bool) : Dev :=
  if d.bgs.bstRun = some n then
    let first := if failed && d.bgs.bstFail.isNone then some s else d.bgs.bstFail
    let d1 := { d with bgs := { d.bgs with bstFail := first } }
    if s + 1 < 136 ∧ (d1.borrowNext n).any (fun k => decide (s < k)) then d1
    else
      { d1 with
        bgs := { d1.bgs with bstRun := none }
        test := { d1.test with bistBusy := false
                               bistResult := pack [(1, 0, 1), (b2n first.isSome, 1, 1), (stDone, 8, 8), (first.getD 0, 16, 16)] } }
  else d

/-- Bank self-test: a step with no slot borrowed borrows the next, the step after it ends that test (assumption 14). A test on
demand runs at tier 2 (R604). The line operations of a march test are a free number (assumption 15). -/
def opBankSelftestStep (n defects line : Nat) (bad : List Nat) (d : Dev) : Dev :=
  let b := d.bank n
  let demand := d.bgs.bstRun == some n
  if !d.bankWorks n || (!demand && (!d.bgsRuns || !bit b.ctrl 3 || !bit d.bgs.ctrl 4 || !d.bankTurn n 4)) then d
  else match b.borrow with
    | none =>
      (match d.borrowNext n with
       | none => d
       | some s => ((d.bankGrant n 4).setBank n (b.borrowSlot s)).bankAct n 0 (if (b.slot s).written then 64 else 0) 0)
    | some w =>
      let (d1, failed) := (d.bankGrant n 4).endBorrow n w.slot defects line bad
      let (k, d2) := d1.takeFree
      (d2.bistBank n w.slot failed).bankAct n 0 (fld (Config.freeWord k) 0 16) 0

/-! ### Registers of a bank (R335–R342) -/

/-- A write of BANK_CTRL (R313, R336). -/
def Bank.writeCtrl (b : Bank) (v : Word) : Bank :=
  let c := merge 0x1F b.ctrl v
  if fld c 0 2 = fld b.ctrl 0 2 then { b with ctrl := c } else { b with ctrl := c, recode := some 0 }

/-- A write of BANK_FLIP_CTRL (R341). -/
def Bank.writeFlip (b : Bank) (v : Word) : Bank :=
  { b with flipWord := BitVec.ofNat 5 (fld v 0 5), flipArm := bit v 8, flipApplied := b.flipApplied && !bit v 9 }

/-- The CLEAR fields of BANK_LOG_SEL (R339). -/
def Bank.clearLogs (b : Bank) (v : Word) : Bank :=
  let b1 := if bit v 30 then { b with ceLog := [], ce := 0, ceDropped := 0 } else b
  if bit v 31 then { b1 with ueLog := [], poisons := 0, ueDropped := 0, responses := 0 } else b1

/-- BANK_STATUS (R337). -/
def Dev.bankStatus (d : Dev) (n : Nat) : Word :=
  let b := d.bank n
  let pages := List.range 128
  let out := d.rake.moves.any fun m => m.srcBank == n && m.phase != .waiting
  let inn := d.rake.moves.any fun m => m.dstBank == n && m.phase != .waiting
  pack [(b2n b.recode.isSome, 0, 1), (b2n b.borrow.isSome, 1, 1), (b2n out, 2, 1), (b2n inn, 3, 1),
    (min b.spareUsed.length 8, 4, 4), ((pages.countP fun p => !(b.slot (b.slotOf p)).written), 8, 8),
    ((pages.countP fun p => (b.slot (b.slotOf p)).written && (b.slot (b.slotOf p)).poisoned), 16, 8), (b.stFails.toNat, 24, 8)]

/-- BANK_LOG_ENTRY for a selection (R340). -/
def Bank.logEntry (b : Bank) (sel : Word) : Word :=
  match (if bit sel 5 then b.ueLog else b.ceLog)[fld sel 0 5]? with
  | none => 0
  | some e => pack [(e.page, 0, 7), (1, 7, 1), (e.slot, 8, 8), (e.line, 16, 6), (e.cause.toNat, 22, 3), (e.bits, 25, 6)]

/-- BANK_PAGE_INFO for a page (R342). -/
def Dev.pageInfo (d : Dev) (n p : Nat) : Word :=
  let b := d.bank n
  let s := b.slotOf p
  let st := b.slot s
  pack [(s, 0, 8), (b2n st.written, 8, 1), (b2n (st.written && st.poisoned), 9, 1), (b2n (decide (128 ≤ s)), 10, 1),
    (b2n (d.movingPage n p), 11, 1), (b2n (b.borrow.any fun w => w.slot == s), 12, 1), (b2n (b.alloc.contains p), 13, 1),
    (if st.written then st.t.toNat else fld b.ctrl 0 2, 14, 2), (if st.written then countDw st.fail else 0, 16, 7)]
where
  /-- Lines set in a mask. -/
  countDw (x : DWord) : Nat := (List.range 64).countP fun i => x.getLsbD i

/-- A read of a BANK block; `sel` gives the reader's selection registers by offset. -/
def Dev.readBank (d : Dev) (n : Nat) (sel : Nat → Word) (o : Nat) : Word :=
  let b := d.bank n
  match o with
  | 0x00 => b.ctrl
  | 0x04 => d.bankStatus n
  | 0x08 => pack [(b.ce.toNat, 0, 24), (b.ceDropped.toNat, 24, 8)]
  | 0x0C => pack [(b.poisons.toNat, 0, 16), (b.ueDropped.toNat, 16, 8), (b.responses.toNat, 24, 8)]
  | 0x10 => sel 0x10 &&& 0x3F
  | 0x14 => b.logEntry (sel 0x10)
  | 0x18 => b.flipMask
  | 0x1C => pack [(b.flipWord.toNat, 0, 5), (b2n b.flipArm, 8, 1), (b2n b.flipApplied, 9, 1)]
  | 0x20 => sel 0x20 &&& 0x7F
  | 0x24 => d.pageInfo n (fld (sel 0x20) 0 7)
  | _ => 0

/-- A write of a BANK block, the reader's selections apart. -/
def Bank.write (b : Bank) (o : Nat) (v : Word) : Bank :=
  match o with
  | 0x00 => b.writeCtrl v
  | 0x10 => b.clearLogs v
  | 0x18 => { b with flipMask := v }
  | 0x1C => b.writeFlip v
  | _ => b

/-- BANK_CTRL through a path (R313). -/
def opBankCtrlWrite (path : Path) (n : Nat) (v : Word) (d : Dev) : Dev :=
  d.filtered path (.bank n) 0x00 fun d => d.modBank n fun b => b.write 0x00 v

/-- BANK_FLIP_CTRL through a path (R320). -/
def opFlipArm (path : Path) (n : Nat) (v : Word) (d : Dev) : Dev :=
  d.filtered path (.bank n) 0x1C fun d => d.modBank n fun b => b.write 0x1C v

/-! ### SCRUB and RETIRE (R315, R322, R323) -/

/-- The bank a descriptor names in W1 (R408, R409). -/
def descBank (x : Desc) : Option Nat :=
  let u := fld (dword x 1) 0 16
  if unitClass u = 2 ∧ unitIdx u < 128 then some (unitIdx u) else none

/-- Scrub pages one after another; counts scrubbed, correctable, poisoned. -/
def Bank.scrubRange (b : Bank) : List Nat → Bank × Nat × Nat × Nat × List BankEv
  | [] => (b, 0, 0, 0, [])
  | p :: ps =>
    let w := (b.slot (b.slotOf p)).written
    let (b1, c, u, ev) := b.scrubPage p
    let (b2, n, c2, u2, ev2) := b1.scrubRange ps
    (b2, n + b2n w, c + c2, u + u2, ev ++ ev2)

/-- SCRUB (R315, R408). -/
def opScrub (iss : Issuer) (x : Desc) (d : Dev) : Dev :=
  d.beginAt (d.pllDead 2) iss x 0x20 ([(1, 0xFFFF0000), (2, 0xFFFF0080)] ++ resFrom 3) fun d e =>
    let first := fld (dword x 2) 0 7
    let count := fld (dword x 2) 8 8
    match descBank x with
    | none => d.complete e stBad iss.unit 0
    | some n =>
      if count = 0 ∨ first + count > 128 then d.complete e stBad (uBank n) 0
      else if !d.inPart iss.reader (uBank n) then d.complete e stPerm (uBank n) 0
      else if d.ust (uBank n) != .running then d.complete e stRefused (uBank n) 0
      else
        let (b, k, c, u, evs) := (d.bank n).abortBorrow.scrubRange ((List.range count).map (first + ·))
        (((d.setBank n b).bankEvents n evs).bankWork n (b.slotOf first) (d.bank n) b (evs.map BankEv.code) (64 * k) 0 false).complete e
          stDone (uBank n) (pack64 [(k, 0, 16), (c, 16, 16), (u, 32, 16)])

/-- Copy one line of a retirement (R322): a failing line in a page not poisoned pauses for one decode. -/
def Bank.retireDecode (b : Bank) (page : Nat) : Bank × List BankEv :=
  let s := b.slotOf page
  let fs := b.failing s
  if fs = [] then (b, [])
  else if (b.slot s).poisoned then (b.modSlot s fun x => { x with fail := x.fail ||| maskOf fs }, [])
  else
    let (b1, _, evs) := b.decodeFor page s 5 0 fs.head?
    (b1.modSlot s fun x => if x.poisoned then { x with fail := x.fail ||| maskOf (b1.failing s) } else x, evs)

/-- Move a page to slot `t` raw and mark its old slot defective (R322). A background fill of the page begins again there
(R306). -/
def Bank.remapTo (b : Bank) (page t : Nat) : Bank :=
  let s := b.slotOf page
  let b1 :=
    if (b.slot s).written then
      let ls := b.lines.getList 0 (64 * s) 64
      let gs := b.guards.getList 0 (64 * s) 64
      { b with lines := b.lines.setList 0 (64 * t) ls, guards := b.guards.setList 0 (64 * t) gs, slots := b.slots.set {} t (b.slot s) }
    else b
  { b1 with remap := b1.remap.set none page (some t), defective := s :: b1.defective, spareUsed := t :: b1.spareUsed
            zfPage := b1.zfPage.map fun z => if z.1 = page then (page, 0) else z }

/-- The lowest unused spare slot (R322). -/
def Bank.freeSpare (b : Bank) : Option Nat :=
  ((List.range 8).map (128 + ·)).find? fun s => !b.spareUsed.contains s

/-! ### The commands -/

/-- SCRUB (R315). -/
def execScrub (iss : Issuer) (d : Desc) (s : State) : Res :=
  runCmd (.scrub iss d) (opScrub iss d) s

/-- SCRUB_STEP (R314). -/
def execScrubStep (bank : Nat) (s : State) : Res :=
  runCmd (.scrubStep bank) (opScrubStep bank) s

/-- ZERO_FILL_STEP (R306). -/
def execZeroFillStep (bank : Nat) (s : State) : Res :=
  runCmd (.zeroFillStep bank) (opZeroFillStep bank) s

/-- BANK_SELFTEST_STEP (R329). -/
def execBankSelftestStep (bank : Nat) (defects : Defects) (badLines : List Nat) (s : State) : Res :=
  runCmd (.bankSelftestStep bank defects badLines) (opBankSelftestStep bank defects.cells defects.line badLines) s

/-- RECODE_STEP (R313). -/
def execRecodeStep (bank : Nat) (s : State) : Res :=
  runCmd (.recodeStep bank) (opRecodeStep bank) s

/-- BANK_CTRL_WRITE (R313). -/
def execBankCtrlWrite (path : Path) (bank : Nat) (value : Word) (s : State) : Res :=
  runCmd (.bankCtrlWrite path bank value) (opBankCtrlWrite path bank value) s

/-- FLIP_ARM (R320). -/
def execFlipArm (path : Path) (bank : Nat) (value : Word) (s : State) : Res :=
  runCmd (.flipArm path bank value) (opFlipArm path bank value) s

end Sys2Proof.Machine
end

