-- ==== Sys2Proof/Machine/Routing.lean ====
section
/-! DEFINITION. What the frames of a pan select: which frame holds what (R49–R53, R67, R83), where every wire of the pan
starts and ends (R90–R92, R106), and the configuration that follows. The bits within a frame are read by the opaque
functions of Config, each of the frames that R51 gives it; a selection that the geometry of R91, R92 and R106 does not
have selects the constant 0 (assumption 9). -/

namespace Sys2Proof.Machine

/-! ### Frames (R49–R51, R67, R83, R120) -/

/-- Logic column that a column holds (R49). -/
def logicOf (c : Nat) : Option Nat :=
  let p := c % 12
  if 1 ≤ p ∧ p ≤ 4 then some (8 * (c / 12) + p - 1) else if 8 ≤ p then some (8 * (c / 12) + p - 4) else none

/-- RAM column that a column holds (R49). -/
def ramOf (c : Nat) : Option Nat :=
  if c % 12 = 5 then some (2 * (c / 12)) else if c % 12 = 7 then some (2 * (c / 12) + 1) else none

/-- Multiply-add column that a column holds (R49). -/
def macOf (c : Nat) : Option Nat := if c % 12 = 6 then some (c / 12) else none

/-- Border/clock column that a column holds (R49). -/
def borderOf (c : Nat) : Option Nat := if c % 12 = 0 then some (c / 12) else none

/-- Column of logic column `l`. -/
def logicColumn (l : Nat) : Nat := 12 * (l / 8) + (if l % 8 < 4 then l % 8 + 1 else l % 8 + 4)

/-- Column of RAM column `r`. -/
def ramColumn (r : Nat) : Nat := 12 * (r / 2) + (if r % 2 = 0 then 5 else 7)

/-- Frames of one plane by unit-relative address. -/
def NvUnit.plane (u : NvUnit) (k : Nat) : Tab FrameBits :=
  (u.frames.filter fun e => decide (e.1 / 8192 = k)).map fun e => (e.1 % 8192, e.2)

/-- The macrocells of a logic frame (odd minors) with a bit set at place `j` of their 32 bits (R67). -/
def frameCells (rel j : Nat) (f : FrameBits) : List Nat :=
  match logicOf (rel / 64) with
  | some l => if rel % 2 = 1 then ((List.range 16).filter fun m => f.getLsbD (2048 + 32 * m + j)).map fun m => 512 * l + 16 * (rel % 64 / 2) + m
              else []
  | none => []

/-- The macrocells whose INIT is 1. -/
def initCells (fr : Tab FrameBits) : List Nat := fr.flatMap fun e => frameCells e.1 0 e.2

/-- The macrocells whose PERSIST is 1. -/
def persistCells (fr : Tab FrameBits) : List Nat := fr.flatMap fun e => frameCells e.1 1 e.2

/-- The initial contents of the fabric RAM blocks that the frames list, as ×36 words (R83). -/
def ramInit (fr : Tab FrameBits) : Tab (BitVec 36) :=
  let blocks := ((fr.filterMap fun e =>
    match ramOf (e.1 / 64) with
    | some r => if e.1 % 64 < 54 then some (6 * r + e.1 % 64 / 9) else none
    | none => none).eraseDups)
  foldS (fun t k =>
    let base := ramColumn (k / 6) * 64 + 9 * (k % 6)
    let content := (List.range 9).foldl (fun n j => n + (fr.get 0 (base + j)).toNat * 2 ^ (4096 * j)) 0
    t.setList 0 (1024 * k) ((List.range 1024).map fun w => BitVec.ofNat 36 (content >>> (36 * w)))) [] blocks

/-- Local routing bits of a block, from its minor 2b + 1 (R51). -/
def localBits (f : FrameBits) : BitVec 1536 := f.extractLsb' 2560 1536

/-- The bus-wire enables that a pan's frame holds, as pan bus wire and selection (R100, R187): they lie in the local routing
of a block, for the 16 wires of its row (R51). -/
def frameEnables (rel : Nat) (f : FrameBits) : List (Nat × Nat) :=
  match (if rel % 2 = 1 then logicOf (rel / 64) else none) with
  | some l =>
    ((Config.localRouting (32 * l + rel % 64 / 2) (localBits f)).busEn.filter fun e => decide (e.1 < 16)).map fun e =>
      (16 * (rel % 64 / 2) + e.1, e.2)
  | none => []

/-! ### Switch points and segments (R91, R92, R106) -/

/-- A switch point: logic column and row (R91). -/
abbrev Point := Nat × Nat

/-- The switch point of block number `blk` (R50). -/
def blockPoint (blk : Nat) : Point := (blk / 32, blk % 32)

/-- A routing segment (R91). Directions are those of the edges: 0 N to row 31, 1 E, 2 S, 3 W. -/
inductive Seg where
  | run (len dir : Nat) (start : Point)
  | ph (row i : Nat)
  | pv (col i : Nat)
  deriving DecidableEq, Repr

/-- The segments that start at one switch point: 32 of length 1, 16 of length 4 and 8 of length 16 in each direction. -/
def segsPerPoint : Nat := 224

/-- Number of the first pan-long horizontal wire, and of the first vertical one. -/
def phBase : Nat := 2048 * segsPerPoint
/-- See `phBase`. -/
def pvBase : Nat := phBase + 32 * 32

/-- A segment from its number: switch points in block order, 56 segments a direction, then PH by row and PV by column. -/
def segOf (id : Nat) : Option Seg :=
  if id < phBase then
    let j := id % 56
    some (.run (if j < 32 then 1 else if j < 48 then 4 else 16) (id % segsPerPoint / 56) (blockPoint (id / segsPerPoint)))
  else if id < pvBase then some (.ph ((id - phBase) / 32) ((id - phBase) % 32))
  else if id < pvBase + 64 * 16 then some (.pv ((id - pvBase) / 16) ((id - pvBase) % 16))
  else none

/-- The switch point `n` steps from `p` in a direction, cut short at the pan edge (R91). -/
def stepPoint (dir n : Nat) (p : Point) : Point :=
  match dir with
  | 0 => (p.1, min 31 (p.2 + n))
  | 1 => (min 63 (p.1 + n), p.2)
  | 2 => (p.1, p.2 - n)
  | _ => (p.1 - n, p.2)

/-- A segment can be read at a switch point: at its far end, or anywhere on a pan-long wire. -/
def Seg.readAt (p : Point) : Seg → Bool
  | .run len dir start => stepPoint dir len start == p
  | .ph row _ => p.2 == row
  | .pv col _ => p.1 == col

/-- Where a segment is driven: its start, or its tap. -/
def Seg.drivenAt (tap : Nat) : Seg → Point
  | .run _ _ start => start
  | .ph row _ => (tap % 64, row)
  | .pv col _ => (col, tap % 32)

/-- Where a segment's wire register stands: at its far end, or at its driving tap (R94). -/
def Seg.regAt (tap : Nat) : Seg → Point
  | .run len dir start => stepPoint dir len start
  | s => s.drivenAt tap

/-- The switch points of a RAM block (R92). -/
def ramPoints (r : Nat) : List Point :=
  let col := r / 6
  let l := 8 * (col / 2) + (if col % 2 = 0 then 3 else 4)
  (List.range 5).map fun j => (l, 5 * (r % 6) + j)

/-- The switch points of a multiply-add unit (R92). -/
def macPoints (u : Nat) : List Point := (List.range 4).map fun j => (8 * (u / 8) + 4, 4 * (u % 8) + j)

/-- The switch point of a border port (R106). -/
def borderPoint (e k : Nat) : Point :=
  match e with
  | 0 => (k % 64, 31)
  | 1 => (63, k % 32)
  | 2 => (k % 64, 0)
  | _ => (0, k % 32)

/-- A source is present at a switch point. FB returns to its own block's inputs only (R62); the pin port and the quiesce
port reach any routing wire that the image chooses (R223, R475). -/
def Src.presentAt (p : Point) : Src → Bool
  | .zero => true
  | .one => true
  | .seg i => (segOf i).any (Seg.readAt p)
  | .bus row w => row == p.2 && decide (w < 16)
  | .out m => decide (m < 32768) && blockPoint (m / 16) == p
  | .fb _ => false
  | .border e k => decide (e < 4 ∧ 128 ≤ k ∧ k < 256) && borderPoint e k == p
  | .ramQ r port i => decide (r < 96 ∧ port < 2 ∧ i < 72) && (ramPoints r).contains p
  | .macP u i => decide (u < 64 ∧ i < 48) && (macPoints u).contains p
  | .macLow u i => decide (u < 64 ∧ i < 26) && (macPoints u).contains p
  | .macOvf u => decide (u < 64) && (macPoints u).contains p
  | .pinIn s => decide (s < 48)
  | .qreq => true
  | .chan c i => decide (c < 4 ∧ i < 34)
  | .sysStart => true

/-- A source that a multiplexer at the given switch points can choose; any other selects 0. -/
def pick (ps : List Point) (s : Src) : Src := if ps.any fun p => s.presentAt p then s else .zero

/-- A routing wire: a segment or a bus wire (R90, R99). -/
def Src.isWire : Src → Bool
  | .seg i => (segOf i).isSome
  | .bus row w => decide (row < 32 ∧ w < 16)
  | _ => false

/-- A spine clock, one of 16. -/
def spineOk (c : ClkSel) : ClkSel := c.filter fun k => decide (k < 16)

/-- A line of a block is driven by one of its 48 inputs (R64). -/
def lineOk (l : Option Nat) : Option Nat := l.filter fun i => decide (i < 48)

/-! ### The configuration of a pan -/

/-- A table of the values of `f` at keys below `n`. -/
def tabOf {α : Type} [DecidableEq α] (z : α) (n : Nat) (f : Nat → α) : Tab α := foldS (fun t i => t.set z i (f i)) [] (List.range n)

/-- The two frames of block `blk`: minors 2b and 2b + 1 of its logic column (R51). -/
def blockFrames (fr : Tab FrameBits) (blk : Nat) : FrameBits × FrameBits :=
  let base := 64 * logicColumn (blk / 32) + 2 * (blk % 32)
  (fr.get 0 base, fr.get 0 (base + 1))

/-- Local routing of block `blk`. -/
def localCfg (fr : Tab FrameBits) (blk : Nat) : LocalCfg := Config.localRouting blk (localBits (blockFrames fr blk).2)

/-- Local routing bits of a switch point. -/
def pointBits (fr : Tab FrameBits) (p : Point) : BitVec 1536 := localBits (blockFrames fr (32 * p.1 + p.2)).2

/-- One exchange of two places of the array. -/
def swapPlace (x k : Nat) : Nat :=
  let s := Config.arraySwap k % 6144
  if x = k then s else if x = s then k else x

/-- The connection that array bit `i` makes: column `c` to term `t` has number `96 t + c`. It is a permutation of the 6,144
numbers, as each bit connects one column to one term (R53), and every permutation is such a sequence of exchanges. -/
def arrayPlace (i : Nat) : Nat := foldS swapPlace i (List.range 6144)

/-- The connections that a block's array makes (R51, R53): bit `i` of the array is in minor 2b below 4,096, in minor 2b + 1
above. -/
def arrayOn (f : FrameBits × FrameBits) : List Nat :=
  ((List.range 6144).filter fun i => if i < 4096 then f.1.getLsbD i else f.2.getLsbD (i - 4096)).map arrayPlace

/-- Array columns connected to product term `t`. -/
def arrayColumns (on : List Nat) (t : Nat) : List Nat := (List.range 96).filter fun c => on.contains (96 * t + c)

/-- A block's configuration. -/
def blockCfg (fr : Tab FrameBits) (blk : Nat) : BlockCfg :=
  let f := blockFrames fr blk
  let l := localCfg fr blk
  let on := arrayOn f
  let input (s : Src) : Src :=
    match s with
    | .fb m => if m / 16 = blk then .fb m else .zero
    | s => pick [blockPoint blk] s
  { inputs := tabOf .zero 48 fun i => input (l.inputs.get .zero i)
    terms := if on.isEmpty then [] else tabOf [] 64 (arrayColumns on)
    bclk0 := spineOk l.bclk0, bclk1 := spineOk l.bclk1
    bce0 := lineOk l.bce0, bce1 := lineOk l.bce1, bsr0 := lineOk l.bsr0, bsr1 := lineOk l.bsr1
    wireClk := match l.wireClk with | .spine c => if c < 16 then .spine c else .none | x => x
    ptoe := (List.range 16).filter fun w => l.busEn.get 0 w = 4
    cells := tabOf {} 16 fun m => Config.macrocell (f.2.extractLsb' (2048 + 32 * m + 2) 30) }

/-- The segments: each has the one driver of R90, a pan-long wire that of its lowest tap. -/
def segTable (fr : Tab FrameBits) : Tab SegCfg :=
  let own : Tab SegCfg := foldS (fun t blk => foldS (fun (t : Tab SegCfg) (e : Nat × SegCfg) =>
      if e.1 < segsPerPoint then t.set {} (segsPerPoint * blk + e.1) { e.2 with drv := pick [blockPoint blk] e.2.drv } else t)
    t (localCfg fr blk).segs) [] (List.range 2048)
  let long (base perLine : Nat) (blkOf : Nat → Nat → Nat) (taps : Nat) (sel : LocalCfg → Tab SegCfg) (lines : Nat) (t : Tab SegCfg) : Tab SegCfg :=
    foldS (fun t n =>
      let line := n / perLine
      match (List.range taps).find? fun k => (sel (localCfg fr (blkOf line k))).any fun e => e.1 == n % perLine with
      | some k =>
        let c := (sel (localCfg fr (blkOf line k))).get {} (n % perLine)
        t.set {} (base + n) { c with tap := k, drv := pick [blockPoint (blkOf line k)] c.drv }
      | none => t) t (List.range (perLine * lines))
  long pvBase 16 (fun col k => 32 * col + k) 32 LocalCfg.pv 64 (long phBase 32 (fun row k => 32 * k + row) 64 LocalCfg.ph 32 own)

/-- A RAM port within its switch points (R92). -/
def ramPortOk (r : Nat) (o : RamPortCfg) : RamPortCfg :=
  let p := pick (ramPoints r)
  { o with clk := spineOk o.clk, en := p o.en, we := p o.we, be := o.be.map p, addr := o.addr.map p, data := o.data.map p }

/-- A RAM block's configuration, from minors 54–63 of its column and the local routing of its switch points (R51, R92). -/
def ramCfg (fr : Tab FrameBits) (r : Nat) : RamCfg :=
  let c := Config.ramControl r ((List.range 10).map fun j => fr.get 0 (64 * ramColumn (r / 6) + 54 + j)) ((ramPoints r).map (pointBits fr))
  { c with a := ramPortOk r c.a, b := ramPortOk r c.b }

/-- A multiply-add unit's configuration, from minors 8u to 8u + 7 of its column and the local routing of its switch points (R51,
R92); the shift is 1–26 (R85). -/
def macCfg (fr : Tab FrameBits) (u : Nat) : MacCfg :=
  let c := Config.macUnit u ((List.range 8).map fun j => fr.get 0 (64 * (12 * (u / 8) + 6) + 8 * (u % 8) + j)) ((macPoints u).map (pointBits fr))
  let p := pick (macPoints u)
  { c with
    opSrc := c.opSrc.map p, shift := max 1 (min 26 c.shift), clk := spineOk c.clk, ce := p c.ce, rst := p c.rst
    a := c.a.map p, b := c.b.map p, c := c.c.map p }

/-- What border/clock column `g` selects (R51). -/
def borderCol (fr : Tab FrameBits) (g : Nat) : BorderColCfg :=
  Config.borderClock g ((List.range 64).map fun j => fr.get 0 (64 * (12 * g) + j))

/-- What drives an outward border port: its connection is in the local routing of its switch point (R92). -/
def borderDriver (fr : Tab FrameBits) (i : Nat) : Src :=
  let p := borderPoint (i / 256) (i % 256)
  pick [p] (Config.borderDrive i (pointBits fr p))

/-- The first of the eight border/clock columns that lists a key. -/
def firstCol {α : Type} (cols : List BorderColCfg) (sel : BorderColCfg → Tab α) (k : Nat) : Option α :=
  cols.findSome? fun c => ((sel c).find? fun e => e.1 == k).map Prod.snd

/-- Everything that the frames of a pan's plane select. The user GSR wire is chosen in border/clock column 0 (R72). -/
def panFabric (fr : Tab FrameBits) : FabricCfg :=
  let cols := (List.range 8).map (borderCol fr)
  let wire (s : Src) : Option Src := if s.isWire then some s else none
  let anywhere (s : Src) : Src := if (List.range 2048).any fun b => s.presentAt (blockPoint b) then s else .zero
  { blocks := tabOf {} 2048 (blockCfg fr)
    segs := segTable fr
    busEn := tabOf 0 (512 * 64) fun i => (localCfg fr (32 * (i % 64) + i / 1024)).busEn.get 0 (i / 64 % 16)
    busClk := tabOf none 32 fun row => spineOk ((firstCol cols BorderColCfg.busClk row).getD none)
    rams := tabOf {} 96 (ramCfg fr)
    macs := tabOf {} 64 (macCfg fr)
    borders := tabOf {} 1024 fun i =>
      let b := (firstCol cols BorderColCfg.borders i).getD {}
      { b with drv := if i % 256 < 128 then borderDriver fr i else .zero, clk := spineOk b.clk }
    pinPort := tabOf {} 48 fun s => let x := (firstCol cols BorderColCfg.pinPort s).getD {}; { out := anywhere x.out, oe := anywhere x.oe }
    userGsr := (borderCol fr 0).userGsr.bind wire
    qack := (cols.findSome? fun c => c.qack).bind wire
    chanReady := tabOf none 4 fun c => ((firstCol cols BorderColCfg.chanReady c).getD none).map anywhere
    startClk := spineOk (cols.findSome? fun c => c.startClk)
    pinClk := spineOk (cols.findSome? fun c => c.pinClk)
    spine := tabOf none 16 fun c => (firstCol cols BorderColCfg.spine c).getD none }

end Sys2Proof.Machine
end

