-- ==== Sys2Proof/Machine/Fabric.lean ====
section
/-! DEFINITION. The fabric of a pan at work (chapters "Pans, Product-Term Blocks and Macrocells" and "Pipelined
Interconnect and Pan Borders"): what its wires read as, what an active clock edge does, and how its levels settle. The
configuration is what `panFabric` reads from the frames of the active plane. -/

namespace Sys2Proof.Machine

/-! ### A pan as it is evaluated -/

/-- GSR is asserted (R72). -/
def Pan.gsr (p : Pan) : Bool :=
  p.srcConfig || p.srcCommitGsr || p.softAssert || (p.userEn && p.fab.userGsr) || p.srcEmpty || p.selfTest

/-- Hold is asserted (R72). -/
def Pan.held (p : Pan) : Bool := p.srcCommitHold || p.softHold || p.srcStop || p.srcPfw

/-- A pan with what its active plane selects, the macrocells whose INIT is 1 and its live edges. -/
structure View where
  idx : Nat
  cfg : FabricCfg
  p : Pan
  inits : List Nat
  live : List Nat
  gated : Bool := false                -- its domain sleeps or its clocks are gated: it stands still (R109, R523)
  sysStart : Bool := false             -- SYS_START (R453)
  chan : Tab (BitVec 34) := []         -- what its field channels give it (R475)
  cross : Tab (Option Bool) := []      -- inward ports that a capture reads otherwise than they now stand (R110)
  deriving DecidableEq, Repr

/-- A macrocell's configuration. -/
def FabricCfg.cell (c : FabricCfg) (mc : Nat) : MacroCfg := ((c.blocks.get {} (mc / 16)).cells).get {} (mc % 16)

/-- A storage element's value under GSR: restored, else INIT (R70). -/
def View.initial (v : View) (mc : Nat) : Bool := (v.p.fab.init.get none mc).getD (v.inits.contains mc)

/-- A clock domain still stands under GSR: it leaves at the third active edge after release (R70). At an edge the count
includes that edge, so the third edge is the first that acts (assumption 16). -/
def View.inGsr (v : View) (k : Nat) : Bool := v.p.gsr || v.p.fab.gsrSeen.get 0 k < 3

/-- A clock domain still stands under hold (R71). -/
def View.inHold (v : View) (k : Nat) : Bool := v.p.held || v.p.fab.holdSeen.get 0 k < 3

/-- The clock domain of a spine clock edge. -/
def domainOf (clk : Nat) (falling : Bool) : Nat := 2 * clk + b2n falling

/-- Two spine clocks are the same clock: one number, or one PLL output or clock pin (R110). -/
def View.sameClock (v : View) (a b : Nat) : Bool :=
  a == b || (match v.cfg.spine.get none a, v.cfg.spine.get none b with | some x, some y => x == y | _, _ => false)

/-- Neighbour of a pan across edge 0 N, 1 E, 2 S, 3 W (R106). -/
def neighbour (p e : Nat) : Option Nat :=
  match e with
  | 0 => if p < 56 then some (p + 8) else none
  | 1 => if p % 8 < 7 then some (p + 1) else none
  | 2 => if 8 ≤ p then some (p - 8) else none
  | _ => if 0 < p % 8 then some (p - 1) else none

/-- The facing edge (R106). -/
def facing (e : Nat) : Nat := (e + 2) % 4

/-- The views of the pans that are evaluated together: a gang, or one pan. -/
abbrev Views := List View

/-- The view of a pan. -/
def Views.of (vs : Views) (p : Nat) : Option View := vs.find? fun v => v.idx == p

/-! ### Combinational values (R53–R62, R90, R94, R100–R103) -/

/-- Input `i` of block (L, row). -/
def View.input (v : View) (ev : Src → Bool) (blk i : Nat) : Bool := ev ((v.cfg.blocks.get {} blk).inputs.get .zero i)

/-- Product term `t` of a block (R53, R54). -/
def View.term (v : View) (ev : Src → Bool) (blk t : Nat) : Bool :=
  let cols := ((v.cfg.blocks.get {} blk).terms).get [] t
  !cols.isEmpty && cols.all fun c => if c % 2 = 0 then v.input ev blk (c / 2) else !(v.input ev blk (c / 2))

/-- A role of macrocell `m` takes its control product term: K, PTCLK, PTCE, PTSR or a bus driver's enable (R57, R61, R63–R65,
R100). -/
def controlUsed (b : BlockCfg) (m : Nat) : Bool :=
  let c := b.cells.get {} m
  c.mode == 2 || c.clkSel == 2 || decide (3 ≤ c.ceSel) || (c.srSrc == 2 && decide (1 ≤ c.srKind ∧ c.srKind ≤ 4)) || b.ptoe.contains m

/-- The product terms that cluster `k` gives to the OR: a term with a special use is withdrawn (R55, R57). -/
def clusterTerms (b : BlockCfg) (k : Nat) : List Nat :=
  let c := b.cells.get {} k
  (if c.xorSel = 2 then [] else [4 * k]) ++ [4 * k + 1, 4 * k + 2] ++ (if c.cptTaken || controlUsed b k then [] else [4 * k + 3])

/-- The OR that cluster `k` feeds: its own by default, at most two away, none beyond the block (R55, R56). -/
def clusterOr (b : BlockCfg) (k : Nat) : Option Int :=
  ((b.cells.get {} k).send.filter fun o => decide (-2 ≤ o ∧ o ≤ 2)).map fun o => (k : Int) + o

/-- The clusters that feed the OR of macrocell `m`: at most four (R56). -/
def orClusters (b : BlockCfg) (m : Nat) : List Nat :=
  ((List.range 16).filter fun k => clusterOr b k == some (m : Int)).take 4

/-- The sum of macrocell `m` of column `l` at `row`, its cascade from the row above included (R55, R58). -/
def View.sum (v : View) (ev : Src → Bool) (l m : Nat) : Nat → Bool
  | 0 => own 0
  | row + 1 => own (row + 1) || ((v.cfg.cell (512 * l + 16 * row + m)).cascade && v.sum ev l m row)
where
  /-- What the block itself gives. -/
  own (row : Nat) : Bool :=
    let blk := 32 * l + row
    (orClusters (v.cfg.blocks.get {} blk) m).any fun k => (clusterTerms (v.cfg.blocks.get {} blk) k).any fun t => v.term ev blk t

/-- S of a macrocell (R60). -/
def View.s (v : View) (ev : Src → Bool) (mc : Nat) : Bool :=
  let x := match (v.cfg.cell mc).xorSel with
    | 1 => true
    | 2 => v.term ev (mc / 16) (4 * (mc % 16))
    | _ => false
  xor (v.sum ev (mc / 512) (mc % 16) (mc / 16 % 32)) x

/-- The control product term of a macrocell (R57). -/
def View.control (v : View) (ev : Src → Bool) (mc : Nat) : Bool := v.term ev (mc / 16) (4 * (mc % 16) + 3)

/-- A block line that an input drives, or that is tied inactive (R64). -/
def View.blockLine (v : View) (ev : Src → Bool) (blk : Nat) (l : Option Nat) : Bool := l.any fun i => v.input ev blk i

/-- The driver of BUS(row, w) at position `l` is enabled (R100). -/
def View.busOn (v : View) (ev : Src → Bool) (row w l : Nat) : Bool :=
  let blk := 32 * l + row
  let b := v.cfg.blocks.get {} blk
  match v.cfg.busEn.get 0 ((row * 16 + w) * 64 + l) with
  | 1 => true
  | 2 => v.blockLine ev blk b.bce0
  | 3 => v.blockLine ev blk b.bce1
  | 4 => v.control ev (512 * l + 16 * row + w)
  | _ => false

/-- The enabled drivers of a bus wire, lowest first (R102). -/
def View.busDrivers (v : View) (ev : Src → Bool) (row w : Nat) : List Nat :=
  if v.p.gsr then [] else (List.range 64).filter fun l => v.busOn ev row w l

/-- A bus wire: the lowest enabled driver, the keeper, or 0 under GSR (R102, R103). -/
def View.bus (v : View) (ev : Src → Bool) (row w : Nat) : Bool :=
  if v.p.gsr then false
  else match v.busDrivers ev row w with
    | l :: _ => ev (.out (512 * l + 16 * row + w))
    | [] => v.p.fab.keep.get false (row * 16 + w)

/-- A number from sources, least significant first. -/
def bitsOf (ev : Src → Bool) (l : List Src) : Nat := l.foldr (fun s n => b2n (ev s) + 2 * n) 0

/-! ### Multiply-add units (R85–R89) -/

/-- A unit's result: P, LOWOUT, OVF. -/
structure MacOut where
  p : BitVec 48
  low : BitVec 26
  ovf : Bool
  deriving DecidableEq, Repr, Inhabited

/-- The exact result of an operation and LOWOUT (R85). -/
def macExact (op shift : Nat) (prod pReg pcin c : Int) (pcinN : Nat) : Int × Nat :=
  match op with
  | 0 => (prod, 0)
  | 1 => (pReg + prod, 0)
  | 2 => (pReg - prod, 0)
  | 3 => (c + prod, 0)
  | 4 => (c - prod, 0)
  | 5 => (pcin + prod, 0)
  | 6 => (pcin / (2 ^ shift : Nat) + prod, pcinN % 2 ^ shift)
  | _ => (c, 0)

/-- P wraps, or saturates with SAT; OVF tells a result outside 48 bits (R88). -/
def macNarrow (sat : Bool) (x : Int) (low : Nat) : MacOut :=
  let out := x ≥ 2 ^ 47 || x < -(2 ^ 47)
  { p := if sat && x ≥ 2 ^ 47 then 0x7FFFFFFFFFFF else if sat && x < -(2 ^ 47) then 0x800000000000 else BitVec.ofInt 48 x
    low := BitVec.ofNat 26 low, ovf := out }

/-- The inputs of a unit: A, B, C and OP from routing. -/
def View.macIn (v : View) (ev : Src → Bool) (u : Nat) : BitVec 27 × BitVec 18 × BitVec 48 × BitVec 3 :=
  let c := v.cfg.macs.get {} u
  (BitVec.ofNat 27 (bitsOf ev c.a), BitVec.ofNat 18 (bitsOf ev c.b), BitVec.ofNat 48 (bitsOf ev c.c),
    match c.opFixed with | some o => o | none => BitVec.ofNat 3 (bitsOf ev c.opSrc))

/-- What reaches the adder: the product, C and OP behind the enabled stages (R86). -/
def View.macMid (v : View) (ev : Src → Bool) (u : Nat) : BitVec 48 × BitVec 48 × BitVec 3 :=
  let c := v.cfg.macs.get {} u
  let r := v.p.fab.mac.get {} u
  let (a, b, k, op) := if c.regIn then (r.a, r.b, r.c, r.op) else v.macIn ev u
  if c.regMul then (r.mprod, r.mc, r.mop) else (BitVec.ofInt 48 (a.toInt * b.toInt), k, op)

/-- The result before the output stage of unit `i` of column `g`, and what the unit drives (R85–R88). -/
def View.mac (v : View) (ev : Src → Bool) (g : Nat) : Nat → MacOut × MacOut
  | 0 => fin 0 0
  | i + 1 => fin (i + 1) (v.mac ev g i).2.p
where
  /-- With PCIN known. -/
  fin (i : Nat) (pcin : BitVec 48) : MacOut × MacOut :=
    let u := 8 * g + i
    let c := v.cfg.macs.get {} u
    let r := v.p.fab.mac.get {} u
    let (prod, k, op) := v.macMid ev u
    let (x, low) := macExact op.toNat c.shift prod.toInt r.p.toInt pcin.toInt k.toInt pcin.toNat
    let y := macNarrow c.sat x low
    (y, if c.regOut || op == 1 || op == 2 then { p := r.p, low := r.low, ovf := r.ovf } else y)

/-! ### Sources -/

/-- Clamp value of an outward port (R108, R109). -/
def View.clampValue (v : View) (e k : Nat) : Bool :=
  match (v.cfg.borders.get {} (256 * e + k)).mode with
  | 1 => true
  | 2 => v.p.fab.bHold.get false (256 * e + k)
  | _ => false

/-- An outward port's signal before its isolation cell (R108). -/
def View.outward (v : View) (ev : Src → Bool) (e k : Nat) : Bool :=
  let b := v.cfg.borders.get {} (256 * e + k)
  if b.outReg then v.p.fab.bOut.get false (256 * e + k) else ev b.drv

/-- What any source of pan `p` reads as. Storage elements read as they are stored; a wire whose value never settles reads
as a free value. -/
def evalSrc (vs : Views) (ctr : Nat) : Nat → Nat → Src → Bool
  | 0, p, s => Config.loopValue ctr p s
  | n + 1, p, s =>
    match vs.of p with
    | none => false
    | some v =>
      let ev := evalSrc vs ctr n p
      match s with
      | .zero => false
      | .one => true
      | .seg i =>
        let g := v.cfg.segs.get {} i
        if g.reg then v.p.fab.wire.get false i else ev g.drv
      | .bus row w => v.bus ev row w
      | .out m => if (v.cfg.cell m).outQ then v.p.fab.q.get false m else v.s ev m
      | .fb m => if (v.cfg.cell m).fbQ then v.p.fab.q.get false m else v.s ev m
      | .border e k =>
        let b := v.cfg.borders.get {} (256 * e + k)
        if !v.live.contains e then b.inDefault
        else if b.mode = 1 then (v.p.fab.bIn.get 0 (256 * e + k)).getLsbD 0
        else if b.mode = 2 then (v.p.fab.bIn.get 0 (256 * e + k)).getLsbD 2
        else match v.cross.get none (256 * e + k) with
          | some x => x
          | none =>
            match (neighbour p e).bind vs.of with
            | some w => w.outward (evalSrc vs ctr n w.idx) (facing e) (k - 128)
            | none => b.inDefault
      | .ramQ r port i =>
        let c := v.cfg.rams.get {} r
        let out := if (if port = 0 then c.a else c.b).outReg then v.p.fab.ramOut.get 0 (2 * r + port) else v.p.fab.ramLatch.get 0 (2 * r + port)
        out.getLsbD i
      | .macP u i => (v.mac ev (u / 8) (u % 8)).2.p.getLsbD i
      | .macLow u i => (v.mac ev (u / 8) (u % 8)).2.low.getLsbD i
      | .macOvf u => (v.mac ev (u / 8) (u % 8)).2.ovf
      | .pinIn k => v.p.fab.pinIn.get false k
      | .qreq => v.p.fab.qreq
      | .chan c i => (v.chan.get 0 c).getLsbD i
      | .sysStart => v.p.fab.start.getLsbD 2

/-- Steps a value may take through wires and blocks: more than a pan has wires. -/
def evalFuel : Nat := 1000000

/-- The evaluation of a pan's sources. -/
def Views.ev (vs : Views) (ctr : Nat) (v : View) : Src → Bool := evalSrc vs ctr evalFuel v.idx

/-- What arrives at inward port `k` of a live edge, before the port's own register (R106, R110). -/
def Views.arriving (vs : Views) (ctr : Nat) (v : View) (e k : Nat) : Bool :=
  match ((vs.of v.idx).getD v).cross.get none (256 * e + k) with
  | some x => x
  | none =>
    match (neighbour v.idx e).bind vs.of with
    | some w => w.outward (vs.ev ctr w) (facing e) (k - 128)
    | none => (v.cfg.borders.get {} (256 * e + k)).inDefault

/-- Free indices that the RAM blocks of one evaluation may use; those of crossing signals follow. -/
def crossFree : Nat := 36864 * 96

/-- Free indices that one evaluation may use. -/
def evalFree : Nat := crossFree + 2 ^ 20

/-! ### Storage elements (R61–R66) -/

/-- The macrocells that the configuration lists. -/
def FabricCfg.cells (c : FabricCfg) : List Nat :=
  c.blocks.flatMap fun b => b.2.cells.map fun e => 16 * b.1 + e.1

/-- The spine clock a macrocell uses, if any. -/
def View.spine (v : View) (mc : Nat) : ClkSel :=
  let b := v.cfg.blocks.get {} (mc / 16)
  match (v.cfg.cell mc).clkSel with
  | 0 => b.bclk0
  | 1 => b.bclk1
  | _ => none

/-- The clock domain of a macrocell; none: it has no clock, and leaves GSR and hold at release (assumption 41). -/
def View.cellDomain (v : View) (mc : Nat) : Option Nat :=
  let c := v.cfg.cell mc
  if c.clkSel = 2 then some (32 + mc) else (v.spine mc).map fun k => domainOf k c.clkFall

/-- The element stands under GSR. -/
def View.cellGsr (v : View) (mc : Nat) : Bool :=
  match v.cellDomain mc with | some k => v.inGsr k | none => v.p.gsr

/-- The element stands under hold. -/
def View.cellHold (v : View) (mc : Nat) : Bool :=
  match v.cellDomain mc with | some k => v.inHold k | none => v.p.held

/-- The set-reset source of a macrocell is 1 (R65). -/
def View.srOn (v : View) (ev : Src → Bool) (mc : Nat) : Bool :=
  let b := v.cfg.blocks.get {} (mc / 16)
  match (v.cfg.cell mc).srSrc with
  | 0 => v.blockLine ev (mc / 16) b.bsr0
  | 1 => v.blockLine ev (mc / 16) b.bsr1
  | 2 => v.control ev mc
  | _ => false

/-- The clock enable of a macrocell (R64). -/
def View.ceOn (v : View) (ev : Src → Bool) (mc : Nat) : Bool :=
  let b := v.cfg.blocks.get {} (mc / 16)
  match (v.cfg.cell mc).ceSel with
  | 0 => true
  | 1 => v.blockLine ev (mc / 16) b.bce0
  | 2 => v.blockLine ev (mc / 16) b.bce1
  | _ => v.control ev mc

/-- The level a latch's clock stands at; none: it has no clock (R63). -/
def View.clockLevel (v : View) (ev : Src → Bool) (mc : Nat) : Option Bool :=
  if (v.cfg.cell mc).clkSel = 2 then some (v.control ev mc) else (v.spine mc).map fun k => v.p.fab.clkLevel.get false k

/-- What the level-sensitive influences make of an element, in the order of R66. -/
def View.levelQ (v : View) (ev : Src → Bool) (mc : Nat) : Bool :=
  let c := v.cfg.cell mc
  let q := v.p.fab.q.get false mc
  if v.cellGsr mc then v.initial mc
  else if c.mode ≥ 4 then v.initial mc
  else if v.cellHold mc then q
  else
    let sr := v.srOn ev mc
    if c.srKind = 1 && sr then false
    else if c.srKind = 2 && sr then true
    else if c.mode = 3 && (match v.clockLevel ev mc with | some l => l != c.clkFall | none => false) then
      if c.srKind = 3 && sr then false
      else if c.srKind = 4 && sr then true
      else if v.ceOn ev mc then v.s ev mc else q
    else q

/-- What an active clock edge makes of an element (R61, R66). -/
def View.edgeQ (v : View) (ev : Src → Bool) (mc : Nat) : Bool :=
  let c := v.cfg.cell mc
  let q := v.p.fab.q.get false mc
  if v.cellGsr mc || v.cellHold mc || c.mode ≥ 3 then v.levelQ ev mc
  else
    let sr := v.srOn ev mc
    if (c.srKind = 1 || c.srKind = 2) && sr then v.levelQ ev mc
    else if c.srKind = 3 && sr then false
    else if c.srKind = 4 && sr then true
    else if !v.ceOn ev mc then q
    else match c.mode with
      | 0 => v.s ev mc
      | 1 => xor q (v.s ev mc)
      | _ => (v.s ev mc && !q) || (!v.control ev mc && q)

/-! ### Fabric RAM (R79–R83) -/

/-- The content bits of word `a` at a width, as (36·word + bit, byte lane), lowest data bit first (R79, R83). -/
def ramBits (width a : Nat) : List (Nat × Nat) :=
  let lane (w n : Nat) : List (Nat × Nat) := ((List.range 8).map fun j => (36 * w + 8 * n + j, n)) ++ [(36 * w + 32 + n, n)]
  let plain (n : Nat) : List (Nat × Nat) := (List.range n).map fun j => let d := n * a + j; (36 * (d / 32) + d % 32, 0)
  match width with
  | 0 => plain 1
  | 1 => plain 2
  | 2 => plain 4
  | 3 => (lane (a / 4) (a % 4)).map fun x => (x.1, 0)
  | 4 => (lane (a / 2) (2 * (a % 2))).map (fun x => (x.1, 0)) ++ (lane (a / 2) (2 * (a % 2) + 1)).map fun x => (x.1, 1)
  | 5 => ((List.range 32).map fun j => (36 * a + j, j / 8)) ++ (List.range 4).map fun j => (36 * a + 32 + j, j)
  | 6 => (((List.range 32).map fun j => (72 * a + j, j / 8)) ++ (List.range 4).map fun j => (72 * a + 32 + j, j)) ++
      (((List.range 32).map fun j => (72 * a + 36 + j, 4 + j / 8)) ++ (List.range 4).map fun j => (72 * a + 68 + j, 4 + j))
  | _ => []

/-- Words of a width (R79). -/
def ramDepth : Nat → Nat
  | 0 => 32768 | 1 => 16384 | 2 => 8192 | 3 => 4096 | 4 => 2048 | 5 => 1024 | 6 => 512 | _ => 1

/-- Byte enables apply from ×18 upward. -/
def ramLaned (width : Nat) : Bool := 4 ≤ width && width ≤ 6

/-- What a port does at its active edge. -/
structure RamAct where
  bits : List (Nat × Nat)          -- content bits of its address with their lanes
  writes : List (Nat × Bool)       -- content bits it writes, with their values
  writing : Bool                   -- a write cycle
  deriving DecidableEq, Repr

/-- A port's operation at an active edge; none where it is disabled or not enabled (R79). -/
def View.ramAct (v : View) (ev : Src → Bool) (r port : Nat) : Option RamAct :=
  let c := v.cfg.rams.get {} r
  let o := if port = 0 then c.a else c.b
  let usable := o.width < 7 && (if c.mode = 1 then c.a.width == 6 && c.b.width == 6 else o.width != 6)
  if !usable || !ev o.en then none
  else
    let bits := ramBits o.width (bitsOf ev o.addr % ramDepth o.width)
    let canWrite := if c.mode = 1 then port == 0 else c.mode == 0
    let dom := match o.clk with | some k => domainOf k o.clkFall | none => 0
    let writing := canWrite && ev o.we && !v.inHold dom
    let laneOn (l : Nat) : Bool := if ramLaned o.width then (o.be[l]?).any ev else true
    let vals := bits.zip (List.range bits.length)
    some {
      bits := bits, writing := writing
      writes := if writing then (vals.filter fun x => laneOn x.1.2).map fun x => (x.1.1, (o.data[x.2]?).any ev) else [] }

/-- A content bit of a RAM block. -/
def Fabric.ramBit (f : Fabric) (r i : Nat) : Bool := (f.ram.get 0 (1024 * r + i / 36)).getLsbD (i % 36)

/-- Write a content bit. -/
def Fabric.setRamBit (f : Fabric) (r i : Nat) (b : Bool) : Fabric :=
  { f with ram := f.ram.modify 0 (1024 * r + i / 36) fun w =>
      if b then w ||| BitVec.ofNat 36 (2 ^ (i % 36)) else w &&& ~~~(BitVec.ofNat 36 (2 ^ (i % 36))) }

/-- A port's read output after a cycle: `other` is what the other port does at the same time, `same` tells that both use
one clock edge, `first` that this port prevails (R80–R82). Where a port on another edge writes a bit that this one reads,
the bit reads old or new. -/
def ramOutput (old : Nat → Bool) (free : Nat → Bool) (prev : BitVec 72) (mode : Nat) (a : RamAct) (other : Option RamAct)
    (same first : Bool) : BitVec 72 :=
  let ow := match other with | some o => o.writes | none => []
  let stored (i : Nat) : Bool :=
    match (if same || a.writing then none else ow.find? fun x => x.1 == i) with
    | some x => if x.2 == old i then old i else free i
    | none => old i
  let val (i : Nat) : Bool :=
    if a.writing && mode == 0 then
      match (if first then none else (if a.writes.any (fun x => x.1 == i) then ow.find? (fun x => x.1 == i) else none)) with
      | some x => x.2
      | none => (match a.writes.find? fun x => x.1 == i with | some x => x.2 | none => old i)
    else stored i
  if a.writing && mode ≥ 2 then prev
  else BitVec.ofNat 72 ((a.bits.map fun x => x.1).foldr (fun i n => b2n (val i) + 2 * n) 0)

/-- Ports of a RAM block that see an active edge (R79). -/
def RamPortCfg.active (o : RamPortCfg) (edges : List (Nat × Bool)) : Bool :=
  match o.clk with
  | some k => edges.contains (k, !o.clkFall)
  | none => false

/-- What the edges do to one RAM block: the pan's flags, contents, read latches and output registers. Blocks are looked at in
ascending index, so the lowest of those that collide at one edge becomes FIRST (R78; assumption 79). -/
def View.ramEdge (v : View) (ev : Nat → Src → Bool) (ctr : Nat) (edges : List (Nat × Bool)) (r : Nat) (p : Pan) : Pan :=
  let c := v.cfg.rams.get {} r
  let act (port : Nat) (o : RamPortCfg) : Option RamAct := if o.active edges then v.ramAct (ev (o.clk.getD 0)) r port else none
  let acta := act 0 c.a
  let actb := act 1 c.b
  let same := (match c.a.clk, c.b.clk with | some x, some y => v.sameClock x y | x, y => x == y) && c.a.clkFall == c.b.clkFall
  let old := v.p.fab.ramBit r
  let free (i : Nat) : Bool := Config.freeBool (ctr + 36864 * r + i)
  let wa := match acta with | some a => a.writes | none => []
  let wb := match actb with | some b => b.writes | none => []
  let ww := wa.any fun x => wb.any fun y => x.1 == y.1
  let hits (w : List (Nat × Bool)) (o : Option RamAct) : Bool :=
    match o with | some o => !o.writing && w.any (fun x => o.bits.any fun y => y.1 == x.1) | none => false
  let wr := !same && (hits wa actb || hits wb acta)
  let f1 := foldS (fun f x => f.setRamBit r x.1 x.2) p.fab (wb ++ wa)
  let latch (f : Fabric) (port : Nat) (o : RamPortCfg) (a b : Option RamAct) : Fabric :=
    match a with
    | none => f
    | some a =>
      let out := ramOutput old free (v.p.fab.ramLatch.get 0 (2 * r + port)) o.wmode a b same (port == 0)
      { f with ramLatch := f.ramLatch.set 0 (2 * r + port) out }
  let outReg (f : Fabric) (port : Nat) (o : RamPortCfg) : Fabric :=
    let dom := match o.clk with | some k => domainOf k o.clkFall | none => 0
    if o.active edges && o.outReg then
      { f with ramOut := f.ramOut.set 0 (2 * r + port) (if v.inGsr dom then 0 else v.p.fab.ramLatch.get 0 (2 * r + port)) }
    else f
  let f2 := latch (latch f1 0 c.a acta actb) 1 c.b actb acta
  let f3 := outReg (outReg f2 0 c.a) 1 c.b
  { p with
    fab := f3
    collFirst := if ww && !p.collWW then BitVec.ofNat 7 r else p.collFirst
    collCount := if ww then satInc p.collCount else p.collCount
    collWW := p.collWW || ww
    collWR := p.collWR || wr }

/-! ### An active edge (R61, R71, R86, R94, R95, R102, R108, R475) -/

/-- A spine clock's rising edge is among the edges. -/
def rises (edges : List (Nat × Bool)) (c : ClkSel) : Bool := c.any fun k => edges.contains (k, true)

/-- A register in a domain takes `x` unless GSR or hold still acts on the domain. -/
def View.reg (v : View) {α : Type} (dom : Nat) (zero old x : α) : α :=
  if v.inGsr dom then zero else if v.inHold dom then old else x

/-- A multiply-add unit at its active edge (R86, R89). -/
def View.macEdge (v : View) (ev : Src → Bool) (u : Nat) : MacRegs :=
  let c := v.cfg.macs.get {} u
  let old := v.p.fab.mac.get {} u
  let dom := match c.clk with | some k => domainOf k c.clkFall | none => 0
  if v.inGsr dom then {}
  else if v.inHold dom then old
  else if ev c.rst then {}
  else if !ev c.ce then old
  else
    let (a, b, k, op) := v.macIn ev u
    let (sa, sb, sk, sop) := if c.regIn then (old.a, old.b, old.c, old.op) else (a, b, k, op)
    let y := (v.mac ev (u / 8) (u % 8)).1
    { a := a, b := b, c := k, op := op, mprod := BitVec.ofInt 48 (sa.toInt * sb.toInt), mc := sk, mop := sop
      p := y.p, low := y.low, ovf := y.ovf }

/-- Count the active edges each clock domain has seen since release. -/
def countSeen (asserted : Bool) (t : Tab Nat) (doms : List Nat) : Tab Nat :=
  if asserted then [] else foldS (fun t k => t.modify 0 k fun n => min 3 (n + 1)) t doms

/-- The view with the active edges of the domains `doms` counted (R70, R71). -/
def View.counted (v : View) (doms : List Nat) : View :=
  { v with p := { v.p with fab := { v.p.fab with
      gsrSeen := countSeen v.p.gsr v.p.fab.gsrSeen doms, holdSeen := countSeen v.p.held v.p.fab.holdSeen doms } } }

/-- The wire clock of a segment's register: that of the switch point where the register stands (R94). -/
def View.segClk (v : View) (id : Nat) (c : SegCfg) : ClkSel :=
  (segOf id).bind fun s =>
    let at_ := s.regAt c.tap
    let b := v.cfg.blocks.get {} (32 * at_.1 + at_.2)
    match b.wireClk with
    | .none => none
    | .spine k => some k
    | .bclk0 => b.bclk0

/-- One pan at the edges `edges` of its spine clocks (clock, rising); `sees k` is what the registers on clock `k` capture
from. A bus sample clock is active at its rising edge. A register of an edge that is not live is not clocked
(assumption 79). -/
def View.clockWith (v0 : View) (sees : Nat → Views) (ctr : Nat) (edges : List (Nat × Bool)) : View :=
  if v0.gated then v0
  else
  let v := v0.counted (edges.map fun e => domainOf e.1 (!e.2))
  let ev (k : Nat) : Src → Bool := (sees k).ev ctr v0
  let f := v.p.fab
  let clkOf (c : ClkSel) : Nat := c.getD 0
  let active (mc : Nat) : Bool := (v.spine mc).any fun k => edges.contains (k, !(v.cfg.cell mc).clkFall)
  let q := foldS (fun t mc =>
    let e := ev (clkOf (v.spine mc))
    t.set false mc (if active mc then v.edgeQ e mc else v.levelQ e mc)) f.q v.cfg.cells
  let take (c : ClkSel) (old : Bool) (s : Src) : Bool := v.reg (domainOf (clkOf c) false) false old (ev (clkOf c) s)
  let wire := foldS (fun t (e : Nat × SegCfg) =>
    let c := v.segClk e.1 e.2
    if e.2.reg && rises edges c then t.set false e.1 (take c (f.wire.get false e.1) e.2.drv) else t) f.wire v.cfg.segs
  let mac := foldS (fun t (e : Nat × MacCfg) =>
    if e.2.clk.any (fun k => edges.contains (k, !e.2.clkFall)) then t.set {} e.1 (v.macEdge (ev (clkOf e.2.clk)) e.1) else t) f.mac v.cfg.macs
  let bOut := foldS (fun t (e : Nat × BorderCfg) =>
    if e.1 % 256 < 128 && e.2.outReg && rises edges e.2.clk then t.set false e.1 (take e.2.clk (f.bOut.get false e.1) e.2.drv)
    else t) f.bOut v.cfg.borders
  let bIn := foldS (fun t (e : Nat × BorderCfg) =>
    if 128 ≤ e.1 % 256 && rises edges e.2.clk && v.live.contains (e.1 / 256) then
      let x := (sees (clkOf e.2.clk)).arriving ctr v0 (e.1 / 256) (e.1 % 256)
      let old := f.bIn.get 0 e.1
      t.set 0 e.1 (v.reg (domainOf (clkOf e.2.clk) false) 0 old (BitVec.ofNat 3 (b2n x + 2 * old.toNat)))
    else t) f.bIn v.cfg.borders
  let pinOut := if rises edges v.cfg.pinClk then
      let e := ev (clkOf v.cfg.pinClk)
      foldS (fun t (x : Nat × PinPortCfg) => t.set 0 x.1 (BitVec.ofNat 2 (b2n (e x.2.out) + 2 * b2n (e x.2.oe)))) f.pinOut v.cfg.pinPort
    else f.pinOut
  let cont := (List.range 32).filter fun row =>
    let c := v.cfg.busClk.get none row
    rises edges c && (List.range 16).any fun w => decide (2 ≤ (v.busDrivers (ev (clkOf c)) row w).length)
  let level := foldS (fun t (e : Nat × Bool) => t.set false e.1 e.2) f.clkLevel edges
  let p1 := { v.p with
    busCont := foldS (fun w row => setBit w row true) v.p.busCont cont
    fab := { f with
      q := q, wire := wire, mac := mac, bOut := bOut, bIn := bIn, pinOut := pinOut, clkLevel := level
      start := if rises edges v.cfg.startClk then BitVec.ofNat 3 (b2n v.sysStart + 2 * f.start.toNat) else f.start } }
  { v with p := foldS (fun p (e : Nat × RamCfg) => v.ramEdge ev ctr edges e.1 p) p1 v.cfg.rams }

/-- What the registers on clock `k` capture from when several clocks have an edge at once: a signal that crosses a live
border from another clock may arrive with any mixture of old and new bits (R110); all else stands as before the edges. -/
def Views.seenBy (vs : Views) (ctr : Nat) (edges : List (Nat × Bool)) (k : Nat) : Views :=
  let others (v : View) : List (Nat × Bool) := edges.filter fun e => !v.sameClock e.1 k
  if vs.all fun v => (others v).isEmpty then vs
  else
    let ws : Views := vs.map fun v => v.clockWith (fun _ => vs) ctr (others v)
    vs.map fun v =>
      let ports := v.live.flatMap fun e => (List.range 128).map fun j => 256 * e + 128 + j
      let cross := foldS (fun (t : Tab (Option Bool)) i =>
        if vs.arriving ctr v (i / 256) (i % 256) == ws.arriving ctr v (i / 256) (i % 256) then t
        else t.set none i (some (Config.freeBool (ctr + crossFree + (64 * k + v.idx) * 1024 + i)))) [] ports
      { v with cross := cross }

/-- One pan at the edges of its spine clocks. -/
def Views.clock (vs : Views) (ctr : Nat) (edges : List (Nat × Bool)) (v : View) : View := v.clockWith (vs.seenBy ctr edges) ctr edges

/-! ### Settling: asynchronous set-reset, latches, product-term clocks, the user GSR wire -/

/-- The values that pan GSR loads: storage elements, and zeros in the other registers (R70, R95, R103, R108). Fabric RAM
contents stay. -/
def View.load (v : View) : View :=
  let cells := (v.cfg.cells ++ v.inits ++ v.p.fab.init.map fun e => e.1)
  { v with p := { v.p with fab := { v.p.fab with
      q := foldS (fun t m => t.set false m (v.initial m)) [] cells
      wire := [], keep := [], ramOut := [], mac := [], bOut := [], bIn := [], gsrSeen := [] } } }

/-- One pass over the level-sensitive parts of a pan. The control terms keep their levels under GSR too, so that no edge is
taken from a level that GSR hid. USER_SEEN sets while the user GSR wire is 1, and so again after a clear (assumption 79). A
pan that sleeps stands still (R523, R524). -/
def Views.pass (vs : Views) (ctr : Nat) (v : View) : View :=
  if v.gated then v else
  let ev := vs.ev ctr v
  let ptCells := v.cfg.cells.filter fun mc => (v.cfg.cell mc).clkSel = 2
  let pt := foldS (fun t mc => t.set false mc (v.control ev mc)) v.p.fab.pt ptCells
  if v.p.gsr then
    let user := match v.cfg.userGsr with | some s => ev s | none => v.p.fab.userGsr
    let w := v.load
    { w with p := { w.p with userSeen := w.p.userSeen || user, fab := { w.p.fab with userGsr := user, pt := pt } } }
  else
    let edge (mc : Nat) : Bool := ptCells.contains mc && v.control ev mc != v.p.fab.pt.get false mc && v.control ev mc != (v.cfg.cell mc).clkFall
    let w := v.counted ((ptCells.filter edge).map fun mc => 32 + mc)
    let f := w.p.fab
    let q := foldS (fun t mc => t.set false mc (if edge mc then w.edgeQ ev mc else w.levelQ ev mc)) f.q v.cfg.cells
    let wires := (v.cfg.busEn.map fun e => e.1 / 64).eraseDups
    let keep := foldS (fun t i => t.set false i (v.bus ev (i / 16) (i % 16))) f.keep wires
    let user := match v.cfg.userGsr with | some s => ev s | none => f.userGsr
    { v with p := { v.p with
        userSeen := v.p.userSeen || user
        fab := { f with q := q, pt := pt, keep := keep, userGsr := user } } }

/-- Repeat passes until nothing changes; what never settles takes free values. -/
def Views.settle (ctr : Nat) : Nat → Views → Views
  | 0, vs =>
    let ws := vs.map (vs.pass ctr)
    (vs.zip ws).map fun (v, w) =>
      { w with p := { w.p with fab := { w.p.fab with
          q := foldS (fun t mc => if v.p.fab.q.get false mc == w.p.fab.q.get false mc then t
            else t.set false mc (Config.freeBool (ctr + mc))) w.p.fab.q v.cfg.cells } } }
  | n + 1, vs =>
    let ws := vs.map (vs.pass ctr)
    if ws = vs then vs else Views.settle ctr n ws

/-! ### The device's pans -/

/-- A pan holds a module: a record is selected, and it is not EMPTY (R133). -/
def Pan.occupied (p : Pan) : Bool := p.selected && !p.empty && !p.blank

/-- W, H, DX and DY of a pan in its gang (R114, R124). -/
def Pan.shape (p : Pan) : Nat × Nat × Nat × Nat :=
  (fld p.link 8 2 + 1, fld p.link 10 2 + 1, fld p.link 12 2, fld p.link 14 2)

/-- The anchor of the gang that pan `i` is a member of; its own index without a module (R118). -/
def Dev.anchor (d : Dev) (i : Nat) : Nat :=
  let p := d.pan i
  if p.occupied then i - (fld p.link 12 2 + 8 * fld p.link 14 2) else i

/-- Edge `e` of pan `i` is live (R107). -/
def Dev.edgeLive (d : Dev) (i e : Nat) : Bool :=
  match neighbour i e with
  | none => false
  | some j =>
    let p := d.pan i
    let q := d.pan j
    p.occupied && q.occupied && d.anchor i == d.anchor j && p.module == q.module &&
      d.ust (uPan i) == .running && d.ust (uPan j) == .running && !p.shut && !q.shut

/-- The live edges of a pan. -/
def Dev.liveEdges (d : Dev) (i : Nat) : List Nat := (List.range 4).filter (d.edgeLive i)

/-- The frames of a pan's active plane. -/
def Dev.activeFrames (d : Dev) (i : Nat) : Tab FrameBits := (d.nvu i).plane (d.pan i).active

/-- What the field channels of the ports bound to pan `i` give its module (R475, R483). -/
def Dev.channels (d : Dev) (i : Nat) : Tab (BitVec 34) :=
  foldS (fun (t : Tab (BitVec 34)) (e : Nat × FPort) =>
    match e.2.bound with
    | some (_, q, c) =>
      if q == i then t.set 0 c (BitVec.ofNat 34 ((e.2.rx.headD 0).toNat + 2 ^ 32 * b2n (!e.2.rx.isEmpty) + 2 ^ 33 * b2n (decide (e.2.tx.length < 256))))
      else t
    | none => t) [] d.fports

/-- The clocks of pan `i` do not run: its domain sleeps, or in DOZE it has accepted the stop and no access has woken its domain
(R523, R526, R536). -/
def Dev.panGated (d : Dev) (i : Nat) : Bool :=
  d.pwr.slept.contains i || (d.pwr.modeIn == 1 && d.gated (uPan i) && !d.pwr.awoken.contains i)

/-- A pan as it is evaluated. A pan without a module selects nothing. -/
def Dev.view (d : Dev) (i : Nat) : View :=
  let fr := if (d.pan i).occupied then d.activeFrames i else []
  { idx := i, cfg := if (d.pan i).occupied then panFabric fr else {}, p := d.pan i, inits := initCells fr, live := d.liveEdges i
    gated := d.panGated i, sysStart := d.glb.sysStart, chan := d.channels i }

/-- The pans evaluated with pan `i`: those of its gang that run, itself included. -/
def Dev.gangWith (d : Dev) (i : Nat) : List Nat :=
  i :: ((List.range 64).filter fun j => j != i && (d.pan i).occupied && (d.pan j).occupied &&
    d.anchor j == d.anchor i && (d.pan j).module == (d.pan i).module && d.ust (uPan j) == .running)

/-- The views of a gang. -/
def Dev.views (d : Dev) (i : Nat) : Views := (d.gangWith i).map d.view

/-- Store the pans of views. -/
def Dev.putViews (d : Dev) (vs : Views) (used : Nat) : Dev :=
  { d with pans := foldS (fun t (v : View) => t.set {} v.idx v.p) d.pans vs, freeCtr := d.freeCtr + used }

/-- Let the levels of pan `i` and its gang settle. -/
def Dev.settle (d : Dev) (i : Nat) : Dev := d.putViews (Views.settle d.freeCtr 65536 (d.views i)) evalFree

/-- The active edges of spine clocks at pan `i`: spine clock c of every member of a gang has one source, so the members
take the edges together (R115). -/
def Dev.clockPan (d : Dev) (i : Nat) (edges : List (Nat × Bool)) : Dev :=
  let vs := d.views i
  let ws := vs.map (vs.clock d.freeCtr edges)
  d.putViews (Views.settle (d.freeCtr + evalFree) 65536 ws) (2 * evalFree)

/-- Change the GSR and hold sources of pans at one edge: an assertion of GSR loads at once, a release lets each clock domain
leave at its third active edge (R70, R71, R116). -/
def Dev.sourcesOf (d : Dev) (ps : List Nat) (f : Pan → Pan) : Dev :=
  let d1 := foldS (fun (d : Dev) i =>
    let old := d.pan i
    d.modPan i fun p =>
      let n := f p
      let gsrSeen := if n.gsr || old.gsr then [] else n.fab.gsrSeen
      let holdSeen := if n.held || old.held then [] else n.fab.holdSeen
      { n with fab := { n.fab with gsrSeen := gsrSeen, holdSeen := holdSeen } }) d ps
  foldS Dev.settle d1 ps

/-- Change the GSR and hold sources of one pan. -/
def Dev.panSources (d : Dev) (i : Nat) (f : Pan → Pan) : Dev := d.sourcesOf [i] f

/-- What the OUT_HOLD ports of pan `i` on its live edges carry (R108). -/
def Dev.borderCarried (d : Dev) (i : Nat) : Tab (Option Bool) :=
  let vs := d.views i
  let v := d.view i
  let ev := vs.ev d.freeCtr v
  foldS (fun t (e : Nat × BorderCfg) =>
    if e.1 % 256 < 128 && e.2.mode == 2 && v.live.contains (e.1 / 256) then t.set none e.1 (some (v.outward ev (e.1 / 256) (e.1 % 256))) else t)
    [] v.cfg.borders

/-- A change that may take edges of the pans `ps` out of the live ones: every edge that it clamps, on either side, does so at
once, its OUT_HOLD ports keeping what they carried, and the levels follow (R107–R109, R111, R113, R116, R117). -/
def Dev.reborder (d : Dev) (ps : List Nat) (f : Dev → Dev) : Dev :=
  let near := (ps ++ ps.flatMap fun p => (List.range 4).filterMap (neighbour p)).eraseDups
  let before := near.map fun i => (i, d.liveEdges i, d.borderCarried i)
  let d1 := f { d with freeCtr := d.freeCtr + evalFree }
  let clamped := before.filter fun x => x.2.1 != d1.liveEdges x.1
  let d2 := foldS (fun (d : Dev) (x : Nat × List Nat × Tab (Option Bool)) =>
    let now := d1.liveEdges x.1
    d.modPan x.1 fun p => { p with fab := { p.fab with
      bHold := foldS (fun t (e : Nat × Option Bool) => if now.contains (e.1 / 256) then t else t.set false e.1 (e.2.getD false)) p.fab.bHold x.2.2 } })
    d1 clamped
  foldS Dev.settle d2 (clamped.map fun x => x.1)

/-- Clamp the borders of pans at one instant (R109, R111, R113, R116). -/
def Dev.shutPans (d : Dev) (ps : List Nat) : Dev :=
  d.reborder ps fun d => foldS (fun (d : Dev) i => d.modPan i fun p => { p with shut := true }) d ps

/-- Clamp the borders of a pan. -/
def Dev.shutPan (d : Dev) (i : Nat) : Dev := d.shutPans [i]

/-- The level that QACK is sampled from: the wire that the image chooses; QREQ where it connects none (R223). -/
def Dev.qackHigh (d : Dev) (i : Nat) : Bool :=
  match (d.view i).cfg.qack with
  | some s => (d.views i).ev d.freeCtr (d.view i) s
  | none => (d.pan i).qreq

/-- PAN_BORDER (R118): until start-up loads it, its Reset value. -/
def Dev.panBorder (d : Dev) (i : Nat) : Word :=
  if d.cfg.phase == .held then 0x0000000F
  else
  let live := (List.range 4).foldl (fun n e => n + b2n (d.edgeLive i e) * 2 ^ e) 0
  let p := d.pan i
  let (w, h, dx, dy) := if p.occupied then p.shape else (1, 1, 0, 0)
  pack [(15 - live, 0, 4), (live, 4, 4), (dx, 8, 2), (dy, 10, 2), (w - 1, 12, 2), (h - 1, 14, 2), (d.anchor i, 16, 6)]

/-- PAN_GSR (R76). -/
def Pan.gsrWord (p : Pan) : Word :=
  let user := p.userEn && p.fab.userGsr
  pack [(b2n p.softAssert, 0, 1), (b2n p.softHold, 1, 1), (b2n p.userEn, 2, 1), (b2n p.gsr, 8, 1), (b2n p.held, 9, 1),
    (b2n p.srcConfig, 12, 1), (b2n (p.srcCommitGsr || p.srcCommitHold), 13, 1), (b2n (p.softAssert || p.softHold), 14, 1),
    (b2n user, 15, 1), (b2n p.userSeen, 16, 1), (b2n (p.srcEmpty || p.selfTest), 17, 1), (b2n p.srcStop, 18, 1), (b2n p.srcPfw, 19, 1)]

/-- PAN_PERSIST (R77). -/
def Dev.panPersist (d : Dev) (i : Nat) : Word :=
  let p := d.pan i
  pack [(p.persistCount.toNat, 0, 16), (b2n p.persistOver, 16, 1), (b2n p.persistRestored, 17, 1), (b2n p.persistMismatch, 18, 1),
    (b2n (d.nvu i).saved, 19, 1)]

/-- PAN_RAM_COLL (R78). -/
def Pan.ramColl (p : Pan) : Word :=
  pack [(b2n p.collWW, 0, 1), (b2n p.collWR, 1, 1), (p.collFirst.toNat, 8, 7), (p.collCount.toNat, 16, 16)]

/-- A write of PAN_RAM_COLL (R78). FIRST returns to its reset value with WW: the spec gives it none (assumption 79). -/
def Pan.clearColl (p : Pan) (v : Word) : Pan :=
  let p1 := if bit v 0 then { p with collWW := false, collFirst := 0, collCount := 0 } else p
  if bit v 1 then { p1 with collWR := false } else p1

/-- A write of PAN_GSR (R76). -/
def Dev.writePanGsr (d : Dev) (i : Nat) (v : Word) : Dev :=
  d.panSources i fun p =>
    { p with softAssert := bit v 0, softHold := bit v 1, userEn := bit v 2, userSeen := p.userSeen && !bit v 16 }

/-- PAN_GSR through a path (R76). -/
def opPanGsrWrite (path : Path) (i : Nat) (v : Word) (d : Dev) : Dev :=
  d.filtered path (.pan i) 0x30 fun d => d.writePanGsr i v

/-- The level of the user GSR wire at a pan: that of the wire that the image chooses; where it chooses none, `level`. -/
def Dev.userLevel (d : Dev) (i : Nat) (level : Bool) : Bool :=
  match (d.view i).cfg.userGsr with
  | some s => (d.views i).ev d.freeCtr (d.view i) s
  | none => level

/-- The user GSR wire (R72, R76): its level is that of the wire which the image chooses, and what the command gives where the
image chooses none (assumption 86). -/
def opUserGsrWire (i : Nat) (level : Bool) (d : Dev) : Dev :=
  let l := d.userLevel i level
  d.panSources i fun p => { p with userSeen := p.userSeen || l, fab := { p.fab with userGsr := l } }

/-- The persistent elements of an active plane: PERSIST 1 in a storage mode (R74, R77). -/
def persistElements (fr : Tab FrameBits) (c : FabricCfg) : List Nat :=
  (persistCells fr).filter fun m => (c.cell m).mode < 4

/-- COUNT and OVER of PAN_PERSIST for a pan's active plane (R77). -/
def Dev.countPersist (d : Dev) (i : Nat) : Dev :=
  let v := d.view i
  let n := if v.p.occupied then (persistElements (d.activeFrames i) v.cfg).length else 0
  d.modPan i fun p => { p with persistCount := BitVec.ofNat 16 n, persistOver := decide (4096 < n) }

/-! ### The commands -/

/-- PAN_GSR_WRITE (R76). -/
def execPanGsrWrite (path : Path) (pan : Nat) (value : Word) (s : State) : Res :=
  runCmd (.panGsrWrite path pan value) (opPanGsrWrite path pan value) s

/-- USER_GSR_WIRE (R72). -/
def execUserGsrWire (pan : Nat) (level : Bool) (s : State) : Res :=
  runCmd (.userGsrWire pan level) (opUserGsrWire pan level) s

end Sys2Proof.Machine
end

