-- ==== Sys2Proof/Machine/Pins.lean ====
section
/-! DEFINITION. The pins and the crossbar (chapter "Field Ports, Pins and the Crossbar"): sources, sinks, handover, pin
events, the PIN block, and a user clock edge of a pan with what it moves at the pins. A pad that the device does not
drive keeps the level it last had until the outside changes it (assumption 44). -/

namespace Sys2Proof.Machine

/-! ### Numbering (R466) -/

/-- Pan and slot of a pin-port source or sink. -/
def slotPan (i : Nat) : Option (Nat × Nat) := if 0x400 ≤ i ∧ i < 0x1000 then some ((i - 0x400) / 48, (i - 0x400) % 48) else none

/-- Field port and signal of a source or sink. -/
def portSignal (i : Nat) : Option (Nat × Nat) := if 0x100 ≤ i ∧ i < 0x1C0 then some ((i - 0x100) / 8, i % 8) else none

/-- The unit that a source or sink belongs to. -/
def signalUnit (i : Nat) : Option Nat :=
  match slotPan i, portSignal i with
  | some (p, _), _ => some (uPan p)
  | none, some (f, _) => some (uFport f)
  | none, none => none

/-- SOURCE of a pin entry (R468). -/
def pinSource (w : Word) : Nat := fld w 0 12
/-- SINK of a pin entry. -/
def pinSink (w : Word) : Nat := fld w 12 12

/-- DEFAULT of a sink on a blank device (R467, R469): the value in parentheses for the port's kind. -/
def Dev.blankDefault (d : Dev) (i : Nat) : Bool :=
  match portSignal i with
  | none => false
  | some (f, k) =>
    match fld (d.fport f).ctrl 0 2 with
    | 0 => k == 0
    | 1 => k == 5
    | 2 => k == 0 || k == 1
    | _ => k == 0

/-- DEFAULT of a sink: as loaded or written, else the value of its port's kind (assumption 84). -/
def Dev.sinkDefault (d : Dev) (i : Nat) : Bool :=
  match d.pins.sinkSel.get none i with | some e => e.getLsbD 0 | none => d.blankDefault i

/-- INVERT of a sink. -/
def Dev.sinkInvert (d : Dev) (i : Nat) : Bool := (d.pins.sinkSel.get none i).any fun e => e.getLsbD 1

/-! ### Sources (R466, R467, R485–R488) -/

/-- The port drives its sources as mapped: it is RUNNING, or in the near-end loop (R467, R491). -/
def Dev.portDrives (d : Dev) (f : Nat) : Bool :=
  d.ust (uFport f) == .running || (d.ust (uFport f) == .quiesced && (d.fport f).loop == some 3)

/-- A UART has a character on the line: one waits, and flow control does not hold it (R485). `cts`: CTS_N reads 1. -/
def FPort.sending (x : FPort) (cts : Bool) : Bool := !x.tx.isEmpty && !(bit x.fmtUse 7 && cts)

/-- RTS_N (R485). -/
def FPort.rts (x : FPort) : Bool := bit x.fmtUse 7 && decide (240 ≤ x.rx.length)

/-- An I²C target pulls SCL low: it has nothing to send to a read, or no room in its RX FIFO (R487). -/
def FPort.stretches (x : FPort) : Bool :=
  bit x.fmtUse 14 && (x.heldRx.isSome || (x.selected && ((x.reading && x.tx.isEmpty) || decide (256 ≤ x.rx.length))))

/-- What a field port drives on signal `k` between the transfers that its commands are: its idle values where it does not
drive its sources. -/
def Dev.portSource (d : Dev) (cts : Nat → Bool) (f k : Nat) : Bool × Bool :=
  let x := d.fport f
  let run := d.portDrives f
  match x.kind.toNat with
  | 0 =>
    if k = 0 then (true, true)
    else if k = 1 then (!run || x.rts, true)
    else if k = 2 then (run && bit x.fmtUse 8 && x.sending (cts f), run) else (false, false)
  | 1 =>
    if !run then (false, false)
    else if 1 ≤ k ∧ k ≤ 4 then (x.lanes.getLsbD (k - 1), x.laneOe.getLsbD (k - 1))
    else if bit x.fmtUse 14 then (false, false)
    else if k = 0 then (bit x.fmtUse 10, true)
    else (x.csLow != some (k - 5), true)
  | 2 => (false, run && k == 0 && (x.i2cHold || x.stretches))
  | _ => if k = 0 then (true, true) else (false, false)

/-- Value and output enable of a source; `cts` gives each port's CTS_N. -/
def Dev.sourceWith (d : Dev) (cts : Nat → Bool) (s : Nat) : Bool × Bool :=
  if s = 0 then (false, true)
  else if s = 1 then (true, true)
  else if s = 0x10 then (d.glb.sysStart, true)
  else if s = 0x11 then (d.time.ppsLevel, true)
  else if s = 0x12 then (d.time.alarmOut, true)
  else match slotPan s, portSignal s with
    | some (p, k), _ => let w := (d.pan p).fab.pinOut.get 0 k; (w.getLsbD 0, w.getLsbD 1)
    | none, some (f, k) => d.portSource cts f k
    | none, none => (false, false)

/-! ### Handover and drive (R472, R473, R490, R492, R493, R603) -/

/-- Pan `p` keeps its pins in handover. -/
def Dev.panHandover (d : Dev) (p : Nat) : Bool := d.ust (uPan p) != .running || (d.pan p).handover

/-- The pans that own a pin with this entry. -/
def pinOwners (w : Word) : List Nat :=
  ((slotPan (pinSource w)).map Prod.fst).toList ++ (if bit w 24 then ((slotPan (pinSink w)).map Prod.fst).toList else [])

/-- The HANDOVER state of a pin. HOLD keeps what it drove at the clamp edge. -/
def Pin.handover (p : Pin) : Bool × Bool :=
  match fld p.sel 25 3 with
  | 0 => (p.clampOut, p.clampOe)
  | 1 => (false, true)
  | 2 => (true, true)
  | _ => (p.out, false)

/-- The bank of a pin. -/
def pinBank (n : Nat) : Nat := n / 48

/-- A pin bank drives and reads its pads: enabled, powered and not FAULTED (R197, R493, R611). -/
def Dev.bankOn (d : Dev) (b : Nat) : Bool :=
  d.pins.enabled.get false b && d.ust (uPinBank b) != .faulted && d.pins.vccioOk.getLsbD b

/-- An owner of a pin is not released (R473). -/
def Dev.ownersShut (d : Dev) (n : Nat) : Bool := (pinOwners (d.pin n).sel).any d.panHandover

/-- A pin's bank sleeps and SLEEP is HANDOVER (R490). -/
def Dev.sleepHandover (d : Dev) (n : Nat) : Bool :=
  d.ust (uPinBank (pinBank n)) == .asleep && fld (d.pins.bankCfg.get 0 (pinBank n) ^^^ 0x10) 8 2 == 1

/-- A pin of an enabled bank is in its HANDOVER state: the bank's D0 loopback, its SLEEP setting, or an owner that is not
released (R473, R490, R492). -/
def Dev.inHandover (d : Dev) (n : Nat) : Bool :=
  let loop := d.pins.loop.get 0 (pinBank n)
  loop == 1 || (loop != 2 && if d.ust (uPinBank (pinBank n)) == .asleep then d.sleepHandover n else d.ownersShut n)

/-- The clamp edge of a pin: where its owner shuts, its bank sleeps in HANDOVER or its D0 loop begins, the pin notes the level
and OE that it drives, and keeps them whatever SLEEP, a fault or a loop of the bank drives meanwhile (R473). -/
def Dev.clampPin (d : Dev) (n : Nat) : Dev :=
  let now := d.ownersShut n || d.sleepHandover n || d.pins.loop.get 0 (pinBank n) == 1
  let p := d.pin n
  if now = p.clamped then d
  else if now then d.modPin n fun p => { p with clamped := true, clampOut := p.out, clampOe := p.oe }
  else d.modPin n fun p => { p with clamped := false }

/-- What pulls a pad (R170, R191, R468, R473, R490, R493, R611): nothing while its bank lacks VCCIO, the CFG_PULL state until the
bank is enabled, nothing while it is driven, and otherwise PULL, but for the HANDOVER state PULL. -/
def Dev.pinPull (d : Dev) (n : Nat) (oe : Bool) : BitVec 2 :=
  let b := pinBank n
  let sel := BitVec.ofNat 2 (fld (d.pin n).sel 28 2)
  if !d.pins.vccioOk.getLsbD b then 0
  else if !d.pins.enabled.get false b then if d.cfg.pull then 1 else 0
  else if oe then 0
  else if d.bankOn b && d.inHandover n && fld (d.pin n).sel 25 3 == 4 then if sel = 2 then 2 else 1
  else sel

/-! ### Filters and pin events (R477–R479) -/

/-- PIN_FILTER of a bank. -/
def Dev.filterWord (d : Dev) (b : Nat) : Word := d.pins.filter.get 0 b ^^^ 0x01010101

/-- The sampling period of a RATE, in 0.1 µs. -/
def filterPeriod : Nat → Nat
  | 0 => 1 | 1 => 2 | 2 => 10 | 3 => 100 | 4 => 1000 | _ => 10000

/-- A level that has stood for `held` × 0.1 µs passes the pin's filter: COUNT samples in a row read it, at RATE, or at
32.768 kHz while the bank sleeps; without a filter the raw samples are seen, at 32.768 kHz too while it sleeps (R477, R490). -/
def Dev.passesFilter (d : Dev) (n held : Nat) : Bool :=
  let w := d.filterWord (pinBank n)
  let by_ (count rate : Nat) : Bool :=
    if d.ust (uPinBank (pinBank n)) == .asleep then decide (max 1 count * 10 ^ 7 ≤ held * 32768)
    else decide (max 1 count * filterPeriod rate ≤ held)
  match fld (d.pin n).sel 30 2 with
  | 1 => by_ (fld w 0 8) (fld w 8 3)
  | 2 => by_ (fld w 16 8) (fld w 24 3)
  | _ => d.ust (uPinBank (pinBank n)) != .asleep || by_ 1 0

/-- A pad reads `l` and has done so for `held` × 0.1 µs. The raw level follows at once; where the filtered level changes, a
selected edge sets the pending bit and raises PIN_EVENT. -/
def Dev.padLevel (d : Dev) (n : Nat) (l : Bool) (held : Nat) : Dev :=
  let p := d.pin n
  let seen := d.passesFilter n held
  let d1 := d.modPin n fun p => { p with level := l, filtered := if seen then l else p.filtered }
  if !seen || p.filtered = l then d1
  else
    let hit := if l then p.evCfg.getLsbD 0 else p.evCfg.getLsbD 1
    if !hit || p.pend then d1
    else
      let d2 := d1.modPin n fun p => { p with pend := true }
      if bit d2.pins.ctrl 0 then d2.event (uPinBank (pinBank n)) 0x01 0 (pack64 [(n, 0, 10), (b2n l, 16, 1), (b2n l, 17, 1)]) else d2

/-! ### Sinks (R469, R470) -/

/-- The pins that name each sink with SINK_EN 1, ascending. -/
def Dev.claims (d : Dev) : Tab (List Nat) :=
  foldS (fun (t : Tab (List Nat)) (e : Nat × Pin) =>
    if bit e.2.sel 24 then Tab.set [] t (pinSink e.2.sel) (Tab.get [] t (pinSink e.2.sel) ++ [e.1]) else t) [] d.pins.pins

/-- What the pin `n` gives a sink: in NAP and DEEP what it gave as its bank fell asleep (R490), in its bank's core loop its own
source value (R492). `cts` gives each port's CTS_N. -/
def Dev.feedsWith (d : Dev) (cts : Nat → Bool) (n : Nat) : Bool :=
  if d.ust (uPinBank (pinBank n)) == .asleep then (d.pin n).kept
  else if d.pins.loop.get 0 (pinBank n) == 1 then (d.sourceWith cts (pinSource (d.pin n).sel)).1
  else if fld (d.pin n).sel 30 2 == 1 || fld (d.pin n).sel 30 2 == 2 then (d.pin n).filtered else (d.pin n).level

/-- The level of sink `i`. -/
def Dev.sinkWith (d : Dev) (cts : Nat → Bool) (c : Tab (List Nat)) (i : Nat) : Bool :=
  let ignored := match slotPan i with | some (p, _) => d.panHandover p | none => false
  match Tab.get [] c i with
  | [n] => if d.bankOn (pinBank n) && !ignored then d.feedsWith cts n != d.sinkInvert i else d.sinkDefault i
  | _ => d.sinkDefault i

/-- CTS_N of a port: in the near-end loop the pad that its RTS_N drives (R485, R491). Through pin banks in the core loop the DE
of one of the 24 ports can be the CTS_N of the next: `k` steps of such a chain. -/
def Dev.ctsAt (d : Dev) (c : Tab (List Nat)) : Nat → Nat → Bool
  | 0, _ => false
  | k + 1, f =>
    match (d.fport f).loop with
    | none => d.sinkWith (d.ctsAt c k) c (0x101 + 8 * f)
    | some depth => depth == 3 && (d.fport f).rts

/-- CTS_N of a port reads 1. -/
def Dev.ctsHigh (d : Dev) (f : Nat) : Bool := d.ctsAt d.claims 24 f

/-- What the pin `n` gives a sink. -/
def Dev.feeds (d : Dev) (n : Nat) : Bool := d.feedsWith d.ctsHigh n

/-- The level of sink `i`, under the claims `c`. -/
def Dev.sinkLevel (d : Dev) (c : Tab (List Nat)) (i : Nat) : Bool := d.sinkWith d.ctsHigh c i

/-- Value and output enable of a source. -/
def Dev.source (d : Dev) (s : Nat) : Bool × Bool := d.sourceWith d.ctsHigh s

/-- Value and output enable that a pin takes. -/
def Dev.pinDrive (d : Dev) (n : Nat) : Bool × Bool :=
  let p := d.pin n
  let b := pinBank n
  let src := d.source (pinSource p.sel)
  match d.mblk.jtagOver with
  | some i => if i = 5 || !d.pins.vccioOk.getLsbD b then (p.out, false) else Config.boundaryPin n d.mblk.boundary
  | none =>
    if !d.bankOn b then (p.out, false)
    else if d.pins.loop.get 0 b == 2 then (src.1, true)
    else if d.inHandover n then p.handover
    else if d.ust (uPinBank b) == .asleep then (p.out, p.oe && fld (d.pins.bankCfg.get 0 b ^^^ 0x10) 8 2 != 2)
    else src

/-- The pins of banks that fall asleep keep what they give their sinks (R490). -/
def Dev.keepSinks (d : Dev) : Dev := foldS (fun d (e : Nat × Pin) => d.modPin e.1 fun p => { p with kept := d.feeds e.1 }) d d.pins.pins

/-- Every pan's pin-port inputs take the levels of their sinks. A pan that is ASLEEP keeps what it read (R490, R524). -/
def Dev.refreshSinks (d : Dev) : Dev :=
  let c := d.claims
  let keys := (c.map Prod.fst) ++ (d.pins.sinkSel.map Prod.fst)
  let ins : Tab (Tab Bool) := foldS (fun (t : Tab (Tab Bool)) i =>
    match slotPan i with
    | some (p, s) => Tab.set [] t p (Tab.set false (Tab.get [] t p) s (d.sinkLevel c i))
    | none => t) [] keys
  foldS (fun d p =>
    let new := Tab.get [] ins p
    if d.ust (uPan p) == .asleep || (d.pan p).fab.pinIn = new then d
    else (d.modPan p fun x => { x with fab := { x.fab with pinIn := new } }).settle p) d (List.range 64)

/-! ### Field channels (R475, R483) -/

/-- The entry that an I²C target holds until the RX FIFO has room (R487). -/
def FPort.waitingRx (x : FPort) : List Word := if x.kind = 2 then x.heldRx.toList else []

/-- The RX FIFO without its `n` oldest entries; an entry that waited for room enters behind the rest. -/
def FPort.dropRx (x : FPort) (n : Nat) : FPort :=
  let r := x.rx.drop n ++ x.waitingRx
  { x with rx := r, above := x.above && decide (fld x.fifo 0 9 ≤ r.length), heldRx := if x.kind = 2 then none else x.heldRx }

/-- The oldest RX entry is taken. -/
def FPort.popRx (x : FPort) : FPort := x.dropRx 1

/-- A module takes entries on a bound port's channel: its pan runs, its clocks do, and it is not held. -/
def Dev.channelOpen (d : Dev) (p : Nat) : Bool :=
  d.ust (uPan p) == .running && !d.panGated p && !(d.pan p).held && !(d.pan p).handover

/-- READY of the RX side of a field channel; none: the image ties it to 1. -/
def Dev.chanReady (d : Dev) (p c : Nat) : Option Src := (d.view p).cfg.chanReady.get none c

/-- RX entries of a bound port go to its channel, where the module is always ready. -/
def Dev.flushChannel (d : Dev) (f : Nat) : Dev :=
  match (d.fport f).bound with
  | none => d
  | some (_, p, c) =>
    if !(d.fport f).rx.isEmpty && d.channelOpen p && (d.chanReady p c).isNone then
      let es := (d.fport f).rx ++ (d.fport f).waitingRx
      foldS (fun d e => d.emit (.channelRx p c e)) (d.modFport f fun x => { x.dropRx es.length with rx := [], above := false }) es
    else d

/-- The ports whose oldest RX entry the modules of pan `p`'s gang take at these edges: READY is 1 at an edge of the pin port's
clock. -/
def Dev.channelTakes (d : Dev) (p : Nat) (edges : List (Nat × Bool)) : List (Nat × Nat × Nat × Word) :=
  let vs := d.views p
  d.fports.filterMap fun e =>
    match e.2.bound, e.2.rx with
    | some (_, q, c), w :: _ =>
      (vs.of q).bind fun v =>
        if d.channelOpen q && v.cfg.pinClk.any (fun k => edges.contains (k, true)) && (v.cfg.chanReady.get none c).any (vs.ev d.freeCtr v)
        then some (e.1, q, c, w) else none
    | _, _ => none

/-- A pin takes its value and output enable, past its clamp edge where one comes; a driven pad reads what drives it. -/
def Dev.drivePin (d : Dev) (n : Nat) : Dev :=
  let d0 := d.clampPin n
  let (v, oe) := d0.pinDrive n
  let d1 := d0.modPin n fun p => { p with out := v, oe := oe, pull := d0.pinPull n oe }
  if oe || d.bankOn (pinBank n) then d1.padLevel n (if oe then v else (d.pin n).level) 0 else d1

/-- DE of every port that is in use, which its CTS_N moves. -/
def Dev.deLevels (d : Dev) : List Bool := d.fports.map fun e => (d.source (0x102 + 8 * e.1)).1

/-- The pins take their values until no DE changes: a pad that CTS_N reads moves the pin that carries DE (R485). -/
def Dev.drivePins (ns : List Nat) : Nat → Dev → Dev
  | 0, d => d
  | k + 1, d =>
    let d1 := foldS Dev.drivePin d ns
    if d1.deLevels = d.deLevels then d1 else Dev.drivePins ns k d1

/-- Every pin takes its value and output enable; the sinks follow, and a module that has come to take entries takes them. -/
def Dev.refreshPins (d : Dev) : Dev :=
  let all := d.mblk.jtagOver.isSome || d.cfg.pull || d.pins.loop.any fun e => e.2 == 2
  let ns := if all then List.range 768 else d.pins.pins.map Prod.fst
  foldS (fun d (e : Nat × FPort) => d.flushChannel e.1) (Dev.drivePins ns 25 d).refreshSinks d.fports

/-- Sinks with a conflict now. -/
def Dev.conflicts (d : Dev) : List (Nat × List Nat) := d.claims.filter fun e => decide (2 ≤ e.2.length)

/-- Change the claims: a new conflict sets its sticky bit and raises SINK_CONFLICT (R470, R479). -/
def Dev.withClaims (d : Dev) (f : Dev → Dev) : Dev :=
  let old := d.conflicts.map Prod.fst
  let d1 := f d
  let d2 := foldS (fun d (e : Nat × List Nat) =>
    if old.contains e.1 || d.pins.conflict.get false e.1 then d
    else
      let d1 := { d with pins := { d.pins with conflict := d.pins.conflict.set false e.1 true } }
      let n := e.2.headD 0
      if bit d1.pins.ctrl 1 then d1.event (uPinBank (pinBank n)) 0x02 0 (pack64 [(e.1, 0, 12), (n, 16, 10)]) else d1) d1 d1.conflicts
  d2.refreshPins

/-- A unit named by SOURCE or SINK lies in the partition (R471). -/
def Dev.signalIn (d : Dev) (rd i : Nat) : Bool := (signalUnit i).all fun u => d.inPart rd u

/-- The writer's partition holds the units that the entry names (R471). -/
def Dev.pinSelOk (d : Dev) (rd : Nat) (v : Word) : Bool := d.signalIn rd (pinSource v) && d.signalIn rd (pinSink v)

/-- A pin select entry is written (R471, R472). -/
def Dev.writePinSel (d : Dev) (n : Nat) (v : Word) : Dev := d.withClaims fun d => d.modPin n fun p => { p with sel := v }

/-- PIN_SEL_WRITE: a pin select entry is written through a path (R472). -/
def opPinSelWrite (path : Path) (n : Nat) (v : Word) (d : Dev) : Dev :=
  d.filteredIf path .pin (0x1000 + 4 * n) (fun d => d.pinSelOk path.reader v) fun d => d.writePinSel n v

/-- PIN_EDGE: a pad has come to a level and kept it for a time (R477, R478); the sinks follow, and the pins that move with them
(R485). What the device drives, the outside does not change. -/
def opPinEdge (n : Nat) (l : PinLevel) (d : Dev) : Dev :=
  if ((d.pin n).oe && (d.pin n).level != l.level) || !d.bankOn (pinBank n) then d else (d.padLevel n l.level l.held).refreshPins

/-- At the commit point of a MIGRATE, every live entry that names a slot of a source member names the same slot of its
destination member (R474). -/
def Dev.movePins (d : Dev) (pairs : List (Nat × Nat)) : Dev :=
  let move (i : Nat) : Nat :=
    match slotPan i with
    | some (p, s) => (match pairs.find? fun x => x.1 == p with | some x => 0x400 + 48 * x.2 + s | none => i)
    | none => i
  d.withClaims fun d =>
    { d with pins := { d.pins with pins := d.pins.pins.map fun e =>
      (e.1, { e.2 with sel := setFld (setFld e.2.sel 0 12 (move (pinSource e.2.sel))) 12 12 (move (pinSink e.2.sel)) }) } }

/-- A parity failure in a bank's slice of the select arrays (R493). -/
def opPinBankParityFault (b : Nat) (d : Dev) : Dev :=
  if d.ust (uPinBank b) != .running then d else (d.fault (uPinBank b) stInternal 0).refreshPins

/-! ### Loading (R468) -/

/-- The frames of the committed global area. -/
def Dev.globalFrames (d : Dev) : Tab FrameBits := if (d.pan 64).blank then [] else (d.nvu 64).plane (d.pan 64).active

/-- A pin's entry on a blank device: PULL is 1 when CFG_PULL is 1. -/
def Dev.blankSel (d : Dev) : Word := if d.cfg.pull then 0x16000002 else 0x06000002

/-- The I/O-ring frames of the committed global area. -/
def Dev.ioCfg (d : Dev) : IoRingCfg :=
  if (d.pan 64).blank then {} else Config.ioRing (d.globalFrames.filter fun e => decide (e.1 < 1024))

/-- Load the select arrays and the registers of every pin bank; or, as a bank recovers, its slice of the arrays: its 48 pin
entries and 256 sink entries, 256 b to 256 b + 255 (R468, R493; assumption 84). -/
def Dev.loadPins (d : Dev) (b : Option Nat) : Dev :=
  let c := d.ioCfg
  match b with
  | none =>
    d.withClaims fun d =>
      let d1 := foldS (fun d n => d.modPin n fun p =>
        { p with sel := c.pinSel.get d.blankSel n, evCfg := c.evCfg.get 0 n, wakeEn := c.wakeEn.get false n }) d (List.range 768)
      { d1 with pins := { d1.pins with
          sinkSel := c.sinkSel
          bankCfg := foldS (fun (t : Tab Word) k => t.set 0 k (c.bankCfg.get 0 k &&& 0x377)) d1.pins.bankCfg (List.range 16)
          filter := foldS (fun (t : Tab Word) k => t.set 0 k (c.filter.get 0 k &&& 0x07FF07FF)) d1.pins.filter (List.range 16) } }
  | some k =>
    d.withClaims fun d =>
      let d1 := foldS (fun d j => d.modPin (48 * k + j) fun p => { p with sel := c.pinSel.get d.blankSel (48 * k + j) }) d (List.range 48)
      { d1 with pins := { d1.pins with
          sinkSel := foldS (fun (t : Tab (Option (BitVec 2))) j => t.set none (256 * k + j) (c.sinkSel.get none (256 * k + j)))
            d1.pins.sinkSel (List.range 256) } }

/-! ### A user clock edge (R61–R66, R71, R475) -/

/-- Spine clock `k` of pan `p` comes from a PLL output that is gated or stopped (R110, R540, R541). -/
def Dev.clockDead (d : Dev) (p k : Nat) : Bool :=
  ((d.view p).cfg.spine.get none k).any fun x => decide (x < 52) && d.pllDead (3 + x / 4)

/-- USER_CLOCK_EDGE: the storage elements and registers on the edges' spine clocks take their next values, and the pin
slots that the module writes reach the pins. The edges of one command arrive together (R115). A clock that its PLL does not
give has no edge (R541), and a module takes the entries it is ready for. -/
def opUserClockEdge (p : Nat) (edges : List (Nat × Bool)) (d : Dev) : Dev :=
  let u := d.ust (uPan p)
  let live := edges.filter fun e => !d.clockDead p e.1
  if !(d.pan p).occupied || (u != .running && u != .quiesced) || d.panGated p || live.isEmpty then d
  else
    let outs (d : Dev) : List (Tab (BitVec 2)) := (d.gangWith p).map fun q => (d.pan q).fab.pinOut
    let d1 := (d.clockPan p live).panCycles p (live.countP fun e => e.2)
    let taken := d.channelTakes p live
    let d2 := foldS (fun d (x : Nat × Nat × Nat × Word) => (d.modFport x.1 FPort.popRx).emit (.channelRx x.2.1 x.2.2.1 x.2.2.2)) d1 taken
    if outs d2 = outs d ∧ taken = [] then d2 else d2.refreshPins

/-! ### Registers of the PIN block (R494, R495) -/

/-- A word whose bit `j` is `f (base + j)` for the bits a reader reaches. -/
def bitsWord (n : Nat) (f : Nat → Bool) : Word := pack ((List.range n).map fun j => (b2n (f j), j, 1))

/-- Pin `n`'s bank is in a reader's partition (R635). -/
def Dev.pinIn (d : Dev) (rd n : Nat) : Bool := (d.part rd).pinBanks.getLsbD (pinBank n)

/-- PIN_BANK_CFG of a bank. -/
def Dev.bankWord (d : Dev) (b : Nat) : Word :=
  setBit (d.pins.bankCfg.get 0 b ^^^ 0x10) 16 (d.pins.vccioOk.getLsbD b)

/-- Sink select entry `i` (R469). -/
def Dev.sinkWord (d : Dev) (i : Nat) : Word :=
  let c := Tab.get [] d.claims i
  pack [(b2n (d.sinkDefault i), 0, 1), (b2n (d.sinkInvert i), 1, 1), ((match c with | [n] => n | _ => 0x3FF), 16, 10),
    (b2n (decide (2 ≤ c.length)), 30, 1), (b2n (!c.isEmpty), 31, 1)]

/-- A read of the PIN block. -/
def Dev.readPin (d : Dev) (rd o : Nat) : Word :=
  let pins (base : Nat) (f : Pin → Bool) : Word := let w := (o - base) / 4; bitsWord 32 fun j => d.pinIn rd (32 * w + j) && f (d.pin (32 * w + j))
  if o = 0 then d.pins.ctrl
  else if o = 4 then pack [(d.conflicts.length, 0, 13), ((List.range 768).countP (fun n => (d.pin n).pend), 16, 10)]
  else if o = 8 then pack ((List.range 16).map fun b => ((d.pins.loop.get 0 b).toNat, 2 * b, 2))
  else if o < 0x80 then let b := (o - 0x40) / 4; if (d.part rd).pinBanks.getLsbD b then d.bankWord b else 0
  else if o < 0xC0 then let b := (o - 0x80) / 4; if (d.part rd).pinBanks.getLsbD b then d.filterWord b else 0
  else if o < 0x180 then pins 0x100 Pin.level
  else if o < 0x200 then pins 0x180 Pin.pend
  else if o < 0x300 then
    let w := (o - 0x200) / 4
    pack ((List.range 16).map fun j => (if d.pinIn rd (16 * w + j) then (d.pin (16 * w + j)).evCfg.toNat else 0, 2 * j, 2))
  else if o < 0x400 then pins 0x300 Pin.wakeEn
  else if o < 0x600 then let w := (o - 0x400) / 4; bitsWord 32 fun j => d.pins.conflict.get false (32 * w + j)
  else if o < 0x1C00 then (d.pin ((o - 0x1000) / 4)).sel
  else d.sinkWord ((o - 0x4000) / 4)

/-- A write of the PIN block. -/
def Dev.writePin (d : Dev) (rd o : Nat) (v : Word) : Dev :=
  let pins (base n : Nat) (f : Nat → Pin → Pin) : Dev :=
    let w := (o - base) / 4
    foldS (fun d j => if d.pinIn rd (n * w + j) then d.modPin (n * w + j) (f j) else d) d (List.range n)
  if o = 0 then { d with pins := { d.pins with ctrl := v &&& 3 } }
  else if o < 0x40 then d
  else if o < 0x80 then
    let b := (o - 0x40) / 4
    if (d.part rd).pinBanks.getLsbD b then
      ({ d with pins := { d.pins with bankCfg := d.pins.bankCfg.set 0 b ((v &&& 0x377) ^^^ 0x10) } }).refreshPins
    else d
  else if o < 0xC0 then
    let b := (o - 0x80) / 4
    if (d.part rd).pinBanks.getLsbD b then
      { d with pins := { d.pins with filter := d.pins.filter.set 0 b ((v &&& 0x07FF07FF) ^^^ 0x01010101) } }
    else d
  else if o < 0x180 then d
  else if o < 0x200 then pins 0x180 32 fun j p => { p with pend := p.pend && !bit v j }
  else if o < 0x300 then pins 0x200 16 fun j p => { p with evCfg := BitVec.ofNat 2 (fld v (2 * j) 2) }
  else if o < 0x400 then pins 0x300 32 fun j p => { p with wakeEn := bit v j }
  else if o < 0x600 then
    let w := (o - 0x400) / 4
    let left := foldS (fun (t : Tab Bool) j => if bit v j then t.set false (32 * w + j) false else t) d.pins.conflict (List.range 32)
    { d with pins := { d.pins with conflict := left } }
  else if o < 0x1C00 then d.writePinSel ((o - 0x1000) / 4) v
  else
    let i := (o - 0x4000) / 4
    ({ d with pins := { d.pins with sinkSel := d.pins.sinkSel.set none i (some (v.setWidth 2)) } }).refreshSinks

/-! ### The commands -/

/-- PIN_SEL_WRITE (R472). -/
def execPinSelWrite (path : Path) (pin : Nat) (value : Word) (s : State) : Res :=
  runCmd (.pinSelWrite path pin value) (opPinSelWrite path pin value) s

/-- PIN_EDGE (R478). -/
def execPinEdge (pin : Nat) (level : PinLevel) (s : State) : Res :=
  runCmd (.pinEdge pin level) (opPinEdge pin level) s

/-- PIN_BANK_PARITY_FAULT (R493). -/
def execPinBankParityFault (bank : Nat) (s : State) : Res :=
  runCmd (.pinBankParityFault bank) (opPinBankParityFault bank) s

/-- USER_CLOCK_EDGE (R61). -/
def execUserClockEdge (pan : Nat) (edges : List (Nat × Bool)) (s : State) : Res :=
  runCmd (.userClockEdge pan edges) (opUserClockEdge pan edges) s

end Sys2Proof.Machine
end

