-- ==== Sys2Proof/Machine/FieldPorts.lean ====
section
/-! DEFINITION. Field ports (chapter "Field Ports, Pins and the Crossbar"): FIFOs, the four controllers a character, byte or
frame at a time, binding to a module's field channel, loopback and the FPORT block. -/

namespace Sys2Proof.Machine

/-! ### Errors and FIFOs (R482, R489) -/

/-- The flags whose first setting raises PROTOCOL. -/
def protocolFlags : BitVec 12 := 0x4E1

/-- Set flags of FPORT_ERR; the first of the protocol flags raises PROTOCOL (R489). -/
def Dev.fportErr (d : Dev) (f : Nat) (m : BitVec 12) : Dev :=
  let x := d.fport f
  let first := !x.protoSeen && m &&& protocolFlags ≠ 0
  let d1 := d.modFport f fun x => { x with err := x.err ||| m, protoSeen := x.protoSeen || first }
  if first then d1.event (uFport f) 0x03 0 ((x.err ||| m).setWidth 64) else d1

/-- Entries enter the RX FIFO, or are discarded whole (R482). -/
def Dev.pushRx (d : Dev) (f : Nat) (es : List Word) : Dev :=
  let x := d.fport f
  if 256 < x.rx.length + es.length then d.fportErr f 0x001
  else
    let n := x.rx.length + es.length
    let th := fld x.fifo 0 9
    let rise := decide (0 < th) && decide (th ≤ n) && !x.above
    let d1 := d.modFport f fun x => { x with rx := x.rx ++ es, above := x.above || rise }
    let d2 := if rise then d1.event (uFport f) 0x01 0 (BitVec.ofNat 64 n) else d1
    d2.flushChannel f

/-- Count transfers (R496). -/
def Dev.countTx (d : Dev) (f : Nat) : Dev := d.modFport f fun x => { x with txCount := satInc x.txCount }
/-- Count receptions. -/
def Dev.countRx (d : Dev) (f : Nat) : Dev := d.modFport f fun x => { x with rxCount := satInc x.rxCount }

/-- The port transfers: it is RUNNING, or its loop is closed (R491). -/
def Dev.fportRuns (d : Dev) (f k : Nat) : Bool :=
  (d.ust (uFport f) == .running || (d.ust (uFport f) == .quiesced && (d.fport f).loop.isSome)) && (d.fport f).kind.toNat == k

/-- The port's controller of kind `k` sees the lines outside: it is RUNNING, or its loop is the near-end one, whose inputs are
pads (R491). -/
def Dev.fportHears (d : Dev) (f k : Nat) : Bool := d.fportRuns f k && (d.fport f).loop != some 0

/-- The one pin that feeds input `k` of the port, of a bank that reads its pads (R470). -/
def Dev.feeder (d : Dev) (f k : Nat) : Option Nat :=
  match Tab.get [] d.claims (0x100 + 8 * f + k) with
  | [n] => if d.bankOn (pinBank n) && d.ust (uPinBank (pinBank n)) != .asleep then some n else none
  | _ => none

/-- In a core loop of its bank a pin gives its sink what a module's slot or another port sends, which only the command tells; a
fixed level, the device's own levels and the port's own sources are known (R492; assumption 84). -/
def sentByOthers (f s : Nat) : Bool := (slotPan s).isSome || (portSignal s).any fun x => x.1 != f

/-- Input `k` of the port reads what the command brings: the pad of its pin, or in the core loop of that pin's bank what others
send to it; in the port's near-end loop the pads of its own sources (R470, R491, R492). -/
def Dev.fed (d : Dev) (f k : Nat) : Bool :=
  (d.fport f).loop.isSome ||
    (d.feeder f k).any fun n => d.pins.loop.get 0 (pinBank n) != 1 || sentByOthers f (pinSource (d.pin n).sel)

/-- A pin in the core loop of its bank gives input `k` of the port the port's own source `j` (R492). -/
def Dev.ownLoop (d : Dev) (f k j : Nat) : Bool :=
  (d.fport f).loop.isNone &&
    (d.feeder f k).any fun n => d.pins.loop.get 0 (pinBank n) == 1 && pinSource (d.pin n).sel == 0x100 + 8 * f + j

/-- The level of input `k` now. -/
def Dev.fportSink (d : Dev) (f k : Nat) : Bool := d.sinkLevel d.claims (0x100 + 8 * f + k)

/-- A port without its FIFO entries and without a transfer (R481). -/
def FPort.emptied (x : FPort) : FPort :=
  { x with
    tx := [], rx := [], above := false, csLow := none, heldRx := none, selected := false, i2cHold := false
    reading := false, laneOe := 0, integrating := false, i2cDrop := false }

/-- A TX entry is queued; an I²C controller that has abandoned a transfer discards it, up to the next entry with STOP (R487). -/
def FPort.queueTx (x : FPort) (v : Word) : FPort :=
  if x.i2cDrop then { x with i2cDrop := !bit v 9 } else { x with tx := x.tx ++ [v] }

/-- A transition into IDLE empties both FIFOs (R481). -/
def Dev.fportToIdle (d : Dev) (f : Nat) (c : Cause) : Dev := (d.modFport f FPort.emptied).setUnit (uFport f) .idle c

/-- KIND and the format fields take effect as the port leaves IDLE (R480). -/
def FPort.load (x : FPort) : FPort :=
  { x with kind := BitVec.ofNat 2 (fld x.ctrl 0 2), fmtUse := x.fmt, clkUse := x.clk, nbtUse := x.nbt, dbtUse := x.dbt }

/-! ### Start (R480) -/

/-- The lines read what the kind needs. -/
def Dev.fportReady (d : Dev) (f : Nat) : Bool :=
  let x := d.fport f
  match fld x.ctrl 0 2 with
  | 0 => d.fportSink f 0
  | 1 => !bit x.fmt 14 || d.fportSink f 5
  | 2 => d.fportSink f 0 && d.fportSink f 1
  | _ => d.fportSink f 0

/-- FPORT_START: an enabled IDLE port whose condition has been met goes RUNNING (R480). At a CAN FD port that integrates after a
wake or a protocol exception, or is bus-off in a loop, the same condition ends its bus integration (R488, R490; assumption 84). -/
def opFportStart (f : Nat) (d : Dev) : Dev :=
  if d.fportRuns f 3 && ((d.fport f).integrating || (d.fport f).bus == 2) && ((d.fport f).loop.isSome || d.fportSink f 0) then
    d.modFport f fun x => if x.bus = 2 then { x with integrating := false, bus := 0, tecErr := 0, recErr := 0 } else { x with integrating := false }
  else if d.ust (uFport f) != .idle || d.gated (uFport f) || !bit (d.fport f).ctrl 4 || !d.fportReady f then d
  else
    let d1 := d.modFport f fun x => { x.load with bus := 0, tecErr := 0, recErr := 0 }
    ((d1.setUnit (uFport f) .running .device).refreshPins).flushChannel f

/-! ### UART (R485) -/

/-- Data bits of a UART character. -/
def uartBits (fmt : Word) : Nat := let n := fld fmt 0 4; if 5 ≤ n ∧ n ≤ 9 then n else 8

/-- An RX entry of the UART. -/
def uartEntry (fmt : Word) (ch : BitVec 9) (parity framing brk : Bool) : Word :=
  pack [(ch.toNat % 2 ^ uartBits fmt, 0, 9), (b2n parity, 9, 1), (b2n framing, 10, 1), (b2n brk, 11, 1)]

/-- The data bits of a character, least significant first, as many as the format has. -/
def uartData (fmt : Word) (ch : BitVec 9) : List Bool := (List.range (uartBits fmt)).map fun j => ch.getLsbD j

/-- The parity bit of a character; none: the format has none (R497). -/
def uartParity (fmt : Word) (ch : BitVec 9) : Option Bool :=
  let odd := (uartData fmt ch).foldl xor false
  match fld fmt 4 2 with
  | 0 => none
  | 1 => some odd
  | 2 => some !odd
  | _ => some false

/-- The bits of a character on TXD: start, data, parity, stop (R485). -/
def uartFrame (fmt : Word) (ch : BitVec 9) : List Bool :=
  false :: (uartData fmt ch ++ (uartParity fmt ch).toList ++ (if bit fmt 6 then [true, true] else [true]))

/-- A character is received, with the bits that follow its data. A stop bit that reads 0 is a framing error; data bits of 0
with it are a break. -/
def Dev.uartTake (d : Dev) (f : Nat) (ch : BitVec 9) (parityBit stopBit stop2Bit : Bool) : Dev :=
  let fmt := (d.fport f).fmtUse
  let parity := (uartParity fmt ch).any fun b => b != parityBit
  let framing := !stopBit || (bit fmt 6 && !stop2Bit)
  let brk := framing && (uartData fmt ch).all fun b => !b
  let m : BitVec 12 := (if parity then 0x008 else 0) ||| (if framing then 0x010 else 0)
  let d1 := if m = 0 then d else d.fportErr f m
  ((d1.countRx f).pushRx f [uartEntry fmt ch parity framing brk]).refreshPins

/-- DE is 1: RS-485 direction control, and a character on the line (R485). -/
def Dev.uartDe (d : Dev) (f : Nat) : Bool := bit (d.fport f).fmtUse 8 && (d.fport f).sending (d.ctsHigh f)

/-- UART_RX_CHARACTER: what RXD reads, unless DE is 1. In a loop RXD reads TXD. -/
def opUartRxCharacter (f : Nat) (ch : BitVec 9) (parityBit stopBit stop2Bit : Bool) (d : Dev) : Dev :=
  if !d.fportHears f 0 || (d.fport f).loop.isSome || !d.fed f 0 || d.uartDe f then d else d.uartTake f ch parityBit stopBit stop2Bit

/-- UART_TX_CHARACTER: the oldest TX entry has been sent. With FLOW none starts while CTS_N is 1. A loop of the port, or of the
pin bank whose pin carries its TXD to its RXD, returns it (R491, R492). -/
def opUartTxCharacter (f : Nat) (d : Dev) : Dev :=
  let x := d.fport f
  match x.tx with
  | [] => d
  | e :: rest =>
    if !d.fportRuns f 0 || !x.sending (d.ctsHigh f) then d
    else
      let ch : BitVec 9 := BitVec.ofNat 9 (fld e 0 9)
      let d1 := (d.modFport f fun x => { x with tx := rest }).countTx f
      let d2 := if x.loop = some 0 then d1 else d1.emit (.uartChar f (uartFrame x.fmtUse ch) (bit x.fmtUse 8))
      if (x.loop.isSome || (d.ownLoop f 0 0 && !d.sinkInvert (0x100 + 8 * f))) && !bit x.fmtUse 8 then
        d2.uartTake f ch ((uartParity x.fmtUse ch).getD false) true true else d2.refreshPins

/-! ### SPI (R486) -/

/-- Lanes of SPI: 0 ×1, 1 ×2, 2 ×4. -/
def spiWidth (fmt : Word) : Nat := let n := fld fmt 11 2; if n = 3 then 0 else n

/-- A byte between a FIFO and the lanes: in the order of the lanes bit 7 goes first (R486). -/
def spiLine (fmt : Word) (b : Byte) : Byte := if bit fmt 13 then b.reverse else b

/-- The lanes of a byte of a port: at ×1 the controller drives IO0 and reads IO1, a target reads IO0 and drives IO1; at ×2 and
×4 bit `b` in the order of the lanes is on lane `b` mod the width (R486; assumption 84). -/
def spiLane (fmt : Word) (drive : Bool) (b : Nat) : Nat :=
  match spiWidth fmt with
  | 0 => b2n (bit fmt 14 == drive)
  | w => b % 2 ^ w

/-- What the port reads of a byte: what the lanes carry (`line`); on a lane that a looped pin bank feeds with the lane that the port
drives, the byte `own` that it drives; on one that no pad feeds, the level of its sink. -/
def Dev.spiRead (d : Dev) (f : Nat) (line own : Byte) : Byte :=
  let fmt := (d.fport f).fmtUse
  spiLine fmt (BitVec.ofNat 8 (pack ((List.range 8).map fun b =>
    let k := 1 + spiLane fmt false b
    (b2n (if d.fed f k then line.getLsbD b
      else if spiWidth fmt = 0 ∧ d.ownLoop f k (1 + spiLane fmt true b) then own.getLsbD b != d.sinkInvert (0x100 + 8 * f + k)
      else d.fportSink f k), b, 1))).toNat)

/-- The lanes keep the last levels that a byte drives on them, while chip select stays low (R467). -/
def FPort.driveLanes (x : FPort) (line : Byte) (on : Bool) : FPort :=
  let last := List.range (2 ^ spiWidth x.fmtUse)
  let mask := last.foldl (fun (m : BitVec 4) b => m ||| BitVec.ofNat 4 (2 ^ spiLane x.fmtUse true b)) 0
  let lv := last.foldl (fun (m : BitVec 4) b => if line.getLsbD b then m ||| BitVec.ofNat 4 (2 ^ spiLane x.fmtUse true b) else m) 0
  { x with lanes := lv, laneOe := if on then mask else 0 }

/-- A controller's byte. What it captures from lanes that it drives itself is a free value but in a loop, where it is its own
byte; a lane that nothing drives inside the core loop is one too. -/
def Dev.spiController (d : Dev) (f : Nat) (byteIn : Byte) : Dev :=
  let x := d.fport f
  match x.tx with
  | [] => d
  | e :: rest =>
    let wide := spiWidth x.fmtUse != 0
    let byte : Byte := BitVec.ofNat 8 (fld e 0 8)
    let line := spiLine x.fmtUse byte
    let drives := !wide || !bit e 12
    let (k, d0) := d.takeFree
    let got :=
      if wide && drives then (if x.loop.isSome then byte else Config.freeByte k)
      else if x.loop = some 0 then Config.freeByte k
      else d.spiRead f byteIn line
    let cs := fld e 8 2
    let keep := bit e 10 && cs != 3
    let d1 := (d0.modFport f fun x =>
      ({ x with tx := rest, csLow := if keep then some cs else none } : FPort).driveLanes line (drives && keep)).countTx f
    let d2 := if drives && x.loop != some 0 then d1.emit (.spiByte f line (BitVec.ofNat 2 cs) (BitVec.ofNat 2 (fld x.fmtUse 9 2)) (2 ^ spiWidth x.fmtUse))
      else d1
    let d3 := if bit e 11 then (d2.countRx f).pushRx f [got.setWidth 32] else d2
    d3.refreshPins

/-- A target's byte: 0xFF with TX_UNDERRUN where its TX FIFO is empty. -/
def Dev.spiTarget (d : Dev) (f : Nat) (byteIn : Byte) : Dev :=
  let x := d.fport f
  let e := x.tx.headD 0xFF
  let drives := spiWidth x.fmtUse == 0 || !bit e 12
  let line := spiLine x.fmtUse (BitVec.ofNat 8 (fld e 0 8))
  let got := d.spiRead f byteIn line
  let d0 := if x.tx.isEmpty then d.fportErr f 0x004 else d.countTx f
  let d1 := d0.modFport f fun x =>
    ({ x with tx := x.tx.drop 1, heldRx := some (got.setWidth 32), selected := true } : FPort).driveLanes line drives
  let d2 := if drives then d1.emit (.spiByte f line 3 (BitVec.ofNat 2 (fld x.fmtUse 9 2)) (2 ^ spiWidth x.fmtUse)) else d1
  ((match x.heldRx with
   | some w => d2.pushRx f [w]
   | none => d2).countRx f).refreshPins

/-- SPI_BYTE: a controller or target completes one byte, given in the order of the lanes. A target needs its SCLK and CS_N. -/
def opSpiByte (f : Nat) (byteIn : Byte) (d : Dev) : Dev :=
  if !d.fportRuns f 1 then d
  else if bit (d.fport f).fmtUse 14 then (if d.fportHears f 1 && d.fed f 0 && d.fed f 5 then d.spiTarget f byteIn else d)
  else d.spiController f byteIn

/-- SPI_CS_END: CS_N rises at a target; its last byte carries CS_END. -/
def opSpiCsEnd (f : Nat) (d : Dev) : Dev :=
  let x := d.fport f
  if !d.fportHears f 1 || !bit x.fmtUse 14 then d
  else
    let d1 := d.modFport f fun x => { x with heldRx := none, selected := false, laneOe := 0 }
    (match x.heldRx with
     | some w => d1.pushRx f [w ||| 0x100]
     | none => d1).refreshPins

/-! ### I²C (R487) -/

/-- TX entries after the next one with STOP. -/
def afterStop : List Word → List Word
  | [] => []
  | e :: es => if bit e 9 then es else afterStop es

/-- The controller ends a transfer: it discards the TX entries `es` up to and including the next one with STOP, and where none of
them has it those that come; a NACK sends a stop, which a core loop keeps from the pins (R487, R491). -/
def Dev.i2cAbandon (d : Dev) (f : Nat) (flag : BitVec 12) (es : List Word) (stop : Bool) : Dev :=
  let d1 := (d.modFport f fun x => { x with tx := afterStop es, i2cDrop := es.all fun e => !bit e 9, i2cHold := false }).fportErr f flag
  if stop && (d.fport f).loop != some 0 then d1.emit (.i2cStop f) else d1

/-- What a controller's byte meets on the wire: how it ends and what is read. In the core loop nothing answers; an SDA that no
pad feeds reads the level of its sink throughout (R470, R491, R492). -/
def Dev.i2cWire (d : Dev) (f : Nat) (byte byteIn : Byte) (rd : Bool) (ended : I2cEnd) : I2cEnd × Byte :=
  if (d.fport f).loop = some 0 then (if rd then .ack else .nack, 0xFF)
  else if d.fed f 1 then (ended, byteIn)
  else if d.fportSink f 1 then (if rd then .ack else .nack, 0xFF)
  else (if rd || byte == 0 then .ack else .arbLost, 0)

/-- A controller's byte. While SCL reads 0 for want of a pad there is none. -/
def Dev.i2cController (d : Dev) (f : Nat) (byteIn : Byte) (ended : I2cEnd) : Dev :=
  let x := d.fport f
  match x.tx with
  | [] => d
  | e :: rest =>
    if !d.fed f 0 && !d.fportSink f 0 then d
    else
    let rd := bit e 10
    let byte : Byte := BitVec.ofNat 8 (fld e 0 8)
    let (how, got) := d.i2cWire f byte byteIn rd ended
    let d1 := (d.modFport f fun x => { x with tx := rest }).countTx f
    let d2 := if x.loop = some 0 then d1 else d1.emit (.i2cByte f (bit e 8) (if rd then none else some byte) (rd && bit e 11))
    match how, rd with
    | .arbLost, _ => d2.i2cAbandon f 0x040 (e :: rest) false
    | .nack, false => d2.i2cAbandon f 0x020 (e :: rest) true
    | _, _ =>
      let d3 := if rd then (d2.countRx f).pushRx f [got.setWidth 32] else d2
      let d4 := d3.modFport f fun x => { x with i2cHold := !bit e 9 }
      if bit e 9 && x.loop != some 0 then d4.emit (.i2cStop f) else d4

/-- A target answers an address: FPORT_ID_MATCH under FPORT_ID_MASK, or the general call, which is a write (R487, R496). -/
def FPort.answers (x : FPort) (a : BitVec 10) (ten readReq : Bool) : Bool :=
  let m : BitVec 10 := x.idMask.setWidth 10 &&& (if ten then 0x3FF else 0x7F)
  ((a &&& m) == (x.idMatch.setWidth 10 &&& m) && (!bit x.idMask 31 || bit x.idMatch 31 == ten)) ||
    (bit x.fmtUse 15 && !ten && a &&& 0x7F == 0 && !readReq)

/-- A target's byte, addressed: `readReq` with `first`, a read was addressed; `readReq` alone, it sends its next TX entry, until
a byte is not acknowledged; else it received a byte. No byte ends while SCL is stretched; the entry of an address that comes as
the RX FIFO is full waits there for room (R487). -/
def Dev.i2cTarget (d : Dev) (f : Nat) (byteIn : Byte) (ended : I2cEnd) (first readReq stopped : Bool) : Dev :=
  let x := d.fport f
  if readReq && !first then
    match x.tx with
    | [] => d
    | e :: rest =>
      ((d.modFport f fun x => { x with tx := rest, selected := !stopped && ended != .nack, reading := !stopped && ended != .nack }).countTx f).emit
        (.i2cByte f false (some (BitVec.ofNat 8 (fld e 0 8))) false)
  else
    let w := pack [((if readReq then 0 else byteIn.toNat), 0, 8), (b2n first, 8, 1), (b2n stopped, 9, 1), (b2n readReq, 10, 1)]
    let d1 := (d.modFport f fun x => { x with selected := !stopped, reading := readReq && !stopped }).countRx f
    if 256 ≤ x.rx.length then d1.modFport f fun x => { x with heldRx := some w } else d1.pushRx f [w]

/-- The target takes part in this byte: it answers the address of a first one, and has been addressed at any other. -/
def Dev.i2cAddressed (d : Dev) (f : Nat) (ended : I2cEnd) (first readReq : Bool) : Bool :=
  if first then (match ended with | .address a ten => (d.fport f).answers a ten readReq | _ => false) else (d.fport f).selected

/-- I2C_BYTE: a controller or target completes one byte. -/
def opI2cByte (f : Nat) (byteIn : Byte) (ended : I2cEnd) (first readReq stopped : Bool) (d : Dev) : Dev :=
  if !d.fportRuns f 2 then d
  else if bit (d.fport f).fmtUse 14 then
    if !d.fportHears f 2 || !d.fed f 0 || !d.fed f 1 || (d.fport f).stretches then d
    else if d.i2cAddressed f ended first readReq then (d.i2cTarget f byteIn ended first readReq stopped).refreshPins
    else if first then (d.modFport f fun x => { x with selected := false, reading := false }).refreshPins
    else d
  else (d.i2cController f byteIn ended).refreshPins

/-- I2C_STRETCH_TIMEOUT: the controller abandons the transfer as for NACK. -/
def opI2cStretchTimeout (f : Nat) (d : Dev) : Dev :=
  let x := d.fport f
  if !d.fportHears f 2 || bit x.fmtUse 14 || x.tx.isEmpty then d else (d.i2cAbandon f 0x080 x.tx true).refreshPins

/-! ### CAN FD (R488) -/

/-- Data bytes of a DLC. -/
def canLen (fd : Bool) (dlc : Nat) : Nat :=
  if dlc ≤ 8 then dlc else if !fd then 8 else ([12, 16, 20, 24, 32, 48, 64] : List Nat).getD (dlc - 9) 64

/-- Data words of a frame from its first two words. -/
def canWords (w0 w1 : Word) : Nat :=
  let fd := bit w0 30
  if !fd && bit w1 4 then 0 else ceilDiv (canLen fd (fld w1 0 4)) 4

/-- The bus state from the counters. -/
def FPort.busNow (x : FPort) : FPort := { x with bus := if 128 ≤ x.tecErr ∨ 128 ≤ x.recErr then 1 else 0 }

/-- The number of an error (assumption 84). -/
def lecOf : CanErr → BitVec 3
  | .stuff => 1 | .form => 2 | .ack => 3 | .bit1 => 4 | .bit0 => 5 | .crc => 6

/-- An error frame: CAN_ERR, the last error code and the counters of ISO 11898-1: a receiver counts 1, and 8 where a dominant
bit follows its error flag; a transmitter counts 8, but an error-passive one not for a missing acknowledge without it. -/
def Dev.canError (d : Dev) (f : Nat) (tx : Bool) (kind : CanErr) (dominantAfter : Bool) : Dev :=
  let d1 := d.modFport f fun x =>
    { x with
      lec := lecOf kind
      tecErr := if tx && !(kind == .ack && x.bus == 1 && !dominantAfter) then min 256 (x.tecErr + 8) else x.tecErr
      recErr := if tx then x.recErr else min 128 (x.recErr + 1 + (if dominantAfter then 8 else 0)) }
  (d1.modFport f FPort.busNow).fportErr f 0x100

/-- Bits [15:0] of the nanosecond count `age` × 2^−16 ns ago (R488, R513). -/
def TimeU.nsAgo (t : TimeU) (age : DWord) : Nat := ((t.now - age.toNat * 2 ^ 24) / 2 ^ 40 % 10 ^ 9).toNat % 65536

/-- The acceptance filter. -/
def FPort.accepts (x : FPort) (w0 : Word) : Bool :=
  let m := x.idMask &&& 0x1FFFFFFF
  (w0 &&& m) == (x.idMatch &&& m) && bit w0 29 == bit x.idMatch 29

/-- A frame is received: filtered, stamped with its start of frame, and stored whole. -/
def Dev.canTake (d : Dev) (f : Nat) (ws : List Word) (age : DWord) : Dev :=
  let w0 := ws.getD 0 0
  let w1 := ws.getD 1 0
  let stamp := d.time.nsAgo age
  let keep := if bit w0 30 then w1 &&& 0x2F else w1 &&& 0x1F
  let frame := [w0, setFld keep 16 16 stamp] ++ (List.range (canWords w0 w1)).map fun i => ws.getD (2 + i) 0
  let d1 := (d.countRx f).modFport f fun x =>
    FPort.busNow { x with lec := 0, recErr := if 127 < x.recErr then 127 else x.recErr - 1 }
  if (d.fport f).accepts w0 then d1.pushRx f frame else d1

/-- A recessive res bit: with PEX 1 the protocol exception of ISO 11898-1, after which the node integrates with the bus again;
otherwise an error frame (R488). -/
def Dev.canPex (d : Dev) (f : Nat) (tx : Bool) : Dev :=
  if bit (d.fport f).fmtUse 17 then (d.modFport f fun x => { x with integrating := true }).fportErr f 0x400
  else d.canError f tx .form false

/-- CAN_RX_FRAME: a frame on RXD. To a port that takes classical frames only, the FDF bit of an FD frame is a recessive res bit
(R488, R497; assumption 84). -/
def opCanRxFrame (f : Nat) (ws : List Word) (ended : CanEnd) (d : Dev) : Dev :=
  if !d.fportHears f 3 || !d.fed f 0 || (d.fport f).bus = 2 then d
  else if bit (d.fport f).fmtUse 19 && bit (ws.getD 0 0) 30 then d.canPex f false
  else match ended with
    | .sent age => d.canTake f ws age
    | .arbLost => d
    | .error kind dom => d.canError f false kind dom
    | .pex => d.canPex f false

/-- The TX FIFO holds a frame whole. -/
def FPort.wholeFrame (x : FPort) : Bool :=
  match x.tx with
  | w0 :: w1 :: rest => decide (canWords w0 w1 ≤ rest.length)
  | _ => false

/-- A CAN FD port may send: not under bus monitoring, bus integration or bus-off (R488, R490). -/
def FPort.maySend (x : FPort) : Bool := !bit x.fmtUse 16 && !x.integrating && x.bus != 2

/-- CAN_TX_FRAME: the frame at the head of the TX FIFO is sent, or kept for another try. In the core loop it is received as
acknowledged; at the pad it goes out on the balls as well (R491). A port that hears itself alone, through a looped pin bank, gets no
acknowledge (R492). -/
def opCanTxFrame (f : Nat) (ended : CanEnd) (d : Dev) : Dev :=
  let x := d.fport f
  match x.tx with
  | w0 :: w1 :: rest =>
    let n := canWords w0 w1
    if !d.fportRuns f 3 || !x.maySend || rest.length < n then d
    else
      let drop (d : Dev) : Dev := d.modFport f fun x => { x with tx := rest.drop n }
      let giveUp (d : Dev) : Dev := if bit x.fmtUse 18 then drop d else d
      if bit x.fmtUse 19 && bit w0 30 then drop d
      else
        let ws := [w0, w1] ++ rest.take n
        if x.loop = some 0 then ((drop d).countTx f).canTake f ws (match ended with | .sent age => age | _ => 0)
        else match (if d.ownLoop f 0 0 then .error .ack false else ended) with
          | .sent age =>
            let d1 := (((drop d).countTx f).modFport f fun x => FPort.busNow { x with lec := 0, tecErr := x.tecErr - 1 }).emit (.canFrame f ws)
            if x.loop.isSome then d1.canTake f ws age else d1
          | .arbLost => giveUp d
          | .error kind dom => (giveUp d).canError f true kind dom
          | .pex => (giveUp d).canPex f true
  | _ => d

/-- CAN_BUS_OFF (R488, R489). A RUNNING port goes IDLE; one in its near-end loop stays QUIESCED, which it leaves by LOOPBACK alone,
with its TX FIFO emptied (R481). -/
def opCanBusOff (f : Nat) (d : Dev) : Dev :=
  if !d.fportHears f 3 || (d.fport f).tecErr < 256 || (d.fport f).bus = 2 then d
  else
    let d1 := ((d.modFport f fun x => { x with bus := 2 }).fportErr f 0x200).event (uFport f) 0x02 0 0xFF
    (if d1.ust (uFport f) == .running then d1.fportToIdle f .device else d1.modFport f fun x => { x with tx := [] }).refreshPins

/-! ### Host and module access (R483, R475) -/

/-- FPORT_TXDATA: one entry is queued, or dropped. -/
def Dev.writeTxdata (d : Dev) (f : Nat) (v : Word) : Dev :=
  let x := d.fport f
  if x.bound.isSome then d.fportErr f 0x800
  else if 256 ≤ x.tx.length then d.fportErr f 0x002
  else (d.modFport f fun x => x.queueTx v).refreshPins

/-- FPORT_TXDATA_WRITE. -/
def opFportTxdataWrite (path : Path) (f : Nat) (v : Word) (d : Dev) : Dev :=
  d.filtered path (.fport f) 0x14 fun d => d.writeTxdata f v

/-- FPORT_RXDATA: the oldest entry is taken. -/
def Dev.readRxdata (d : Dev) (f : Nat) : Word × Dev :=
  let x := d.fport f
  if x.bound.isSome then (0, d.fportErr f 0x800)
  else (x.rx.headD 0, (d.modFport f FPort.popRx).refreshPins)

/-- BAR0 offset of a register of a field port. -/
def fportOff (f o : Nat) : Nat := 0x200000 + 0x100 * f + o

/-- FPORT_RXDATA_READ. -/
def opFportRxdataRead (path : Path) (f : Nat) (d : Dev) : Dev :=
  d.readThrough path (.fport f) 0x18 (fportOff f 0x18) fun d => d.readRxdata f

/-- FPORT_COUNT: a read returns and clears the counts. -/
def Dev.readFportCount (d : Dev) (f : Nat) : Word × Dev :=
  let x := d.fport f
  ((x.rxCount ++ x.txCount : BitVec 32), d.modFport f fun x => { x with txCount := 0, rxCount := 0 })

/-- FPORT_COUNT_READ. -/
def opFportCountRead (path : Path) (f : Nat) (d : Dev) : Dev :=
  d.readThrough path (.fport f) 0x34 (fportOff f 0x34) fun d => d.readFportCount f

/-- FIELD_CHANNEL_TX: a module delivers an entry into its bound port's FIFO while there is room. -/
def opFieldChannelTx (p c : Nat) (v : Word) (d : Dev) : Dev :=
  if !d.channelOpen p then d
  else match firstBelow 24 fun f => (d.fport f).bound.any fun b => b.2.1 == p && b.2.2 == c with
    | none => d
    | some f => if 256 ≤ (d.fport f).tx.length then d else (d.modFport f fun x => x.queueTx v).refreshPins

/-- FPORT_PARITY_FAULT (R481). -/
def opFportParityFault (f : Nat) (d : Dev) : Dev :=
  if d.ust (uFport f) != .idle && d.ust (uFport f) != .running then d else (d.fault (uFport f) stInternal 0).refreshPins

/-! ### Sleep, loopback -/

/-- CS_N selects an SPI target, its first byte sent or not (R486, R490). -/
def Dev.spiSelected (d : Dev) (f : Nat) : Bool :=
  d.fportRuns f 1 && (d.fport f).loop.isNone && bit (d.fport f).fmtUse 14 && !d.fportSink f 5

/-- A field port accepts the stop request (R490): nothing to send, nothing in progress, and no target that is selected. -/
def Dev.fportQuiet (d : Dev) (f : Nat) : Bool :=
  let x := d.fport f
  x.tx.isEmpty && !x.selected && x.csLow.isNone && !x.i2cHold && !d.spiSelected f

/-- A transfer is in progress (R497): what waits is on the line unless flow control, bus monitoring, bus integration or a part of the
frame that is missing holds it back, and a target's is the one it is addressed for. -/
def Dev.fportBusy (d : Dev) (f : Nat) : Bool :=
  let x := d.fport f
  let target := bit x.fmtUse 14
  (d.ust (uFport f) == .running || x.loop.isSome) &&
    (match x.kind.toNat with
     | 0 => x.sending (d.ctsHigh f)
     | 1 => if target then x.selected else !x.tx.isEmpty || x.csLow.isSome
     | 2 => if target then x.selected else !x.tx.isEmpty || x.i2cHold
     | _ => x.wholeFrame && x.maySend && !(bit x.fmtUse 19 && bit (x.tx.headD 0) 30))

/-- Some pin carries source 0 of a port (R491). -/
def Dev.carried (d : Dev) (f : Nat) : Bool := d.pins.pins.any fun e => pinSource e.2.sel == 0x100 + 8 * f

/-- A field port enters a loop at a depth (R491). -/
def Dev.fportLoop (d : Dev) (f depth : Nat) (c : Cause) : Dev :=
  let d1 := if d.ust (uFport f) == .idle then d.modFport f FPort.load else d
  ((d1.modFport f fun x => { x with loop := some depth }).setUnit (uFport f) .quiesced c).refreshPins

/-- It leaves its loop. -/
def Dev.fportUnloop (d : Dev) (f : Nat) (c : Cause) : Dev :=
  ((d.modFport f fun x => { x with loop := none }).fportToIdle f c).refreshPins

/-! ### Registers (R496, R497) -/

/-- FPORT_STATUS. -/
def Dev.fportStatus (d : Dev) (f : Nat) : Word :=
  let x := d.fport f
  let bus : Nat :=
    if x.bus = 2 then 2
    else if (d.ust (uFport f) == .idle && bit x.ctrl 4 && fld x.ctrl 0 2 == 3) || x.integrating then 3
    else if x.kind = 3 then x.bus.toNat
    else if x.kind = 2 ∧ (x.i2cHold ∨ x.selected ∨ (x.loop ≠ some 0 ∧ (!d.fportSink f 0 ∨ !d.fportSink f 1))) then 4 else 0
  pack [(x.tx.length, 0, 9), (b2n (d.fportBusy f), 9, 1), (b2n x.bound.isSome, 10, 1), (x.loop.getD 7, 11, 3), (x.rx.length, 16, 9), (bus, 25, 3)]

/-- A read of the FPORT block, FPORT_RXDATA and FPORT_COUNT apart. -/
def Dev.readFport (d : Dev) (f o : Nat) : Word :=
  let x := d.fport f
  match o with
  | 0x00 => x.ctrl
  | 0x04 => d.fportStatus f
  | 0x08 => x.err.setWidth 32
  | 0x0C => x.clk
  | 0x10 => x.fmt
  | 0x1C => x.fifo
  | 0x20 => x.nbt
  | 0x24 => x.dbt
  | 0x28 => pack [(min 255 x.tecErr, 0, 8), (min 127 x.recErr, 8, 7), (x.lec.toNat, 16, 3)]
  | 0x2C => x.idMatch
  | 0x30 => x.idMask
  | _ => 0

/-- A write of the FPORT block. -/
def Dev.writeFport (d : Dev) (f o : Nat) (v : Word) : Dev :=
  let put (g : FPort → FPort) : Dev := d.modFport f g
  match o with
  | 0x00 => (put fun x => { x with ctrl := v &&& 0x13 }).refreshPins
  | 0x08 => put fun x =>
    let left := w1c x.err (v.setWidth 12)
    { x with err := left, protoSeen := x.protoSeen && left != 0 }
  | 0x0C => put fun x => { x with clk := v }
  | 0x10 => put fun x => { x with fmt := v &&& 0xFFFFF }
  | 0x14 => d.writeTxdata f v
  | 0x1C => put fun x => { x with fifo := v &&& 0x1FF, above := x.above && decide (fld v 0 9 ≤ x.rx.length) }
  | 0x20 => put fun x => { x with nbt := v }
  | 0x24 => put fun x => { x with dbt := v &&& 0x07FFFFFF }
  | 0x2C => put fun x => { x with idMatch := v &&& 0xBFFFFFFF }
  | 0x30 => put fun x => { x with idMask := v &&& 0xBFFFFFFF }
  | _ => d

/-! ### The commands -/

/-- FPORT_START (R480). -/
def execFportStart (port : Nat) (s : State) : Res :=
  runCmd (.fportStart port) (opFportStart port) s

/-- UART_RX_CHARACTER (R485). -/
def execUartRxCharacter (port : Nat) (ch : BitVec 9) (parityBit stopBit stop2Bit : Bool) (s : State) : Res :=
  runCmd (.uartRxCharacter port ch parityBit stopBit stop2Bit) (opUartRxCharacter port ch parityBit stopBit stop2Bit) s

/-- UART_TX_CHARACTER (R485). -/
def execUartTxCharacter (port : Nat) (s : State) : Res :=
  runCmd (.uartTxCharacter port) (opUartTxCharacter port) s

/-- SPI_BYTE (R486). -/
def execSpiByte (port : Nat) (byteIn : Byte) (s : State) : Res :=
  runCmd (.spiByte port byteIn) (opSpiByte port byteIn) s

/-- SPI_CS_END (R486). -/
def execSpiCsEnd (port : Nat) (s : State) : Res :=
  runCmd (.spiCsEnd port) (opSpiCsEnd port) s

/-- I2C_BYTE (R487). -/
def execI2cByte (port : Nat) (byteIn : Byte) (ended : I2cEnd) (first : Bool) (readReq : Bool) (stopped : Bool) (s : State) : Res :=
  runCmd (.i2cByte port byteIn ended first readReq stopped) (opI2cByte port byteIn ended first readReq stopped) s

/-- I2C_STRETCH_TIMEOUT (R487). -/
def execI2cStretchTimeout (port : Nat) (s : State) : Res :=
  runCmd (.i2cStretchTimeout port) (opI2cStretchTimeout port) s

/-- CAN_RX_FRAME (R488). -/
def execCanRxFrame (port : Nat) (words : List Word) (ended : CanEnd) (s : State) : Res :=
  runCmd (.canRxFrame port words ended) (opCanRxFrame port words ended) s

/-- CAN_TX_FRAME (R488). -/
def execCanTxFrame (port : Nat) (ended : CanEnd) (s : State) : Res :=
  runCmd (.canTxFrame port ended) (opCanTxFrame port ended) s

/-- CAN_BUS_OFF (R488). -/
def execCanBusOff (port : Nat) (s : State) : Res :=
  runCmd (.canBusOff port) (opCanBusOff port) s

/-- FPORT_PARITY_FAULT (R481). -/
def execFportParityFault (port : Nat) (s : State) : Res :=
  runCmd (.fportParityFault port) (opFportParityFault port) s

/-- FPORT_TXDATA_WRITE (R483). -/
def execFportTxdataWrite (path : Path) (port : Nat) (value : Word) (s : State) : Res :=
  runCmd (.fportTxdataWrite path port value) (opFportTxdataWrite path port value) s

/-- FPORT_RXDATA_READ (R496). -/
def execFportRxdataRead (path : Path) (port : Nat) (s : State) : Res :=
  runCmd (.fportRxdataRead path port) (opFportRxdataRead path port) s

/-- FIELD_CHANNEL_TX (R475). -/
def execFieldChannelTx (pan : Nat) (channel : Nat) (value : Word) (s : State) : Res :=
  runCmd (.fieldChannelTx pan channel value) (opFieldChannelTx pan channel value) s

/-- FPORT_COUNT_READ (R496). -/
def execFportCountRead (path : Path) (port : Nat) (s : State) : Res :=
  runCmd (.fportCountRead path port) (opFportCountRead path port) s

end Sys2Proof.Machine
end

