-- ==== Sys2Proof/Machine/HostMem.lean ====
section
/-! DEFINITION. Reads of host memory as the engines ask for them (R369, R644), and the management path's buffer, which
stands for host memory in its descriptors (R598). -/

namespace Sys2Proof.Machine

/-- The maximum read request size set in Device Control, which R343 limits to 4,096 bytes (R347). -/
def HostPort.maxRead (h : HostPort) : Nat := min 4096 (128 * 2 ^ nfld h.conf.devCtl.toNat 12 3)

/-- The maximum payload size set in Device Control, which R343 limits to 512 bytes (R347). -/
def HostPort.maxPayload (h : HostPort) : Nat := min 512 (128 * 2 ^ nfld h.conf.devCtl.toNat 5 3)

/-- Bytes of one read request at `addr` when `len` are wanted: no request is longer than the size set, and none crosses a
4 KiB boundary (R347). -/
def HostPort.readSpan (h : HostPort) (addr len : Nat) : Nat := min (min h.maxRead len) (4096 - addr % 4096)

/-- Reads that have left the port and have not completed. -/
def HostPort.inFlight (h : HostPort) : Nat := (h.reads.filter fun r => r.2.any fun x => x.sent).length

/-- A further read may leave the port: fewer than 256 are outstanding, and its function may make requests (R343, R644). -/
def HostPort.mayAsk (h : HostPort) : Bool := decide (h.inFlight < 256) && h.conf.asks

/-- A port reads host memory: the request leaves at once where it may, else it waits (R343, R644). -/
def Dev.askHost (d : Dev) (p : Nat) (why : ReadWhy) (addr len : Nat) : Dev :=
  let h := d.hp p
  let a : DWord := BitVec.ofNat 64 addr
  let free := h.mayAsk
  let d1 := d.modHp p fun h =>
    { h with reads := h.reads.set none h.nextRead (some { why := why, addr := a, len := len, sent := free }), nextRead := h.nextRead + 1 }
  if free then d1.emit (.hostRead p h.nextRead a len) else d1

/-- The oldest read that waits leaves the port, where one may. -/
def Dev.askWaiting (d : Dev) (p : Nat) : Dev :=
  if !(d.hp p).mayAsk then d
  else match (d.hp p).reads.findSome? fun r => (r.2.filter fun x => !x.sent).map fun x => (r.1, x) with
  | none => d
  | some (r, x) =>
    (d.modHp p fun h => { h with reads := h.reads.set none r (some { x with sent := true }) }).emit (.hostRead p r x.addr x.len)

/-- Bytes of a management interface's buffer; none beyond its 4,096 bytes. -/
def Dev.bufBytes (d : Dev) (v : MgmtIf) (o n : Nat) : Option (List Byte) :=
  if o + n ≤ 4096 then some ((d.mg v).buf.getList 0 o n) else none

/-- Write bytes into the buffer. -/
def Dev.putBuf (d : Dev) (v : MgmtIf) (o : Nat) (bs : List Byte) : Dev := d.modMg v fun m => { m with buf := m.buf.setList 0 o bs }

/-- A range of a management descriptor exceeds the buffer (R598). -/
def badRange (iss : Issuer) (addr len : Nat) : Bool :=
  match iss with
  | .ring _ _ => false
  | _ => decide (4096 < addr + len)

/-- The descriptor's port has left RUNNING (R351). -/
def Dev.orphaned (d : Dev) (e : Nat) : Bool := (d.exec e).any fun x => x.orphan

/-- The device asks for `len` bytes at `addr` for an image of descriptor `e`: a host port reads a piece; a management
interface has the bytes at hand. `fail`: the port is lost. -/
def Dev.askBytes (d : Dev) (e : Nat) (iss : Issuer) (why : ReadWhy) (addr len : Nat) (now : Dev → List Byte → Dev) (fail : Dev → Dev) : Dev :=
  match iss with
  | .ring p _ => if d.orphaned e then fail d else d.askHost p why addr ((d.hp p).readSpan addr len)
  | .smbus => now d ((d.bufBytes .smbus addr len).getD [])
  | .jtag => now d ((d.bufBytes .jtag addr len).getD [])

/-! ### Writing host memory (R347) -/

/-- Cut a range into pieces of at most `m` bytes that cross no 4 KiB boundary. -/
def pieces (m addr len : Nat) : Nat → List (Nat × Nat)
  | 0 => []
  | k + 1 =>
    if len = 0 then []
    else
      let n := min (min m len) (4096 - addr % 4096)
      (addr, n) :: pieces m (addr + n) (len - n) k

/-- COPY data carries Relaxed Ordering when RO_DATA is 1 and Device Control enables it (R347, R379). -/
def Dev.relaxed (d : Dev) (e p : Nat) : Bool :=
  ((d.exec e).any fun x => x.opcode == 0x10) && bit (d.hp p).ctrl 3 && (d.hp p).conf.devCtl.getLsbD 4

/-- A descriptor's data reaches host memory as posted writes, or the buffer of a management interface (R347, R598). The
data writes of an orphan are discarded and counted (R351). -/
def Dev.putHostData (d : Dev) (e : Nat) (iss : Issuer) (addr : Nat) (bs : List Byte) : Dev :=
  match iss with
  | .ring p _ =>
    let writes := pieces (d.hp p).maxPayload addr bs.length (bs.length + 1)
    if d.orphaned e then d.modHp p fun h => { h with lostCpl := satAdd h.lostCpl writes.length }
    else foldS (fun (d : Dev) (x : Nat × Nat) =>
      d.postHost p (BitVec.ofNat 64 x.1) (slice bs (x.1 - addr) x.2) (d.relaxed e p)) d writes
  | .smbus => d.putBuf .smbus addr bs
  | .jtag => d.putBuf .jtag addr bs

end Sys2Proof.Machine
end

