-- ==== Sys2Proof/Machine/Sha.lean ====
section
/-! DEFINITION. SHA-256 and SHA-384, HMAC-SHA-256 and the key ratchet of R183. -/

namespace Sys2Proof.Machine

/-- The primes below `n`, ascending. -/
def primesBelow (n : Nat) : List Nat :=
  (List.range n).filter fun p => decide (2 ≤ p) && (List.range p).all fun q => decide (q < 2) || p % q != 0

/-- The largest number of at most `bits` bits whose `k`-th power is at most `x`, found bit by bit from the top. -/
def rootFloor (k bits x : Nat) : Nat :=
  (List.range bits).foldl (fun r i => let s := r + 2 ^ (bits - 1 - i); if s ^ k ≤ x then s else r) 0

/-- The first `w` bits after the point of the `k`-th root of `x`: the numbers from which FIPS 180-4 takes its constants. -/
def rootFraction (w k x : Nat) : BitVec w := BitVec.ofNat w (rootFloor k (w + 5) (x * 2 ^ (w * k)))

/-- The round constants of a variant with `n` rounds: cube roots of the first `n` primes (FIPS 180-4). -/
def shaRounds (w n : Nat) : List (BitVec w) := ((primesBelow 410).take n).map (rootFraction w 3)

/-- SHA-256 round constants. -/
def sha256K : List (BitVec 32) := shaRounds 32 64

/-- SHA-512 round constants, which SHA-384 uses. -/
def sha512K : List (BitVec 64) := shaRounds 64 80

/-- The message padded to whole blocks of `blk` bytes with a length field of `lenBytes` bytes. -/
def shaPad (blk lenBytes : Nat) (m : List Byte) : List Byte :=
  let z := (blk - (m.length + 1 + lenBytes) % blk) % blk
  m ++ [0x80#8] ++ List.replicate z 0 ++ beBytes lenBytes (8 * m.length)

/-- Cut a list into pieces of `n`, `k` at most. -/
def chunks {α : Type} (n : Nat) : Nat → List α → List (List α)
  | 0, _ => []
  | _, [] => []
  | k + 1, l => l.take n :: chunks n k (l.drop n)

/-- The eight working words of a compression. -/
structure Sha (w : Nat) where
  a : BitVec w
  b : BitVec w
  c : BitVec w
  d : BitVec w
  e : BitVec w
  f : BitVec w
  g : BitVec w
  h : BitVec w
  deriving DecidableEq, Repr

/-- Rotation amounts of a SHA-2 variant. -/
structure ShaRot where
  s0 : Nat × Nat × Nat     -- message schedule: rotate, rotate, shift
  s1 : Nat × Nat × Nat
  t0 : Nat × Nat × Nat     -- rounds: three rotations
  t1 : Nat × Nat × Nat
  deriving DecidableEq, Repr

/-- SHA-256's amounts. -/
def rot256 : ShaRot := { s0 := (7, 18, 3), s1 := (17, 19, 10), t0 := (2, 13, 22), t1 := (6, 11, 25) }
/-- SHA-512's amounts. -/
def rot512 : ShaRot := { s0 := (1, 8, 7), s1 := (19, 61, 6), t0 := (28, 34, 39), t1 := (14, 18, 41) }

/-- Schedule mixing of a word. -/
def shaSmall {w : Nat} (r : Nat × Nat × Nat) (x : BitVec w) : BitVec w :=
  x.rotateRight r.1 ^^^ x.rotateRight r.2.1 ^^^ (x >>> r.2.2)
/-- Round mixing of a word. -/
def shaBig {w : Nat} (r : Nat × Nat × Nat) (x : BitVec w) : BitVec w :=
  x.rotateRight r.1 ^^^ x.rotateRight r.2.1 ^^^ x.rotateRight r.2.2

/-- One round: the window's first word is used, and the window gains its next word. -/
def shaRound {w : Nat} (r : ShaRot) (st : Sha w × List (BitVec w)) (k : BitVec w) : Sha w × List (BitVec w) :=
  let v := st.1
  let win := st.2
  let t1 := v.h + shaBig r.t1 v.e + ((v.e &&& v.f) ^^^ (~~~v.e &&& v.g)) + k + win.getD 0 0
  let t2 := shaBig r.t0 v.a + ((v.a &&& v.b) ^^^ (v.a &&& v.c) ^^^ (v.b &&& v.c))
  let nw := shaSmall r.s1 (win.getD 14 0) + win.getD 9 0 + shaSmall r.s0 (win.getD 1 0) + win.getD 0 0
  ({ a := t1 + t2, b := v.a, c := v.b, d := v.c, e := v.d + t1, f := v.e, g := v.f, h := v.g }, win.tail ++ [nw])

/-- Compress one block. -/
def shaBlock {w : Nat} (r : ShaRot) (ks : List (BitVec w)) (s : Sha w) (blk : List Byte) : Sha w :=
  let ws := (chunks (w / 8) 16 blk).map fun b => BitVec.ofNat w (ofBe b)
  let v := (ks.foldl (shaRound r) (s, ws)).1
  { a := s.a + v.a, b := s.b + v.b, c := s.c + v.c, d := s.d + v.d, e := s.e + v.e, f := s.f + v.f, g := s.g + v.g, h := s.h + v.h }

/-- The starting words of a variant: square roots of eight primes (FIPS 180-4). -/
def shaStart (w : Nat) (primes : List Nat) : Sha w :=
  let h (i : Nat) : BitVec w := rootFraction w 2 (primes.getD i 0)
  { a := h 0, b := h 1, c := h 2, d := h 3, e := h 4, f := h 5, g := h 6, h := h 7 }

/-- SHA-256 of bytes. It starts from the first eight primes. -/
def sha256 (m : List Byte) : List Byte :=
  let s := (chunks 64 (m.length / 64 + 2) (shaPad 64 8 m)).foldl (shaBlock rot256 sha256K)
    (shaStart 32 (primesBelow 20))
  [s.a, s.b, s.c, s.d, s.e, s.f, s.g, s.h].flatMap fun x => beBytes 4 x.toNat

/-- SHA-384 of bytes. It starts from the ninth to the sixteenth prime. -/
def sha384 (m : List Byte) : List Byte :=
  let s := (chunks 128 (m.length / 128 + 2) (shaPad 128 16 m)).foldl (shaBlock rot512 sha512K)
    (shaStart 64 ((primesBelow 54).drop 8))
  [s.a, s.b, s.c, s.d, s.e, s.f].flatMap fun x => beBytes 8 x.toNat

/-- HMAC-SHA-256. -/
def hmac256 (key m : List Byte) : List Byte :=
  let k0 := if key.length > 64 then sha256 key else key
  let k := k0 ++ List.replicate (64 - k0.length) 0
  sha256 (k.map (· ^^^ 0x5C) ++ sha256 (k.map (· ^^^ 0x36) ++ m))

/-- The label of R183, "HELOP STREAM EPOCH" in ASCII. -/
def kdfLabel : List Byte :=
  [0x48, 0x45, 0x4C, 0x4F, 0x50, 0x20, 0x53, 0x54, 0x52, 0x45, 0x41, 0x4D, 0x20, 0x45, 0x50, 0x4F, 0x43, 0x48]

/-- The key of epoch `e` from the key before it (R183). -/
def kdf (key nonce : List Byte) (e : Nat) : List Byte :=
  hmac256 key ([0, 0, 0, 1] ++ kdfLabel ++ [0] ++ nonce ++ beBytes 4 e ++ [0, 0, 1, 0])

end Sys2Proof.Machine
end

