-- ==== Sys2Proof/Machine/Aes.lean ====
section
/-! DEFINITION. AES-256-GCM (R183, R184), by FIPS 197 and SP 800-38D. -/

namespace Sys2Proof.Machine

/-- Multiply by x in GF(2^8). -/
def xtime (b : Byte) : Byte := if b.getLsbD 7 then (b <<< 1) ^^^ 0x1B else b <<< 1

/-- Product in GF(2^8). -/
def gmul8 (a b : Byte) : Byte :=
  ((List.range 8).foldl (fun (s : Byte × Byte) i => (if b.getLsbD i then s.1 ^^^ s.2 else s.1, xtime s.2)) (0, a)).1

/-- Inverse in GF(2^8): the 254th power. -/
def ginv8 (a : Byte) : Byte :=
  let a2 := gmul8 a a
  let a4 := gmul8 a2 a2
  let a8 := gmul8 a4 a4
  let a16 := gmul8 a8 a8
  let a32 := gmul8 a16 a16
  let a64 := gmul8 a32 a32
  gmul8 (gmul8 (gmul8 a2 a4) (gmul8 a8 a16)) (gmul8 (gmul8 a32 a64) (gmul8 a64 a64))

/-- The S-box. -/
def sbox (b : Byte) : Byte :=
  let i := ginv8 b
  i ^^^ i.rotateLeft 1 ^^^ i.rotateLeft 2 ^^^ i.rotateLeft 3 ^^^ i.rotateLeft 4 ^^^ 0x63

/-- Expand a 256-bit key: `n` further words, given the last eight (oldest first), the index and the round constant. -/
def aesExpand : Nat → Nat → Byte → List (List Byte) → List (List Byte)
  | 0, _, _, _ => []
  | n + 1, i, rc, w =>
    let t := w.getD 7 []
    let u :=
      if i % 8 = 0 then
        match (t.drop 1 ++ t.take 1).map sbox with
        | x :: xs => (x ^^^ rc) :: xs
        | [] => []
      else if i % 8 = 4 then t.map sbox
      else t
    let nw := List.zipWith (· ^^^ ·) (w.getD 0 []) u
    nw :: aesExpand n (i + 1) (if i % 8 = 0 then xtime rc else rc) (w.tail ++ [nw])

/-- The fifteen round keys, 16 bytes each. -/
def aesKeys (key : List Byte) : List (List Byte) :=
  let w := chunks 4 8 key
  (chunks 4 15 (w ++ aesExpand 52 8 1 w)).map fun l => l.flatten

/-- ShiftRows on the 16 state bytes in column order. -/
def shiftRows (s : List Byte) : List Byte :=
  (List.range 16).map fun i => s.getD ((i + 4 * (i % 4)) % 16) 0

/-- MixColumns on one column. -/
def mixColumn : List Byte → List Byte
  | [a, b, c, d] =>
    [xtime a ^^^ (xtime b ^^^ b) ^^^ c ^^^ d, a ^^^ xtime b ^^^ (xtime c ^^^ c) ^^^ d,
     a ^^^ b ^^^ xtime c ^^^ (xtime d ^^^ d), (xtime a ^^^ a) ^^^ b ^^^ c ^^^ xtime d]
  | l => l

/-- Encrypt one block under expanded keys. -/
def aesBlock (ks : List (List Byte)) (blk : List Byte) : List Byte :=
  match ks with
  | [] => blk
  | k0 :: rest =>
    let s0 := List.zipWith (· ^^^ ·) blk k0
    let mid := rest.dropLast.foldl (fun s k =>
      List.zipWith (· ^^^ ·) (((chunks 4 4 (shiftRows (s.map sbox))).map mixColumn).flatten) k) s0
    List.zipWith (· ^^^ ·) (shiftRows (mid.map sbox)) (rest.getLastD [])

/-- Product in GF(2^128) with GCM's bit order: bit 127 of the vector is the first bit. -/
def ghashMul (x y : BitVec 128) : BitVec 128 :=
  ((List.range 128).foldl (fun (s : BitVec 128 × BitVec 128) i =>
    (if x.getLsbD (127 - i) then s.1 ^^^ s.2 else s.1,
     if s.2.getLsbD 0 then (s.2 >>> 1) ^^^ 0xE1000000000000000000000000000000#128 else s.2 >>> 1)) (0, y)).1

/-- Pad with zeros to whole blocks. -/
def pad16 (l : List Byte) : List Byte := l ++ List.replicate ((16 - l.length % 16) % 16) 0

/-- GHASH of additional data and ciphertext. -/
def ghash (h : BitVec 128) (aad ct : List Byte) : BitVec 128 :=
  let m := pad16 aad ++ pad16 ct ++ beBytes 8 (8 * aad.length) ++ beBytes 8 (8 * ct.length)
  (chunks 16 (m.length / 16 + 1) m).foldl (fun y b => ghashMul (y ^^^ BitVec.ofNat 128 (ofBe b)) h) 0

/-- Key stream applied to data, counter from `ctr`. -/
def gcmCtr (ks : List (List Byte)) (nonce : List Byte) : Nat → List (List Byte) → List Byte
  | _, [] => []
  | ctr, b :: bs => List.zipWith (· ^^^ ·) b (aesBlock ks (nonce ++ beBytes 4 ctr)) ++ gcmCtr ks nonce (ctr + 1) bs

/-- Decrypt without the check of the tag. -/
def gcmDecrypt (key nonce ct : List Byte) : List Byte :=
  gcmCtr (aesKeys key) nonce 2 (chunks 16 (ct.length / 16 + 1) ct)

/-- The tag of ciphertext and additional data (R184). -/
def gcmTag (key nonce aad ct : List Byte) : List Byte :=
  let ks := aesKeys key
  let h := BitVec.ofNat 128 (ofBe (aesBlock ks (List.replicate 16 0)))
  List.zipWith (· ^^^ ·) (beBytes 16 (ghash h aad ct).toNat) (aesBlock ks (nonce ++ [0, 0, 0, 1]))

end Sys2Proof.Machine
end

