-- ==== Sys2Proof/Machine/Fuses.lean ====
section
/-! DEFINITION. Fuses, key slots, locks, the rollback counter and partitions (chapter "Fuses, Partitions and Stream
Security"), with the start of the fuse commands of R599; what their bits do stands in Manage.lean. -/

namespace Sys2Proof.Machine

/-! ### Slots, locks and the counter -/

/-- N part (R574, R588). -/
def Dev.encDisabled (d : Dev) : Bool := d.mirrorBit 64

/-- A flag of a slot control word as sensed: any of its three copies (R572). -/
def slotFlag (w : Word) (k : Nat) : Bool := bit w k || bit w (k + 8) || bit w (k + 16)

/-- The 32 key bytes of slot `s` as sensed (R570). -/
def Dev.slotKey (d : Dev) (s : Nat) : List Byte := wordsBytes (d.fuse.sensedKeys.getList 0 (16 + 8 * s) 8)

/-- State of slot `s`: 0 BLANK, 1 VALID, 2 REVOKED, 3 BAD (R572). A FAULTED device unit and an N part read BLANK. -/
def Dev.slotState (d : Dev) (s : Nat) : Nat :=
  let w := d.fuse.sensedKeys.get 0 (88 + s)
  if d.ust 0 == .faulted || d.encDisabled then 0
  else if slotFlag (d.mirrorWord (88 + s)) 3 then 2
  else if !slotFlag w 0 then 0
  else if (sha256 (d.slotKey s)).take 4 == leBytes 4 (d.fuse.sensedKeys.get 0 (80 + s)).toNat then 1
  else 3

/-- Slot `s` has DEVICE set. -/
def Dev.slotDevice (d : Dev) (s : Nat) : Bool := slotFlag (d.fuse.sensedKeys.get 0 (88 + s)) 1
/-- Slot `s` has MODULE set. -/
def Dev.slotModule (d : Dev) (s : Nat) : Bool := slotFlag (d.fuse.sensedKeys.get 0 (88 + s)) 2

/-- The slot of a module image is usable (R574). -/
def Dev.moduleSlotOk (d : Dev) (s : Nat) : Bool :=
  if s = 0xFF then !d.locked 0 else decide (s < 8) && d.slotState s == 1 && d.slotModule s

/-- The slot of a device stream is usable; none: no KEY record (R574). An N part accepts unencrypted streams, as R2 and the text
of R574 say; the row of R574's table that would refuse every stream on an N part is not followed (assumption 79). -/
def Dev.deviceSlotOk (d : Dev) : Option Nat → Bool
  | some s => decide (s < 8) && d.slotState s == 1 && d.slotDevice s
  | none => !d.locked 0

/-- Set bits of a word. -/
def popcount (w : Word) : Nat := (List.range 32).countP fun i => bit w i

/-- The rollback counter: programmed fuses of words 96–223 (R578). -/
def Dev.rollback (d : Dev) : Nat :=
  ((d.fuse.mirror.keep fun k => decide (96 ≤ k) && decide (k ≤ 223)).map fun e => popcount e.2).sum

/-- A version is below the counter (R578). -/
def Dev.belowRollback (d : Dev) (v : Nat) : Bool := decide (v < d.rollback)

/-- FUSE_LOCK's value (R587). -/
def Dev.lockWord (d : Dev) : Word := pack ((List.range 11).map fun n => (b2n (d.locked n), n, 1))

/-- FUSE_KEY_STATE (R588). -/
def Dev.keyStateWord (d : Dev) : Word :=
  pack ((List.range 8).flatMap fun s =>
    [(d.slotState s, 4 * s, 2), (b2n (d.slotDevice s), 4 * s + 2, 1), (b2n (d.slotModule s), 4 * s + 3, 1)])

/-! ### Partitions (R580–R583) -/

/-- The partition a template of 14 words gives (R580, R581); the own owner's VAULT bit always counts as set. -/
def partitionOf (t : Nat) (w : Nat → Word) : Partition :=
  if !bit (w 13) 31 then openPartition
  else
    { pans := (w 1 ++ w 0 : BitVec 64), banks := (w 5 ++ w 4 ++ w 3 ++ w 2 : BitVec 128)
      links := (w 8 ++ w 7 ++ w 6 : BitVec 96), fports := (w 9).setWidth 24, pinBanks := (w 10).setWidth 16
      grants := BitVec.ofNat 16 (fld (w 10) 16 16) ||| BitVec.ofNat 16 (2 ^ (3 + t))
      tagLo := BitVec.ofNat 16 (fld (w 11) 0 16), tagHi := BitVec.ofNat 16 (fld (w 11) 16 16)
      handleLo := BitVec.ofNat 16 (fld (w 12) 0 16), handleHi := BitVec.ofNat 16 (fld (w 12) 16 16)
      regs := (w 13).setWidth 13 }

/-- Load every partition from its fused template (R584). -/
def Dev.loadPartitions (d : Dev) : Dev :=
  { d with fuse := { d.fuse with
    parts := foldS (fun t i => t.set openPartition i (partitionOf i fun k => d.mirrorWord (256 + 32 * i + k))) d.fuse.parts [0, 1, 2, 3, 4] } }

/-- Word `k` of a partition in force, as a template word (R589). -/
def Partition.word (p : Partition) (k : Nat) : Word :=
  match k with
  | 0 => p.pans.setWidth 32
  | 1 => (p.pans >>> 32).setWidth 32
  | 2 => p.banks.setWidth 32
  | 3 => (p.banks >>> 32).setWidth 32
  | 4 => (p.banks >>> 64).setWidth 32
  | 5 => (p.banks >>> 96).setWidth 32
  | 6 => p.links.setWidth 32
  | 7 => (p.links >>> 32).setWidth 32
  | 8 => (p.links >>> 64).setWidth 32
  | 9 => p.fports.setWidth 32
  | 10 => (p.grants ++ p.pinBanks : BitVec 32)
  | 11 => (p.tagHi ++ p.tagLo : BitVec 32)
  | 12 => (p.handleHi ++ p.handleLo : BitVec 32)
  | 13 => p.regs.setWidth 32 ||| 0x80000000
  | _ => 0

/-- FUSE_PART_DATA for a reader's query (R589). -/
def Dev.partData (d : Dev) (rd : Nat) (q : Word) : Word :=
  let t := fld q 0 3
  let k := fld q 8 5
  if t > 4 ∨ k > 13 ∨ (rd ≠ 4 ∧ t ≠ rd) then 0
  else if bit q 3 then d.mirrorWord (256 + 32 * t + k)
  else (d.part t).word k

/-- Members counted in HOST_PART (R383). -/
def countBits {n : Nat} (b : BitVec n) : Nat := (List.range n).countP fun i => b.getLsbD i

/-- Is the pan reserved by an operation of the Rake or by a readback (R211, R601)? -/
def Op.names (o : Op) (p : Nat) : Bool := o.dsts.contains p || o.srcs.contains p

/-- The operation that reserves pan `p`. -/
def Dev.opOf (d : Dev) (p : Nat) : Option (Nat × Op) :=
  d.rake.ops.findSome? fun e => e.2.bind fun o => if o.names p then some (e.1, o) else none

/-- A readback holds pan `p` (R601). -/
def Dev.rdbkHolds (d : Dev) (p : Nat) : Bool :=
  [MgmtIf.smbus, MgmtIf.jtag].any fun v => (d.mg v).rdbk.any fun r => r.pan == some p

/-- Pan `p` is reserved (R211). -/
def Dev.reserved (d : Dev) (p : Nat) : Bool := (d.opOf p).isSome || d.rdbkHolds p

/-- A command that names the pan is BUSY: the pan is reserved, or the management path waits to stop it. -/
def Dev.busyPan (d : Dev) (p : Nat) : Bool := d.reserved p || (d.pan p).stopPend.isSome

/-- Pan `p` holds a pre-stage or takes one (R232). -/
def Dev.prestaged (d : Dev) (p : Nat) : Bool :=
  let w := d.rake.windrow.get {} p
  w.valid || w.writing

/-- Pan `p` is RUNNING with nothing over it... the class states IDLE and OFF (R584). -/
def idleOrOff (s : UState) : Bool := s == .idle || s == .off

/-- A partition without one element of its template, or none where the write is refused (R584, R589). -/
def Dev.narrowed (d : Dev) (rd : Nat) (v : Word) : Option (Nat × Partition) :=
  let t := fld v 0 3
  let k := fld v 4 3
  let i := fld v 8 8
  let p := d.part t
  if bit v 3 || bit v 7 || fld v 16 16 != 0 || decide (t > 4) || (rd != 4 && t != rd) then none
  else match k with
  | 0 =>
    if i < 64 ∧ d.ust (uPan i) = .idle ∧ !d.reserved i ∧ !d.prestaged i then
      some (t, { p with pans := p.pans &&& ~~~(BitVec.ofNat 64 (2 ^ i)) }) else none
  | 1 =>
    if i < 128 ∧ (d.bank i).alloc = [] then
      some (t, { p with banks := p.banks &&& ~~~(BitVec.ofNat 128 (2 ^ i)) }) else none
  | 2 =>
    if i < 96 ∧ idleOrOff (d.ust (uLink i)) ∧ (d.link i).bound = none then
      some (t, { p with links := p.links &&& ~~~(BitVec.ofNat 96 (2 ^ i)) }) else none
  | 3 =>
    if i < 24 ∧ idleOrOff (d.ust (uFport i)) ∧ (d.fport i).bound = none then
      some (t, { p with fports := p.fports &&& ~~~(BitVec.ofNat 24 (2 ^ i)) }) else none
  | 4 =>
    if i < 16 ∧ (List.range 48).all (fun j => let s := (d.pin (48 * i + j)).sel
        fld s 0 12 == 2 && !bit s 24) then
      some (t, { p with pinBanks := p.pinBanks &&& ~~~(BitVec.ofNat 16 (2 ^ i)) }) else none
  | 5 =>
    if 16 ≤ i ∧ i < 32 then
      some (t, { p with grants := (p.grants &&& ~~~(BitVec.ofNat 16 (2 ^ (i - 16)))) ||| BitVec.ofNat 16 (2 ^ (3 + t)) }) else none
  | 6 => if i < 13 then some (t, { p with regs := p.regs &&& ~~~(BitVec.ofNat 13 (2 ^ i)) }) else none
  | _ => none

/-- The narrowed partition: NARROWED tells that it has lost something (R588). -/
def Dev.narrow (d : Dev) (rd : Nat) (v : Word) : Option (Nat × Partition) :=
  (d.narrowed rd v).map fun x => (x.1, { x.2 with narrowed := (d.part x.1).narrowed || x.2 != d.part x.1 })

/-- A write of FUSE_NARROW (R584). -/
def Dev.writeNarrow (d : Dev) (rd : Nat) (v : Word) : Dev :=
  match d.narrow rd v with
  | some (t, p) => { d with fuse := { d.fuse with parts := d.fuse.parts.set openPartition t p } }
  | none => { d with fuse := { d.fuse with narrowErr := true } }

/-- FUSE_NARROW through a path. -/
def opFuseNarrow (path : Path) (v : Word) (d : Dev) : Dev :=
  d.filtered path .fuse 0x2C fun d => d.writeNarrow path.reader v

/-! ### The registers of the FUSE block (R587, R588) -/

/-- A mirror word as it is given out: the trims read as 0, and key material is never returned (R570, R571, R592). -/
def Dev.answerWord (d : Dev) (w : Nat) : Word := if 3 ≤ w ∧ w ≤ 7 ∨ 16 ≤ w ∧ w ≤ 79 then 0 else d.mirrorWord w

/-- FUSE_STATUS for a reader. -/
def Dev.fuseStatus (d : Dev) (rd : Nat) : Word :=
  pack [(b2n d.fuse.sensed, 0, 1), (b2n ((List.range 8).any fun s => d.slotState s == 3), 1, 1), (b2n d.fuse.narrowErr, 2, 1),
    (b2n (d.part rd).narrowed, 3, 1)]

/-- A read of the FUSE block; `sel` gives the reader's selection registers. -/
def Dev.readFuse (d : Dev) (rd : Nat) (sel : Nat → Word) (o : Nat) : Word :=
  match o with
  | 0x00 => d.fuseStatus rd
  | 0x04 => d.mirrorWord 2 &&& 0xF
  | 0x08 => d.mirrorWord 0
  | 0x0C => d.mirrorWord 1
  | 0x10 => d.lockWord
  | 0x14 => BitVec.ofNat 32 d.rollback
  | 0x18 => d.keyStateWord
  | 0x1C => sel 0x1C
  | 0x20 => d.answerWord (fld (sel 0x1C) 0 9)
  | 0x24 => sel 0x24
  | 0x28 => d.partData rd (sel 0x24)
  | _ => 0

/-! ### Fuse commands (R573–R578, R599, R617) -/

/-- The management interfaces no longer carry fuse commands (R576). -/
def Dev.fuseClosed (d : Dev) : Bool := (d.locked 6 || d.locked 7) && (d.locked 4 || d.locked 5)

/-- Bits of a slot control word's flag copies. -/
def slotFlags : Nat := 0x000F0F0F
/-- The copies of REVOKED. -/
def revokedBits : Nat := 0x00080808

/-- Bits of word `w` that FUSE_PROGRAM reaches (R599). -/
def reachBits (w : Nat) : Nat :=
  if 16 ≤ w ∧ w ≤ 87 then 0xFFFFFFFF
  else if 88 ≤ w ∧ w ≤ 95 then slotFlags
  else if 224 ≤ w ∧ w ≤ 232 then 0xFFFFFFFF
  else if 256 ≤ w ∧ w ≤ 415 then
    (match (w - 256) % 32 with
     | 9 => 0x00FFFFFF
     | 13 => 0x80001FFF
     | k => if k ≤ 12 then 0xFFFFFFFF else 0)
  else if 416 ≤ w ∧ w ≤ 511 then 0xFFFFFFFF
  else 0

/-- Slot a key word belongs to. -/
def slotOfWord (w : Nat) : Option Nat :=
  if 16 ≤ w ∧ w ≤ 79 then some ((w - 16) / 8)
  else if 80 ≤ w ∧ w ≤ 87 then some (w - 80)
  else if 88 ≤ w ∧ w ≤ 95 then some (w - 88)
  else none

/-- A FUSE_PROGRAM is refused (R573, R575, R576, R599, R617). -/
def Dev.programRefused (d : Dev) (w mask : Nat) : Bool :=
  let key := (slotOfWord w).isSome
  let onlyRevoked := decide (88 ≤ w ∧ w ≤ 95) && mask &&& (0xFFFFFFFF - revokedBits) == 0
  d.ust 0 == .faulted || d.fuseClosed || !d.fuse.condOk || mask &&& (0xFFFFFFFF - reachBits w) != 0 ||
    (key && d.encDisabled) ||
    (key && !onlyRevoked && (d.locked 1 || (slotOfWord w).any fun s => slotFlag (d.mirrorWord (88 + s)) 0)) ||
    (decide (256 ≤ w ∧ w ≤ 415) && d.locked 2) || (decide (224 ≤ w ∧ w ≤ 232) && d.locked 9) ||
    (d.locked 10 && !onlyRevoked)

/-- A FUSE_LOCK is refused (R575, R576, R617). -/
def Dev.lockRefused (d : Dev) (n : Nat) : Bool :=
  d.ust 0 == .faulted || d.fuseClosed || !d.fuse.condOk || decide (n > 10) ||
    (n == 0 && (d.encDisabled || !((List.range 8).any fun s => d.slotState s == 1 && d.slotDevice s)))

/-- A FUSE_ROLLBACK is refused (R578, R599, R617). -/
def Dev.rollbackRefused (d : Dev) (v : Nat) : Bool :=
  d.ust 0 == .faulted || d.fuseClosed || !d.fuse.condOk || decide (v ≤ d.rollback) || decide (v > 4096) || decide (v > d.rollback + 256)

/-- The response of a fuse command (R592): its interface takes the next command. One that has abandoned the transaction gets
none (R590). -/
def Dev.fuseResponse (d : Dev) (j : FuseJob) (status : Nat) : Dev :=
  if j.silent then d
  else (d.modMg j.via fun m => { m with wait := none }).lateReply j.via (BitVec.ofNat 8 status ::
    (if j.op = 0 then leBytes 4 (d.answerWord j.word).toNat else if j.op = 2 then leBytes 2 d.rollback else []))

/-- The fuses a command programs, in order, or none where it is refused. -/
def Dev.fuseTargets (d : Dev) (j : FuseJob) : Option (List Nat) :=
  match j.op with
  | 0 =>
    if d.programRefused j.word j.arg then none
    else some (((List.range 32).filter fun i => j.arg.testBit i).map fun i => 32 * j.word + i)
  | 1 => if d.lockRefused j.arg then none else some [256 + 3 * j.arg, 256 + 3 * j.arg + 1, 256 + 3 * j.arg + 2]
  | _ =>
    if d.rollbackRefused j.arg then none
    else some ((List.range (j.arg - d.rollback)).map fun i => 3072 + d.rollback + i)

/-- Let the oldest command start: a refused one answers, and the next is tried (R577). -/
def Dev.fuseStart (d : Dev) : Nat → Dev
  | 0 => d
  | n + 1 =>
    match d.fuse.jobs with
    | [] => d
    | j :: rest =>
      if j.started then d
      else match d.fuseTargets j with
        | none => (({ d with fuse := { d.fuse with jobs := rest } }).fuseResponse j stRefused).fuseStart n
        | some [] => (({ d with fuse := { d.fuse with jobs := rest } }).fuseResponse j stDone).fuseStart n
        | some l =>
          if d.pfw.asserted || d.cfg.pfwStops then (({ d with fuse := { d.fuse with jobs := rest } }).fuseResponse j stTimeout).fuseStart n
          else { d with fuse := { d.fuse with jobs := { j with left := l, started := true } :: rest } }

/-- A fuse command arrives: its interface waits for the response (R592). -/
def Dev.fuseCommand (d : Dev) (j : FuseJob) : Dev :=
  (({ d with fuse := { d.fuse with jobs := d.fuse.jobs ++ [j] } }).modMg j.via fun m => { m with wait := some .fuse }).fuseStart
    (d.fuse.jobs.length + 1)

/-- Program one fuse: the fuse and its mirror bit become 1 (R570, R571). -/
def Dev.setFuse (d : Dev) (f : Nat) : Dev :=
  let one (w : Word) : Word := w ||| BitVec.ofNat 32 (2 ^ (f % 32))
  { d with
    fuses := d.fuses.modify 0 (f / 32) one
    fuse := { d.fuse with mirror := d.fuse.mirror.modify 0 (f / 32) one } }

/-! ### The fuse commands (R592, R599) -/

/-- FUSE_PROGRAM (R599). -/
def opFuseProgram (via : MgmtIf) (word : BitVec 16) (mask : Word) (d : Dev) : Dev :=
  d.carry via false fun d =>
    d.fuseCommand { via := via, op := 0, word := word.toNat, arg := mask.toNat, left := [], started := false }

/-- FUSE_LOCK (R575, R577). -/
def opFuseLock (via : MgmtIf) (lock : Byte) (d : Dev) : Dev :=
  d.carry via false fun d => d.fuseCommand { via := via, op := 1, word := 0, arg := lock.toNat, left := [], started := false }

/-- FUSE_ROLLBACK (R578). -/
def opFuseRollback (via : MgmtIf) (value : BitVec 16) (d : Dev) : Dev :=
  d.carry via false fun d => d.fuseCommand { via := via, op := 2, word := 0, arg := value.toNat, left := [], started := false }

/-! ### The commands -/

/-- FUSE_NARROW (R584). -/
def execFuseNarrow (path : Path) (value : Word) (s : State) : Res :=
  runCmd (.fuseNarrow path value) (opFuseNarrow path value) s

/-- FUSE_PROGRAM (R599). -/
def execFuseProgram (via : MgmtIf) (word : BitVec 16) (mask : Word) (s : State) : Res :=
  runCmd (.fuseProgram via word mask) (opFuseProgram via word mask) s

/-- FUSE_LOCK (R577). -/
def execFuseLock (via : MgmtIf) (lock : Byte) (s : State) : Res :=
  runCmd (.fuseLock via lock) (opFuseLock via lock) s

/-- FUSE_ROLLBACK (R578). -/
def execFuseRollback (via : MgmtIf) (value : BitVec 16) (s : State) : Res :=
  runCmd (.fuseRollback via value) (opFuseRollback via value) s

end Sys2Proof.Machine
end

