-- ==== Sys2Proof/Machine/Planes.lean ====
section
/-! DEFINITION. Planes and commit records (chapter "Non-Volatile Planes, Commit and the Store"): record slots, acceptance
and selection, the writes of a commit, the switch to a new plane, golden signatures, margin and wear. Unit 64 stands for
the global area. -/

namespace Sys2Proof.Machine

/-- The global area among the units that hold planes. -/
def uGlobal : Nat := 64

/-- VALID of a record, a header, a catalogue half, a save and a log record (R123, R148, R150, R155, R158). -/
def validMark : Word := 0x5AC33CA5

/-- SETTLED of a record (R123). -/
def settledMark : Word := 0xC35AA53C

/-! ### Records (R123–R126) -/

/-- Slot A (0) or B (1). -/
def NvUnit.slot (u : NvUnit) (k : Nat) : CommitRec := if k = 0 then u.recA else u.recB

/-- Replace a slot. -/
def NvUnit.setSlot (u : NvUnit) (k : Nat) (r : CommitRec) : NvUnit := if k = 0 then { u with recA := r } else { u with recB := r }

/-- RCHECK over W0–W6. -/
def CommitRec.check (r : CommitRec) : Word :=
  crc32c (wordsBytes [r.seq, r.module, r.digest.setWidth 32, (r.digest >>> 32).setWidth 32, r.sig.setWidth 32,
    (r.sig >>> 32).setWidth 32, r.link])

/-- ROOT_KIND of a record. -/
def CommitRec.kind (r : CommitRec) : Nat := fld r.link 6 2

/-- EMPTY of a record. -/
def CommitRec.empty (r : CommitRec) : Bool := bit r.link 16

/-- A record is well-formed (R125). -/
def CommitRec.wellFormed (r : CommitRec) : Bool := r.valid == validMark && r.rcheck == r.check && r.kind != 3

/-- The unit whose slots hold a linked record's root (R124). -/
def CommitRec.root (r : CommitRec) : Option Nat :=
  match r.kind with
  | 1 => some (fld r.link 0 6)
  | 2 => some uGlobal
  | _ => none

/-- Either slot of a unit holds a well-formed record with SEQ `s`. -/
def NvUnit.hasSeq (u : NvUnit) (s : Word) : Bool :=
  (u.recA.wellFormed && u.recA.seq == s) || (u.recB.wellFormed && u.recB.seq == s)

/-- A record is accepted (R125). -/
def Dev.accepted (d : Dev) (r : CommitRec) : Bool :=
  r.wellFormed &&
    (match r.root with
     | none => true
     | some k => r.settled == settledMark || (d.nvu k).hasSeq r.seq)

/-- The slot that start-up selects for a unit, and whether two records tie (R131). -/
def Dev.selectSlot (d : Dev) (u : Nat) : Option (Nat × Bool) :=
  let a := (d.nvu u).recA
  let b := (d.nvu u).recB
  match d.accepted a, d.accepted b with
  | false, false => none
  | true, false => some (0, false)
  | false, true => some (1, false)
  | true, true => if a.seq = b.seq then some (0, true) else if b.seq.toNat < a.seq.toNat then some (0, false) else some (1, false)

/-- Word `i` of a record (R123). -/
def CommitRec.word (r : CommitRec) (i : Nat) : Word :=
  match i with
  | 0 => r.seq
  | 1 => r.module
  | 2 => r.digest.setWidth 32
  | 3 => (r.digest >>> 32).setWidth 32
  | 4 => r.sig.setWidth 32
  | 5 => (r.sig >>> 32).setWidth 32
  | 6 => r.link
  | 7 => r.rcheck
  | 8 => r.valid
  | 9 => r.settled
  | _ => 0

/-- The low or high half of a 64-bit field is written. -/
def putHalf (x : DWord) (high : Bool) (v : Word) : DWord :=
  if high then (v ++ x.setWidth 32 : BitVec 64) else ((x >>> 32).setWidth 32 ++ v : BitVec 64)

/-- Write word `i` of a record. -/
def CommitRec.putWord (r : CommitRec) (i : Nat) (v : Word) : CommitRec :=
  match i with
  | 0 => { r with seq := v }
  | 1 => { r with module := v }
  | 2 => { r with digest := putHalf r.digest false v }
  | 3 => { r with digest := putHalf r.digest true v }
  | 4 => { r with sig := putHalf r.sig false v }
  | 5 => { r with sig := putHalf r.sig true v }
  | 6 => { r with link := v }
  | 7 => { r with rcheck := v }
  | 8 => { r with valid := v }
  | 9 => { r with settled := v }
  | _ => r

/-- LINK from its fields (R124). -/
def linkWord (root kind w h dx dy : Nat) (empty carried : Bool) : Word :=
  pack [(root, 0, 6), (kind, 6, 2), (w - 1, 8, 2), (h - 1, 10, 2), (dx, 12, 2), (dy, 14, 2), (b2n empty, 16, 1), (b2n carried, 17, 1)]

/-- A record's words with RCHECK, VALID and SETTLED not yet written. -/
def mkRec (seq module : Word) (digest sig : DWord) (link : Word) : CommitRec :=
  let r : CommitRec := { seq := seq, module := module, digest := digest, sig := sig, link := link }
  { r with rcheck := r.check }

/-- SEQ of a new commit that writes the units named; none: the limit is reached (R126). -/
def Dev.newSeq (d : Dev) (us : List Nat) : Option Word :=
  let seqs := us.flatMap fun u => [(d.nvu u).recA, (d.nvu u).recB].filterMap fun r => if r.wellFormed then some r.seq.toNat else none
  let n := seqs.foldl max 0 + 1
  if n < 2 ^ 32 then some (BitVec.ofNat 32 n) else none

/-- The plane, and slot, that is not active. A BLANK unit counts plane A as active (assumption 42). -/
def Dev.shadow (d : Dev) (u : Nat) : Nat := 1 - (d.pan u).active

/-- The words of R127 step 1 for the shadow's slot. -/
def Dev.clearJobs (d : Dev) (u : Nat) : List RecJob :=
  let k := d.shadow u
  [{ unit := u, slot := k, word := 8, value := 0 }, { unit := u, slot := k, word := 9, value := 0 }]

/-- The words of R127 steps 3 and 4 for a slot. -/
def recordJobs (u k : Nat) (r : CommitRec) : List RecJob :=
  ((List.range 8).map fun i => { unit := u, slot := k, word := i, value := r.word i }) ++ [{ unit := u, slot := k, word := 8, value := validMark }]

/-- SETTLED of a slot (R127 step 5). -/
def settleJob (u k : Nat) : RecJob := { unit := u, slot := k, word := 9, value := settledMark }

/-- A record word is programmed (R123). -/
def Dev.putRecWord (d : Dev) (j : RecJob) : Dev :=
  d.modNv j.unit fun u => u.setSlot j.slot ((u.slot j.slot).putWord j.word j.value)

/-! ### Wear counters (R143, R144) -/

/-- One record slot write. -/
def Dev.countRecord (d : Dev) (u : Nat) : Dev := d.modNv u fun n => { n with record := satInc n.record }

/-- One staging pass into a plane. -/
def Dev.countStage (d : Dev) (u k : Nat) : Dev :=
  d.modNv u fun n => if k = 0 then { n with stageA := satInc n.stageA } else { n with stageB := satInc n.stageB }

/-- One frame rewrite (R121). -/
def Dev.countRetry (d : Dev) (u : Nat) : Dev := d.modNv u fun n => { n with retry := satInc n.retry }

/-- One reinforce write (R140). -/
def Dev.countRefresh (d : Dev) (u : Nat) : Dev := d.modNv u fun n => { n with refresh := satInc n.refresh }

/-- R127 step 1: VALID, then SETTLED, of the shadow's slot are written 0; a reinforce that waits for the shadow is dropped
(R142). -/
def Dev.invalidate (d : Dev) (u : Nat) : Dev :=
  let d1 := foldS Dev.putRecWord (d.countRecord u) (d.clearJobs u)
  d1.modPan u fun p => { p with shadowValid := false }

/-! ### Frames (R120–R122) -/

/-- A frame as its cells hold it. -/
def Dev.frame (d : Dev) (u k rel : Nat) : FrameBits := (d.nvu u).frames.get 0 (8192 * k + rel)

/-- A frame write (R121): the data is programmed and reads back, after a rewrite when the first attempt fails. -/
def Dev.writeFrame (d : Dev) (u k rel : Nat) (f : FrameBits) (c : WriteCheck) : Dev × Bool :=
  let put (d : Dev) : Dev := d.modNv u fun n => { n with frames := n.frames.set 0 (8192 * k + rel) f }
  match c with
  | .first => (put d, true)
  | .retried => ((put d).countRetry u, true)
  | .failed => ((put d).countRetry u, false)

/-- Frames of a unit: 6,144 of a pan, 2,048 of the global area. -/
def frameCount (u : Nat) : Nat := if u = uGlobal then 2048 else 6144

/-- The frame check of a frame at its address (R120). Frames of the global area lie in column 0. -/
def frameCheckAt (u rel : Nat) (f : FrameBits) : Word :=
  frameCheck f (rel % 64) (if u = uGlobal then 0 else rel / 64)

/-- The golden signature of a plane (R135). -/
def NvUnit.planeSig (n : NvUnit) (u k : Nat) : DWord :=
  signature ((List.range (frameCount u)).map fun r => frameCheckAt u r (n.frames.get 0 (8192 * k + r)))

/-! ### The switch to a plane (R127, R129, R145) -/

/-- The commit point of a pan: software GSR and hold, and bus contention, clear (R73, R105). -/
def Dev.atCommit (d : Dev) (p : Nat) : Dev :=
  d.modPan p fun x => { x with softAssert := false, softHold := false, busCont := 0 }

/-- Load the registers of R145 from the slot that is now selected. -/
def Dev.loadRegs (d : Dev) (u k : Nat) : Dev :=
  let r := (d.nvu u).slot k
  d.modPan u fun p =>
    { p with
      active := k, selected := true, empty := r.empty, blank := false, module := if r.empty then 0 else r.module, seq := r.seq
      link := r.link, digest := r.digest, shadowValid := false, shadowWriting := false, verified := false, failed := false, stagedOp := none }

/-- Load fabric RAM from the active plane (R84). -/
def Dev.loadRam (d : Dev) (p : Nat) : Dev :=
  let fr := if (d.pan p).occupied then d.activeFrames p else []
  d.modPan p fun x => { x with fab := { x.fab with ram := ramInit fr, ramLatch := [], ramOut := [] } }

/-- The plane switch of a pan under GSR (R73, R111, R127 step 6): OUT_HOLD ports keep what they carried, storage elements
take their initial values, fabric RAM loads. GSR of source COMMIT asserts here, at 1.0 µs of R73, and not at the commit point
0.1 µs before it, which R72 names (assumption 79). -/
def Dev.switchPlane (d : Dev) (p k : Nat) : Dev :=
  let old := d.view p
  let d1 := d.loadRegs p k
  let cfg := (d1.view p).cfg
  let kept := foldS (fun (t : Tab Bool) (e : Nat × BorderCfg) =>
    if e.1 % 256 < 128 && e.2.mode == 2 then t.set false e.1 (old.clampValue (e.1 / 256) (e.1 % 256)) else t) [] cfg.borders
  let d2 := (d1.loadRam p).modPan p fun x => { x with fab := { x.fab with bHold := kept, init := [] } }
  let d3 := { d2 with bgs := { d2.bgs with sigQueue := d2.bgs.sigQueue.erase p ++ (if (d2.pan p).empty then [] else [p]) } }
  (d3.countPersist p).panSources p fun x => { x with srcCommitGsr := true, srcStop := false, srcEmpty := x.empty || x.blank }

/-! ### Verification (R136, R137) -/

/-- What a pan that fails verification records (R137). `frame`: the first failing frame, or none for a signature
mismatch. -/
def Dev.markFail (d : Dev) (p : Nat) (frame : Option Nat) : Dev :=
  (d.shutPan p).modPan p fun x =>
    let clear := !x.verifyFail && !x.sigFail
    let addr : BitVec 16 := match frame with | some r => BitVec.ofNat 16 (256 * (r / 64) + r % 64) | none => 0xFFFF
    { x with
      verifyFail := x.verifyFail || frame.isSome, sigFail := x.sigFail || frame.isNone
      failFrame := if clear then addr else x.failFrame, verified := false, failed := true, port := .empty }

/-- A pan fails verification: it goes to FAULTED with its borders clamped (R137). -/
def Dev.failVerify (d : Dev) (p : Nat) (frame : Option Nat) : Dev :=
  let d1 := d.markFail p frame
  d1.fault (uPan p) stFrame ((d1.pan p).failFrame.setWidth 64)

/-- The signature of a unit's active plane is the record's (R135). -/
def Dev.signed (d : Dev) (u : Nat) : Bool :=
  let k := (d.pan u).active
  (d.nvu u).planeSig u k == ((d.nvu u).slot k).sig

/-- A full verification of a pan's active plane (R136, R137); `start`: during start-up, where the transition is left to the
enabling of I/O (R17). -/
def Dev.verifyPan (d : Dev) (start : Bool) (p : Nat) (bad : Option Nat) : Dev :=
  let fail (r : Option Nat) : Dev := if start then d.markFail p r else d.failVerify p r
  if bad.isSome then fail bad else if d.signed p then d.modPan p fun x => { x with verified := true } else fail none

/-! ### Margin (R140, R142) -/

/-- Reinforce a frame: one frame write that changes no value (R140). -/
def Dev.reinforce (d : Dev) (u : Nat) : Dev :=
  (d.countRefresh u).modPan u fun p => { p with lowMargin := true }

/-! ### Registers of the PAN block -/

/-- PAN_PLANE (R146). -/
def Pan.planeWord (p : Pan) : Word :=
  pack [(p.active, 0, 1), (b2n p.empty, 1, 1), (b2n p.blank, 2, 1), (b2n p.shadowValid, 3, 1), (b2n p.shadowWriting, 4, 1),
    (b2n p.verified, 5, 1), (b2n p.verifyFail, 6, 1), (b2n p.sigFail, 7, 1), (b2n p.reinforced, 8, 1), (b2n p.settledAtStart, 9, 1),
    (b2n p.tie, 10, 1), (b2n p.lowMargin, 11, 1), (p.failFrame.toNat, 16, 16)]

/-- A write of PAN_PLANE (R146): FAIL_FRAME reads the frame until the flags are both clear again. -/
def Pan.clearPlane (p : Pan) (v : Word) : Pan :=
  { p with
    verifyFail := p.verifyFail && !bit v 6, sigFail := p.sigFail && !bit v 7, reinforced := p.reinforced && !bit v 8
    settledAtStart := p.settledAtStart && !bit v 9, tie := p.tie && !bit v 10, lowMargin := p.lowMargin && !bit v 11 }

/-- CFG_REC_DATA for a selection (R642). -/
def Dev.recData (d : Dev) (sel : Word) : Word :=
  ((d.nvu (if bit sel 6 then uGlobal else fld sel 0 6)).slot (fld sel 7 1)).word (fld sel 8 4)

/-! ### Selection at start-up (R131–R133) -/

/-- Select one unit's record into its registers; a pan that it leaves BLANK or EMPTY has GSR of source EMPTY (R72, R131,
R133). TIE is sticky: the selection that ends a load does not clear what start-up found (R146). -/
def Dev.selectUnit (d : Dev) (u : Nat) : Dev :=
  match d.selectSlot u with
  | none => d.modPan u fun p => { p with
      blank := true, selected := false, empty := false, active := 0, module := 0, seq := 0, link := 0, digest := 0, failed := false, srcEmpty := true }
  | some (k, tie) => (d.loadRegs u k).modPan u fun p => { p with tie := p.tie || tie, srcEmpty := p.empty }

/-- Complete the selected record of a unit (R132). -/
def Dev.completeRecord (d : Dev) (weak : List Nat) (u : Nat) : Dev :=
  if (d.pan u).blank then d
  else
    let k := (d.pan u).active
    let d1 := if weak.contains u then (d.countRecord u).modPan u fun p => { p with reinforced := true } else d
    let r := (d1.nvu u).slot k
    if r.root.isSome && r.settled != settledMark then
      ((d1.countRecord u).putRecWord (settleJob u k)).modPan u fun p => { p with settledAtStart := true }
    else d1

/-- Every unit that holds planes, the global area first (R131). -/
def planeUnits : List Nat := uGlobal :: List.range 64

/-- Select and complete every record (R131, R132). -/
def Dev.selectAll (d : Dev) (weak : List Nat) : Dev :=
  let d1 := foldS Dev.selectUnit d planeUnits
  foldS (fun d u => d.completeRecord weak u) d1 planeUnits

end Sys2Proof.Machine
end

