-- ==== Sys2Proof/Machine/Telemetry.lean ====
section
/-! DEFINITION. Telemetry: sensors, voltage monitors, records and alerts (R560–R564, R568, R569). -/

namespace Sys2Proof.Machine

/-- VCCO_CFG in mV, one of the three nominal values of R609: the board chooses. -/
def vccoNominal : Nat := match Config.vccoCfg % 3 with | 0 => 1800 | 1 => 2500 | _ => 3300

/-- Operating range of rail `i` in mV (R609). -/
def railRange : Nat → Nat × Nat
  | 0 => (770, 830) | 1 => (820, 880) | 2 => (1710, 1890) | 3 => (1710, 1890) | 4 => (1710, 1890) | 5 => (1710, 1890)
  | 6 => (vccoNominal * 95 / 100, vccoNominal * 105 / 100)
  | 7 => (1710, 1890) | 8 => (870, 930) | 9 => (1160, 1240) | 10 => (870, 930) | 11 => (1160, 1240)
  | _ => (0, 0)

/-- Raise an event of background services on the hosts that satisfy `who` (R564). -/
def Dev.bgsEvent (d : Dev) (who : Nat → Bool) (code : Nat) (data : DWord) : Dev :=
  foldS (fun d p => if who p then d.eventAt p uBgs code 0 data else d) d [0, 1, 2, 3]

/-- The hosts whose partition grants the TELE block. -/
def Dev.teleHosts (d : Dev) (p : Nat) : Bool := (d.part p).regs.getLsbD 10

/-- A sensor takes a sample; the average over the last second is a free value (assumption 15). -/
def Sensor.sample (s : Sensor) (v : BitVec 16) (signed : Bool) (avg : BitVec 16) : Sensor :=
  let gt (a b : BitVec 16) : Bool := if signed then decide (a.toInt > b.toInt) else decide (a.toNat > b.toNat)
  { s with
    cur := v
    max := if s.n = 0 ∨ gt v s.max then v else s.max
    min := if s.n = 0 ∨ gt s.min v then v else s.min
    avg := avg
    n := satInc s.n }

/-- Signed byte of TELE_ALERT in 1/16 °C. -/
def alertTemp (w : Word) (lo : Nat) : Int := toSigned 8 (fld w lo 8) * 16

/-- Sensor `i` takes temperature `v` (R560, R563). -/
def Dev.sampleTemp (d : Dev) (i : Nat) (v : BitVec 16) : Dev :=
  let (k, d0) := d.takeFree
  let t := d0.tele
  let s := t.sensors.get {} i
  let hot := alertTemp t.alert 0
  let low := hot - (fld t.alert 8 4 : Nat) * 16
  let cold := alertTemp t.alert 16
  let x := v.toInt
  let nowHot := decide (x > hot) || (s.hot && !decide (x < low))
  let nowCold := decide (x < cold)
  let s1 := { s.sample v true (BitVec.ofNat 16 (Config.freeWord k).toNat) with hot := nowHot, cold := nowCold }
  let d1 := { d0 with tele := { t with sensors := t.sensors.set {} i s1 } }
  let raise (d : Dev) (rise cold : Bool) : Dev :=
    d.bgsEvent (fun p => if i < 64 then d.inPart p (uPan i) else d.teleHosts p) 0x10
      (pack64 [(i, 0, 7), (b2n rise, 8, 1), (b2n cold, 9, 1), (v.toNat, 16, 16)])
  if !bit t.ctrl 8 then d1
  else
    let d2 := if nowHot && !s.hot then raise d1 true false else if s.hot && !nowHot then raise d1 false false else d1
    if nowCold && !s.cold then raise d2 false true else d2

/-- Monitor `i` takes a voltage in mV (R560, R563). The excursion count stands in the sensor's `n` beside its samples. -/
def Dev.sampleVolt (d : Dev) (i : Nat) (v : BitVec 16) : Dev :=
  let (k, d0) := d.takeFree
  let t := d0.tele
  let s := t.sensors.get {} (72 + i)
  let (lo, hi) := railRange i
  let out := decide (v.toNat < lo) || decide (v.toNat > hi)
  let s0 := s.sample v false (BitVec.ofNat 16 (Config.freeWord k).toNat)
  let s1 := { s0 with outRange := out, exc := if out && !s.outRange then satInc s.exc else s.exc }
  let d1 := { d0 with tele := { t with sensors := t.sensors.set {} (72 + i) s1 } }
  if out && !s.outRange && bit t.ctrl 8 then
    d1.bgsEvent d1.teleHosts 0x11 (pack64 [(i, 0, 4), (b2n (decide (v.toNat > hi)), 4, 1), (v.toNat, 16, 16)])
  else d1

/-- Enumerate a list. -/
def indexed {α : Type} (l : List α) : List (Nat × α) := (List.range l.length).zip l

/-- Every sensor and monitor is sampled (R560); the supply and temperature conditions of fuse programming (R617) and
the VCCIO_OK flags (R611) follow; where one changes, the pins of its bank take or leave high impedance. -/
def opTelemetrySample (temps volts : List (BitVec 16)) (vccioOk : BitVec 16) (d : Dev) : Dev :=
  let d1 := foldS (fun d e => d.sampleTemp e.1 e.2) d (indexed temps)
  let d2 := foldS (fun d e => d.sampleVolt e.1 e.2) d1 (indexed volts)
  let nv := (volts.getD 2 0).toNat
  let ok := decide (1800 ≤ nv) && decide (nv ≤ 1890) && temps.all fun t => decide (0 ≤ t.toInt) && decide (t.toInt ≤ 85 * 16)
  let d3 := { d2 with fuse := { d2.fuse with condOk := ok }, pins := { d2.pins with vccioOk := vccioOk } }
  if vccioOk = d.pins.vccioOk then d3 else d3.refreshPins

/-- An activity window ends (R561). The pan's power estimate and the bank cycles held by decodes are free values
(assumption 15). -/
def opActivityWindowEnd (d : Dev) : Dev :=
  let (k, d1) := d.takeFree
  let t := d1.tele
  { d1 with
    freeCtr := d1.freeCtr + 256
    tele := { t with
      panLast := t.panNow.map fun e => (e.1, { e.2 with w1 := satU32 (e.2.cycles / 1024), cycles := 0, w2 := Config.freeWord (k + e.1) &&& 0xFFFF })
      panNow := [], bankLast := t.bankNow, bankNow := [] } }

/-- TELE_CTRL.CLEAR (R569). -/
def Tele.clear (t : Tele) : Tele :=
  { t with sensors := t.sensors.map fun e => (e.1, { e.2 with max := 0, min := 0, n := 0, exc := 0 }) }

/-- A write of TELE_CTRL (R569). -/
def Tele.writeCtrl (t : Tele) (v : Word) : Tele :=
  let t1 := { t with ctrl := merge 0x1FF t.ctrl v }
  if bit v 9 then t1.clear else t1

/-- TELE_CTRL through a path. -/
def opTeleClear (path : Path) (v : Word) (d : Dev) : Dev :=
  d.filtered path .tele 0x00 fun d => { d with tele := d.tele.writeCtrl v }

/-- A TELE_SEL names a kind and index that exist (R561). -/
def selOk (w : Word) : Bool :=
  let i := fld w 8 7
  match fld w 0 4 with
  | 0 => decide (i < 64) | 1 => decide (i < 8) | 2 => decide (i < 12) | 3 => decide (i < 64) | 4 => true
  | 5 => decide (i < 64) | 6 => decide (i < 64) | 7 => i == 0
  | _ => false

/-- Tokens of a pan's bucket (R239). -/
def Dev.tokens (d : Dev) (p : Nat) : Int := d.rake.buckets.get 250000 p

/-- The bound of R144. -/
def NvUnit.wear (u : NvUnit) : Word :=
  satU32 (max u.stageA.toNat u.stageB.toNat + u.retry.toNat + u.refresh.toNat)

/-- The bytes of a map: bit u mod 8 of byte u div 8 for each member (R148). -/
def mapBytes (n : Nat) (l : List Nat) : List Byte := leBytes n (l.foldl (fun x u => x ||| 2 ^ u) 0)

/-- CHECK of a header copy over the bytes before it (R148). -/
def StoreHdr.sum (h : StoreHdr) : Word :=
  crc32c (leBytes 4 h.format.toNat ++ leBytes 4 h.seq.toNat ++ ((List.range 2048).flatMap fun u => leBytes 4 (h.erases.get 0 u)) ++
    mapBytes 256 h.worn ++ mapBytes 8 h.retPans ++ mapBytes 16 h.retBanks ++ mapBytes 12 h.retLinks ++ List.replicate 12 0)

/-- A header copy is valid. -/
def StoreHdr.ok (h : StoreHdr) : Bool := h.valid == 0x5AC33CA5 && h.check == h.sum

/-- The header copy of the Store in force: the valid one with the higher SEQ (R148, R151). -/
def StoreNv.hdr (s : StoreNv) : StoreHdr :=
  let ok := StoreHdr.ok
  if ok s.hdr0 && (!ok s.hdr1 || decide (s.hdr1.seq.toNat < s.hdr0.seq.toNat)) then s.hdr0
  else if ok s.hdr1 then s.hdr1
  else { format := 0, seq := 0, check := 0, valid := 0 }

/-- The four words of a telemetry record for a reader (R561, R562). -/
def Dev.teleRecord (d : Dev) (rd : Nat) (w : Word) : List Word :=
  let t := d.tele
  let i := fld w 8 7
  let grant := (d.part rd).regs.getLsbD 10
  let zero : List Word := [0, 0, 0, 0]
  let pair (a b : BitVec 16) : Word := (b ++ a : BitVec 32)
  if !selOk w then zero
  else match fld w 0 4 with
  | 0 =>
    if !d.inPart rd (uPan i) then zero
    else let s := t.sensors.get {} i; [pair s.cur s.max, pair s.min s.avg, s.n, 0]
  | 1 => if !grant then zero else let s := t.sensors.get {} (64 + i); [pair s.cur s.max, pair s.min s.avg, s.n, 0]
  | 2 =>
    if !grant then zero
    else
      let s := t.sensors.get {} (72 + i)
      let (lo, hi) := railRange i
      [pair s.cur s.max, pair s.min s.avg, pair (BitVec.ofNat 16 lo) (BitVec.ofNat 16 hi), s.exc]
  | 3 => if !d.inPart rd (uPan i) then zero else let a := t.panLast.get {} i; [a.w0, a.w1, a.w2, 0]
  | 4 => if !d.inPart rd (uBank i) then zero else let a := t.bankLast.get {} i; [a.w0, a.w1, a.w2, 0]
  | 5 => if !d.inPart rd (uPan i) then zero else let u := d.nvu i; [u.stageA, u.stageB, u.retry, u.refresh]
  | 6 =>
    if !d.inPart rd (uPan i) then zero
    else let u := d.nvu i; [u.record, u.wear, BitVec.ofInt 32 (d.tokens i), satU32 (d.bgs.preTokens.get 0 i)]
  | _ =>
    if !grant then zero
    else
      let h := d.store.work
      let er := h.erases.map fun e => e.2
      [satU32 (er.foldl max 0), satU32 (er.sum / 2048), BitVec.ofNat 32 h.worn.length, t.erases]

/-- A read of TELE_REC[0] latches words 1–3 (R561). -/
def Dev.readRec0 (d : Dev) (rd : Nat) : Word × Dev :=
  let r := d.teleRecord rd (d.tele.sel.get 0 rd)
  (r.getD 0 0, { d with tele := { d.tele with latch := d.tele.latch.setList 0 (4 * rd + 1) (r.drop 1) } })

/-- TELE_REC[0] through a path. -/
def opTeleRec0Read (path : Path) (d : Dev) : Dev :=
  d.readThrough path .tele 0x0C 0x2C000C fun d => d.readRec0 path.reader

/-- TELE_STATUS for a reader (R569). -/
def Dev.teleStatus (d : Dev) (rd : Nat) : Word :=
  let t := d.tele
  let cur (i : Nat) : Int := (t.sensors.get {} i).cur.toInt
  let hot := alertTemp t.alert 0
  let all := List.range 72
  let best := (argMin (fun i => - cur i) (List.range 64)).getD 0
  let top := all.foldl (fun m i => max m (cur i)) (cur 0)
  pack [(b2n (all.any fun i => decide (cur i > hot)), 0, 1), (b2n ((List.range 12).any fun i => (t.sensors.get {} (72 + i)).outRange), 1, 1),
    (b2n (!selOk (t.sel.get 0 rd)), 2, 1), (best, 8, 6), ((BitVec.ofInt 16 top).toNat, 16, 16)]

/-- A read of the TELE block, TELE_REC[0] apart. -/
def Dev.readTele (d : Dev) (rd o : Nat) : Word :=
  match o with
  | 0x00 => d.tele.ctrl
  | 0x04 => d.teleStatus rd
  | 0x08 => d.tele.sel.get 0 rd
  | 0x10 => d.tele.latch.get 0 (4 * rd + 1)
  | 0x14 => d.tele.latch.get 0 (4 * rd + 2)
  | 0x18 => d.tele.latch.get 0 (4 * rd + 3)
  | 0x1C => d.tele.alert
  | _ => 0

/-- A write of the TELE block. -/
def Dev.writeTele (d : Dev) (rd o : Nat) (v : Word) : Dev :=
  match o with
  | 0x00 => { d with tele := d.tele.writeCtrl v }
  | 0x08 => { d with tele := { d.tele with sel := d.tele.sel.set 0 rd (v &&& 0x7F0F) } }
  | 0x1C => { d with tele := { d.tele with alert := merge 0x00FF0FFF d.tele.alert v } }
  | _ => d

/-! ### The commands -/

/-- TELEMETRY_SAMPLE (R560). -/
def execTelemetrySample (temps : List (BitVec 16)) (volts : List (BitVec 16)) (vccioOk : BitVec 16) (s : State) : Res :=
  runCmd (.telemetrySample temps volts vccioOk) (opTelemetrySample temps volts vccioOk) s

/-- TELE_CLEAR (R569). -/
def execTeleClear (path : Path) (value : Word) (s : State) : Res :=
  runCmd (.teleClear path value) (opTeleClear path value) s

/-- TELE_REC0_READ (R561). -/
def execTeleRec0Read (path : Path) (s : State) : Res :=
  runCmd (.teleRec0Read path) (opTeleRec0Read path) s

/-- ACTIVITY_WINDOW_END (R561). -/
def execActivityWindowEnd (s : State) : Res :=
  runCmd (.activityWindowEnd) (opActivityWindowEnd) s

end Sys2Proof.Machine
end

