-- ==== Sys2Proof/Machine/Images.lean ====
section
/-! DEFINITION. Module images (chapter "Configuration Streams, Chains and Start-Up"): the header, the resource section,
segments and frame groups, the key ratchet, and the checks of R186 that precede the frames. -/

namespace Sys2Proof.Machine

/-- Device type code (R174, R178). -/
def devType : Word := 0x4C4D0016

/-! ### Where the bytes are -/

/-- A byte range of an image; none while a host image's bytes have not arrived. -/
def Dev.imgBytes (d : Dev) (i : ImgSrc) (o n : Nat) : Option (List Byte) :=
  match i with
  | .store u _ => some (d.storeNv.lib.getList 0xFF (65536 * u + o) n)
  | .host bs => if o + n ≤ bs.length then some (slice bs o n) else none

/-! ### Header and resource section (R178, R179, R220) -/

/-- The fields of an image header. -/
structure ImgHdr where
  bytes : List Byte
  deriving DecidableEq, Repr

/-- MODULE_ID. -/
def ImgHdr.moduleId (h : ImgHdr) : Word := wordAt h.bytes 0x0C
/-- SEC_VERSION. -/
def ImgHdr.secVersion (h : ImgHdr) : Nat := leAt h.bytes 0x10 4
/-- W and H. -/
def ImgHdr.w (h : ImgHdr) : Nat := leAt h.bytes 0x14 1 % 4 + 1
/-- Height of the shape. -/
def ImgHdr.hh (h : ImgHdr) : Nat := leAt h.bytes 0x14 1 / 4 % 4 + 1
/-- KEY_SLOT. -/
def ImgHdr.keySlot (h : ImgHdr) : Nat := leAt h.bytes 0x15 1
/-- LENGTH. -/
def ImgHdr.length (h : ImgHdr) : Nat := leAt h.bytes 0x18 4
/-- RES_OFF. -/
def ImgHdr.resOff (h : ImgHdr) : Nat := leAt h.bytes 0x1C 4
/-- RES_LEN. -/
def ImgHdr.resLen (h : ImgHdr) : Nat := leAt h.bytes 0x20 4
/-- Offset and length of member image `m`. -/
def ImgHdr.member (h : ImgHdr) (m : Nat) : Nat × Nat := (leAt h.bytes (0x24 + 8 * m) 4, leAt h.bytes (0x28 + 8 * m) 4)
/-- NONCE. -/
def ImgHdr.nonce (h : ImgHdr) : List Byte := slice h.bytes 0xA4 12

/-- HCHECK, MAGIC and FORMAT hold (R186 step 1). -/
def ImgHdr.ok (h : ImgHdr) : Bool :=
  wordAt h.bytes 0xFC == crc32c (slice h.bytes 0 0xFC) && wordAt h.bytes 0 == 0x4D4C4801 && leAt h.bytes 4 2 == 1

/-- The entries of a resource section. -/
def resEntries (bs : List Byte) : List ResEntry :=
  (chunks 16 (bs.length / 16) bs).map fun e => { kind := e.headD 0, member := leAt e 1 1, params := slice e 4 12 }

/-- A parameter of an entry: little-endian, `n` bytes from byte `o` (R220). -/
def ResEntry.par (e : ResEntry) (o n : Nat) : Nat := leAt e.params o n

/-- An ENDPOINT entry. -/
def ResEntry.isEndpoint (e : ResEntry) : Bool := e.kind == 0x01
/-- A POOL entry. -/
def ResEntry.isPool (e : ResEntry) : Bool := e.kind == 0x02
/-- A PIN entry. -/
def ResEntry.isPin (e : ResEntry) : Bool := e.kind == 0x03
/-- A PORT entry. -/
def ResEntry.isPort (e : ResEntry) : Bool := e.kind == 0x05

/-- The header of an image. -/
def Dev.imgHdr (d : Dev) (i : ImgSrc) : Option ImgHdr := (d.imgBytes i 0 256).map fun b => { bytes := b }

/-- Its resource section. -/
def Dev.imgRes (d : Dev) (i : ImgSrc) : Option (List ResEntry) :=
  (d.imgHdr i).bind fun h => (d.imgBytes i h.resOff h.resLen).map resEntries

/-- SHA-384 of the whole image. -/
def Dev.imgDigest (d : Dev) (i : ImgSrc) : Option (List Byte) :=
  (d.imgHdr i).bind fun h => (d.imgBytes i 0 h.length).map sha384

/-- DIGEST of a commit record: the first eight bytes of a digest (R123, R150). -/
def digest64 (bs : List Byte) : DWord := BitVec.ofNat 64 (ofLe (bs.take 8))

/-- Checks 1–4 of R186 on an image: the status of the first that fails, with what CFG_ERR_ADDR logs (R188). -/
def Dev.imgChecks (d : Dev) (h : ImgHdr) (res : List ResEntry) : Option (Nat × Nat) :=
  if !h.ok || res.any (fun e => decide (h.w * h.hh ≤ e.member)) then some (stFrame, 0xFFFFFF)
  else if wordAt h.bytes 8 ≠ devType then some (stWrongDev, 0)
  else if !d.moduleSlotOk h.keySlot then some (stAuth, 0xFFFFFE)
  else if d.belowRollback h.secVersion then some (stRollback, 0)
  else none

/-! ### The key ratchet (R183, R184) -/

/-- Key of epoch `e` from a slot key. -/
def keyAt (slotKey nonce : List Byte) : Nat → List Byte
  | 0 => kdf slotKey nonce 0
  | e + 1 => kdf (keyAt slotKey nonce e) nonce (e + 1)

/-! ### Frame groups (R181, R182) -/

/-- The 24-bit address of the frame at relative index `i`: column × 64 + minor. -/
def frameAddr (i : Nat) : Nat := i / 64 * 256 + i % 64

/-- A carried address lies in the fabric of a pan (R182). -/
def addrOk (a : Nat) : Bool := a < 0x10000 && a / 256 < 96 && a % 256 < 64

/-- The relative index of a carried address. -/
def addrIndex (a : Nat) : Nat := a / 256 * 64 + a % 256

/-- The address of the frame `j` places after address `a`, minor first, then column. -/
def addrAfter (a j : Nat) : Nat := if addrOk a then frameAddr (addrIndex a + j) else a + j

/-- 4,096 data bits from 512 bytes. -/
def frameOf (bs : List Byte) : FrameBits := BitVec.ofNat 4096 (ofLe bs)

/-- The 512 bytes of a frame. -/
def frameBytes (f : FrameBits) : List Byte := leBytes 512 f.toNat

/-- What the groups of a segment yield: items, frames, and whether the member's END was seen. -/
structure Groups where
  items : List FrameItem := []
  frames : Nat := 0
  ended : Bool := false
  bad : Bool := false
  after : Nat := 0xFFFFFF          -- the address that follows the last frame; none as yet
  deriving DecidableEq, Repr, Inhabited

/-- Stop at an error. -/
def Groups.err (g : Groups) (a : Nat) : Groups :=
  { g with bad := true, items := g.items ++ [.err (BitVec.ofNat 8 stFrame) (BitVec.ofNat 24 a)] }

/-- One group at the head of the bytes; `limit`: the FRAMES field of the segment; `last`: it is the member's last. -/
def Groups.one (g : Groups) (limit : Nat) (last : Bool) (bs : List Byte) : Groups × List Byte :=
  if bs.length < 8 then (g.err 0xFFFFFF, [])
  else
    let code := leAt bs 0 1
    let count := leAt bs 2 2
    let a := leAt bs 4 3
    let body := bs.drop 8
    let frames (n : Nat) (it : Nat → FrameItem) : Groups × List Byte :=
      if body.length < n then (g.err a, [])
      else if count = 0 ∨ 256 < count ∨ g.ended = true ∨ limit < g.frames + count then (g.err a, [])
      else ({ g with items := g.items ++ (List.range count).map it, frames := g.frames + count, after := addrAfter a count }, body.drop n)
    match code with
    | 0x01 => frames (516 * count) fun j =>
        .lit (addrAfter a j) (frameOf (slice body (516 * j) 512)) (wordAt body (516 * j + 512))
    | 0x02 => frames 0 fun j => .gen (addrAfter a j) 0
    | 0x03 => frames 4 fun j => .gen (addrAfter a j) (frameOf ((List.range 128).flatMap fun _ => slice body 0 4))
    | 0x04 =>
      let src := leAt body 0 2
      if addrOk a && !(addrOk src && decide (addrIndex src + count ≤ addrIndex a)) then (g.err a, [])
      else frames 4 fun j => .rep (addrAfter a j) (addrIndex src + j)
    | 0x10 => if count = 0 ∧ g.ended = false ∧ last = true then ({ g with ended := true }, body) else (g.err a, [])
    | _ => (g.err a, [])

/-- The groups of a segment. -/
def groupsN (limit : Nat) (last : Bool) : Nat → Groups → List Byte → Groups
  | 0, g, _ => g
  | n + 1, g, bs => if bs.isEmpty || g.bad then g else let (g1, rest) := g.one limit last bs; groupsN limit last n g1 rest

/-- What a segment yields (R180, R181): `last` when it is the member's last. Groups that end short of FRAMES fail at the
address that follows their last frame (assumption 23). -/
def segmentItems (plain : List Byte) (limit : Nat) (last : Bool) : Groups :=
  let count := if last then 1 ≤ limit && limit ≤ 256 else limit == 256
  if !count then Groups.err {} 0xFFFFFF
  else
    let g := groupsN limit last (plain.length + 1) {} plain
    if g.bad || g.frames == limit then g else g.err g.after

/-! ### The driver census (R101, R187) -/

/-- Count the bus-wire enables of a frame: ON drivers, saturating at 2, and whether any is dynamic. -/
def censusAdd (base : Nat) (t : Tab (BitVec 2 × Bool)) (l : List (Nat × Nat)) : Tab (BitVec 2 × Bool) :=
  foldS (fun t e =>
    t.modify (0, false) (base + e.1) fun c =>
      if e.2 = 1 then ((if c.1.toNat < 2 then c.1 + 1 else c.1), c.2) else if 2 ≤ e.2 ∧ e.2 ≤ 4 then (c.1, true) else c) t l

/-- A wire with two ON drivers, or one and a dynamic driver. -/
def censusBad (t : Tab (BitVec 2 × Bool)) : Bool := t.any fun e => e.2.1.toNat ≥ 2 || (e.2.1.toNat == 1 && e.2.2)

end Sys2Proof.Machine
end

