-- ==== Sys2Proof/Machine/Lanes.lean ====
section
/-! DEFINITION. The decode lanes (R164–R167): how a staging pass takes its frames one by one into the shadow, what fails
it, and what its end leaves. What an operation of the Rake does next stands in Rake.lean. -/

namespace Sys2Proof.Machine

/-! ### Load errors (R206) -/

/-- Log a load error: the first since ERR was cleared loads the registers, a later one sets OVERRUN. -/
def Dev.cfgError (d : Dev) (status source addr pan : Nat) : Dev :=
  if d.cfg.err then { d with cfg := { d.cfg with errOver := true } }
  else { d with cfg := { d.cfg with
    err := true, errStatus := BitVec.ofNat 8 status, errSource := BitVec.ofNat 4 source, errAddr := BitVec.ofNat 24 addr
    errPan := BitVec.ofNat 6 pan } }

/-! ### Tokens (R239) -/

/-- Bucket size within the limits of R558. -/
def Dev.bucketSize (d : Dev) : Nat := max 6144 (min (2 ^ 30) d.bgs.wearSize.toNat)

/-- Set a pan's bucket: never above S; no draw takes it below −S, and one that a smaller S finds below stays (R239, R558). -/
def Dev.setTokens (d : Dev) (p : Nat) (x : Int) : Dev :=
  let s : Int := d.bucketSize
  { d with rake := { d.rake with buckets := d.rake.buckets.set 250000 p (max (min (-s) (d.tokens p)) (min s x)) } }

/-- Draw tokens from a pan's bucket. -/
def Dev.drawTokens (d : Dev) (p n : Nat) : Dev := d.setTokens p (d.tokens p - n)

/-- Return the tokens of frames that were not written. -/
def Dev.returnTokens (d : Dev) (p n : Nat) : Dev := d.setTokens p (d.tokens p + n)

/-! ### State-bearing frames (R249, R250) -/

/-- A state-bearing logic frame: the odd minors of a logic column. -/
def stateLogic (rel : Nat) : Bool := (logicOf (rel / 64)).isSome && rel % 2 == 1

/-- A state-bearing RAM frame: minors 0–53 of a RAM column. -/
def stateRam (rel : Nat) : Bool := (ramOf (rel / 64)).isSome && rel % 64 < 54

/-- The state-bearing logic frames, ascending. -/
def stateLogicFrames : List Nat := (List.range 6144).filter stateLogic

/-- The state-bearing RAM frames, ascending. -/
def stateRamFrames : List Nat := (List.range 6144).filter stateRam

/-- A logic frame with the captured values in its INIT bits (R67, R250). -/
def mergeInit (rel : Nat) (f : FrameBits) (q : Tab (Option Bool)) : FrameBits :=
  match logicOf (rel / 64) with
  | none => f
  | some l => foldS (fun f m =>
      match q.get none (512 * l + 16 * (rel % 64 / 2) + m) with
      | some true => f ||| BitVec.ofNat 4096 (2 ^ (2048 + 32 * m))
      | some false => f &&& ~~~(BitVec.ofNat 4096 (2 ^ (2048 + 32 * m)))
      | none => f) f (List.range 16)

/-- A RAM content frame from captured words (R83, R250). -/
def ramFrame (rel : Nat) (ram : Tab (BitVec 36)) : FrameBits :=
  match ramOf (rel / 64) with
  | none => 0
  | some r =>
    let k := 6 * r + rel % 64 / 9
    let content := (List.range 1024).foldl (fun n w => n + (ram.get 0 (1024 * k + w)).toNat * 2 ^ (36 * w)) 0
    BitVec.ofNat 4096 (content >>> (4096 * (rel % 64 % 9)))

/-- A header write of its own, for a changed map, joins the Store's jobs. -/
def Dev.mapJob (d : Dev) (copies : Nat) : Dev :=
  let j : StoreJob := { exec := none, copies := copies, phase := if d.store.jobs.isEmpty then .eraseHeader else .waiting }
  { d with store := { d.store with jobs := d.store.jobs ++ [j] } }

/-- A unit that the Store could not read, or that failed its readback, enters the worn-unit map, and a header copy with that
map is to be written (R148, R149). -/
def Dev.wearOut (d : Dev) (u : Nat) : Dev :=
  let w := d.store.work
  if w.worn.contains u then d
  else
    let d1 := { d with store := { d.store with work := { w with worn := w.worn ++ [u] } } }
    if d1.store.jobs.any fun j => j.exec.isNone then d1 else d1.mapJob 1

/-- The Store serves nothing: it is FAULTED, or left unpowered by its setup (R17, R20). -/
def Dev.storeDead (d : Dev) : Bool := d.ust uStore == .faulted || d.ust uStore == .off

/-! ### A pass -/

/-- A pass as it stands after one frame. -/
inductive PassOut where
  | wait                                  -- its bytes have not arrived
  | go (d : Dev) (x : Pass)
  | fail (d : Dev) (x : Pass) (status addr : Nat)
  deriving DecidableEq, Repr

/-- Frames that a pass goes through. -/
def Pass.total (x : Pass) : Nat :=
  match x.kind with
  | .carryLogic => 2048
  | .carryRam => 864
  | _ => 6144

/-- Replace the pass of a pan and lane. -/
def Dev.putPass (d : Dev) (old new : Pass) : Dev :=
  { d with cfg := { d.cfg with passes := d.cfg.passes.map fun x => if x = old then new else x } }

/-- Remove a pass. -/
def Dev.dropPass (d : Dev) (x : Pass) : Dev := { d with cfg := { d.cfg with passes := d.cfg.passes.erase x } }

/-- The pass that runs on a lane. -/
def Dev.lanePass (d : Dev) (l : Nat) : Option Pass := d.cfg.passes.find? fun x => x.lane == some l

/-- Image contents that an operation keeps of a destination's state-bearing logic frames (R249). -/
def Op.keptFrame (o : Op) (p rel : Nat) : FrameBits := Tab.get 0 (o.kept.get [] p) rel

/-- Keep one. -/
def Dev.keepFrame (d : Dev) (x : Pass) (rel : Nat) (f : FrameBits) : Dev :=
  match x.exec.bind d.op with
  | none => d
  | some o => d.setOp (x.exec.getD 0) (some { o with kept := o.kept.set [] x.pan (Tab.set 0 (o.kept.get [] x.pan) rel f) })

/-- A frame of this pass's staging, as the sense path reads it back for REPEAT (R181). -/
def Dev.stagedFrame (d : Dev) (x : Pass) (rel : Nat) : FrameBits :=
  if x.carry && stateLogic rel then
    (match x.exec.bind d.op with | some o => o.keptFrame x.pan rel | none => 0)
  else d.frame x.pan x.plane rel

/-- Write one frame into the shadow and count it, and the retry's token (R121, R239, R561; CFG_FRAMES, RAKE_SPEC_FRAMES). -/
def Dev.laneWrite (d : Dev) (x : Pass) (rel : Nat) (f : FrameBits) (c : WriteCheck) : Dev × Bool :=
  let (d1, ok) := d.writeFrame x.pan x.plane rel f c
  let n := if c = .first then 1 else 2
  let d2 := if c = .first then d1 else d1.drawTokens x.pan 1
  let d3 := { d2 with cfg := { d2.cfg with framesCount := satAdd d2.cfg.framesCount n } }
  (if x.kind = .pre then
    { d3 with rake := { d3.rake with specFrames := satAdd d3.rake.specFrames n }
              bgs := { d3.bgs with preTokens := d3.bgs.preTokens.modify 0 x.pan (· + (n - 1)) } }
  else d3, ok)

/-- An address with the destination pan in its pan field (R182, R188). -/
def relocated (pan a : Nat) : Nat := a % 0x10000 + pan * 0x10000 + a / 0x400000 * 0x400000

/-- Segments of an image from byte `pos` to byte `stop`; none while their headers have not arrived. -/
def Dev.countSegs (d : Dev) (i : ImgSrc) : (fuel pos stop : Nat) → Option Nat
  | 0, _, _ => some 0
  | k + 1, pos, stop =>
    if stop < pos + 24 then some 0
    else (d.imgBytes i pos 8).bind fun sh => (d.countSegs i k (pos + 24 + leAt sh 0 4) stop).map (· + 1)

/-- Key epochs of the member images before member `m` (R183: an epoch is a segment, counted across members in order). -/
def Dev.firstEpoch (d : Dev) (i : ImgSrc) (h : ImgHdr) (m : Nat) : Option Nat :=
  (List.range m).foldl (fun o j => o.bind fun n =>
    let (off, len) := h.member j
    (d.countSegs i (len / 24) off (off + len)).map (· + n)) (some 0)

/-- A pass enters its member image (R180). -/
def Dev.enterMember (d : Dev) (x : Pass) (h : ImgHdr) : Option Pass :=
  if x.segEnd ≠ 0 then some x
  else
    let (off, len) := h.member x.member
    (d.firstEpoch x.img h x.member).map fun e => { x with segPos := off, segEnd := off + len, epoch := e }

/-- Load the items of the next segment, with the error it ends in (R180, R184). -/
def Dev.loadSegment (d : Dev) (x : Pass) (h : ImgHdr) : Option Pass :=
  let enc := h.keySlot != 0xFF
  let stop (status addr : Nat) : Pass := { x with items := [.err (BitVec.ofNat 8 status) (BitVec.ofNat 24 addr)] }
  if x.segEnd ≤ x.segPos then some (stop stTrunc x.recv)
  else if x.segEnd < x.segPos + 8 then some (stop stFrame 0xFFFFFF)
  else
    (d.imgBytes x.img x.segPos 8).bind fun sh =>
      let n := leAt sh 0 4
      let frames := leAt sh 4 2
      if x.segEnd < x.segPos + 24 + n then some (stop stFrame 0xFFFFFF)
      else
        (d.imgBytes x.img (x.segPos + 8) (n + 16)).bind fun body =>
          (d.imgBytes x.img h.resOff h.resLen).map fun res =>
            let ct := body.take n
            let key := if !enc then [] else if x.key.isEmpty then keyAt (d.slotKey h.keySlot) h.nonce x.epoch else kdf x.key h.nonce x.epoch
            let aad := if x.epoch = 0 then h.bytes ++ res ++ sh else sh
            let plain := if enc then gcmDecrypt key h.nonce ct else ct
            let tagOk := !enc || gcmTag key h.nonce aad ct == slice body n 16
            let last := x.segPos + 24 + n == x.segEnd
            let g := segmentItems plain frames last
            let items := if !g.bad && !tagOk then g.items ++ [.err (BitVec.ofNat 8 stAuth) (BitVec.ofNat 24 x.epoch)] else g.items
            { x with items := items, key := key, epoch := x.epoch + 1, segPos := x.segPos + 24 + n, ended := x.ended || g.ended }

/-- Advance past a frame that is not written. -/
def Pass.skip (x : Pass) : Pass := { x with next := x.next + 1 }

/-- One frame of contents `f` at the pass's next address, written or kept. -/
def Dev.putNext (d : Dev) (x : Pass) (f : FrameBits) (c : WriteCheck) : PassOut :=
  if x.carry && stateLogic x.next then .go (d.keepFrame x x.next f) x.skip
  else if x.carry && stateRam x.next then .go d x.skip
  else
    let (d1, ok) := d.laneWrite x x.next f c
    let x1 := { x with written := x.written + 1 }
    if ok then .go d1 x1.skip else .fail d1 x1 stFrame (relocated x.pan (frameAddr x.next))

/-- A carried frame at the head of the items (R165, R182, R187). -/
def Dev.takeItem (d : Dev) (x : Pass) (a : Nat) (f : FrameBits) (chk : Option Word) (rest : List FrameItem) (c : WriteCheck) : PassOut :=
  if !addrOk a then .fail d x stRegion a
  else
    let i := addrIndex a
    if (i : Int) ≤ x.lastAddr then .fail d x stFrame (relocated x.pan a)
    else if x.next < i then d.putNext x 0 c
    else if chk.any (fun k => k != frameCheckAt x.pan i f) then .fail d x stFrame (relocated x.pan a)
    else
      let census := censusAdd 0 x.census (frameEnables i f)
      if censusBad census then .fail d x stDriver (relocated x.pan a)
      else d.putNext { x with items := rest, lastAddr := i, recv := x.recv + 1, census := census } f c

/-- The image frames of a real staging or pre-stage. -/
def Dev.imageFrame (d : Dev) (x : Pass) (c : WriteCheck) : PassOut :=
  match d.imgHdr x.img with
  | none => .wait
  | some h =>
    let loaded := if x.items.isEmpty && !x.ended then (d.enterMember x h).bind fun y => d.loadSegment y h else some x
    match loaded with
    | none => .wait
    | some y =>
      match y.items with
      | [] => if y.next < 6144 then d.putNext y 0 c else .wait
      | .err st a :: _ =>
        let st := st.toNat
        .fail d y st (if st = stFrame ∧ a.toNat ≠ 0xFFFFFF then relocated y.pan a.toNat else a.toNat)
      | .lit a f k :: rest => d.takeItem y a f (some k) rest c
      | .gen a f :: rest => d.takeItem y a f none rest c
      | .rep a src :: rest => d.takeItem y a (d.stagedFrame y src) none rest c

/-- The merged frames of a MIGRATE with CARRY (R249 step 4). -/
def Dev.carryFrame (d : Dev) (x : Pass) (c : WriteCheck) : PassOut :=
  match x.exec.bind d.op with
  | none => .wait
  | some o =>
    let place := if x.kind = .carryLogic then stateLogicFrames[x.next]? else stateRamFrames[x.next]?
    match place with
    | none => .wait
    | some rel =>
      let f := if x.kind = .carryLogic then mergeInit rel (o.keptFrame x.pan rel) (o.capQ.get [] x.pan) else ramFrame rel (o.capRam.get [] x.pan)
      let (d1, ok) := d.laneWrite x rel f c
      let x1 := { x with written := x.written + 1, next := x.next + 1 }
      if ok then .go d1 x1 else .fail d1 x1 stFrame (relocated x.pan (frameAddr rel))

/-- A lane takes one frame (R165, R188). A Store that is FAULTED or unpowered gives it nothing (R20); a unit of the image that
the Store cannot read is worn (R149). -/
def Dev.passFrame (d : Dev) (x : Pass) (a : Arrival) (c : WriteCheck) : PassOut :=
  match x.kind, a, x.img with
  | .carryLogic, _, _ => d.carryFrame x c
  | .carryRam, _, _ => d.carryFrame x c
  | _, .storeFail k, .store u n =>
    if d.storeDead then .fail d x stUncorr x.recv
    else if decide (u ≤ k) && decide (k < u + ceilDiv n 65536) then .fail (d.wearOut k) x stUncorr x.recv
    else d.imageFrame x c
  | _, _, .store _ _ => if d.storeDead then .fail d x stUncorr x.recv else d.imageFrame x c
  | _, .hostFail, .host _ => .fail d x stHostAbort x.recv
  | _, _, _ => d.imageFrame x c

/-- The final checks of a pass (R166, R186 step 7): none while it is not at its end. -/
def Dev.passChecks (d : Dev) (x : Pass) : Option (Option (Nat × Nat)) :=
  if x.next < x.total then none
  else match x.kind with
    | .carryLogic => some none
    | .carryRam => some none
    | _ =>
      if !x.items.isEmpty || !x.ended then none
      else match d.imgDigest x.img with
        | none => none
        | some g => if !x.full.isEmpty && g != x.full then some (some (stAuth, 0xFFFFFF)) else some none

/-- A lane is free (R167). -/
def Dev.laneFree (d : Dev) (l : Nat) : Bool := d.ust (uLane l) == .idle && (d.lanePass l).isNone

/-- The lowest free lane. -/
def Dev.freeLane (d : Dev) : Option Nat := firstBelow 4 d.laneFree

/-- A real pass waits for a lane. -/
def Dev.realWaits (d : Dev) : Bool := d.cfg.passes.any fun x => x.lane.isNone && x.kind != .pre

/-- A pass leaves its lane: a real one takes the lane to IDLE (R167). -/
def Dev.quitLane (d : Dev) (x : Pass) : Dev :=
  let d1 := (d.dropPass x).modPan x.pan fun p => { p with shadowWriting := false }
  match x.lane with
  | none => d1
  | some l => if x.kind != .pre && d1.ust (uLane l) == .running then d1.setUnit (uLane l) .idle .device else d1

/-- A pass ends and leaves its lane; CFG_PASS_COUNT counts a real one that had a lane. -/
def Dev.leaveLane (d : Dev) (x : Pass) (ok : Bool) : Dev :=
  if x.lane.isNone || x.kind == .pre || x.kind == .carryLogic || x.kind == .carryRam then d.quitLane x
  else
    let k := if ok then 0 else 16
    let w := d.cfg.passCount
    ({ d with cfg := { d.cfg with passCount := setFld w k 16 (min 0xFFFF (fld w k 16 + 1)) } } : Dev).quitLane x

/-- Tokens of the frames that an early end leaves unwritten go back (R239). A pass that skipped the state-bearing frames
returns those too. -/
def Dev.refund (d : Dev) (x : Pass) : Dev :=
  match x.kind with
  | .carryLogic => d.returnTokens x.pan (2048 - x.written)
  | .carryRam => d.returnTokens x.pan (864 - x.written)
  | _ => if x.lane.isSome then d.returnTokens x.pan (6144 - x.written) else d

/-- CFG_LANE[n] (R209). In a full device load the pass is that of the unit loaded now, whose frames are written in ascending
order without a gap (R177). -/
def Dev.laneWord (d : Dev) (l : Nat) : Word :=
  match d.lanePass l with
  | some x => pack [(x.pan, 0, 6), (if x.kind = .pre then 2 else 1, 6, 2), (min x.written 6144, 8, 13), (min (x.epoch - 1) 0x7FF, 21, 11)]
  | none =>
    match d.cfg.load with
    | some g =>
      if l = 0 ∧ g.started then
        let k := g.last.getD 0
        let (pan, n) := if k < 393216 then (k / 6144, k % 6144) else (0, k - 393216)
        pack [(pan, 0, 6), (3, 6, 2), (if g.last.isSome then n + 1 else 0, 8, 13), (min g.epoch 0x7FF, 21, 11)]
      else 0
    | none => 0

end Sys2Proof.Machine
end

