-- ==== Sys2Proof/Machine/LinkTx.lean ====
section
/-! DEFINITION. The sending side of a Brera link: routes, credits, the replay buffer and the outstanding table (R436–R449). -/

namespace Sys2Proof.Machine

/-- A port in far-end loopback: what it receives on the line is sent back on the line and is otherwise not looked at
(D4 of R8, R456). -/
def Dev.farLoop (d : Dev) (n : Nat) : Bool := (d.link n).loop == some 4

/-- MODE in force is BRERA (R424). -/
def LinkPort.brera? (l : LinkPort) : Bool := fld l.inForce 0 3 == 5

/-- Lanes of a BRERA lead: 0 ×1, 1 ×2, 2 ×4; 3 acts as 0 (R460). -/
def lanesOf (c : Word) : Nat := let n := fld c 5 2; if n = 3 then 0 else n

/-- RATE of a LINK_CTRL; 3 acts as 0 (R460). -/
def rateOf (c : Word) : Nat := let n := fld c 3 2; if n = 3 then 0 else n

/-- The LINK_CTRL that counts for a port: the sampled one while it trains or runs (R427). -/
def Dev.linkCfg (d : Dev) (n : Nat) : Word :=
  let l := d.link n
  if l.training || d.ust (uLink n) == .running || d.ust (uLink n) == .quiesced then l.inForce else l.ctrl

/-- The lead port of the bonded link that port `n` belongs to; its own number when it is a member of no other (R436). -/
def Dev.leadOf (d : Dev) (n : Nat) : Nat :=
  let q := n / 4 * 4
  let bond (p lanes : Nat) : Bool := let c := d.linkCfg p; fld c 0 3 == 5 && decide (lanes ≤ lanesOf c)
  if n % 4 ≠ 0 ∧ bond q 2 then q
  else if n % 2 = 1 ∧ bond (n - 1) 1 then n - 1
  else n

/-- The member ports of the link that port `n` leads, itself first. -/
def Dev.members (d : Dev) (n : Nat) : List Nat := (List.range 4).map (n / 4 * 4 + ·) |>.filter fun m => d.leadOf m == n

/-- The tandem partner that port `n` names and that names it (R444). -/
def Dev.pairOf (d : Dev) (n : Nat) : Option Nat :=
  let l := d.link n
  let p := fld l.brera 16 7
  let o := d.link p
  if l.brera? && bit l.inForce 10 && p < 96 && p / 4 != n / 4 && o.brera? && bit o.inForce 10 && fld o.brera 16 7 == n then some p
  else none

/-- The port that keeps the link-layer state: the lower lead of a tandem pair (R444). -/
def Dev.lhome (d : Dev) (n : Nat) : Nat := match d.pairOf n with | some p => min n p | none => n

/-- The leads of the links that a home port stands for and that are RUNNING. -/
def Dev.runningLeads (d : Dev) (h : Nat) : List Nat :=
  (h :: (match d.pairOf h with | some p => [p] | none => [])).filter fun n => d.ust (uLink n) == .running

/-- Port `p` leads a BRERA link that is RUNNING, tandem partner included (R446). -/
def Dev.routeUp (d : Dev) (p : Nat) : Bool :=
  p < 96 && d.leadOf p == p && (d.link p).brera? && !(d.runningLeads (d.lhome p)).isEmpty

/-- The egress of a request for another device; none: LINK_DOWN (R446). -/
def Dev.routeFor (d : Dev) (dev : Nat) : Option Nat :=
  let e := d.routes.get 0 dev
  if bit e 7 && d.routeUp (fld e 0 7) then some (d.lhome (fld e 0 7))
  else if bit e 15 && d.routeUp (fld e 8 7) then some (d.lhome (fld e 8 7))
  else none

/-- Cells a packet occupies (R439). -/
def Packet.cells (p : Packet) : Nat := 1 + p.payload.length

/-- Bytes of a packet in the replay buffer: START, header, payload and END blocks (R438). -/
def Packet.bytes (p : Packet) : Nat := 8 * (6 + 8 * p.payload.length)

/-- Bytes 1–7 of the START block (R437). -/
def Packet.startBytes (p : Packet) : List Byte :=
  [if p.rsp then 0x00 else 0x02] ++ leBytes 2 p.seq.toNat ++ [BitVec.ofNat 8 (8 * p.payload.length), 0, 0, 0]

/-- The header (R438). -/
def Packet.header (p : Packet) : List Byte :=
  leBytes 8 p.addr.toNat ++ leBytes 8 p.be.toNat ++ leBytes 2 p.dstDev.toNat ++ leBytes 2 p.srcDev.toNat ++ leBytes 2 p.src.toNat ++
    leBytes 2 p.xid.toNat ++ [BitVec.ofNat 8 (b2n p.write + 2 * p.len.toNat + 16 * p.hops.toNat), p.status, 0, 0, 0, 0, 0, 0]

/-- The CRC of a packet: over bytes 1–7 of START, the header and the payload (R438). -/
def Packet.crcWord (p : Packet) : Word := crc32c (Packet.startBytes p ++ Packet.header p ++ p.payload.flatMap lineBytes)

/-- A packet passes its CRC; one that another control block interrupts fails it (R437). -/
def Packet.crcOk (p : Packet) : Bool := !p.broken && p.crc == Packet.crcWord p

/-- The replay buffer has room for a packet (R440). -/
def LinkPort.replayRoom (l : LinkPort) (p : Packet) : Bool :=
  l.unacked.length < 2048 && decide ((l.unacked.map fun u => Packet.bytes u.pkt).sum + Packet.bytes p ≤ 32768)

/-- The link holds enough credits for the packet's class (R439). -/
def LinkPort.hasCredits (l : LinkPort) (p : Packet) : Bool :=
  decide (Packet.cells p ≤ if p.rsp then l.credRsp else l.credReq)

/-- Stamp a packet with SEQ, the acknowledgement, the credits returned and its CRC (R437, R438). -/
def LinkPort.stamp (l : LinkPort) (p : Packet) : Packet :=
  let q := { p with
    seq := l.txSeq, broken := false, ack := l.rxSeq - 1, ackValid := l.rxAny
    rspCredits := BitVec.ofNat 4 (min 15 l.retRsp), reqCredits := BitVec.ofNat 4 (min 15 l.retReq) }
  { q with crc := Packet.crcWord q }

/-- Send one packet for the first time: it takes the next SEQ, debits credits and enters the replay buffer (R439, R440).
On a tandem pair it goes out on both links (R444). -/
def Dev.sendPacket (d : Dev) (h : Nat) (p : Packet) : Dev :=
  let l := d.link h
  let q := l.stamp p
  let d1 := d.modLink h fun l =>
    { l with
      txSeq := l.txSeq + 1, unacked := l.unacked ++ [{ pkt := q, replays := 0 }]
      credRsp := if p.rsp then l.credRsp - Packet.cells p else l.credRsp
      credReq := if p.rsp then l.credReq else l.credReq - Packet.cells p
      retRsp := l.retRsp - min 15 l.retRsp, retReq := l.retReq - min 15 l.retReq, ackDue := false }
  foldS (fun d n => d.emit (.linkPacket n q)) d1 (d.runningLeads h)

/-- Send what credits allow, each class in order. -/
def Dev.flushLinkN (d : Dev) (h : Nat) : Nat → Dev
  | 0 => d
  | k + 1 =>
    let l := d.link h
    let first (rsp : Bool) : Option Packet := l.sendQ.find? fun p => p.rsp == rsp
    let ready (o : Option Packet) : Option Packet := o.bind fun p => if l.hasCredits p && l.replayRoom p then some p else none
    match (ready (first true)).orElse fun _ => ready (first false) with
    | none => d
    | some p => ((d.modLink h fun l => { l with sendQ := l.sendQ.erase p }).sendPacket h p).flushLinkN h k

/-- A packet waits for a link whose peer sleeps: the port drives the lanes, which wakes the peer by signal detect (R455). -/
def Dev.wakePeer (d : Dev) (h : Nat) : Dev :=
  let l := d.link h
  if l.peerAsleep && !l.waking then
    foldS (fun d n => d.emit (.linkWake n)) (d.modLink h fun l => { l with waking := true }) (d.runningLeads h)
  else d

/-- Send what waits at a home port; a peer that sleeps is woken first (R455). -/
def Dev.flushLink (d : Dev) (h : Nat) : Dev :=
  if (d.runningLeads h).isEmpty || (d.link h).sendQ.isEmpty then d
  else if (d.link h).peerAsleep then d.wakePeer h
  else d.flushLinkN h (d.link h).sendQ.length

/-- An IDLE block of the port's own carries the acknowledgement and the credits that no packet has carried (R437, R439). The
spec asks for one in every 256 blocks: it goes out as soon as something is owed (assumption 83). -/
def Dev.idleBlock (d : Dev) (h : Nat) : Dev :=
  let l := d.link h
  match (if l.peerAsleep || (l.retRsp == 0 && l.retReq == 0 && !l.ackDue) then [] else d.runningLeads h) with
  | [] => d
  | n :: _ =>
    (d.modLink h fun l => { l with retRsp := l.retRsp - min 255 l.retRsp, retReq := l.retReq - min 255 l.retReq, ackDue := false }).emit
      (.linkIdle n (l.rxSeq - 1) l.rxAny (BitVec.ofNat 8 (min 255 l.retRsp)) (BitVec.ofNat 8 (min 255 l.retReq)))

/-- Queue a packet at a home port and send what may go. -/
def Dev.queuePacket (d : Dev) (h : Nat) (p : Packet) : Dev :=
  (d.modLink h fun l => { l with sendQ := l.sendQ ++ [p] }).flushLink h

/-- The lowest free entry of the outstanding table (R448). -/
def LinkPort.freeXid (l : LinkPort) : Option Nat := firstBelow 512 fun i => l.xids.get .free i == .free

/-- Free entries of the outstanding table. -/
def LinkPort.freeXids (l : LinkPort) : Nat := (List.range 512).countP fun i => l.xids.get .free i == .free

/-- A packet with every field empty. -/
def Packet.blank : Packet :=
  { rsp := false, seq := 0, addr := 0, be := 0, dstDev := 0, srcDev := 0, src := 0, xid := 0, write := false, len := 0
    hops := 0, status := 0, payload := [], crc := 0, broken := false, ack := 0, ackValid := false, rspCredits := 0, reqCredits := 0 }

/-- The device's own ID (R273). -/
def Dev.ownId (d : Dev) : Nat := fld d.sl.ctrl 0 14

/-- Send a response toward a device by the route table, its header naming the requester's device and unit (R438); without a
route it is dropped (R447, R448). -/
def Dev.sendRsp (d : Dev) (dev : BitVec 14) (src xid : BitVec 16) (status : Byte) (payload : List Line) : Dev :=
  match d.routeFor dev.toNat with
  | none => d
  | some h =>
    d.queuePacket h { Packet.blank with
      rsp := true, dstDev := dev, srcDev := dev, src := src, xid := xid, status := status, payload := payload
      len := BitVec.ofNat 3 (payload.length - 1) }

end Sys2Proof.Machine
end

