-- ==== Sys2Proof/Machine/Sluice.lean ====
section
/-! DEFINITION. The Sluice (chapter "The Sluice On-Chip Network"): ingresses, translation, invalidation, egress
reservation, pan Sluice ports and responses. The hops of a message through the mesh are timing and are left out. -/

namespace Sys2Proof.Machine

/-! ### Places (R266–R268) -/

/-- The router an ingress attaches to (R267, R268). -/
def ingressRouter (i : Nat) : Nat :=
  if i < 64 then i
  else if i < 88 then
    let q := i - 64
    if q < 6 then 1 + q else if q < 12 then 15 + 8 * (q - 6) else if q < 18 then 74 - q else 48 - 8 * (q - 18)
  else match i - 88 with | 0 => 0 | 1 => 7 | 2 => 56 | _ => 63

/-- Hops between two routers (R266, R271). -/
def hops (a b : Nat) : Nat :=
  (max (a / 8) (b / 8) - min (a / 8) (b / 8)) + (max (a % 8) (b % 8) - min (a % 8) (b % 8))

/-- An ingress. -/
def Dev.ing (d : Dev) (i : Nat) : Ingress := d.sl.ingress.get {} i
/-- Change an ingress. -/
def Dev.modIng (d : Dev) (i : Nat) (f : Ingress → Ingress) : Dev :=
  { d with sl := { d.sl with ingress := d.sl.ingress.modify {} i f } }
/-- A destination with egress slots: pan 0–63, link port n at 64 + n. -/
def Dev.dest (d : Dev) (k : Nat) : SlDest := d.sl.dests.get {} k
/-- Change a destination. -/
def Dev.modDest (d : Dev) (k : Nat) (f : SlDest → SlDest) : Dev :=
  { d with sl := { d.sl with dests := d.sl.dests.modify {} k f } }
/-- A request in flight. -/
def Dev.req (d : Dev) (r : Nat) : Option SlIn := d.sl.reqs.get none r
/-- Change a request. -/
def Dev.modReq (d : Dev) (r : Nat) (f : SlIn → SlIn) : Dev :=
  { d with sl := { d.sl with reqs := d.sl.reqs.modify none r fun o => o.map f } }
/-- Put a request into a stage. -/
def Dev.stageReq (d : Dev) (r : Nat) (s : ReqStage) : Dev := d.modReq r fun q => { q with stage := s }
/-- Remove a request. -/
def Dev.dropReq (d : Dev) (r : Nat) : Dev := { d with sl := { d.sl with reqs := d.sl.reqs.set none r none } }
/-- The requests in flight, oldest first. -/
def Dev.live (d : Dev) : List (Nat × SlIn) := d.sl.reqs.filterMap fun e => e.2.map fun q => (e.1, q)
/-- Requests of an ingress that await their response (R295). -/
def Dev.outstanding (d : Dev) (i : Nat) : List (Nat × SlIn) := d.live.filter fun e => e.2.ingress == i

/-- Response lines a request reserves: LEN + 1 for a read, one for a write (R281). -/
def SlIn.space (q : SlIn) : Nat := if q.write then 1 else q.lines

/-- The unit that issued a request (R280, R294). -/
def Dev.reqUnit (d : Dev) (q : SlIn) : Nat :=
  match q.by_ with
  | .pan p _ => uPan p
  | .exec e _ => match d.exec e with | some x => x.iss.unit | none => uHost (q.ingress - 88)
  | .link _ src _ _ => src.toNat
  | .rx p => uLink p
  | .tx p => uLink p

/-- The device of a requester. -/
def Dev.reqDev (d : Dev) (q : SlIn) : BitVec 14 :=
  match q.by_ with
  | .link _ _ dev _ => dev
  | _ => BitVec.ofNat 14 d.ownId

/-- Partition `t` includes ingress `i` (R583, W0–W1 of R580). -/
def Dev.ingressIn (d : Dev) (t i : Nat) : Bool :=
  if i < 64 then d.inPart t (uPan i)
  else if i < 88 then (d.part t).links.getLsbD (4 * (i - 64))
  else (d.part t).all || t == 4 || t == i - 88

/-- A binding's owner passes R277 at an ingress: some partition includes both when there is no owner (R583). -/
def Dev.transOk (d : Dev) (i : Nat) (owner : BitVec 4) (t : Trans) : Bool :=
  if owner = 0xE then
    [0, 1, 2, 3, 4].any fun k => d.ingressIn k i && (match t with | .endpoint p _ => d.inPart k (uPan p) | .page _ _ _ _ => true)
  else d.ingressIn (if owner = 0xF then 4 else owner.toNat) i

/-! ### Error capture (R285, R294) -/

/-- The flags of SLUICE_ERR. -/
def slFlags : Word := 0x000300FF

/-- A flagged response: flag `f`, its status and its requester; the first since the flags were all clear is recorded (R285,
R294). -/
def Dev.slErr (d : Dev) (f status : Nat) (q : SlIn) : Dev :=
  let s := d.sl
  let first := !s.errHeld
  { d with sl := { s with
      err := setBit (if first then setFld s.err 8 8 status else s.err) f true, errHeld := true
      errAddr := if first then q.addr else s.errAddr
      errSrc := if first then pack [(d.reqUnit q, 0, 16), (q.ingress, 16, 7)] else s.errSrc } }

/-- The flag of a status that the Sluice or a link produces. -/
def slFlag (status : Nat) : Option Nat :=
  if status = stRefused then some 0
  else if status = stPerm then some 1
  else if status = stRegion then some 2
  else if status = stUncorr then some 3
  else if status = stBusy then some 6
  else if status = stLinkDown then some 7
  else if status = stInternal then some 16
  else none

/-! ### Responses (R280, R285) -/

/-- A response leaves for its ingress: a status and data for each line. -/
def Dev.respond (d : Dev) (r : Nat) (lines : List (Byte × Line)) : Dev :=
  match d.req r with
  | none => d
  | some q => (d.stageReq r .responding).modIng q.ingress fun i => { i with resp := i.resp ++ [{ rid := r, lines := lines }] }

/-- The response to a read returns a poisoned word: it came DONE with its data (R286). -/
def SlIn.poisons (q : SlIn) (lines : List (Byte × Line)) : Bool := !q.write && q.poison && lines.any fun l => l.1 == 0

/-- The beats of a response with one status: one for a write, one for each line of a read. -/
def SlIn.uniform (q : SlIn) (status : Nat) : List (Byte × Line) :=
  List.replicate q.space (BitVec.ofNat 8 status, 0)

/-- A response that the Sluice itself or a link port produces (R285). -/
def Dev.answer (d : Dev) (r status : Nat) : Dev :=
  match d.req r with
  | none => d
  | some q =>
    let d1 := match slFlag status with | some f => d.slErr f status q | none => d
    d1.respond r (q.uniform status)

/-! ### Egress slots (R278, R279, R449) -/

/-- Inbound requests a pan port holds (R281). -/
def panSlots : Nat := 32

/-- An ingress of a quad: what leaves there on a link is in transit (R447). -/
def quadIngress (i : Nat) : Bool := decide (64 ≤ i) && decide (i < 88)

/-- Slots of a link egress that requesters of this device hold unspent. -/
def Dev.localSlots (d : Dev) (k : Nat) : Nat :=
  (d.sl.ingress.map fun e => if quadIngress e.1 then 0 else e.2.slots.get 0 k).sum

/-- Slots a destination may still grant to an ingress. A request of this device needs a free entry of the egress's outstanding
table; one in transit takes none (R449). -/
def Dev.freeSlots (d : Dev) (k i : Nat) : Nat :=
  if k < 64 then panSlots - (d.dest k).granted
  else
    let room := 32 - (d.link (k - 64)).sendQ.length - (d.dest k).granted
    if quadIngress i then room else min room ((d.link (k - 64)).freeXids - d.localSlots k)

/-- Give a slot of a destination back. -/
def Dev.freeSlot (d : Dev) (k : Nat) : Dev := d.modDest k fun t => { t with granted := t.granted - 1 }

/-- The read in transit that device `dev` numbered `xid`. -/
def SlIn.transits (dev : BitVec 14) (xid : BitVec 16) (q : SlIn) : Bool :=
  match q.by_ with
  | .link _ _ dv x => dv == dev && x == xid
  | _ => false

/-- A request passes in transit: the Sluice remembers a read whose answer will carry a poisoned word (R286). -/
def Dev.noteTransit (d : Dev) (dev : BitVec 14) (xid : BitVec 16) (q : SlIn) : Dev :=
  { d with sl := { d.sl with
      transit := d.sl.transit.filter (fun x => !x.transits dev xid) ++ if q.poison && !q.write then [q] else [] } }

/-- The answer to a read in transit leaves this device: UNCORRECTABLE with its flag where it returns a poisoned word (R285,
R286). -/
def Dev.transitAnswer (d : Dev) (p : Packet) : Dev × Packet :=
  match d.sl.transit.find? fun q => q.transits p.dstDev p.xid with
  | none => (d, p)
  | some q =>
    let d1 : Dev := { d with sl := { d.sl with transit := d.sl.transit.erase q } }
    if p.status == 0 then (d1.slErr 3 stUncorr q, { p with status := BitVec.ofNat 8 stUncorr, payload := [] }) else (d1, p)

/-- A request leaves its device on a link: it takes an entry of the outstanding table (R448), or passes in transit
(R447). A poisoned write is answered at once (R286). -/
def Dev.egress (d : Dev) (h r : Nat) : Dev :=
  match d.req r with
  | none => d
  | some q =>
    if q.write && q.poison then d.answer r stUncorr
    else
      let l := d.link h
      let pkt (xid : BitVec 16) (hopn : Nat) : Packet :=
        { Packet.blank with
          addr := q.addr, be := if q.write && q.lines == 1 then q.be else 0, dstDev := BitVec.ofNat 14 (slDev q.addr)
          srcDev := d.reqDev q, src := BitVec.ofNat 16 (d.reqUnit q), xid := xid, write := q.write
          len := BitVec.ofNat 3 (q.lines - 1), hops := BitVec.ofNat 4 hopn, payload := if q.write then q.data else [] }
      match q.by_ with
      | .link _ _ dev xid => ((d.dropReq r).noteTransit dev xid q).queuePacket h (pkt xid q.hops)
      | _ =>
        match l.freeXid with
        | none => d.answer r stLinkDown
        | some e =>
          ((d.modLink h fun l => { l with xids := l.xids.set .free e (.used r) }).stageReq r (.egress h)).queuePacket h
            (pkt (BitVec.ofNat 16 (h * 512 + e)) 0)

/-- A request with a slot enters its destination. -/
def Dev.enterDest (d : Dev) (k r : Nat) : Dev :=
  if k < 64 then
    (d.modReq r fun q => { q with stage := .portQueue k q.loc }).modDest k fun t => { t with queue := t.queue ++ [r] }
  else (d.freeSlot k).egress (k - 64) r

/-- Requests of an ingress that wait for slots of a destination, oldest first. -/
def Dev.waitingFor (d : Dev) (i k : Nat) : List Nat :=
  (d.live.filter fun e => e.2.ingress == i && e.2.stage == .wantSlot k).map fun e => e.1

/-- Spend an ingress's slots on its waiting requests, in order. -/
def Dev.spend (d : Dev) (i k : Nat) : Dev :=
  foldS (fun d r =>
    let n := (d.ing i).slots.get 0 k
    if n = 0 then d else (d.modIng i fun g => { g with slots := g.slots.set 0 k (n - 1) }).enterDest k r) d (d.waitingFor i k)

/-- A request reaches the reservation point of its destination: it spends a slot that its ingress holds, or waits. -/
def Dev.wantSlot (d : Dev) (r k : Nat) : Dev :=
  match d.req r with
  | none => d
  | some q => (d.stageReq r (.wantSlot k)).spend q.ingress k

/-- RESERVE reaches a destination (R278, R279): one outstanding for each ingress and destination, for 1–8 slots. At a link whose
peer sleeps it wakes the peer (R455). -/
def opReserve (i k : Nat) (d : Dev) : Dev :=
  let n := (d.waitingFor i k).length
  if n = 0 || d.sluiceStops || (d.dest k).table.any fun e => e.1 == i then d
  else
    let d1 := d.modDest k fun t => { t with table := t.table ++ [(i, min n 8)] }
    if 64 ≤ k then d1.wakePeer (k - 64) else d1

/-- The domain of a pan or of another unit sleeps (R48). -/
def Dev.domSleeps (d : Dev) (k : Nat) : Bool := d.pwr.slept.contains k

/-- GRANT: the destination grants the slots that are free to the ingress whose RESERVE came first of those that it may grant to
(R278, R449). A HELD port and a sleeping pan withhold grants (R283). -/
def opGrant (k : Nat) (d : Dev) : Dev :=
  match (d.dest k).table.find? fun e => d.freeSlots k e.1 != 0 with
  | none => d
  | some (i, n) =>
    if d.sluiceStops || (decide (k < 64) && ((d.pan k).port == .held || d.domSleeps k)) ||
        (decide (64 ≤ k) && (d.link (k - 64)).peerAsleep) then d
    else
      let g := min n (d.freeSlots k i)
      let d1 := d.modDest k fun t =>
        { t with
          granted := t.granted + g
          table := if g < n then t.table.map (fun e => if e = (i, n) then (i, n - g) else e) else t.table.erase (i, n) }
      (d1.modIng i fun s => { s with slots := s.slots.set 0 k (s.slots.get 0 k + g) }).spend i k

/-- RETURN: slots unspent for 256 Sluice cycles go back (R278). -/
def opSlotReturn (i k : Nat) (d : Dev) : Dev :=
  let n := (d.ing i).slots.get 0 k
  if d.sluiceStops then d
  else (d.modIng i fun s => { s with slots := s.slots.set 0 k 0 }).modDest k fun t => { t with granted := t.granted - n }

/-! ### Translation (R273–R277) -/

/-- What the tag map says of a tag and pool page (R274, R276). -/
def Dev.tagMap (d : Dev) (tag k : Nat) : Option TcEntry :=
  if tag < 0xF000 then
    (d.rake.tags.get none tag).map fun b => { tag := tag, trans := .endpoint b.pan b.loc, owner := b.owner, size := 0 }
  else
    (d.rake.pools.get none tag).map fun p =>
      let pg := p.pages.getD k (0, 0)
      { tag := tag, trans := .page tag k pg.1 pg.2, owner := p.owner, size := p.size }

/-- A cache entry serves a tag and page. -/
def TcEntry.serves (e : TcEntry) (tag k : Nat) : Bool :=
  e.tag == tag && (match e.trans with | .endpoint _ _ => true | .page _ j _ _ => j == k)

/-- Pool page of an address; endpoints have none. -/
def pageOf (a : DWord) : Nat := if slTag a < 0xF000 then 0 else slOff a / 4096

/-- Outputs of a router: 0–3 to its neighbours, 4 the pan port, 5 and 6 banks 2r and 2r + 1, 7 the edge attachment, 8 the
control attachment (assumption 80). The bank at an output. -/
def bankOutput (r o : Nat) : Option Nat := if o = 5 ∨ o = 6 then some (2 * r + o - 5) else none

/-- The output that leads to bank `n`, as a resource of R36. -/
def outputRes (n : Nat) : Nat := 65536 + n

/-- Requests in the router before bank `n`, oldest first (R310). -/
def Dev.waitingAt (d : Dev) (n : Nat) : List (Nat × SlIn) :=
  d.live.filter fun e => match e.2.stage with | .atOutput b _ _ => b == n | _ => false

/-- Requests that a bank's queue holds (R310). -/
def bankQueue : Nat := 32

/-- With room in bank `n`'s queue, the request that R36 and R38 grant of those before it enters (R272, R310). -/
def Dev.admitBank (d : Dev) (n : Nat) : Dev :=
  match (if (d.bank n).queue.length < bankQueue then
      (orderBy (fun (a b : Nat × SlIn) => d.grantBefore (outputRes n) a.2.contender b.2.contender) (d.waitingAt n)).head? else none) with
  | some (r, q) =>
    (match q.stage with
     | .atOutput _ page line =>
       (((d.grantTo (outputRes n) q.contender).stageReq r (.bank n page line))).modBank n fun x => { x with queue := x.queue ++ [r] }
     | _ => d)
  | none => d

/-- A translated request goes on (R276, R277). -/
def Dev.translated (d : Dev) (r : Nat) (t : Option TcEntry) : Dev :=
  match d.req r, t with
  | none, _ => d
  | some _, none => d.answer r stRefused
  | some q, some e =>
    if !d.transOk q.ingress e.owner e.trans then d.answer r stPerm
    else match e.trans with
      | .endpoint p l => (d.modReq r fun q => { q with loc := l }).wantSlot r p
      | .page _ k b pg =>
        if k ≥ e.size then d.answer r stRegion
        else
          let line := slOff q.addr / 64 % 64
          (d.modReq r fun q => { q with stage := .atOutput b pg line, reached := some (b, pg, line) }).admitBank b

/-- A request that needs translation: it waits behind an outstanding miss of its tag and pool page, which it may not pass
(R274, R287); else a hit goes on, and a miss waits. -/
def Dev.translate (d : Dev) (r : Nat) : Dev :=
  match d.req r with
  | none => d
  | some q =>
    let g := d.ing q.ingress
    let tag := slTag q.addr
    let k := pageOf q.addr
    if g.misses.any fun m => m.tag == tag && m.k == k then d.stageReq r .lookup
    else match (if bit d.sl.ctrl 16 then g.cache.find? fun e => e.serves tag k else none) with
    | some e =>
      (d.modIng q.ingress fun g => { g with hit := satInc g.hit, cache := e :: g.cache.erase e }).translated r (some e)
    | none =>
      (d.stageReq r .lookup).modIng q.ingress fun g =>
        { g with miss := satInc g.miss, misses := g.misses ++ [{ tag := tag, k := k, reply := none }] }

/-- Pool page `k` is MOVING: its LOOKUPs are not answered (R325). -/
def Dev.pageMoving (d : Dev) (tag k : Nat) : Bool :=
  d.rake.moves.any fun m => m.handle == tag && m.k == k && m.phase == .close

/-- LOOKUP: the control attachment answers the oldest miss it may answer (R274, R325). The REPLYs on their way stand first, in
the order they were sent (R270). -/
def opLookup (i : Nat) (d : Dev) : Dev :=
  let g := d.ing i
  if d.sluiceStops then d else match g.misses.find? fun m => m.reply.isNone && !d.pageMoving m.tag m.k with
  | none => d
  | some m =>
    let ans := d.tagMap m.tag m.k
    let n := d.sl.ctlSent
    let d1 := d.modIng i fun g =>
      let rest := g.misses.erase m
      { g with misses := rest.filter (fun x => x.reply.isSome) ++ { m with reply := some ans, sent := n } :: rest.filter fun x => x.reply.isNone }
    { d1 with sl := { d1.sl with ctlSent := n + 1 } }

/-- An answer is installed: it is bound, in range, and the cache is enabled (R274, R292). -/
def Dev.installs (d : Dev) (e : TcEntry) : Bool :=
  bit d.sl.ctrl 16 && (match e.trans with | .endpoint _ _ => true | .page _ k _ _ => decide (k < e.size))

/-- An INVAL that was sent before `n` has not yet reached router `r` (R270). -/
def Dev.invalBefore (d : Dev) (r n : Nat) : Bool := d.sl.invals.any fun v => decide (v.sent < n) && v.left.contains r

/-- REPLY: the oldest on its way arrives, behind the INVALs sent before it; the answer is installed and the requests that
waited go on (R270, R274). -/
def opReply (i : Nat) (d : Dev) : Dev :=
  let g := d.ing i
  match (if d.sluiceStops then none else (g.misses.find? fun m => m.reply.isSome).filter fun m => !d.invalBefore (ingressRouter i) m.sent) with
  | none => d
  | some m =>
    let ans := m.reply.getD none
    let cache := match ans with
      | some e => if d.installs e then (e :: g.cache.filter fun x => !x.serves m.tag m.k).take 512 else g.cache
      | none => g.cache
    let d1 := d.modIng i fun g => { g with misses := g.misses.erase m, cache := cache }
    let waits (q : SlIn) : Bool := q.ingress == i && q.stage == .lookup && slTag q.addr == m.tag && pageOf q.addr == m.k
    foldS (fun d e => if (d.req e.1).any waits then d.translated e.1 ans else d) d1 d1.live

/-! ### Presenting a request (R273, R280, R281, R286) -/

/-- Correctable flit errors are counted; a header error halts the Sluice (R286). -/
def Dev.flitErrors (d : Dev) (q : SlIn) : FlitErr → Dev
  | .none => d
  | .single n => { d with sl := { d.sl with ce := satAdd d.sl.ce n } }
  | .doubleData => d.slErr 3 stUncorr q
  | .doubleHeader k =>
    let d1 := { d with sl := { d.sl with halted := true, faultRouter := BitVec.ofNat 6 k } }
    (d1.slErr 4 stInternal q).fault (uRouter k) stInternal 0

/-- A new request of an ingress enters the Sluice: to another device, answered at once, or translated. -/
def Dev.enter (d : Dev) (q : SlIn) : Dev :=
  let r := d.sl.nextReq
  let d1 := { d with sl := { d.sl with reqs := d.sl.reqs.set none r (some q), nextReq := r + 1 } }
  if slDev q.addr ≠ d.ownId then
    match d1.routeFor (slDev q.addr) with
    | none => d1.answer r stLinkDown
    | some h => d1.wantSlot r (64 + h)
  else if slTag q.addr = 0 then d1.answer r stRefused
  else if slOff q.addr / 64 % 64 + q.lines > 64 then d1.answer r stRegion
  else d1.translate r

/-- A line request between a link port and its bound module, without translation (R430). -/
def Dev.enterDirect (d : Dev) (q : SlIn) (p loc : Nat) : Dev :=
  let r := d.sl.nextReq
  ({ d with sl := { d.sl with reqs := d.sl.reqs.set none r (some { q with loc := loc }), nextReq := r + 1 } }).wantSlot r p

/-- Two requesters of one ingress are one: a module, a descriptor, a link (R279). -/
def sameRequester : Requester → Requester → Bool
  | .pan a _, .pan b _ => a == b
  | .exec a _, .exec b _ => a == b
  | .link a _ _ _, .link b _ _ _ => a == b
  | .rx a, .rx b => a == b
  | .tx a, .tx b => a == b
  | _, _ => false

/-- The request's own requester waits for a grant, so it stalls (R279). -/
def Dev.stalls (d : Dev) (q : SlIn) : Bool :=
  d.live.any fun e => e.2.ingress == q.ingress && sameRequester e.2.by_ q.by_ &&
    (match e.2.stage with | .wantSlot _ => true | _ => false)

/-- Outstanding requests and response lines an ingress may hold (R281, R366, R447). -/
def ingressLimits (i : Nat) : Nat × Nat := if i < 64 then (64, 128) else if i < 88 then (256, 512) else (64, 256)

/-- A request needs a miss of its own: it is for this device, no outstanding miss is its, and no entry serves it (R274). -/
def Dev.newMiss (d : Dev) (q : SlIn) : Bool :=
  let g := d.ing q.ingress
  let tag := slTag q.addr
  let k := pageOf q.addr
  slDev q.addr == d.ownId && tag != 0 && decide (slOff q.addr / 64 % 64 + q.lines ≤ 64) &&
    !(bit d.sl.ctrl 16 && g.cache.any fun e => e.serves tag k) && !g.misses.any fun m => m.tag == tag && m.k == k

/-- Response space of a host port's ingress whose data have come but are not in host memory yet: they came before their turn, or wait
until the function may make requests (R366). -/
def Dev.unwritten (d : Dev) (i : Nat) : Nat :=
  if i < 88 then 0
  else
    let p := i - 88
    let ahead (x : Exec) : Nat := match x.kind with
      | .xfer t => if t.dstSl || !x.onPort p then 0 else (t.ahead.map fun a => (a.2.length + 63) / 64).sum
      | _ => 0
    (d.running.map fun x => ahead x.2).sum + ((d.hp p).posted.map fun w => (w.2.1.length + 63) / 64).sum

/-- The ingress takes a request now: admission is open, response space is free (R366), the miss table has room for a new miss, and
the requester does not stall (R274, R279, R281, R286). -/
def Dev.takes (d : Dev) (q : SlIn) : Bool :=
  let out := d.outstanding q.ingress
  let (n, lines) := ingressLimits q.ingress
  !d.sluiceStops && !d.domSleeps 108 && decide (out.length < n) &&
    decide ((out.map fun e => e.2.space).sum + d.unwritten q.ingress + q.space ≤ lines) && (!d.newMiss q || decide ((d.ing q.ingress).misses.length < 16)) && !d.stalls q

/-- A module may present a request: its pan runs, is not held, and the TID is free (R281). -/
def Dev.panTakes (d : Dev) (p tid : Nat) : Bool :=
  d.ust (uPan p) == .running && (d.pan p).port == .opened &&
    !((d.outstanding p).any fun e => match e.2.by_ with | .pan _ t => t == tid | _ => false)

/-- The request a module presents. -/
def panRequest (r : SlReq) : SlIn :=
  { ingress := r.ingress, by_ := .pan r.ingress r.tid.toNat, addr := r.addr, write := r.write, lines := r.len.toNat + 1
    be := if r.write && r.len == 0 then r.be else BitVec.allOnes 64, data := r.data
    poison := r.err == .doubleData, flip := none, stage := .lookup, tier := 5 }

/-- Present a request with the errors its flits met; nothing changes while it cannot be taken. -/
def Dev.present (d : Dev) (q : SlIn) (e : FlitErr) : Dev :=
  if !d.takes q then d
  else
    let d1 := d.flitErrors q e
    match e with
    | .doubleHeader _ =>
      let r := d1.sl.nextReq
      { d1 with sl := { d1.sl with reqs := d1.sl.reqs.set none r (some q), nextReq := r + 1 } }
    | _ => d1.enter { q with poison := e == .doubleData }

/-! ### Invalidation (R229, R275) -/

/-- The control attachment sends an INVAL to every router. -/
def Dev.sendInval (d : Dev) (k : InvalKind) (e : Option Nat) : Dev :=
  { d with sl := { d.sl with
      invals := d.sl.invals ++ [{ kind := k, left := List.range 64, exec := e, sent := d.sl.ctlSent }], ctlSent := d.sl.ctlSent + 1
      invalCount := satInc d.sl.invalCount } }

/-- TAGS for up to 16 tags, else ALL. -/
def invalOf (tags : List Nat) : InvalKind := if tags.length ≤ 16 then .tags tags else .all

/-- An entry that an INVAL removes. -/
def InvalKind.hits (k : InvalKind) (e : TcEntry) : Bool :=
  match k with
  | .tags l => l.contains e.tag
  | .page h j => e.serves h j
  | .all => true

/-- The router before `r` on the X-then-Y tree from router 27. -/
def invalParent (r : Nat) : Option Nat :=
  if r = 27 then none
  else if r / 8 < 3 then some (r + 8)
  else if r / 8 > 3 then some (r - 8)
  else if r % 8 < 3 then some (r + 1) else some (r - 1)

/-- A REPLY that was sent before `n` is still on its way to an ingress of router `r` (R270, R275). -/
def Dev.replyBefore (d : Dev) (r n : Nat) : Bool :=
  (List.range 92).any fun i => ingressRouter i == r && (d.ing i).misses.any fun m => m.reply.isSome && decide (m.sent < n)

/-- INVAL reaches router `r` behind the REPLYs sent before it: every ingress attached to it removes the matching entries and,
for a moving page, sends a page mark to the source bank (R270, R275, R325). -/
def opInval (r : Nat) (d : Dev) : Dev :=
  match (if d.sluiceStops then none else d.sl.invals.find? fun v =>
      v.left.contains r && (match invalParent r with | none => true | some p => !v.left.contains p) && !d.replyBefore r v.sent) with
  | none => d
  | some v =>
    let at_ := (List.range 92).filter fun i => ingressRouter i == r
    let d1 := foldS (fun d i => d.modIng i fun g =>
      { g with cache := g.cache.filter (fun e => !v.kind.hits e), inval := satAdd g.inval (g.cache.countP v.kind.hits) }) d at_
    let marks := match v.kind with
      | .page h k =>
        (match d.rake.moves.find? fun m => m.handle == h && m.k == k with
         | some m => at_.map fun i => (i, m.srcBank, m.srcPage)
         | none => [])
      | _ => []
    { d1 with sl := { d1.sl with
        marks := d1.sl.marks ++ marks
        invals := d1.sl.invals.map fun x => if x == v then { x with left := x.left.erase r } else x } }

/-! ### Pan Sluice ports (R283, R284) -/

/-- CLOSE as the Rake or a stop sends it. -/
def Dev.closePort (d : Dev) (p : Nat) (s : PortSt) : Dev := d.modPan p fun x => { x with port := s }

/-- CLOSE reaches a pan port (R283): it sets a state that the table gives for the pan as it stands. -/
def opClose (p : Nat) (c : CloseTo) (d : Dev) : Dev :=
  let u := d.ust (uPan p)
  let (s, ok) : PortSt × Bool := match c with
    | .held => (.held, u == .staged || ((d.pan p).srcCommitHold && u == .running))
    | .refusing => (.refusing, u == .quiesced || ((d.pan p).srcCommitHold && u == .running))
    | .empty => (.empty, u == .idle || u == .staged || u == .faulted || u == .off)
  if ok then d.closePort p s else d

/-- OPEN reaches a pan port: the pan is RUNNING and its borders are released (R283). -/
def opOpen (p : Nat) (d : Dev) : Dev :=
  if d.ust (uPan p) == .running && !(d.pan p).shut && !(d.pan p).srcCommitHold then d.closePort p .opened else d

/-- A free ITAG of a pan port (R281). -/
def Dev.freeItag (d : Dev) (p : Nat) : Option Nat :=
  firstBelow 32 fun t => !(d.live.any fun e => e.2.stage == .atModule p t)

/-- The oldest request queued at a pan port is delivered on RQI, or answered by the port state (R280, R283, R286). -/
def opEndpointRequest (p : Nat) (d : Dev) : Dev :=
  match (d.dest p).queue with
  | [] => d
  | r :: rest =>
    match d.req r with
    | none => d.modDest p fun t => { t with queue := rest }
    | some q =>
      let pop (d : Dev) : Dev := d.modDest p fun t => { t with queue := rest }
      let done (st : Nat) : Dev := ((pop d).freeSlot p).answer r st
      if d.sluiceStops || d.domSleeps p then d
      else match (d.pan p).port with
        | .held => d
        | .refusing => done stBusy
        | .empty => done stRefused
        | .opened =>
          if q.write && q.poison then done stUncorr
          else if q.write && q.be == 0 then done stDone
          else match d.freeItag p with
            | none => d
            | some t =>
              let d1 := (pop d).stageReq r (.atModule p t)
              (d1.panBeats p (if q.write then q.lines else 1)).emit
                (.rqi p t q.loc (BitVec.ofNat 34 (slOff q.addr)) q.write q.lines (BitVec.ofNat 16 (d.reqUnit q)) (d.reqDev q) q.be q.data)

/-- A module answers on RSO; its status reaches the requester unchanged (R282). A read that returns a
poisoned word is UNCORRECTABLE, which sets a flag (R285, R286). -/
def opEndpointResponse (p t : Nat) (st : Byte) (data : List Line) (d : Dev) : Dev :=
  match (if d.sluiceStops then none else d.live.find? fun e => e.2.stage == .atModule p t) with
  | none => d
  | some (r, q) =>
    let d1 := (d.freeSlot p).panBeats p (if q.write then 1 else q.lines)
    if q.write then d1.respond r [(st, 0)]
    else if q.poison && st == 0 then (d1.slErr 3 stUncorr q).respond r (q.uniform stUncorr)
    else d1.respond r ((List.range q.lines).map fun i => (st, data.getD i 0))

/-- BUSY for what the module had accepted and not answered, after an EVICT with FORCE (R284). -/
def Dev.busyModule (d : Dev) (p : Nat) : Dev :=
  foldS (fun d e =>
    match e.2.stage with
    | .atModule k _ => if k = p then (d.freeSlot p).answer e.1 stBusy else d
    | _ => d) d d.live

/-- Nothing of a pan port remains to drain: no queued inbound request and no response owed to it (R284). -/
def Dev.portDrainedOk (d : Dev) (p : Nat) : Bool :=
  (d.dest p).queue.isEmpty && (d.outstanding p).isEmpty

/-! ### Recovery (R286, R594) -/

/-- The recover command of class 0xA empties every buffer and reservation, answers every outstanding request INTERNAL
and reopens admission (R286). -/
def Dev.recoverSluice (d : Dev) : Dev :=
  let d1 := { d with
    sl := { d.sl with
      halted := false, dests := []
      ingress := d.sl.ingress.map fun e => (e.1, { e.2 with slots := [], misses := [], resp := [] }) }
    banks := d.banks.map fun e => (e.1, { e.2 with queue := [] }) }
  foldS (fun d e => d.answer e.1 stInternal) d1 d1.live

/-! ### Registers (R291–R295) -/

/-- WAITS of an ingress: RESERVE messages that await their grant at it, for a pan port those at the pan; it stays at 92, the end of
R295's range, where the four links of a quad have more (assumption 86). -/
def Dev.slPort (d : Dev) (i : Nat) : Word :=
  let st := if i < 64 then (match (d.pan i).port with | .opened => 0 | .held => 1 | .refusing => 2 | .empty => 3) else 0
  let inbound := if i < 64 then (d.live.countP fun e => match e.2.stage with | .portQueue p _ => p == i | .atModule p _ => p == i | _ => false)
    else if i < 88 then ((List.range 4).map fun j => (d.link (4 * (i - 64) + j)).rxReq.length).sum else 0
  let waits := if i < 64 then (d.dest i).table.length
    else if i < 88 then ((List.range 4).map fun j => (d.dest (64 + 4 * (i - 64) + j)).table.length).sum else 0
  pack [(st, 0, 2), (min (d.outstanding i).length 127, 8, 7), (min inbound 63, 16, 6), (min waits 92, 24, 8)]

/-- A read of the SLUICE block. -/
def Dev.readSluice (d : Dev) (sel : Nat → Word) (o : Nat) : Word :=
  let i := fld (sel 0x08) 0 7
  let g := d.ing i
  match o with
  | 0x00 => d.sl.ctrl
  | 0x04 => pack [(b2n d.sl.halted, 0, 1), (b2n (!d.sl.invals.isEmpty), 1, 1), (d.sl.faultRouter.toNat, 8, 6)]
  | 0x08 => sel 0x08 &&& 0x7F
  | 0x0C => if i < 92 then g.hit else 0
  | 0x10 => if i < 92 then g.miss else 0
  | 0x14 => if i < 92 then g.inval else 0
  | 0x18 => d.sl.invalCount
  | 0x1C => (d.sl.invalMax ++ d.sl.invalLast : BitVec 32)
  | 0x20 => d.sl.err
  | 0x24 => d.sl.errAddr.setWidth 32
  | 0x28 => (d.sl.errAddr >>> 32).setWidth 32
  | 0x2C => d.sl.errSrc
  | 0x30 => d.sl.ce
  | 0x34 => if i < 92 then d.slPort i else 0
  | _ => 0

/-- A write of the SLUICE block. -/
def Dev.writeSluice (d : Dev) (o : Nat) (v : Word) : Dev :=
  match o with
  | 0x00 => { d with sl := { d.sl with ctrl := merge 0x00013FFF d.sl.ctrl v } }
  | 0x20 =>
    let e := w1c d.sl.err (v &&& slFlags)
    { d with sl := { d.sl with err := e, errHeld := d.sl.errHeld && e &&& slFlags != 0 } }
  | _ => d

/-! ### The commands -/

/-- LOOKUP (R274). -/
def execLookup (ingress : Nat) (s : State) : Res :=
  runCmd (.lookup ingress) (opLookup ingress) s

/-- REPLY (R274). -/
def execReply (ingress : Nat) (s : State) : Res :=
  runCmd (.reply ingress) (opReply ingress) s

/-- INVAL (R275). -/
def execInval (router : Nat) (s : State) : Res :=
  runCmd (.inval router) (opInval router) s

/-- RESERVE (R278). -/
def execReserve (ingress : Nat) (dest : Nat) (s : State) : Res :=
  runCmd (.reserve ingress dest) (opReserve ingress dest) s

/-- GRANT (R278). -/
def execGrant (dest : Nat) (s : State) : Res :=
  runCmd (.grant dest) (opGrant dest) s

/-- SLOT_RETURN (R278). -/
def execSlotReturn (ingress : Nat) (dest : Nat) (s : State) : Res :=
  runCmd (.slotReturn ingress dest) (opSlotReturn ingress dest) s

/-- CLOSE (R283). -/
def execClose (pan : Nat) (st : CloseTo) (s : State) : Res :=
  runCmd (.close pan st) (opClose pan st) s

/-- OPEN (R283). -/
def execOpen (pan : Nat) (s : State) : Res :=
  runCmd (.open pan) (opOpen pan) s

/-- ENDPOINT_REQUEST (R280). -/
def execEndpointRequest (pan : Nat) (s : State) : Res :=
  runCmd (.endpointRequest pan) (opEndpointRequest pan) s

/-- ENDPOINT_RESPONSE (R282). -/
def execEndpointResponse (pan : Nat) (itag : Nat) (status : Byte) (data : List Line) (s : State) : Res :=
  runCmd (.endpointResponse pan itag status data) (opEndpointResponse pan itag status data) s

end Sys2Proof.Machine
end

