-- ==== Sys2Proof/Machine/Pools.lean ====
section
/-! DEFINITION. Bank requests, pools and page migration: R307 as the Sluice reaches it, the pool table (R242–R247, R265),
the moves of R325–R328, RETIRE, and the parity failure of a bank. -/

namespace Sys2Proof.Machine

/-! ### Free pages (R244) -/

/-- Free user pages of a bank. -/
def Bank.freePages (b : Bank) : List Nat := (List.range 128).filter fun p => !b.alloc.contains p

/-- A page belongs to a pool; it starts unwritten (R244). -/
def Bank.takePage (b : Bank) (p : Nat) : Bank :=
  let b1 := (b.claim (b.slotOf p)).modSlot (b.slotOf p) fun _ => {}
  { b1 with
    alloc := (List.range 128).filter fun q => q == p || b.alloc.contains q
    zfPage := if b1.zfPage.any (fun z => z.1 == p) then none else b1.zfPage }

/-- A page is freed with WRITTEN cleared (R247, R325, R328). -/
def Bank.freePage (b : Bank) (p : Nat) : Bank :=
  let b1 := (b.claim (b.slotOf p)).modSlot (b.slotOf p) fun _ => {}
  { b1 with alloc := b.alloc.filter fun q => q != p }

/-! ### Moves (R325–R328) -/

/-- A move has started. -/
def PageMove.runs (m : PageMove) : Bool := m.phase != .waiting

/-- Replace a move. -/
def Dev.putMove (d : Dev) (old new : PageMove) : Dev :=
  { d with rake := { d.rake with moves := d.rake.moves.map fun m => if m = old then new else m } }

/-- Remove a move. -/
def Dev.dropMove (d : Dev) (m : PageMove) : Dev :=
  { d with rake := { d.rake with moves := d.rake.moves.erase m }
           sl := { d.sl with marks := d.sl.marks.filter fun x => !(x.2.1 == m.srcBank && x.2.2 == m.srcPage) } }

/-- Abandon a move that has started: the destination page is freed (R328). A move that has not started is only dropped. -/
def Dev.abandonMove (d : Dev) (m : PageMove) : Dev :=
  if m.runs then
    let d1 := (d.dropMove m).modBank m.dstBank fun b => b.freePage m.dstPage
    { d1 with rake := { d1.rake with fails := satInc d1.rake.fails } }
  else d.dropMove m

/-- A bank leaves RUNNING: its moves are abandoned (R328), and an on-demand self-test of it ends ABORTED (R604, R608). -/
def Dev.abandonBank (d : Dev) (n : Nat) : Dev :=
  let d1 := if d.bgs.bstRun = some n then
      { d with bgs := { d.bgs with bstRun := none }, test := { d.test with bistBusy := false, bistResult := 5 } } else d
  foldS Dev.abandonMove d1 (d1.rake.moves.filter fun m => m.runs && (m.srcBank == n || m.dstBank == n))

/-- A foreground write marks its lines dirty in a move whose first pass has begun (R325). -/
def Dev.markDirty (d : Dev) (n page first lines : Nat) : Dev :=
  match d.rake.moves.find? fun m => m.runs && m.srcBank == n && m.srcPage == page with
  | none => d
  | some m => d.putMove m { m with dirty := m.dirty ||| maskOf ((List.range lines).map (first + ·)) }

/-- Copy line `i` of the source page raw to the destination page (R325): a failing line of a page that is not poisoned is
decoded first, and one of a poisoned page takes its bit of the fail mask (R308). -/
def copyLine (a b : Bank) (sp dp i : Nat) : Bank × Bank × List BankEv :=
  let s := a.slotOf sp
  let (a1, evs) :=
    if a.guardOk s i then (a, [])
    else if (a.slot s).poisoned then (a.modSlot s fun x => { x with fail := x.fail ||| maskOf [i] }, [])
    else let (x, _, ev) := a.decodeFor sp s 4 0 (some i); (x, ev)
  let b0 := if (b.slot (b.slotOf dp)).written then b else b.zeroFill dp
  let t := b0.slotOf dp
  let b1 := b0.storeLine t i (a1.line s i)
  (a1, { b1 with guards := b1.guards.set 0 (64 * t + i) (a1.guards.get 0 (64 * s + i)) }, evs)

/-- Copy lines of a move; the first write into its destination zero-fills it (R312, R561). -/
def Dev.copyLines (d : Dev) (m : PageMove) (ls : List Nat) : Dev :=
  let s := (d.bank m.srcBank).slotOf m.srcPage
  let (a, b, evs) := ls.foldl (fun (acc : Bank × Bank × List BankEv) i =>
    let (a, b, e) := acc
    let (a1, b1, e1) := copyLine a b m.srcPage m.dstPage i
    (a1, b1, e ++ e1)) (d.bank m.srcBank, d.bank m.dstBank, [])
  let fresh := !ls.isEmpty && !((d.bank m.dstBank).slot ((d.bank m.dstBank).slotOf m.dstPage)).written
  ((((d.setBank m.srcBank a).setBank m.dstBank b).bankEvents m.srcBank evs).bankWork m.srcBank s (d.bank m.srcBank) a
    (evs.map BankEv.code) 0 ls.length false).bankAct m.dstBank 0 ls.length (if fresh then 72 else 0)

/-- The lines of a mask. -/
def maskLines (w : DWord) : List Nat := (List.range 64).filter fun i => w.getLsbD i

/-- The waiting move that bank `n` may start: it is the source of no other move, at most 16 run, and both banks run. -/
def Dev.startable? (d : Dev) (n : Nat) : Option (PageMove × PageMove) :=
  let busy := d.rake.moves.any fun m => m.runs && m.srcBank == n
  if busy || 16 ≤ d.rake.moves.countP PageMove.runs then none
  else d.rake.moves.findSome? fun m =>
    if m.runs then none
    else match d.rake.pools.get none m.handle with
      | none => none
      | some p =>
        let (sb, sp) := p.pages.getD m.k (0, 0)
        match (d.bank m.dstBank).freePages.head? with
        | some dp =>
          if sb = n ∧ d.bankWorks m.dstBank = true ∧ d.bankTurn m.dstBank 7 = true then
            some (m, { m with phase := .copy 0, srcBank := sb, srcPage := sp, dstPage := dp })
          else none
        | none => none

/-- PAGE_COPY_PASS: the page mover makes the next pass of the move whose source is bank `n`, starting one if it may, or
closes the page when 16 or fewer dirty lines are left or 8 passes are made (R325). Both banks work, and the copies yield to
foreground requests (R311, R332). -/
def opPageCopyPass (n : Nat) (d0 : Dev) : Dev :=
  if d0.sluiceStops || !d0.bankWorks n || !d0.bankTurn n 7 then d0
  else
  let d := d0.bankGrant n 7
  match d.rake.moves.find? fun m => m.srcBank == n && m.runs && m.phase != .close with
  | some m =>
    (match m.phase with
     | .copy 0 => d
     | .copy k =>
       let ls := maskLines m.dirty
       if !d.bankWorks m.dstBank || !d.bankTurn m.dstBank 7 then d0
       else if ls.length ≤ 16 ∨ 8 ≤ k then (d.putMove m { m with phase := .close }).sendInval (.page m.handle m.k) none
       else (d.putMove m { m with phase := .copy (k + 1), dirty := 0 }).copyLines m ls
     | _ => d)
  | none =>
    match d.startable? n with
    | none => d0
    | some (w, m) =>
      let d1 := (d.putMove w { m with phase := .copy 1 }).modBank m.dstBank fun b => b.takePage m.dstPage
      let d1 := d1.modBank n fun b => b.claim (b.slotOf m.srcPage)
      let d2 := { d1 with rake := { d1.rake with follows := satInc d1.rake.follows } }
      if ((d2.bank n).slot ((d2.bank n).slotOf m.srcPage)).written then d2.copyLines m (List.range 64) else d2

/-- PAGE_MARK: a page mark reaches the source bank behind the requests that its ingress sent there before (R325, R326). -/
def opPageMark (i n : Nat) (d : Dev) : Dev :=
  match (if d.sluiceStops then none else d.sl.marks.find? fun x => x.1 == i && x.2.1 == n) with
  | none => d
  | some mk =>
    let page := mk.2.2
    if d.live.any fun e => e.2.ingress == i && (match e.2.stage with | .bank b p _ => b == n && p == page | .atOutput b p _ => b == n && p == page | _ => false) then d
    else
      let d1 := { d with sl := { d.sl with marks := d.sl.marks.erase mk } }
      match d1.rake.moves.find? fun m => m.phase == .close && m.srcBank == n && m.srcPage == page with
      | none => d1
      | some m => d1.putMove m { m with marks := if m.marks.contains i then m.marks else i :: m.marks }

/-- PAGE_MOVE_FINISH: with the page marks of all 92 ingresses the remaining dirty lines are copied, and the pool table
switches to the destination (R325). -/
def opPageMoveFinish (n : Nat) (d : Dev) : Dev :=
  match d.rake.moves.find? fun m => m.phase == .close && m.srcBank == n && m.marks.length == 92 && d.bankWorks n && d.bankWorks m.dstBank && !d.sluiceStops with
  | none => d
  | some m =>
    let d1 := d.copyLines m (maskLines m.dirty)
    let a := d1.bank m.srcBank
    let st := a.slot (a.slotOf m.srcPage)
    let d2 := if st.written && st.poisoned then
        d1.modBank m.dstBank fun b =>
          let b0 := if (b.slot (b.slotOf m.dstPage)).written then b else b.zeroFill m.dstPage
          b0.modSlot (b0.slotOf m.dstPage) fun x => { x with poisoned := true, fail := st.fail }
      else d1
    let pools := d2.rake.pools.modify none m.handle fun o => o.map fun p => { p with pages := p.pages.set m.k (m.dstBank, m.dstPage) }
    let d3 := { d2 with rake := { d2.rake with pools := pools } }
    (d3.dropMove m).modBank m.srcBank fun b => b.freePage m.srcPage

/-! ### Bank requests (R307, R310, R316, R330) -/

/-- The outcome of one request at a bank, all its lines at once (R310). A write whose byte enables are all 0 has no effect
(R280). -/
def Dev.serveBank (d : Dev) (n r : Nat) (q : SlIn) (page line : Nat) : Dev :=
  let b := d.bank n
  let rest := { b with queue := b.queue.drop 1 }
  let unit := d.reqUnit q
  if q.write && q.poison then ((d.setBank n rest).slErr 3 stUncorr q).respond r (q.uniform stUncorr)
  else if d.ust (uBank n) == .running && q.write && q.lines == 1 && q.be == 0 then (d.setBank n rest).respond r (q.uniform stDone)
  else if d.ust (uBank n) != .running then
    ((d.setBank n (rest.refuseLines (if q.write then 1 else q.lines))).slErr 17 stUncorr q).respond r (q.uniform stUncorr)
  else
    let s := b.slotOf page
    let b0 := rest.claim s
    let ls := (List.range q.lines).map (line + ·)
    let (b1, out, evs) :=
      if q.write then
        let (x, st, ev) := b0.writeLines page unit q.be q.flip true (ls.zip q.data)
        (x, [(BitVec.ofNat 8 st, (0 : Line))], ev)
      else b0.readLines page unit ls
    let d1 := ((d.setBank n b1).bankEvents n evs).bankWork n s b b1 (evs.map BankEv.code) q.lines 0 true
    let d2 := if q.write then d1.markDirty n page line q.lines else d1
    let d3 := if out.any fun o => o.1 == BitVec.ofNat 8 stUncorr then d2.slErr 17 stUncorr q else d2
    if q.poisons out then (d3.slErr 3 stUncorr q).respond r (q.uniform stUncorr) else d3.respond r out

/-- BANK_REQUEST: the bank performs the request at the head of its queue (R307), and one that waits in the router enters
(R310). It waits while the bank sleeps (R48). -/
def opBankRequest (n : Nat) (d : Dev) : Dev :=
  if d.sluiceStops || d.pllDead 2 || d.ust (uBank n) == .asleep || d.domSleeps (64 + n / 8) then d
  else match (d.bank n).queue with
    | [] => d
    | r :: _ =>
      let drop : Dev := d.modBank n fun b => { b with queue := b.queue.drop 1 }
      (match d.req r with
       | none => drop
       | some q =>
         match q.stage with
         | .bank _ page line => d.serveBank n r q page line
         | _ => drop).admitBank n

/-! ### RETIRE, logs, parity (R322, R323, R333, R339) -/

/-- RETIRE (R322, R323, R409): the copy of a written page reads and writes its 64 lines at its descriptor's tier (R311,
assumption 86). -/
def opRetire (iss : Issuer) (x : Desc) (d : Dev) : Dev :=
  d.beginAt (d.pllDead 2) iss x 0x21 ([(1, 0xFFFF0000), (2, 0xFFFFFF80)] ++ resFrom 3) fun d e =>
    let page := fld (dword x 2) 0 7
    match descBank x with
    | none => d.complete e stBad iss.unit 0
    | some n =>
      let moves := d.rake.moves.filter fun m => m.runs && ((m.srcBank == n && m.srcPage == page) || (m.dstBank == n && m.dstPage == page))
      if !d.inPart iss.reader (uBank n) then d.complete e stPerm (uBank n) 0
      else if d.ust (uBank n) != .running then d.complete e stRefused (uBank n) 0
      else if moves.any fun m => m.phase == .close then d.complete e stBusy (uBank n) 0
      else match (d.bank n).freeSpare with
        | none => d.complete e stNoRoom (uBank n) 0
        | some t =>
          let d1 := foldS Dev.abandonMove d moves
          let b0 := d1.bank n
          let b1 := (b0.claim (b0.slotOf page)).claim t
          let (b2, evs) := if (b1.slot (b1.slotOf page)).written then b1.retireDecode page else (b1, [])
          let b3 := b2.remapTo page t
          let left := (List.range 8).countP fun i => !b3.spareUsed.contains (128 + i)
          let d2 := (d1.setBank n b3).bankEvents n evs
          let s := b0.slotOf page
          let d3 := if (b0.slot s).written || b0.borrow.any (fun w => w.slot == s) then
              d2.bankWork n s b0 b3 (evs.map BankEv.code) (if (b0.slot s).written then 128 else 0) 0 false
            else d2
          d3.complete e stDone (uBank n) (pack64 [(t, 0, 8), (left, 8, 4)])

/-- A parity failure in a bank's remap table or page state (R20, R333). -/
def opBankParityFault (n : Nat) (d : Dev) : Dev :=
  if d.ust (uBank n) != .running then d
  else ((d.abandonBank n).modBank n fun b => b.abortBorrow).fault (uBank n) stInternal 0

/-- RECOVER of a bank (R333): every page reads zeros, the identity remap is restored. -/
def Bank.recovered (b : Bank) : Bank :=
  { b with slots := [], remap := [], defective := [], spareUsed := [], zfPage := none, borrow := none }

/-! ### Pools (R242–R247) -/

/-- The anchors of the modules that pans hold. -/
def Dev.anchors (d : Dev) : List Nat := (List.range 64).filter fun p => (d.pan p).occupied && d.anchor p == p

/-- The pans of the module at an anchor, in member order (R114). -/
def gangPans (a w h : Nat) : List Nat := (List.range h).flatMap fun dy => (List.range w).map fun dx => a + dx + 8 * dy

/-- The pans of a placed module. -/
def Dev.modulePans (d : Dev) (a : Nat) : List Nat := let (w, h, _, _) := (d.pan a).shape; gangPans a w h

/-- Member `m` of a module at anchor `a` of width `w`. -/
def memberPan (a w m : Nat) : Nat := a + m % w + 8 * (m / w)

/-- The resource section of the module placed at an anchor. -/
def Dev.resOf (d : Dev) (a : Nat) : List ResEntry := (d.rake.res.get (1, []) a).2

/-- The consumers of a pool: member pan and WEIGHT (R245). -/
def Dev.consumers (d : Dev) (h : Nat) : List (Nat × Nat) :=
  d.rake.res.flatMap fun e =>
    e.2.2.filterMap fun r => if r.isPool && r.par 0 2 == h then some (memberPan e.1 e.2.1 r.member, r.par 2 1 % 16) else none

/-- The home of a pool with consumers (R245). -/
def homeOf (cs : List (Nat × Nat)) (now : Nat) : Nat :=
  if cs.isEmpty then now
  else (argMin (fun h => ((cs.map fun c => c.2 * hops h c.1).sum : Nat)) (List.range 64)).getD now

/-- The bank set of R244: banks of partition `rd` that run, ranked by distance and index; `own` pages count as free. -/
def Dev.bankSet (d : Dev) (rd home stripe size : Nat) (own : Nat → Nat) : Option (List Nat) :=
  let ok (n : Nat) : Bool := d.inPart rd (uBank n) && d.ust (uBank n) == .running && ceilDiv size stripe ≤ (d.bank n).freePages.length + own n
  let ranked := (List.range 15).flatMap fun k => (List.range 128).filter fun n => hops (n / 2) home == k && ok n
  if ranked.length < stripe then none else some (ranked.take stripe)

/-- Take the pages of a new pool from its set (R244). -/
def Dev.takePages (d : Dev) (set : List Nat) : Nat → Nat → Dev × List (Nat × Nat)
  | 0, _ => (d, [])
  | n + 1, k =>
    let b := set.getD (k % set.length) 0
    let p := (d.bank b).freePages.headD 0
    let (d1, rest) := (d.modBank b fun x => x.takePage p).takePages set n (k + 1)
    (d1, (b, p) :: rest)

/-- INFO of POOL_CREATE: set[0]–set[7], 0xFF beyond STRIPE (R404). -/
def setInfo (set : List Nat) : DWord := pack64 ((List.range 8).map fun i => (set.getD i 0xFF, 8 * i, 8))

/-- Pools in the table. -/
def Dev.livePools (d : Dev) : List (Nat × Pool) := d.rake.pools.filterMap fun e => e.2.map fun p => (e.1, p)

/-- POOL_CREATE's effect after R391 (R243). -/
def Dev.poolCreate (d : Dev) (e : Nat) (iss : Issuer) (x : Desc) : Dev :=
  let h := fld (dword x 1) 0 16
  let w := dword x 2
  let size := fld w 0 16
  let stripe := fld w 16 5
  let home := fld w 21 6
  let bad := h < 0xF000 || size == 0 || 16384 < size || !([1, 2, 4, 8, 16].contains stripe)
  if bad then d.complete e stBad uRake 0
  else if !(d.part iss.reader).hasHandle h then d.complete e stPerm uRake 0
  else if (d.rake.pools.get none h).isSome then d.complete e stRefused uRake 0
  else if 4096 ≤ d.livePools.length then d.complete e stNoRoom uRake 0
  else match d.bankSet iss.reader home stripe size fun _ => 0 with
    | none => d.complete e stNoRoom uRake 0
    | some set =>
      let (d1, pages) := d.takePages set size 0
      let p : Pool := { size := size, stripe := stripe, home := home, follow := bit w 27, owner := iss.owner, set := set, pages := pages }
      ({ d1 with rake := { d1.rake with pools := d1.rake.pools.set none h (some p) } }).complete e stDone uRake (setInfo set)

/-- POOL_FREE's effect after R391 (R405). The pages are freed once every router has acknowledged (assumption 43). -/
def Dev.poolFree (d : Dev) (e : Nat) (iss : Issuer) (x : Desc) : Dev :=
  let h := fld (dword x 1) 0 16
  if h < 0xF000 then d.complete e stBad uRake 0
  else match d.rake.pools.get none h with
    | none => d.complete e stRefused uRake 0
    | some p =>
      if p.owner ≠ iss.owner then d.complete e stPerm uRake 0
      else if !(d.consumers h).isEmpty then d.complete e stRefused uRake 0
      else
        let d1 := foldS Dev.abandonMove d (d.rake.moves.filter fun m => m.handle == h)
        let d2 := { d1 with rake := { d1.rake with pools := d1.rake.pools.set none h none } }
        (d2.setKind e (.inval uRake (BitVec.ofNat 64 p.size) p.pages)).sendInval (.tags [h]) (some e)

/-- The Rake takes descriptors now: it is not stopped, not gated, and has its clock (R213, R541). -/
def Dev.rakeOpen (d : Dev) : Bool := d.ust uRake == .running && !(d.pwr.stopped.contains uRake) && !d.pllDead 0

/-- Start a descriptor of the Rake, or hold it in its engine while the Rake is stopped (R213); a FAULTED Rake starts none
(R20). -/
def Dev.beginRake (d : Dev) (iss : Issuer) (x : Desc) (op : Nat) (force pinned : Bool) (masks : List (Nat × Nat))
    (k : Dev → Nat → Dev) : Dev :=
  d.begin iss x op force pinned masks fun d e =>
    if d.ust uRake == .faulted then d.complete e stBusy uRake 0
    else if d.rakeOpen then k d e else d.setKind e (.waitRake x)

/-- POOL_CREATE (R243, R404). -/
def opPoolCreate (iss : Issuer) (x : Desc) (d : Dev) : Dev :=
  d.beginRake iss x 0x06 false false ([(1, 0xFFFF0000), (2, 0xF0000000)] ++ resFrom 3) fun d e => d.poolCreate e iss x

/-- POOL_FREE (R247, R405). -/
def opPoolFree (iss : Issuer) (x : Desc) (d : Dev) : Dev :=
  d.beginRake iss x 0x07 false false ([(1, 0xFFFF0000)] ++ resFrom 2) fun d e => d.poolFree e iss x

/-- Follow one pool to a new home (R246). When no new set qualifies its pages stay where they are; its home is still the
router of R245. -/
def Dev.followPool (d : Dev) (h : Nat) (p : Pool) (home : Nat) : Dev :=
  let own (n : Nat) : Nat := p.pages.countP fun x => x.1 == n
  let rd := if p.owner = 0xF then 4 else p.owner.toNat
  match d.bankSet rd home p.stripe p.size own with
  | none => { d with rake := { d.rake with
      fails := satInc d.rake.fails, pools := d.rake.pools.set none h (some { p with home := home }) } }
  | some set =>
    let d1 := { d with rake := { d.rake with
      moves := d.rake.moves.filter fun m => !(m.handle == h && !m.runs)
      pools := d.rake.pools.set none h (some { p with home := home, set := set }) } }
    let at_ (k : Nat) : Nat :=
      match d1.rake.moves.find? fun m => m.handle == h && m.k == k with
      | some m => m.dstBank
      | none => (p.pages.getD k (0, 0)).1
    let new := (List.range p.size).filterMap fun k =>
      let b := set.getD (k % set.length) 0
      if at_ k = b then none else some { handle := h, k := k, dstBank := b : PageMove }
    { d1 with rake := { d1.rake with moves := d1.rake.moves ++ new } }

/-- Homes are recomputed at a commit, and pools follow (R245, R246). -/
def Dev.recomputeHomes (d : Dev) : Dev :=
  foldS (fun d (e : Nat × Pool) =>
    let (h, p) := e
    let home := homeOf (d.consumers h) p.home
    let least := max 1 (fld d.rake.poolCtrl 8 4)
    if home = p.home then d
    else if p.follow && bit d.rake.poolCtrl 0 && decide (least ≤ hops home p.home) then d.followPool h p home
    else { d with rake := { d.rake with pools := d.rake.pools.set none h (some { p with home := home }) } }) d d.livePools

/-! ### Registers of the POOL block (R265) -/

/-- log2 of a stripe. -/
def stripeLog (s : Nat) : Nat := match s with | 1 => 0 | 2 => 1 | 4 => 2 | 8 => 3 | _ => 4

/-- POOL_INFO. -/
def Dev.poolInfo (d : Dev) (h : Nat) : Word :=
  match d.rake.pools.get none h with
  | none => 0
  | some p => pack [(p.size, 0, 16), (stripeLog p.stripe, 16, 3), (b2n p.follow, 19, 1), (p.home, 20, 6),
      (min 31 ((d.consumers h).map Prod.fst).eraseDups.length, 26, 5), (1, 31, 1)]

/-- A read of the POOL block. -/
def Dev.readPool (d : Dev) (rd : Nat) (sel : Nat → Word) (o : Nat) : Word :=
  match o with
  | 0x00 => d.rake.poolCtrl
  | 0x04 => pack [(d.livePools.length, 0, 13), (min d.rake.moves.length 0x7FFF, 16, 15)]
  | 0x08 => BitVec.ofNat 32 (((List.range 128).filter fun n => d.inPart rd (uBank n) && d.ust (uBank n) == .running).map fun n => (d.bank n).freePages.length).sum
  | 0x0C => sel 0x0C &&& 0xFFFF
  | 0x10 => d.poolInfo (fld (sel 0x0C) 0 16)
  | 0x14 => (d.rake.fails ++ d.rake.follows : BitVec 32)
  | _ => 0

/-- A write of the POOL block. -/
def Dev.writePool (d : Dev) (o : Nat) (v : Word) : Dev :=
  if o = 0 then { d with rake := { d.rake with poolCtrl := merge 0xF01 d.rake.poolCtrl v } } else d

/-! ### The commands -/

/-- POOL_CREATE (R243). -/
def execPoolCreate (iss : Issuer) (d : Desc) (s : State) : Res :=
  runCmd (.poolCreate iss d) (opPoolCreate iss d) s

/-- POOL_FREE (R405). -/
def execPoolFree (iss : Issuer) (d : Desc) (s : State) : Res :=
  runCmd (.poolFree iss d) (opPoolFree iss d) s

/-- RETIRE (R322). -/
def execRetire (iss : Issuer) (d : Desc) (s : State) : Res :=
  runCmd (.retire iss d) (opRetire iss d) s

/-- BANK_REQUEST (R307). -/
def execBankRequest (bank : Nat) (s : State) : Res :=
  runCmd (.bankRequest bank) (opBankRequest bank) s

/-- BANK_PARITY_FAULT (R333). -/
def execBankParityFault (bank : Nat) (s : State) : Res :=
  runCmd (.bankParityFault bank) (opBankParityFault bank) s

/-- PAGE_COPY_PASS (R325). -/
def execPageCopyPass (bank : Nat) (s : State) : Res :=
  runCmd (.pageCopyPass bank) (opPageCopyPass bank) s

/-- PAGE_MARK (R325). -/
def execPageMark (ingress : Nat) (bank : Nat) (s : State) : Res :=
  runCmd (.pageMark ingress bank) (opPageMark ingress bank) s

/-- PAGE_MOVE_FINISH (R325). -/
def execPageMoveFinish (bank : Nat) (s : State) : Res :=
  runCmd (.pageMoveFinish bank) (opPageMoveFinish bank) s

end Sys2Proof.Machine
end

