-- ==== Sys2Proof/Machine/Rake.lean ====
section
/-! DEFINITION. The Rake (chapter "Placement: the Rake, the Windrow and Pools"): candidates and cost, the Windrow, staging
passes, and the shared parts of its operations from the decision to the completion. The descriptors stand in Place.lean. -/

namespace Sys2Proof.Machine

/-! ### What is placed (R212) -/

/-- Operations in progress. -/
def Dev.ops (d : Dev) : List (Nat × Op) := d.rake.ops.filterMap fun e => e.2.map fun o => (e.1, o)

/-- The operation whose commit point has placed module `m` and whose destination has not switched to it yet. -/
def Dev.landing (d : Dev) (m : Word) : Option Op :=
  (d.ops.find? fun y => y.2.committed && !y.2.switched && y.2.kind != .evict && y.2.module == m).map Prod.snd

/-- Anchor of the module with an ID: where its commit records place it. -/
def Dev.placedAt (d : Dev) (m : Word) : Option Nat :=
  match d.landing m with
  | some o => some o.dst
  | none => d.anchors.find? fun a => (d.pan a).module == m

/-- W and H of the module placed at an anchor. -/
def Dev.placedShape (d : Dev) (m : Word) (a : Nat) : Nat × Nat :=
  match d.landing m with
  | some o => (o.shapeW, o.shapeH)
  | none => ((d.pan a).shape.1, (d.pan a).shape.2.1)

/-- The pans of the module with an ID at its anchor. -/
def Dev.placedPans (d : Dev) (m : Word) (a : Nat) : List Nat := gangPans a (d.placedShape m a).1 (d.placedShape m a).2

/-- Real operations of the Rake in progress (R210, R260): those that stage or commit, and a BIND or POOL_FREE that waits for
its INVAL_ACK (R42). -/
def Dev.opCount (d : Dev) : Nat :=
  d.ops.length + d.running.countP fun y => match y.2.kind with | .inval _ _ _ => true | _ => false

/-- The catalogue entry of a module (R150). -/
def Dev.catEntry (d : Dev) (m : Word) : Option CatEntry := d.store.cat.find? fun c => c.module == m

/-- Its image. -/
def CatEntry.img (c : CatEntry) : ImgSrc := .store c.firstUnit c.length.toNat

/-- W of a shape code. -/
def CatEntry.w (c : CatEntry) : Nat := c.shape.toNat % 4 + 1
/-- H of a shape code. -/
def CatEntry.h (c : CatEntry) : Nat := c.shape.toNat / 4 + 1

/-! ### Pan self-test gives way (R555) -/

/-- The self-test of a pan ends before its result. -/
def Dev.endPst (d : Dev) (p : Nat) : Dev :=
  if d.bgs.pstRun = some p then
    let d1 := { d with bgs := { d.bgs with pstRun := none, pstDemand := false } }
    let d2 := if d.bgs.pstDemand then { d1 with test := { d1.test with bistResult := 5, bistBusy := false } } else d1
    d2.panSources p fun x => { x with selfTest := false }
  else d

/-- The self-test of a pan is abandoned on a condition of R555, and ABORTS counts it (R567). -/
def Dev.abortPst (d : Dev) (p : Nat) : Dev :=
  if d.bgs.pstRun = some p then
    ({ d with bgs := { d.bgs with pstAborts := satInc d.bgs.pstAborts } } : Dev).endPst p
  else d

/-! ### Candidates (R215, R216) -/

/-- The shape fits at an anchor. -/
def fits (a w h : Nat) : Bool := decide (a < 64) && decide (a % 8 + w ≤ 8) && decide (a / 8 + h ≤ 8)

/-- Temperature of a pan in whole °C (R217, R560). -/
def Dev.panTemp (d : Dev) (p : Nat) : Int := (d.tele.sensors.get {} p).cur.toInt / 16

/-- Conditions 1–4 for one member. -/
def Dev.memberOk (d : Dev) (rd m : Nat) : Bool :=
  let excl := if m < 32 then bit d.rake.exclLo m else bit d.rake.exclHi (m - 32)
  d.inPart rd (uPan m) && !excl && d.ust (uPan m) == .idle && !d.reserved m &&
    decide ((d.tele.sensors.get {} m).cur.toInt < toSigned 8 (fld d.rake.temp 8 8) * 16)

/-- Condition 5. -/
def Dev.tokensOk (d : Dev) (m : Nat) : Bool := decide (6144 ≤ d.tokens m)

/-- Anchors that meet conditions 1–4. -/
def Dev.candidates (d : Dev) (rd w h : Nat) : List Nat :=
  (List.range 64).filter fun a => fits a w h && (gangPans a w h).all (d.memberOk rd)

/-! ### The Windrow (R232, R237) -/

/-- A pan's entry. -/
def Dev.win (d : Dev) (p : Nat) : WinEntry := d.rake.windrow.get {} p

/-- Entry of member `i` of a pre-stage of module `m` for anchor `a`. -/
def WinEntry.isFor (w : WinEntry) (m : Word) (a i : Nat) : Bool := w.module == m && w.anchor == a && w.member == i

/-- Members of an anchor with their index. -/
def membersAt (a w h : Nat) : List (Nat × Nat) := indexed (gangPans a w h)

/-- A valid pre-stage that R237 accepts, or one in progress, in every member. -/
def Dev.hitAt (d : Dev) (m : Word) (a w h : Nat) (digest : DWord) (sec : Nat) : Bool :=
  (membersAt a w h).all fun e =>
    let x := d.win e.2
    x.isFor m a e.1 && (x.writing || (x.valid && x.digest == digest && !d.belowRollback sec))

/-- Every member's pre-stage is valid. -/
def Dev.hitReady (d : Dev) (m : Word) (a w h : Nat) : Bool :=
  (membersAt a w h).all fun e => (d.win e.2).isFor m a e.1 && (d.win e.2).valid

/-- The pans of a pre-stage that has an entry in pan `p`: those of its gang. -/
def Dev.prestagePans (d : Dev) (p : Nat) : List Nat :=
  let w := d.win p
  (List.range 64).filter fun q => d.prestaged q && (d.win q).module == w.module && (d.win q).anchor == w.anchor

/-- Discard the pre-stage with an entry in pan `p` (R238): its entries, its passes in progress and those that wait. -/
def Dev.discardPre (d : Dev) (p : Nat) : Dev :=
  if !d.prestaged p then d
  else
    let ps := d.prestagePans p
    let d1 := foldS (fun d (x : Pass) => if x.kind == .pre && ps.contains x.pan then (d.leaveLane x false).refund x else d) d d.cfg.passes
    foldS (fun d q =>
      ({ d with rake := { d.rake with windrow := d.rake.windrow.set {} q {}, specLost := satInc d.rake.specLost } }).modPan q fun x =>
        { x with shadowValid := false }) d1 ps

/-! ### Cost (R217–R219) -/

/-- KW, KT, KD, KS and KH of the policy in force. -/
def Dev.weights (d : Dev) : Int × Int × Int × Int × Int :=
  let w := d.rake.weights
  match fld d.rake.ctrl 0 3 with
  | 1 => (16, 2, 2, 16, 256)
  | 2 => (1, 1, 32, 16, 1023)
  | 3 => (2, 16, 4, 16, 1023)
  | 4 => (0, 0, 0, 0, 0)
  | 5 => ((fld w 0 8 : Nat), (fld w 8 8 : Nat), (fld w 16 8 : Nat), (fld w 24 8 : Nat), (fld d.rake.hitw 0 10 : Nat))
  | _ => (4, 2, 8, 16, 1023)

/-- The lowest PAN_WEAR of the partition. -/
def Dev.wearMin (d : Dev) (rd : Nat) : Nat :=
  let ws := ((List.range 64).filter fun p => d.inPart rd (uPan p) && d.ust (uPan p) != .retired).map fun p => (d.nvu p).wear.toNat
  ws.foldl min (ws.headD 0)

/-- LIFE and BUCKET of a member. -/
def Dev.wearTerm (d : Dev) (wmin m : Nat) : Int :=
  let s : Int := d.bucketSize
  (min 255 (((d.nvu m).wear.toNat - wmin) / 1024) : Nat) + (s - max 0 (min s (d.tokens m))) * 255 / s

/-- DIST of an anchor. -/
def Dev.distTerm (d : Dev) (a w : Nat) (res : List ResEntry) : Nat :=
  (res.map fun r =>
    let m := memberPan a w r.member
    if r.isPool then
      (match d.rake.pools.get none (r.par 0 2) with
       | some p => r.par 2 1 % 16 * hops m p.home
       | none => 0)
    else if r.isPort && r.par 0 1 == 3 then r.par 2 1 % 16 * hops m (ingressRouter (64 + r.par 1 1 / 4)) else 0).sum

/-- C(a), with HIT as given. -/
def Dev.cost (d : Dev) (rd a w h : Nat) (res : List ResEntry) (hit : Bool) : Int :=
  let ms := gangPans a w h
  let (kw, kt, kd, ks, kh) := d.weights
  let wmin := d.wearMin rd
  let wear := ms.foldl (fun x m => max x (d.wearTerm wmin m)) 0
  let temp := ms.foldl (fun x m => max x (d.panTemp m - toSigned 8 (fld d.rake.temp 0 8))) 0
  let loss : Nat := if hit then 0 else ms.countP d.prestaged
  kw * wear + kt * temp + kd * (d.distTerm a w res : Nat) + ks * loss - kh * b2n hit

/-! ### Tags and bindings (R226–R229) -/

/-- Bound endpoint tags. -/
def Dev.bound (d : Dev) : List (Nat × TagBind) := d.rake.tags.filterMap fun e => e.2.map fun b => (e.1, b)

/-- The bindings that a resource section makes at an anchor, with the overrides of a PLACE (R227). -/
def resTags (res : List ResEntry) (ovr : List (Nat × Nat)) (a w : Nat) (owner : BitVec 4) : List (Nat × TagBind) :=
  (indexed res).filterMap fun e =>
    if e.2.isEndpoint then
      let tag := match ovr.find? fun o => o.1 == e.1 with | some o => o.2 | none => e.2.par 0 2
      some (tag, { pan := memberPan a w e.2.member, loc := e.2.par 2 1 % 16, owner := owner })
    else none

/-- Write bindings. -/
def Dev.bindTags (d : Dev) (l : List (Nat × TagBind)) : Dev :=
  { d with rake := { d.rake with tags := foldS (fun (t : Tab (Option TagBind)) (e : Nat × TagBind) => t.set none e.1 (some e.2)) d.rake.tags l } }

/-- Remove bindings. -/
def Dev.unbindTags (d : Dev) (l : List Nat) : Dev :=
  { d with rake := { d.rake with tags := foldS (fun (t : Tab (Option TagBind)) k => t.set none k none) d.rake.tags l } }

/-- The bindings to pans. -/
def Dev.tagsOf (d : Dev) (ps : List Nat) : List (Nat × TagBind) := d.bound.filter fun e => ps.contains e.2.pan

/-- The ports a module's PORT entries bind: class, index, member pan, LOCAL or channel (R430, R483). -/
def resPorts (res : List ResEntry) (a w : Nat) : List (Nat × Nat × Nat × Nat) :=
  (res.filter ResEntry.isPort).map fun r => (r.par 0 1, r.par 1 1, memberPan a w (r.par 3 1), r.par 4 1 % 16)

/-- Bind the ports of a module at its anchor. -/
def Dev.bindPorts (d : Dev) (res : List ResEntry) (a w : Nat) : Dev :=
  foldS (fun d (x : Nat × Nat × Nat × Nat) =>
    let (c, i, p, l) := x
    if c = 3 then d.modLink i fun k => { k with bound := some (a, p, l) }
    else if c = 4 then d.modFport i fun k => { k with bound := some (a, p, l % 4) } else d) d (resPorts res a w)

/-- Unbind the ports of the modules whose member pans are listed. -/
def Dev.unbindPorts (d : Dev) (ps : List Nat) : Dev :=
  { d with
    links := d.links.map fun e => (e.1, if e.2.bound.any (fun b => ps.contains b.1) then { e.2 with bound := none } else e.2)
    fports := d.fports.map fun e => (e.1, if e.2.bound.any (fun b => ps.contains b.1) then { e.2 with bound := none } else e.2) }

/-- Forget the resource sections of modules whose anchors are listed (R245). -/
def Dev.dropRes (d : Dev) (ps : List Nat) : Dev :=
  { d with rake := { d.rake with res := d.rake.res.filter fun e => !ps.contains e.1 } }

/-- A module's resource section at its anchor. -/
def Dev.setRes (d : Dev) (a w : Nat) (res : List ResEntry) : Dev :=
  { d with rake := { d.rake with res := d.rake.res.set (1, []) a (w, res) } }

/-! ### QREQ (R223) -/

/-- Raise or withdraw QREQ at a pan. -/
def Dev.setQreq (d : Dev) (p : Nat) (l : Bool) : Dev :=
  if (d.pan p).qreq = l then d
  else ((d.modPan p fun x => { x with qreq := l, qack := x.qack && l, fab := { x.fab with qreq := l } }).settle p).emit (.qreq p l)

/-! ### The end of an operation (R43, R252, R256) -/

/-- Change an operation. -/
def Dev.modOp (d : Dev) (e : Nat) (f : Op → Op) : Dev := d.setOp e ((d.op e).map f)

/-- The pans that an operation holds for its commit: the destination members of a PLACE, the source members otherwise. -/
def Op.holds (o : Op) : List Nat := if o.kind == .place then o.dsts else o.srcs

/-- Passes of an operation. -/
def Dev.opPasses (d : Dev) (e : Nat) : List Pass := d.cfg.passes.filter fun x => x.exec == some e

/-- The pans that an operation held go back at one edge: they run, their ports reopen, borders and hold release (R43,
R116). -/
def Dev.unhold (d : Dev) (c : Cause) (ps : List Nat) : Dev :=
  (foldS (fun d p => (d.modPan p fun x => { x with shut := false, handover := false, port := .opened }).setUnit (uPan p) .running c) d
    ps).sourcesOf ps fun x => { x with srcCommitHold := false }

/-- A STAGED member goes back to IDLE, or to FAULTED, which a member that was not IDLE was when it was staged (R43,
R44). -/
def Dev.unstage (d : Dev) (o : Op) (p : Nat) : Dev :=
  let idle := (o.prior.find? fun y => y.1 == p).all fun y => y.2 == .idle
  d.returnUnit (uPan p) (if idle then .idle else .faulted) o.iss.cause

/-- Everything an operation did before its commit point is undone (R43, R252). The state-bearing frames that a MIGRATE with
CARRY has not come to write give their tokens back too (R239). -/
def Dev.undoOp (d : Dev) (e : Nat) (o : Op) : Dev :=
  let c := o.iss.cause
  let carry := o.kind == .migrate && bit (dword o.desc 2) 22
  let due := if carry && (o.phase == .staging || o.phase == .quiesce || o.phase == .capture) then o.passed else []
  let d0 := foldS (fun d p => d.returnTokens p 2912) d due
  let d1 := foldS (fun d (x : Pass) => (d.leaveLane x false).refund x) d0 (d.opPasses e)
  let d2 := foldS (fun d p =>
    let d1 := d.modPan p fun x => { x with shadowValid := false, shadowWriting := false, stagedOp := none }
    let d2 := if d1.ust (uPan p) == .staged then d1.unstage o p else d1
    if (d2.pan p).srcCommitHold && !o.held.contains p then
      (d2.modPan p fun x => { x with handover := false, port := if x.srcStop then .refusing else .empty }).panSources p fun x =>
        { x with srcCommitHold := false }
    else d2) d1 o.dsts
  let d3 := foldS (fun d p => if (d.pan p).stopPend.isNone then d.setQreq p false else d) d2 o.holds
  let d4 := (d3.sourcesOf (o.srcs.filter fun p => !o.held.contains p) fun x => { x with srcCommitHold := false }).unhold c o.held
  ((d4.bindTags o.removed).setOp e none).refreshPins

/-- An operation fails before its commit point. -/
def Dev.failOp (d : Dev) (e status unit : Nat) (info : DWord) : Dev :=
  match d.op e with
  | none => d.complete e status unit info
  | some o => (d.undoOp e o).complete e status unit info

/-- The unit an operation reports once its anchor is chosen (R392). -/
def Op.unit (o : Op) : Nat := uPan o.dst

/-! ### Records (R126–R129) -/

/-- The words of a commit of an operation: linked records in ascending pan index, the root last (R128). An EMPTY record's
slot has its step 1 first. Where ROOT_KIND makes ROOT meaningless the root's pan is written all the same, and an EMPTY record
has the LINK shape 1 by 1 at offset 0 (R124 names no values: assumption 79). -/
def Dev.commitJobs (d : Dev) (o : Op) (seq : Word) : List RecJob × List RecJob :=
  let carried := o.kind == .migrate && bit (dword o.desc 2) 22
  let emptyOf (p : Nat) : CommitRec :=
    if o.kind == .evict then mkRec seq 0 0 0 (linkWord o.root (if p = o.root then 0 else 1) 1 1 0 0 true false)
    else mkRec seq 0 0 0 (linkWord o.root 1 1 1 0 0 true false)
  let full (i p : Nat) : CommitRec :=
    mkRec seq o.module o.digest ((d.nvu p).planeSig p (d.shadow p))
      (linkWord o.root (if p = o.root then 0 else 1) o.shapeW o.shapeH (i % o.shapeW) (i / o.shapeW) false carried)
  let recs : List (Nat × Bool × CommitRec) :=
    (o.srcs.map fun p => (p, true, emptyOf p)) ++ (indexed o.dsts).map fun e => (e.2, false, full e.1 e.2)
  let sorted := (List.range 64).filterMap fun p => recs.find? fun r => r.1 == p
  let ordered := sorted.filter (fun r => r.1 != o.root) ++ sorted.filter fun r => r.1 == o.root
  let jobs := ordered.flatMap fun r => (if r.2.1 then d.clearJobs r.1 else []) ++ recordJobs r.1 (d.shadow r.1) r.2.2
  let settle := settleJob o.root (d.shadow o.root) :: (ordered.filter fun r => r.1 != o.root).map fun r => settleJob r.1 (d.shadow r.1)
  (jobs, settle)

/-- The pans a commit writes. -/
def Op.writes (o : Op) : List Nat := o.dsts ++ o.srcs

/-- A destination member goes to STAGED: from IDLE or FAULTED (R44). -/
def Dev.toStaged (d : Dev) (o : Op) (p : Nat) : Dev :=
  if d.ust (uPan p) == .idle || d.ust (uPan p) == .faulted then d.setUnit (uPan p) .staged o.iss.cause else d

/-- The commit starts (R127 step 3 for staged slots). The destination of a MIGRATE goes to STAGED here, so that a failure
before it leaves the members IDLE (R252, R253). -/
def Dev.startRecords (d : Dev) (e : Nat) : Dev :=
  match d.op e with
  | none => d
  | some o =>
    match d.newSeq o.writes with
    | none => d.failOp e stWear o.unit 0
    | some seq =>
      let (jobs, settle) := d.commitJobs o seq
      let d0 := foldS (fun d p => d.discardPre p) d o.srcs
      let d1 := if o.kind == .migrate then foldS (fun d p => d.toStaged o p) d0 o.dsts else d0
      d1.modOp e fun o => { o with phase := .records, jobs := jobs, settle := settle, seq := seq }

/-! ### Quiesce and hold (R223–R225, R111, R116, R254, R284) -/

/-- Every acknowledge has arrived, or the eviction is forced: hold asserts, borders clamp, pins enter handover, ports
close (R249, R254, R284). -/
def Dev.holdAll (d : Dev) (e : Nat) (forced : List Nat) : Dev :=
  match d.op e with
  | none => d
  | some o =>
    let c := o.iss.cause
    let ran := o.holds.filter fun p => d.ust (uPan p) == .running
    let d1 := foldS (fun d p =>
      let was := d.ust (uPan p)
      let d1 := d.modPan p fun x => { x with handover := true, port := if was == .running || was == .quiesced then .refusing else x.port }
      if was == .running then d1.setUnit (uPan p) .quiesced c else d1)
      ((d.sourcesOf o.holds fun x => { x with srcCommitHold := true }).shutPans o.holds) o.holds
    let d2 := foldS (fun d p => d.busyModule p) d1 forced
    let d3 := d2.modOp e fun o => { o with
      needAck := [], held := ran, toDrain := o.holds.filter fun p => ran.contains p || !d2.portDrainedOk p }
    let d4 := d3.refreshPins
    match o.kind with
    | .evict =>
      let gone := d4.tagsOf o.srcs
      let d5 := (d4.unbindTags (gone.map Prod.fst)).modOp e fun o => { o with removed := gone }
      (d5.startRecords e).sendInval (invalOf (gone.map Prod.fst)) (some e)
    | .migrate => if bit (dword o.desc 2) 22 then d4.modOp e fun o => { o with phase := .capture } else d4.startRecords e
    | .place => d4.startRecords e

/-- QREQ is raised at every running pan that the operation holds; with none, hold follows at once (R223, R254). -/
def Dev.quiesce (d : Dev) (e : Nat) : Dev :=
  match d.op e with
  | none => d
  | some o =>
    let run := o.holds.filter fun p => d.ust (uPan p) == .running
    let d1 := foldS (fun d p => d.setQreq p true) (d.modOp e fun o => { o with phase := .quiesce, needAck := run }) run
    if run.isEmpty then d1.holdAll e [] else d1

/-- A pan's QACK reaches the operation that waits for it (R116). -/
def Dev.opAck (d : Dev) (e p : Nat) : Dev :=
  let d1 := d.modOp e fun o => { o with needAck := o.needAck.erase p }
  if (d1.op e).any fun o => o.needAck.isEmpty then d1.holdAll e [] else d1

/-- Record a forced operation (R241, R262). -/
def Dev.logForce (d : Dev) (o : Op) (kind : Nat) : Dev :=
  { d with rake := { d.rake with
    forceCount := satInc d.rake.forceCount, forceModule := o.module
    forceLog := pack [(o.dst, 0, 6), (kind, 6, 2), (o.iss.owner.toNat, 8, 4)] } }

/-- RAKE_QUIESCE.TIMEOUT has passed for an operation that waits (R225, R254). -/
def Dev.opTimeout (d : Dev) (e : Nat) : Dev :=
  match d.op e with
  | none => d
  | some o =>
    if o.kind == .evict && bit (dword o.desc 0) 12 then (d.logForce o 2).holdAll e o.needAck
    else d.failOp e stTimeout o.unit 0

/-! ### Staged members (R41, R44, R249) -/

/-- A destination member has a valid shadow; a member of a PLACE goes to STAGED (R44, step 5). -/
def Dev.stageMember (d : Dev) (e : Nat) (o : Op) (p : Nat) : Dev :=
  let d1 := d.modPan p fun x => { x with shadowValid := true, stagedOp := some e }
  if o.kind == .migrate then d1 else d1.toStaged o p

/-- A pre-stage is made real (R237). -/
def Dev.makeReal (d : Dev) (e : Nat) : Dev :=
  match d.op e with
  | none => d
  | some o =>
    let d1 := { d with rake := { d.rake with
      windrow := foldS (fun (t : Tab WinEntry) p => t.set {} p {}) d.rake.windrow o.dsts
      specHits := satAdd d.rake.specHits o.dsts.length
      last := if d.rake.lastOf = some e then setBit d.rake.last 6 true else d.rake.last } }
    let d2 := d1.modOp e fun o => { o with hit := true, hitWait := false }
    (foldS (fun d p => (d.stageMember e o p).toStaged o p) d2 o.dsts).quiesce e

/-- The passes of a fresh staging, in member order (R167). -/
def Dev.addPasses (d : Dev) (mk : Nat → Nat → Pass) (ps : List Nat) : Dev :=
  let n := d.cfg.passCtr
  { d with cfg := { d.cfg with passes := d.cfg.passes ++ (indexed ps).map (fun e => { mk e.1 e.2 with age := n }), passCtr := n + 1 } }

/-- A fresh staging of an operation's destination. -/
def Dev.freshStaging (d : Dev) (e : Nat) : Dev :=
  match d.op e with
  | none => d
  | some o =>
    let w := dword o.desc 0
    let carry := o.kind == .migrate && bit (dword o.desc 2) 22
    let mk (i p : Nat) : Pass :=
      { kind := .real, exec := some e, pan := p, anchor := o.dst, member := i, module := o.module, digest := o.digest, full := o.full
        img := o.img, force := bit w 12, carry := carry }
    (d.modOp e fun o => { o with phase := .staging, hitWait := false }).addPasses mk o.dsts

/-- An operation that waited for a pre-stage looks at it again (R237). -/
def Dev.retryHit (d : Dev) (a : Nat) : Dev :=
  foldS (fun d (y : Nat × Op) =>
    let (e, o) := y
    if !(o.hitWait && o.dst == a) then d
    else if !d.hitAt o.module a o.shapeW o.shapeH o.digest o.secVersion then
      (foldS (fun d p => d.discardPre p) d o.dsts).freshStaging e
    else if d.hitReady o.module a o.shapeW o.shapeH then d.makeReal e else d) d d.ops

/-! ### Passes (R165–R167, R238–R240) -/

/-- A staging pass fails (R167, R188): the operation ends, or the pre-stage is discarded. -/
def Dev.passFail (d : Dev) (x : Pass) (status addr : Nat) : Dev :=
  match x.kind, x.exec with
  | .pre, _ =>
    let d1 := { d with cfg := { d.cfg with specFail := satInc d.cfg.specFail } }
    (d1.discardPre x.pan).retryHit x.anchor
  | _, some e => (d.cfgError status (x.lane.getD 0) addr x.pan).failOp e status (uPan x.anchor) 0
  | _, none => d

/-- The speculation share in %. -/
def Dev.share (d : Dev) : Nat := min 100 (fld d.bgs.wearRate 16 7)

/-- A pre-stage's tokens lie within the share of a pan's current bucket (R240). -/
def Dev.preShare (d : Dev) (m : Nat) : Bool := decide ((614400 : Int) ≤ (d.share : Nat) * d.tokens m)

/-- A pass takes a lane, if its draw is allowed (R239, R240): tokens are drawn and the wear is counted, step 1 of R127 is made, and checks 1–4 of R186. -/
def Dev.beginPass (d : Dev) (x : Pass) (l : Nat) : Dev :=
  let k := d.shadow x.pan
  let carried := x.kind == .carryLogic || x.kind == .carryRam
  let d1 := if x.kind == .pre || carried then d else d.discardPre x.pan
  let d2 := d1.abortPst x.pan
  if x.kind == .real && !x.force && !d2.tokensOk x.pan then
    (match x.exec with | some e => d2.failOp e stWear (uPan x.anchor) 0 | none => d2)
  else if x.kind == .pre && !d2.preShare x.pan then (d2.discardPre x.pan).retryHit x.anchor
  else
    let y := { x with lane := some l, plane := k }
    let d3 := d2.putPass x y
    let d4 := if carried then d3 else ((d3.drawTokens x.pan 6144).countStage x.pan k).invalidate x.pan
    let d5 := d4.modPan x.pan fun p => { p with shadowWriting := true }
    let d6 := if x.kind == .pre then
        { d5 with rake := { d5.rake with specStarted := satInc d5.rake.specStarted }
                  bgs := { d5.bgs with preTokens := d5.bgs.preTokens.modify 0 x.pan (· + 6144) } }
      else d5.setUnit (uLane l) .running .device
    if carried then d6
    else match d6.imgHdr x.img, x.exec.bind d6.op, d6.imgRes x.img with
      | some h, some o, _ => (match d6.imgChecks h o.res with | some (st, a) => d6.passFail y st a | none => d6)
      | some h, none, some res => (match d6.imgChecks h res with | some (st, a) => d6.passFail y st a | none => d6)
      | _, _, _ => d6

/-- Pre-stages in progress, newest first by their start. -/
def Dev.preRunning (d : Dev) : List Pass := d.cfg.passes.filter fun x => x.kind == .pre

/-- No non-volatile write may start: PFW_N is asserted (R130, R615). -/
def Dev.nvStopped (d : Dev) : Bool := d.cfg.pfwStops

/-- PASS_START: the oldest waiting pass, a real one first, takes the lowest free lane; a real one that finds none abandons
the newest pre-stage (R167, R238). -/
def opPassStart (d : Dev) : Dev :=
  let waits (pre : Bool) : Option Pass := d.cfg.passes.find? fun x => x.lane.isNone && (x.kind == .pre) == pre
  if d.nvStopped || d.pllDead 0 then d
  else match waits false with
    | some x =>
      (match d.freeLane with
       | some l => d.beginPass x l
       | none =>
         match argMin (fun (y : Pass) => -(y.age : Int)) (d.preRunning.filter fun y => y.lane.isSome) with
         | none => d
         | some y =>
           let d1 := (d.discardPre y.pan).retryHit y.anchor
           match d1.freeLane with
           | some l => d1.beginPass x l
           | none => d1)
    | none =>
      match waits true, d.freeLane with
      | some x, some l => d.beginPass x l
      | _, _ => d

/-- STAGING_FRAME: a lane takes one frame (R165). -/
def opStagingFrame (l : Nat) (a : Arrival) (c : WriteCheck) (d : Dev) : Dev :=
  if d.nvStopped || d.pllDead 0 then d
  else match d.lanePass l with
    | none => d
    | some x =>
      if d.ust uStore == .faulted && (match x.img with | .store _ _ => x.kind == .real || x.kind == .pre | _ => false) then
        d.passFail x stUncorr x.recv
      else match d.passFrame x a c with
        | .wait => d
        | .go d1 y => d1.putPass x y
        | .fail d1 y st addr => (d1.putPass x y).passFail y st addr

/-- The carry passes of a MIGRATE, in member order: logic frames and RAM frames of each member (R249). -/
def Dev.carryPasses (d : Dev) (e : Nat) (o : Op) : Dev :=
  let mk (k : PassKind) (i p : Nat) : Pass :=
    { kind := k, exec := some e, pan := p, anchor := o.dst, member := i, module := o.module, digest := o.digest, full := [], img := .host [] }
  foldS (fun d (y : Nat × Nat) => (d.addPasses (fun _ p => mk .carryLogic y.1 p) [y.2]).addPasses (fun _ p => mk .carryRam y.1 p) [y.2])
    (d.modOp e fun o => { o with phase := .carry }) (indexed o.dsts)

/-- The passes of a member of an operation have all ended well. -/
def Dev.memberDone (d : Dev) (e : Nat) (x : Pass) : Dev :=
  let d1 := match d.imgDigest x.img, x.full.isEmpty && x.kind == .real with
    | some g, true => d.modOp e fun o => { o with digest := digest64 g }
    | _, _ => d
  let left := (d1.opPasses e).any fun y => y.pan == x.pan
  let d2 := if left then d1 else d1.modOp e fun o => { o with passed := o.passed ++ [x.pan] }
  match d2.op e with
  | none => d2
  | some o =>
    let d3 := if left || (x.kind == .real && x.carry) then d2 else d2.stageMember e o x.pan
    if !(d3.opPasses e).isEmpty then d3
    else if x.kind == .real then d3.quiesce e
    else d3.startRecords e

/-- PASS_END: after the final checks the pass's shadow is valid (R166, R236, R249). -/
def opPassEnd (l : Nat) (d : Dev) : Dev :=
  match (if d.pllDead 0 then none else d.lanePass l) with
  | none => d
  | some x =>
    match d.passChecks x with
    | none => d
    | some (some (st, addr)) => d.passFail x st addr
    | some none =>
      let d1 := d.leaveLane x true
      match x.kind, x.exec with
      | .pre, _ =>
        let d2 := { d1 with rake := { d1.rake with windrow := d1.rake.windrow.modify {} x.pan fun w => { w with valid := true, writing := false } } }
        (d2.modPan x.pan fun p => { p with shadowValid := true }).retryHit x.anchor
      | _, some e => d1.memberDone e x
      | _, none => d1

/-! ### Host images (R399) -/

/-- Bytes of a host image's body arrive: the passes and the operation hold them. -/
def Dev.putHostBytes (d : Dev) (e : Nat) (bs : List Byte) : Dev :=
  let grow (i : ImgSrc) : ImgSrc := match i with | .host b => .host (b ++ bs) | s => s
  let d1 := d.modOp e fun o => { o with img := grow o.img }
  { d1 with cfg := { d1.cfg with passes := d1.cfg.passes.map fun x => if x.exec == some e then { x with img := grow x.img } else x } }

/-- Bytes of the image that an operation holds. -/
def ImgSrc.held : ImgSrc → Nat
  | .host b => b.length
  | .store _ n => n

/-- Ask for the next piece of a host image's body. -/
def Dev.askBody (d : Dev) (e : Nat) : Dev :=
  match d.op e with
  | none => d
  | some o =>
    match o.img with
    | .store _ _ => d
    | .host b =>
      if o.hostLen ≤ b.length then d
      else d.askBytes e o.iss (.image e) (o.hostAddr + b.length) (o.hostLen - b.length) (fun d bs => d.putHostBytes e bs)
        fun d => d.failOp e stHostAbort o.unit 0

/-! ### Completion (R111, R257) -/

/-- INFO of DONE. -/
def Op.info (o : Op) : DWord :=
  match o.kind with
  | .place => pack64 [(o.dst, 0, 6), (b2n o.hit, 8, 1), (o.seq.toNat, 32, 32)]
  | .migrate => pack64 [(o.dst, 0, 6), (o.src, 8, 6), (b2n (bit (dword o.desc 2) 22), 16, 1), (o.seq.toNat, 32, 32)]
  | .evict => pack64 [(o.dst, 0, 6), (o.seq.toNat, 32, 32)]

/-- An EVICT ends once its records are settled. -/
def Dev.endEvict (d : Dev) (e : Nat) (o : Op) : Dev := (d.setOp e none).complete e stDone o.unit o.info

/-! ### The successor history (R234) -/

/-- The module that occurs most often in a list, the most recent on a tie. -/
def predicted (l : List Word) : Option Word := argMin (fun m => -(l.count m : Int)) l.reverse

/-- X is placed: it is appended to the list of the module placed before it. -/
def histPlace (h : List HistEntry) (prev : Option Word) (x : Word) : List HistEntry :=
  let h1 := h.map fun e => if some e.module = prev then { e with next := (e.next ++ [x]).drop (e.next.length + 1 - 8) } else e
  let own := (h1.find? fun e => e.module == x).getD { module := x, next := [] }
  let h2 := (h1.filter fun e => e.module != x) ++ [own]
  h2.drop (h2.length - 256)

/-- The history and the prediction at the commit of a PLACE. -/
def Dev.recordPlace (d : Dev) (o : Op) : Dev :=
  let r := d.rake
  let hist := histPlace r.hist r.lastPlaced o.module
  let list := ((hist.find? fun e => e.module == o.module).map HistEntry.next).getD []
  let guess := if bit r.ctrl 5 && !bit (dword o.desc 0) 10 then predicted list else none
  let usable (m : Word) : Bool :=
    bit r.ctrl 4 && (d.catEntry m).isSome && m != o.module && (d.placedAt m).isNone && !(List.range 64).any fun p => d.prestaged p && (d.win p).module == m
  let old := if r.pendPred.any fun x => x.1 == o.module then none else r.pendPred
  let pend := match guess with
    | some m => if usable m then some (m, o.iss.reader) else old
    | none => old
  { d with rake := { r with hist := hist, lastPlaced := some o.module, pendPred := pend } }

/-! ### Commit rows (R127–R129, R249, R254) -/

/-- The word begins a write of a record slot: its first word, or the clearing of VALID in step 1 (R143). -/
def RecJob.startsRecord (j : RecJob) : Bool := j.word == 0 || (j.word == 8 && j.value == 0)

/-- The operation whose next record word or SETTLED word is of unit `u`. -/
def Dev.recordOp (d : Dev) (u : Nat) : Option (Nat × Op × RecJob) :=
  d.ops.findSome? fun y =>
    let (e, o) := y
    let ready := o.kind != .evict || o.invalDone
    match o.phase, o.jobs, o.settle with
    | .records, j :: _, _ => if j.unit = u ∧ ready then some (e, o, j) else none
    | .release, _, j :: _ => if j.unit = u then some (e, o, j) else none
    | _, _, _ => none

/-- A pan is emptied at the commit point: the EMPTY record's slot is selected (R129, R254). Its port then takes state
`port`: EMPTY, but for the source of a MIGRATE, which answers BUSY until every router has acknowledged (R229, R251; R283 would
end REFUSING with the records: assumption 79). -/
def Dev.emptyPan (d : Dev) (c : Cause) (port : PortSt) (p : Nat) : Dev :=
  let d1 := (d.switchPlane p (d.shadow p)).modPan p fun x => { x with port := port, stopPend := none, shut := true }
  let d2 := (d1.panSources p fun x => { x with srcCommitGsr := false, srcCommitHold := false, srcStop := false }).setQreq p false
  d2.setUnit (uPan p) .idle c

/-- The commit point of an operation. -/
def Dev.opCommit (d : Dev) (e : Nat) (o : Op) : Dev :=
  let d1 := foldS (fun d p => d.atCommit p) d o.writes
  let d2 := d1.modOp e fun o => { o with phase := .release, committed := true }
  match o.kind with
  | .place => ((((d2.unbindPorts o.dsts).dropRes o.dsts).setRes o.dst o.shapeW o.res).recordPlace o).recomputeHomes
  | .migrate =>
    let d3 := foldS (fun d p => d.emptyPan o.iss.cause .refusing p) d2 o.srcs
    let d4 := d3.movePins (o.srcs.zip o.dsts)
    ((d4.dropRes o.srcs).setRes o.dst o.shapeW o.res).recomputeHomes
  | .evict =>
    let d3 := foldS (fun d p => d.emptyPan o.iss.cause .empty p) d2 o.srcs
    (((d3.unbindPorts o.srcs).dropRes o.srcs).recomputeHomes).refreshPins

/-- The plane switch and the tag-map edge of an operation (R127 step 6, R229, R283). -/
def Dev.opSwitch (d : Dev) (e : Nat) (o : Op) : Dev :=
  let c := o.iss.cause
  let d1 := foldS (fun d p =>
    let d1 := d.switchPlane p (d.shadow p)
    let d2 := d1.modPan p fun x => { x with port := .held, handover := true, stopPend := none }
    (d2.setQreq p false).setUnit (uPan p) .running c) d o.dsts
  let old := match o.kind with
    | .migrate => d1.tagsOf o.srcs
    | _ => d1.tagsOf o.dsts
  let moved : List (Nat × TagBind) := match o.kind with
    | .migrate => old.map fun t => (t.1, { t.2 with pan := ((o.srcs.zip o.dsts).find? fun x => x.1 == t.2.pan).elim o.dst Prod.snd })
    | _ => o.tags
  let d2 := (d1.unbindTags (old.map Prod.fst)).bindTags moved
  let d3 := (d2.unbindPorts o.writes).bindPorts o.res o.dst o.shapeW
  let d4 := d3.modOp e fun o => { o with switched := true }
  (d4.sendInval (invalOf ((old ++ moved).map Prod.fst).eraseDups) (some e)).refreshPins

/-- Release of every member at one edge: borders, GSR and hold, the ports of both sides, then the completion (R73, R111, R116, R284). -/
def Dev.opRelease (d : Dev) (e : Nat) (o : Op) : Dev :=
  let d := foldS (fun d p => d.modPan p fun x => { x with port := .empty }) d o.srcs
  let d1 := foldS (fun d p => d.modPan p fun x => { x with shut := false, handover := false, port := .opened }) d o.dsts
  let d2 := d1.sourcesOf o.dsts fun x => { x with srcCommitGsr := false, srcCommitHold := false }
  let d3 := (d2.setOp e none).refreshPins
  let d4 := foldS (fun d f => d.flushChannel f) d3 ((List.range 24).filter fun f => (d3.fport f).bound.any fun b => o.dsts.contains b.2.1)
  d4.complete e stDone o.unit o.info

/-! ### Capture (R250) -/

/-- What a held source member hands to its destination. -/
def Dev.capturePan (d : Dev) (s : Nat) : Tab (Option Bool) × Tab (BitVec 36) :=
  let v := d.view s
  let cells := v.cfg.cells.filter fun m => decide ((v.cfg.cell m).mode < 4)
  (foldS (fun (t : Tab (Option Bool)) m => t.set none m (some (v.p.fab.q.get false m))) [] cells, v.p.fab.ram)

/-- CAPTURE_DONE of an operation. -/
def Dev.opCapture (d : Dev) (e : Nat) (o : Op) : Dev :=
  let d1 := foldS (fun d (y : Nat × Nat) =>
    let (q, r) := d.capturePan y.1
    d.modOp e fun o => { o with capQ := o.capQ.set [] y.2 q, capRam := o.capRam.set [] y.2 r }) d (o.srcs.zip o.dsts)
  match d1.op e with
  | none => d1
  | some o => d1.carryPasses e o

/-! ### Pre-stages (R233–R236, R240) -/

/-- A pan may take a pre-stage (R235, R240). -/
def Dev.preOk (d : Dev) (m : Nat) : Bool := !d.prestaged m && d.preShare m

/-- Pre-stages in progress, counted by anchor. -/
def Dev.preCount (d : Dev) : Nat := ((d.preRunning.map fun x => x.anchor).eraseDups).length

/-- A module may be pre-staged at all. -/
def Dev.preModule (d : Dev) (m : Word) : Bool :=
  (d.catEntry m).isSome && (d.placedAt m).isNone && !(List.range 64).any fun p => d.prestaged p && (d.win p).module == m

/-- Start a pre-stage of a candidate; none where it is dropped. -/
def Dev.startPre (d : Dev) (m : Word) (rd : Nat) : Option Dev :=
  match d.catEntry m with
  | none => none
  | some c =>
    if !d.preModule m then none
    else
      let res := (d.imgRes c.img).getD []
      let as := (d.candidates rd c.w c.h).filter fun a => (gangPans a c.w c.h).all d.preOk
      match argMin (fun a => d.cost rd a c.w c.h res false) as with
      | none => none
      | some a =>
        let ps := gangPans a c.w c.h
        let dg := digest64 c.digest
        let entry (i : Nat) : WinEntry := { writing := true, module := m, anchor := a, member := i, digest := dg, age := d.cfg.passCtr }
        let put (d : Dev) (y : Nat × Nat) : Dev :=
          { d with rake := { d.rake with windrow := d.rake.windrow.set {} y.2 (entry y.1) } }
        let d1 := foldS (fun d (y : Nat × Nat) => (put d y).abortPst y.2) d (indexed ps)
        let mk (i p : Nat) : Pass :=
          { kind := .pre, exec := none, pan := p, anchor := a, member := i, module := m, digest := dg, full := c.digest, img := c.img }
        some (d1.addPasses mk ps)

/-- Try the candidates in order until one starts: the hint queue, oldest first, then the pending prediction. -/
def Dev.tryPre (d : Dev) : List (Word × Nat) → Dev
  | [] =>
    (match d.rake.pendPred with
     | none => d
     | some (m, rd) =>
       let d1 := { d with rake := { d.rake with pendPred := none } }
       (d1.startPre m rd).getD d1)
  | (m, rd) :: rest =>
    let d1 := { d with rake := { d.rake with hints := rest } }
    match d1.startPre m rd with
    | some d2 => d2
    | none => d1.tryPre rest

/-- SPEC_EN is 0: every candidate fails that condition, and is dropped at once (R235). -/
def Dev.dropCandidates (d : Dev) : Dev :=
  if bit d.rake.ctrl 4 then d else { d with rake := { d.rake with hints := [], pendPred := none } }

/-- PRESTAGE_START (R235): its first pass takes the lowest free lane. -/
def opPrestageStart (d : Dev) : Dev :=
  if !bit d.rake.ctrl 4 then d.dropCandidates
  else if d.freeLane.isNone || d.realWaits || 2 ≤ d.preCount || !d.rakeOpen || !d.rake.mapReady || d.nvStopped then d
  else
    let d1 := d.tryPre d.rake.hints
    if d1.cfg.passCtr = d.cfg.passCtr then d1 else opPassStart d1

/-! ### Tokens (R557, R558) -/

/-- TOKEN_REFILL: every bucket gains one token, up to SIZE; none while RATE is 0. -/
def opTokenRefill (d : Dev) : Dev :=
  if fld d.bgs.wearRate 0 10 = 0 || d.pllDead 0 || (d.pwr.phase == .asleep && decide (3 ≤ d.pwr.modeIn.toNat)) then d
  else foldS (fun d p => d.setTokens p (d.tokens p + 1)) d (List.range 64)

/-- A write of BGS_WEAR_SIZE: a bucket above the new size is reduced to it. -/
def Dev.writeWearSize (d : Dev) (v : Word) : Dev :=
  let d1 := { d with bgs := { d.bgs with wearSize := v &&& 0x7FFFFFFF } }
  foldS (fun d p => d.setTokens p (d.tokens p)) d1 (List.range 64)

/-- WEAR_SIZE_WRITE: BGS_WEAR_SIZE is written through a path. -/
def opWearSizeWrite (path : Path) (v : Word) (d : Dev) : Dev := d.filtered path .bgs 0x20 fun d => d.writeWearSize v

/-! ### The commands -/

/-- STAGING_FRAME (R165). -/
def execStagingFrame (lane : Nat) (arrival : Arrival) (check : WriteCheck) (s : State) : Res :=
  runCmd (.stagingFrame lane arrival check) (opStagingFrame lane arrival check) s

/-- PASS_END (R166). -/
def execPassEnd (lane : Nat) (s : State) : Res :=
  runCmd (.passEnd lane) (opPassEnd lane) s

/-- WEAR_SIZE_WRITE (R558). -/
def execWearSizeWrite (path : Path) (value : Word) (s : State) : Res :=
  runCmd (.wearSizeWrite path value) (opWearSizeWrite path value) s

/-- PASS_START (R167). -/
def execPassStart (s : State) : Res :=
  runCmd (.passStart) (opPassStart) s

/-- PRESTAGE_START (R235). -/
def execPrestageStart (s : State) : Res :=
  runCmd (.prestageStart) (opPrestageStart) s

/-- TOKEN_REFILL (R557). -/
def execTokenRefill (s : State) : Res :=
  runCmd (.tokenRefill) (opTokenRefill) s

end Sys2Proof.Machine
end

