-- ==== Sys2Proof/Machine/Place.lean ====
section
/-! DEFINITION. PLACE, EVICT, MIGRATE, HINT and BIND, the rows that carry an operation from its commit to its release, the
tag-map rebuild, parity failures of the Rake and of a lane, and the RAKE registers (R211–R264, R398–R403). -/

namespace Sys2Proof.Machine

/-! ### The order of checks (R256, R399) -/

/-- W1 of a PLACE, EVICT, MIGRATE or BIND. -/
def Desc.module (x : Desc) : Word := dword x 1
/-- FORCE. -/
def Desc.force (x : Desc) : Bool := bit (dword x 0) 12
/-- PINNED. -/
def Desc.pinned (x : Desc) : Bool := bit (dword x 0) 13
/-- EPOCH of W2. -/
def Desc.epoch (x : Desc) : BitVec 16 := BitVec.ofNat 16 (fld (dword x 2) 0 16)
/-- PAN of W2. -/
def Desc.pan (x : Desc) : Nat := fld (dword x 2) 16 6
/-- The overrides of a PLACE: entry index and tag. -/
def Desc.overrides (x : Desc) : List (Nat × Nat) :=
  (List.range (fld (dword x 2) 24 4)).map fun i => (fld (dword x (6 + i)) 0 8, fld (dword x (6 + i)) 16 16)

/-- Reserved fields of a PLACE (R398). -/
def placeMasks (x : Desc) : List (Nat × Nat) :=
  let n := fld (dword x 2) 24 4
  [(2, 0xF0800000), (14, 0xFFFFFFFF), (15, 0xFFFFFFFF)] ++
    (if bit (dword x 2) 22 then [] else [(3, 0xFFFFFFFF), (4, 0xFFFFFFFF), (5, 0xFFFFFFFF)]) ++
    (List.range 8).map fun i => (6 + i, if i < n then 0xFF00 else 0xFFFFFFFF)

/-- The unit of an operation's own failure: the named anchor with PINNED, the Rake before an anchor is chosen (R392). -/
def Op.failUnit (o : Op) : Nat := if (Desc.pinned o.desc) then uPan (Desc.pan o.desc) else uRake

/-- Pans whose modules a PINNED PLACE replaces. -/
def Op.pinnedPans (o : Op) : List Nat := if (Desc.pinned o.desc) then gangPans (Desc.pan o.desc) o.shapeW o.shapeH else []

/-- Order 2 for the resources of a module (R228, R256). -/
def Dev.resourcesIn (d : Dev) (rd : Nat) (keySlot : Nat) (res : List ResEntry) : Bool :=
  let p := d.part rd
  p.slot keySlot && res.all fun r =>
    if r.isPool then p.hasHandle (r.par 0 2)
    else if r.isPin then (List.range 16).all fun b => !(r.par 2 2).testBit b || p.pinBanks.getLsbD b
    else if r.isPort then
      (if r.par 0 1 == 3 then p.links.getLsbD (r.par 1 1) else if r.par 0 1 == 4 then p.fports.getLsbD (r.par 1 1) else false)
    else true

/-- A port entry names a port bound by another module, or one that an operation in progress other than `own` binds. -/
def Dev.portTaken (d : Dev) (own : Nat) (mine : List Nat) (r : ResEntry) : Bool :=
  let i := r.par 1 1
  let held : Option (Nat × Nat × Nat) := if r.par 0 1 = 3 then (d.link i).bound else (d.fport i).bound
  r.isPort && (held.any (fun b => !mine.contains b.1) ||
    d.ops.any fun e => e.1 != own && e.2.kind == .place && !e.2.switched && e.2.res.any fun q => q.isPort && q.par 0 1 == r.par 0 1 && q.par 1 1 == i)

/-- Tags that operations in progress will bind. -/
def Dev.pendingTags (d : Dev) : List Nat := d.ops.flatMap fun e => if e.2.switched then [] else e.2.tags.map Prod.fst

/-- The pools of a resource section are live and large enough. -/
def Dev.poolsOk (d : Dev) (res : List ResEntry) : Bool :=
  res.all fun r => !r.isPool || (match d.rake.pools.get none (r.par 0 2) with | some p => decide (r.par 4 4 ≤ p.size) | none => false)

/-- The outcome of a decision: an anchor with HIT and FORCED and its cost, or a status. -/
inductive Decision where
  | chosen (anchor : Nat) (hit forced : Bool) (cost : Int) (eligible : Nat)
  | rejected (status : Nat)
  deriving DecidableEq, Repr

/-- The Rake chooses an anchor (R215–R218). `hits`: pre-stages count as hits. -/
def Dev.choose (d : Dev) (o : Op) (hits : Bool) : Decision :=
  let rd := o.iss.reader
  let force := (Desc.force o.desc)
  let w := o.shapeW
  let h := o.shapeH
  let ok (a : Nat) : Bool := (gangPans a w h).all d.tokensOk
  let hit (a : Nat) : Bool := hits && d.hitAt o.module a w h o.digest o.secVersion
  if (Desc.pinned o.desc) then
    let a := (Desc.pan o.desc)
    if !ok a && !force then .rejected stWear else .chosen a (hit a) (!ok a) 0 0
  else
    let all := d.candidates rd w h
    let good := if force then all else all.filter ok
    let c (a : Nat) : Int := d.cost rd a w h o.res (hit a)
    match argMin c good with
    | some a => .chosen a (hit a) (!ok a) (c a) good.length
    | none => .rejected (if all.isEmpty then stNoRoom else stWear)

/-- RAKE_LAST and RAKE_LAST_COST (R262) show the decision of execution record `e`. -/
def Dev.noteDecision (d : Dev) (e : Nat) (o : Op) (a : Nat) (hit forced : Bool) (cost : Int) (n : Nat) : Dev :=
  { d with rake := { d.rake with
    last := pack [(a, 0, 6), (b2n hit, 6, 1), (b2n (Desc.pinned o.desc), 7, 1), (n, 8, 7), (b2n forced, 15, 1), (Desc.opcode o.desc, 16, 8)]
    lastCost := satS32 cost, lastOf := some e } }

/-- A decision is carried out: pans are reserved, self-tests give way, a hit is made real or staging starts. -/
def Dev.launch (d : Dev) (e : Nat) (o : Op) (a : Nat) (hit forced : Bool) (cost : Int) (n : Nat) : Dev :=
  let ps := gangPans a o.shapeW o.shapeH
  let tags := if o.kind == .place then resTags o.res (Desc.overrides o.desc) a o.shapeW o.iss.owner else []
  let o1 := { o with
    phase := .staging, dst := a, dsts := ps, root := a, tags := tags, prior := (ps ++ o.srcs).map fun p => (p, d.ust (uPan p)), hitWait := hit }
  let d0 := (d.setOp e (some o1)).noteDecision e o1 a (hit && d.hitReady o.module a o.shapeW o.shapeH) forced cost n
  let d1 := if forced then d0.logForce o1 (if o.kind == .place then 0 else 1) else d0
  let d2 := foldS Dev.abortPst d1 ps
  if hit then d2.retryHit a else (d2.freshStaging e).askBody e

/-- Orders 2–6 of a PLACE with its image's resource section known. -/
def Dev.placeDecide (d : Dev) (e : Nat) (o : Op) : Dev :=
  let x := o.desc
  let rd := o.iss.reader
  let fail (st : Nat) : Dev := d.failOp e st o.failUnit 0
  let mine := o.pinnedPans
  let tags := (resTags o.res (Desc.overrides x) 0 o.shapeW o.iss.owner).map Prod.fst
  let freed := (d.tagsOf mine).map Prod.fst
  let busyTags := ((d.bound.map Prod.fst).filter fun t => !freed.contains t) ++ d.pendingTags
  let whole := mine.all fun p => !(d.pan p).occupied || (d.modulePans (d.anchor p)).all mine.contains
  let u := uPan (Desc.pan x)
  let legal := mine.all fun p => let s := d.ust (uPan p); s == .idle || s == .running || s == .quiesced || s == .faulted
  let placedElse := (d.placedAt o.module).isSome || (d.ops.any fun y => y.1 != e && y.2.kind == .place && y.2.module == o.module)
  if !d.resourcesIn rd o.keySlot o.res || tags.any (fun t => !(d.part rd).hasTag t) || mine.any (fun p => !d.inPart rd (uPan p)) then fail stPerm
  else if placedElse || tags.any busyTags.contains || decide (tags.eraseDups.length < tags.length) || o.res.any (d.portTaken e mine) ||
      !d.poolsOk o.res || mine.any (fun p => d.ust (uPan p) == .retired) || !whole then fail stRefused
  else match (if (Desc.pinned x) then d.epochCheck u (Desc.epoch x) (mine.any d.busyPan) legal else none) with
    | some st => d.failOp e st u (d.epochInfo u)
    | none =>
      if decide (4096 < busyTags.length + tags.length) then fail stNoRoom
      else match d.choose o (match o.img with | .store _ _ => true | .host _ => false) with
        | .rejected st => fail st
        | .chosen a hit forced cost n =>
          if (d.newSeq (gangPans a o.shapeW o.shapeH)).isNone then fail stWear else d.launch e o a hit forced cost n

/-- The resource section of an image lies within its IMAGE_LEN bytes of host memory. -/
def ImgHdr.fitsIn (h : ImgHdr) (len : Nat) : Bool := decide (h.resOff + h.resLen ≤ len)

/-- The rest of order 1 that needs the image, then R645. `h`: the header of a host image, whose HCHECK, MAGIC and FORMAT
(R399 step 3), then MODULE_ID and LENGTH (step 4) are checked here. -/
def Dev.placeHeaderChecks (d : Dev) (e : Nat) (o : Op) (h : Option ImgHdr) : Dev :=
  let x := o.desc
  let ovrOk := (Desc.overrides x).all fun v => (o.res[v.1]?).any ResEntry.isEndpoint
  let named := h.all fun h => h.moduleId == o.module && h.length == o.hostLen
  if h.any fun h => !h.ok then d.failOp e stFrame o.failUnit 0
  else if !named || !ovrOk || ((Desc.pinned x) && !fits (Desc.pan x) o.shapeW o.shapeH) then d.failOp e stBad o.failUnit 0
  else if h.any (fun h => !h.fitsIn o.hostLen) || o.res.any (fun r => decide (o.shapeW * o.shapeH ≤ r.member)) then
    d.failOp e stFrame o.failUnit 0
  else d.placeDecide e o

/-- The resource section of a host image has arrived whole, or it is not read. -/
def Dev.placeResDone (d : Dev) (e : Nat) : Dev :=
  match d.op e with
  | none => d
  | some o => let o1 := { o with res := resEntries o.resBuf }; (d.setOp e (some o1)).placeHeaderChecks e o1 (d.imgHdr o.img)

/-- Bytes of the resource section of a host image arrive. -/
def Dev.placeResBytes (d : Dev) (e : Nat) (bs : List Byte) : Dev :=
  let d1 := d.modOp e fun o => { o with resBuf := o.resBuf ++ bs }
  match d1.op e, (d1.op e).bind fun o => d1.imgHdr o.img with
  | some o, some h =>
    let have_ := o.resBuf.length
    if h.resLen ≤ have_ then d1.placeResDone e
    else d1.askBytes e o.iss (.image e) (o.hostAddr + h.resOff + have_) (h.resLen - have_) (fun d _ => d)
      fun d => d.failOp e stHostAbort o.failUnit 0
  | _, _ => d1

/-- The header of a host image has arrived (R399 step 2): the resource section is read, where IMAGE_LEN takes it in
(assumption 36). -/
def Dev.placeHeader (d : Dev) (e : Nat) : Dev :=
  match d.op e, (d.op e).bind fun o => d.imgHdr o.img with
  | some o, some h =>
    let d1 := d.modOp e fun o => { o with
      phase := .waitRes, shapeW := h.w, shapeH := h.hh, keySlot := h.keySlot, secVersion := h.secVersion }
    if h.resLen = 0 || !h.fitsIn o.hostLen then d1.placeResDone e
    else d1.askBytes e o.iss (.image e) (o.hostAddr + h.resOff) h.resLen (fun d bs => d.placeResBytes e bs)
      fun d => d.failOp e stHostAbort o.failUnit 0
  | _, _ => d

/-- Bytes of a host image that an operation holds. -/
def Dev.hostBytes (d : Dev) (e : Nat) : List Byte :=
  match d.op e with
  | some o => (match o.img with | .host b => b | .store _ _ => [])
  | none => []

/-- Bytes of a host image for an operation have arrived. -/
def Dev.imageArrived (d : Dev) (e : Nat) (bs : List Byte) : Dev :=
  match d.op e with
  | none => d
  | some o =>
    match o.phase with
    | .waitHeader =>
      let d1 := d.putHostBytes e bs
      let n := (d1.hostBytes e).length
      if n < 256 then d1.askBytes e o.iss (.image e) (o.hostAddr + n) (256 - n) (fun d _ => d) fun d => d.failOp e stHostAbort o.failUnit 0
      else d1.placeHeader e
    | .waitRes => d.placeResBytes e bs
    | _ => (d.putHostBytes e bs).askBody e

/-- A read of a host image for an operation has failed (R369). An operation that PFW_N has stopped resolves at the next
start-up (R190). -/
def Dev.imageFailed (d : Dev) (e : Nat) : Dev :=
  match (if d.nvStopped then none else d.op e) with
  | none => d
  | some o =>
    match o.phase with
    | .waitHeader => d.failOp e stHostAbort o.failUnit 0
    | .waitRes => d.failOp e stHostAbort o.failUnit 0
    | _ =>
      match (d.opPasses e).find? fun x => x.kind == .real && x.lane.isSome with
      | some x => d.passFail x stHostAbort x.recv
      | none => d.failOp e stHostAbort o.unit 0

/-- PLACE after R391. -/
def Dev.placeStart (d : Dev) (e : Nat) (iss : Issuer) (x : Desc) : Dev :=
  let m := (Desc.module x)
  let addr := (dqword x 3).toNat
  let len := (dword x 5).toNat
  let host := bit (dword x 2) 22
  let o : Op := { kind := .place, iss := iss, desc := x, phase := .waitHeader, module := m }
  if m = 0 || (!(Desc.pinned x) && ((Desc.epoch x) != 0xFFFF || Desc.pan x != 0)) || decide (8 < fld (dword x 2) 24 4) ||
      (host && (addr % 64 != 0 || decide (len < 256) || badRange iss addr len)) then d.complete e stBad o.failUnit 0
  else if host then
    let d1 := d.setOp e (some { o with hostAddr := addr, hostLen := len })
    d1.askBytes e iss (.image e) addr 256 (fun d bs => (d.putHostBytes e bs).placeHeader e) fun d => d.failOp e stHostAbort o.failUnit 0
  else if d.storeDead then d.complete e stUncorr o.failUnit 0
  else match d.catEntry m with
    | none => d.complete e stBad o.failUnit 0
    | some c =>
      let o1 := { o with
        digest := digest64 c.digest, full := c.digest, shapeW := c.w, shapeH := c.h, keySlot := c.keySlot.toNat
        secVersion := c.secVersion.toNat, img := c.img, res := (d.imgRes c.img).getD [] }
      (d.setOp e (some o1)).placeHeaderChecks e o1 none

/-! ### EVICT (R254, R400) -/

/-- EVICT after R391. -/
def Dev.evictStart (d : Dev) (e : Nat) (iss : Issuer) (x : Desc) : Dev :=
  match d.placedAt (Desc.module x) with
  | none => d.complete e stRefused uRake 0
  | some a =>
    let ps := d.placedPans (Desc.module x) a
    let u := uPan a
    let legal := ps.all fun p => let s := d.ust (uPan p); s == .running || s == .quiesced || s == .faulted
    if ps.any fun p => !d.inPart iss.reader (uPan p) then d.complete e stPerm u 0
    else match d.epochCheck u (Desc.epoch x) (ps.any d.busyPan) legal with
      | some st => d.complete e st u (d.epochInfo u)
      | none =>
        if (d.newSeq ps).isNone then d.complete e stWear u 0
        else
          let o : Op := { kind := .evict, iss := iss, desc := x, phase := .quiesce, module := (Desc.module x), dst := a, srcs := ps, root := a
                          prior := ps.map fun p => (p, d.ust (uPan p)) }
          (d.setOp e (some o)).quiesce e

/-! ### MIGRATE (R248–R252, R401) -/

/-- Reserved fields of a MIGRATE. -/
def migrateMasks : List (Nat × Nat) := [(2, 0xFF800000)] ++ resFrom 3

/-- The status of a MIGRATE of a module that is not placed: orders 1 and 2 of R256 stand before it. The catalogue names the
shape and the resources of a module that no pan holds; without an entry a PINNED anchor is one pan (assumption 36). -/
def Dev.unplacedStatus (d : Dev) (rd : Nat) (x : Desc) (c : Option CatEntry) : Nat :=
  let w := c.elim 1 CatEntry.w
  let h := c.elim 1 CatEntry.h
  if Desc.pinned x && !fits (Desc.pan x) w h then stBad
  else if c.any (fun c => !d.resourcesIn rd c.keySlot.toNat ((d.imgRes c.img).getD [])) ||
      (Desc.pinned x && (gangPans (Desc.pan x) w h).any fun p => !d.inPart rd (uPan p)) then stPerm
  else stRefused

/-- MIGRATE after R391. -/
def Dev.migrateStart (d : Dev) (e : Nat) (iss : Issuer) (x : Desc) : Dev :=
  let rd := iss.reader
  let carry := bit (dword x 2) 22
  let c := d.catEntry (Desc.module x)
  if !(Desc.pinned x) && Desc.pan x != 0 then d.complete e stBad uRake 0
  else match d.placedAt (Desc.module x) with
  | none => d.complete e (d.unplacedStatus rd x c) (if Desc.pinned x then uPan (Desc.pan x) else uRake) 0
  | some a =>
    let (w, h) := d.placedShape (Desc.module x) a
    let ss := gangPans a w h
    let u := uPan a
    let res := d.resOf a
    let o : Op := { kind := .migrate, iss := iss, desc := x, phase := .staging, module := (Desc.module x), src := a, srcs := ss, shapeW := w, shapeH := h }
    let o := match c with
      | some c => { o with
          digest := digest64 c.digest, full := c.digest, keySlot := c.keySlot.toNat, secVersion := c.secVersion.toNat, img := c.img
          res := (d.imgRes c.img).getD [] }
      | none => o
    let ds := o.pinnedPans
    if (Desc.pinned x) && !fits (Desc.pan x) w h then d.complete e stBad o.failUnit 0
    else if ss.any (fun p => !d.inPart rd (uPan p)) || !d.resourcesIn rd o.keySlot res || ds.any (fun p => !d.inPart rd (uPan p)) then
      d.complete e stPerm o.failUnit 0
    else if !d.poolsOk res || ds.any (fun p => d.ust (uPan p) != .idle || d.reserved p) then d.complete e stRefused o.failUnit 0
    else if ss.any fun p => d.ust (uPan p) != .running then d.complete e stRefused u (d.epochInfo u)
    else if d.storeDead then d.complete e stUncorr o.failUnit 0
    else if c.isNone || o.digest != (d.pan a).digest then d.complete e stRefused o.failUnit 0
    else match d.epochCheck u (Desc.epoch x) (ss.any d.busyPan) true with
      | some st => d.complete e st u (d.epochInfo u)
      | none =>
        match d.choose o (!carry) with
        | .rejected st => d.complete e st o.failUnit 0
        | .chosen t hit forced cost n =>
          if (d.newSeq (gangPans t w h ++ ss)).isNone then d.complete e stWear o.failUnit 0 else d.launch e o t hit forced cost n

/-! ### HINT (R233, R402) -/

/-- The pre-stages of module `m` are discarded (R238); an operation that waited for one looks at it again (R237). -/
def Dev.discardModule (d : Dev) (m : Word) : Dev :=
  let pre := (List.range 64).filter fun p => d.prestaged p && (d.win p).module == m
  let as := (pre.map fun p => (d.win p).anchor).eraseDups
  foldS Dev.retryHit (foldS Dev.discardPre d pre) as

/-- HINT after R391. -/
def Dev.hintStart (d : Dev) (e : Nat) (iss : Issuer) (x : Desc) : Dev :=
  let m := (Desc.module x)
  let pre := (List.range 64).filter fun p => d.prestaged p && (d.win p).module == m
  let (d1, r) :=
    if bit (dword x 2) 0 then
      (({ d with rake := { d.rake with hints := d.rake.hints.filter fun y => y.1 != m } } : Dev).discardModule m,
        !pre.isEmpty || d.rake.hints.any fun y => y.1 == m)
    else if bit d.rake.ctrl 4 && d.preModule m then
      let q := d.rake.hints ++ [(m, iss.reader)]
      (({ d with rake := { d.rake with hints := q.drop (q.length - 8) } } : Dev), true)
    else (d, false)
  d1.complete e stDone uRake (BitVec.ofNat 64 (b2n r))

/-! ### BIND (R230, R403) -/

/-- An entry of a BIND: tag, LOCAL, member, unbind. -/
def bindEntries (x : Desc) : List (Nat × Nat × Nat × Bool) :=
  (List.range (fld (dword x 2) 0 4)).map fun i =>
    let w := dword x (3 + i)
    (fld w 0 16, fld w 16 4, fld w 20 4, bit w 31)

/-- Reserved fields of a BIND. -/
def bindMasks (x : Desc) : List (Nat × Nat) :=
  let n := fld (dword x 2) 0 4
  [(2, 0xFFFFFFF0), (15, 0xFFFFFFFF)] ++ (List.range 12).map fun i => (3 + i, if i < n then 0x7F000000 else 0xFFFFFFFF)

/-- BIND after R391. -/
def Dev.bindStart (d : Dev) (e : Nat) (iss : Issuer) (x : Desc) : Dev :=
  let es := bindEntries x
  let n := fld (dword x 2) 0 4
  let at_ := d.placedAt (Desc.module x)
  let u := match at_ with | some a => uPan a | none => uRake
  let (w, h) := match at_ with | some a => d.placedShape (Desc.module x) a | none => (4, 4)
  let tags := es.map fun y => y.1
  let held (t : Nat) : Option TagBind := d.rake.tags.get none t
  let a := at_.getD 0
  let adds := es.filter fun y => !y.2.2.2
  let dels := es.filter fun y => y.2.2.2
  let fail (st : Nat) : Dev := d.complete e st u 0
  if n = 0 || 12 < n || tags.any (fun t => t == 0 || decide (0xF000 ≤ t)) || decide (tags.eraseDups.length < tags.length) ||
      (at_.isSome && es.any fun y => decide (w * h ≤ y.2.2.1)) then fail stBad
  else if tags.any (fun t => !(d.part iss.reader).hasTag t) ||
      dels.any (fun y => (held y.1).any fun b => b.owner != iss.owner && b.owner != 0xE) then fail stPerm
  else if at_.isNone || adds.any (fun y => (held y.1).isSome || d.pendingTags.contains y.1) ||
      dels.any (fun y => !((held y.1).any fun b => b.pan == memberPan a w y.2.2.1 && b.loc == y.2.1)) then fail stRefused
  else if (gangPans a w h).any d.reserved then fail stBusy
  else if decide (4096 < d.bound.length + d.pendingTags.length + adds.length - dels.length) then fail stNoRoom
  else
    let d1 := d.unbindTags (dels.map fun y => y.1)
    let d2 := d1.bindTags (adds.map fun y => (y.1, { pan := memberPan a w y.2.2.1, loc := y.2.1, owner := iss.owner }))
    (d2.setKind e (.inval u 0 [])).sendInval (.tags tags) (some e)

/-! ### The descriptors (R231, R391) -/

/-- The tag map is rebuilt, or can never be because the Store is FAULTED. -/
def Dev.mapKnown (d : Dev) : Bool := d.rake.mapReady || d.storeDead

/-- Run a descriptor of the Rake that was held, or that waits for the tag map. -/
def Dev.rakeRun (d : Dev) (e : Nat) (iss : Issuer) (x : Desc) : Dev :=
  let op := Desc.opcode x
  if d.ust uRake == .faulted then d.complete e stBusy uRake 0
  else if !d.rakeOpen then d
  else if (op == 1 || op == 2 || op == 3 || op == 5) && !d.mapKnown then d
  else match op with
    | 1 => d.placeStart e iss x
    | 2 => d.evictStart e iss x
    | 3 => d.migrateStart e iss x
    | 4 => d.hintStart e iss x
    | 5 => d.bindStart e iss x
    | 6 => d.poolCreate e iss x
    | 7 => d.poolFree e iss x
    | _ => d

/-- Descriptors that wait together, in the order in which R36 grants them. -/
def Dev.granted {α : Type} (d : Dev) (res : Nat) (iss : α → Issuer) (l : List α) : List α :=
  orderBy (fun a b => d.grantBefore res (iss a).claimant.contender (iss b).claimant.contender) l

/-- The Rake takes up every descriptor that waits for it (R213, R231), in the order of R36 (R210). -/
def Dev.resumeRake (d : Dev) : Dev :=
  foldS (fun d (y : Nat × Exec) =>
    match y.2.kind with
    | .waitRake x => d.rakeRun y.1 y.2.iss x
    | _ => d) d (d.granted uRake (fun y => y.2.iss) d.running)

/-- Start a descriptor of the Rake that needs the tag map. -/
def Dev.beginMapped (d : Dev) (iss : Issuer) (x : Desc) (op : Nat) (force pinned : Bool) (masks : List (Nat × Nat)) : Dev :=
  d.begin iss x op force pinned masks fun d e => (d.setKind e (.waitRake x)).rakeRun e iss x

/-- PLACE. -/
def opPlace (iss : Issuer) (x : Desc) (d : Dev) : Dev := d.beginMapped iss x 0x01 true true (placeMasks x)

/-- EVICT. -/
def opEvict (iss : Issuer) (x : Desc) (d : Dev) : Dev := d.beginMapped iss x 0x02 true false ([(2, 0xFFFF0000)] ++ resFrom 3)

/-- MIGRATE. -/
def opMigrate (iss : Issuer) (x : Desc) (d : Dev) : Dev := d.beginMapped iss x 0x03 true true migrateMasks

/-- HINT. -/
def opHint (iss : Issuer) (x : Desc) (d : Dev) : Dev := d.beginMapped iss x 0x04 false false ([(2, 0xFFFFFFFE)] ++ resFrom 3)

/-- BIND. -/
def opBind (iss : Issuer) (x : Desc) (d : Dev) : Dev := d.beginMapped iss x 0x05 false false (bindMasks x)

/-! ### From the drain to the release -/

/-- The operation that satisfies a test; none while the Rake's clock stands still (R541). -/
def Dev.findOp (d : Dev) (f : Op → Bool) : Option (Nat × Op) := if d.pllDead 0 then none else d.ops.find? fun y => f y.2

/-- PORT_DRAINED (R284). -/
def opPortDrained (p : Nat) (d : Dev) : Dev :=
  match d.findOp fun o => o.toDrain.contains p with
  | some (e, _) => if d.portDrainedOk p then d.modOp e fun o => { o with toDrain := o.toDrain.erase p } else d
  | none => d

/-- CAPTURE_DONE: the drained source of a MIGRATE with CARRY has been read (R250). -/
def opCaptureDone (p : Nat) (d : Dev) : Dev :=
  match d.findOp fun o => o.phase == .capture && o.srcs.contains p && o.toDrain.isEmpty with
  | some (e, o) => d.opCapture e o
  | none => d

/-- RECORD_WORD_WRITTEN: the next record word of a commit, if it is unit `u`'s, has been programmed (R127, R128, R646). -/
def opRecordWordWritten (u : Nat) (d : Dev) : Dev :=
  if d.nvStopped || d.pllDead 0 then d
  else match d.recordOp u with
    | none => d
    | some (e, o, j) =>
      let d1 := if j.startsRecord then d.countRecord u else d
      let d2 := d1.putRecWord j
      if o.phase == .records then d2.modOp e fun o => { o with jobs := o.jobs.tail }
      else
        let d3 := d2.modOp e fun o => { o with settle := o.settle.tail }
        match d3.op e with
        | some o3 => if o3.settle.isEmpty && o3.kind == .evict then d3.endEvict e o3 else d3
        | none => d3

/-- COMMIT_POINT: the root's VALID has read back at tightened margin and the ports are drained (R127). -/
def opCommitPoint (p : Nat) (d : Dev) : Dev :=
  match d.findOp fun o => o.phase == .records && o.root == p && o.jobs.isEmpty && o.toDrain.isEmpty with
  | some (e, o) => d.opCommit e o
  | none => d

/-- PLANE_SWITCH: the new plane of every destination member becomes active under GSR (R127 step 6, R116). -/
def opPlaneSwitch (p : Nat) (d : Dev) : Dev :=
  match d.findOp fun o => o.committed && !o.switched && o.dsts.contains p with
  | some (e, o) => d.opSwitch e o
  | none => d

/-- BORDER_RELEASE: every router has acknowledged and the records are settled (R42, R111, R128). -/
def opBorderRelease (p : Nat) (d : Dev) : Dev :=
  match d.findOp fun o => o.switched && o.settle.isEmpty && o.invalDone && o.dsts.contains p with
  | some (e, o) => d.opRelease e o
  | none => d

/-- INVAL_ACK: the merged acknowledgement of the oldest INVAL that has reached every router (R275). The round trip's length
is a free value. -/
def opInvalAck (d : Dev) : Dev :=
  match d.sl.invals.find? fun v => v.left.isEmpty with
  | none => d
  | some v =>
    let (k, d0) := d.takeFree
    let t : BitVec 16 := (Config.freeWord k).setWidth 16
    let d1 := { d0 with sl := { d0.sl with
      invals := d0.sl.invals.erase v, invalLast := t, invalMax := if d0.sl.invalMax.toNat < t.toNat then t else d0.sl.invalMax } }
    match v.exec with
    | none => d1
    | some e =>
      match d1.op e, (d1.exec e).map (fun (x : Exec) => x.kind) with
      | some _, _ => d1.modOp e fun o => { o with invalDone := true }
      | none, some (.inval u info free) =>
        (foldS (fun d (pg : Nat × Nat) => d.modBank pg.1 fun b => b.freePage pg.2) d1 free).complete e stDone u info
      | none, _ => d1

/-! ### The rebuild (R231) -/

/-- One module's endpoints, after a start-up. -/
def Dev.rebuildAt (d : Dev) (a : Nat) : Dev :=
  let p := d.pan a
  match d.catEntry p.module with
  | none => d
  | some c =>
    if digest64 c.digest ≠ p.digest then d
    else
      let (w, _, _, _) := p.shape
      let res := (d.imgRes c.img).getD []
      let d1 := (d.setRes a w res).bindPorts res a w
      foldS (fun d (t : Nat × TagBind) =>
        let granted := [0, 1, 2, 3, 4].any fun k => (d.part k).hasTag t.1 && d.inPart k (uPan t.2.pan)
        if (d.rake.tags.get none t.1).isSome || !granted || 4096 ≤ d.bound.length then { d with rake := { d.rake with skipped := true } }
        else d.bindTags [t]) d1 (resTags res [] a w 0xE)

/-- The tag map after the catalogue index is loaded: once after each start-up. -/
def Dev.rebuildTags (d : Dev) : Dev :=
  let d1 := foldS Dev.rebuildAt d d.anchors
  if d.rake.mapReady then d.resumeRake else ({ d1 with rake := { d1.rake with mapReady := true } }).resumeRake

/-! ### Parity failures (R20) -/

/-- RAKE_PARITY_FAULT: operations before their commit point end with INTERNAL, descriptors that wait complete BUSY. -/
def opRakeParityFault (d : Dev) : Dev :=
  if d.ust uRake == .faulted || d.ust uRake == .off || d.ust uRake == .asleep then d
  else
    let d1 := d.fault uRake stInternal 0
    let d2 := foldS (fun d (y : Nat × Op) => if y.2.committed then d else d.failOp y.1 stInternal (if y.2.dsts.isEmpty then uRake else y.2.unit) 0) d1 d1.ops
    d2.resumeRake

/-- RECOVER of the Rake (R594): the Windrow, the hint queue and the successor history are emptied. -/
def Dev.recoverRake (d : Dev) : Dev :=
  let d1 := foldS (fun d p => d.discardPre p) d (List.range 64)
  { d1 with rake := { d1.rake with windrow := [], hints := [], hist := [], lastPlaced := none, pendPred := none } }

/-- PFW_N asserts (R130, R190): the record words in progress complete (assumption 49), and every pass is abandoned with no
completion. -/
def Dev.stopPasses (d : Dev) : Dev :=
  let d1 := foldS (fun d u => opRecordWordWritten u d) d ((List.range 65).filter fun u => (d.recordOp u).isSome)
  let d2 := foldS (fun d p => if (d.win p).writing then d.discardPre p else d) d1 (List.range 64)
  foldS (fun d (x : Pass) => (d.quitLane x).refund x) d2 d2.cfg.passes

/-- The Rake or a lane accepts a stop: every pre-stage in progress is abandoned (R213); an operation that waited for one looks
at it again (R237). -/
def Dev.abandonPre (d : Dev) : Dev :=
  foldS (fun d p => if (d.win p).writing then (d.discardPre p).retryHit (d.win p).anchor else d) d (List.range 64)

/-- The Rake may stop (R213). -/
def Dev.rakeIdle (d : Dev) : Bool := d.opCount == 0

/-- LANE_PARITY_FAULT: the pass in progress ends with FRAME_CHECK; the address that is logged is a free value. -/
def opLaneParityFault (l : Nat) (d : Dev) : Dev :=
  let u := d.ust (uLane l)
  if u != .idle && u != .running then d
  else
    let (k, d0) := d.takeFree
    let d1 := d0.fault (uLane l) stInternal 0
    match d1.lanePass l with
    | some x => d1.passFail x stFrame ((Config.freeWord k).toNat % 2 ^ 24)
    | none => d1

/-! ### Registers (R258–R264) -/

/-- RAKE_STATUS. -/
def Dev.rakeStatus (d : Dev) : Word :=
  pack [(b2n d.rake.mapReady, 0, 1), (b2n (d.ust uRake == .quiesced), 1, 1), (b2n d.rake.skipped, 2, 1), (min 127 d.opCount, 8, 7),
    ((List.range 64).countP (fun p => (d.win p).valid), 16, 7), (d.rake.hints.length, 24, 4)]

/-- RAKE_TAG_ENTRY. -/
def Dev.tagEntry (d : Dev) (t : Nat) : Word :=
  match d.rake.tags.get none t, d.rake.pools.get none t with
  | some b, _ =>
    let moving := d.pendingTags.contains t || d.ops.any fun e => !e.2.switched && (e.2.srcs.contains b.pan || (e.2.kind == .place && e.2.dsts.contains b.pan))
    pack [(1, 0, 1), (b2n moving, 2, 1), (b.pan, 4, 6), (b.loc, 10, 4), (b.owner.toNat, 16, 4)]
  | none, some p => pack [(1, 0, 1), (1, 1, 1), (p.owner.toNat, 16, 4)]
  | none, none => pack [(b2n (d.pendingTags.contains t), 2, 1)]

/-- A read of the RAKE block. -/
def Dev.readRake (d : Dev) (sel : Nat → Word) (o : Nat) : Word :=
  let r := d.rake
  match o with
  | 0x00 => r.ctrl
  | 0x04 => d.rakeStatus
  | 0x08 => r.weights
  | 0x0C => r.hitw
  | 0x10 => r.exclLo
  | 0x14 => r.exclHi
  | 0x18 => r.temp
  | 0x1C => r.quiesce
  | 0x20 => r.forceCount
  | 0x24 => r.forceLog
  | 0x28 => r.forceModule
  | 0x2C => r.specStarted
  | 0x30 => r.specHits
  | 0x34 => r.specLost
  | 0x38 => r.specFrames
  | 0x3C => r.last
  | 0x40 => r.lastCost
  | 0x44 => sel 0x44 &&& 0xFFFF
  | 0x48 => d.tagEntry (fld (sel 0x44) 0 16)
  | _ => if 0x100 ≤ o then BitVec.ofInt 32 (d.tokens ((o - 0x100) / 4)) else 0

/-- A write of the RAKE block. -/
def Dev.writeRake (d : Dev) (o : Nat) (v : Word) : Dev :=
  let put (f : Rake → Rake) : Dev := { d with rake := f d.rake }
  match o with
  | 0x00 => (put fun r => { r with ctrl := merge 0x37 r.ctrl v }).dropCandidates
  | 0x08 => put fun r => { r with weights := v }
  | 0x0C => put fun r => { r with hitw := v &&& 0x3FF }
  | 0x10 => put fun r => { r with exclLo := v }
  | 0x14 => put fun r => { r with exclHi := v }
  | 0x18 => put fun r => { r with temp := v &&& 0xFFFF }
  | 0x1C => put fun r => { r with quiesce := v &&& 0xFFFFF }
  | _ => d

/-- PAN_WINDROW (R264). -/
def WinEntry.word (w : WinEntry) : Word := if w.valid || w.writing then w.module else 0

/-- PAN_WINDROW_POS. -/
def WinEntry.pos (w : WinEntry) : Word :=
  if w.valid || w.writing then pack [(w.anchor, 0, 6), (w.member, 8, 4), (b2n w.writing, 30, 1), (b2n w.valid, 31, 1)] else 0

/-! ### The commands -/

/-- PORT_DRAINED (R284). -/
def execPortDrained (pan : Nat) (s : State) : Res :=
  runCmd (.portDrained pan) (opPortDrained pan) s

/-- CAPTURE_DONE (R250). -/
def execCaptureDone (pan : Nat) (s : State) : Res :=
  runCmd (.captureDone pan) (opCaptureDone pan) s

/-- COMMIT_POINT (R127). -/
def execCommitPoint (pan : Nat) (s : State) : Res :=
  runCmd (.commitPoint pan) (opCommitPoint pan) s

/-- RECORD_WORD_WRITTEN (R646). -/
def execRecordWordWritten (pan : Nat) (s : State) : Res :=
  runCmd (.recordWordWritten pan) (opRecordWordWritten pan) s

/-- PLANE_SWITCH (R127). -/
def execPlaneSwitch (pan : Nat) (s : State) : Res :=
  runCmd (.planeSwitch pan) (opPlaneSwitch pan) s

/-- BORDER_RELEASE (R111). -/
def execBorderRelease (pan : Nat) (s : State) : Res :=
  runCmd (.borderRelease pan) (opBorderRelease pan) s

/-- PLACE (R398). -/
def execPlace (iss : Issuer) (d : Desc) (s : State) : Res :=
  runCmd (.place iss d) (opPlace iss d) s

/-- EVICT (R254). -/
def execEvict (iss : Issuer) (d : Desc) (s : State) : Res :=
  runCmd (.evict iss d) (opEvict iss d) s

/-- MIGRATE (R248). -/
def execMigrate (iss : Issuer) (d : Desc) (s : State) : Res :=
  runCmd (.migrate iss d) (opMigrate iss d) s

/-- HINT (R233). -/
def execHint (iss : Issuer) (d : Desc) (s : State) : Res :=
  runCmd (.hint iss d) (opHint iss d) s

/-- BIND (R230). -/
def execBind (iss : Issuer) (d : Desc) (s : State) : Res :=
  runCmd (.bind iss d) (opBind iss d) s

/-- LANE_PARITY_FAULT (R20). -/
def execLaneParityFault (lane : Nat) (s : State) : Res :=
  runCmd (.laneParityFault lane) (opLaneParityFault lane) s

/-- INVAL_ACK (R275). -/
def execInvalAck (s : State) : Res :=
  runCmd (.invalAck) (opInvalAck) s

/-- RAKE_PARITY_FAULT (R20). -/
def execRakeParityFault (s : State) : Res :=
  runCmd (.rakeParityFault) (opRakeParityFault) s

end Sys2Proof.Machine
end

