-- ==== Sys2Proof/Machine/StartUp.lean ====
section
/-! DEFINITION. Start-up (R201–R203): what a reset keeps, fuse sense, record selection, verification, the persistent save
and its restore, the start count, DONE and I/O enable; brown-out and PROG_N (R190, R612). -/

namespace Sys2Proof.Machine

/-! ### The persistent save (R74, R155, R156) -/

/-- CHECK of a save slot. The two bytes that the layout does not list count as 0. -/
def SaveSlot.sum (s : SaveSlot) : Word :=
  crc32c (leBytes 4 s.module.toNat ++ leBytes 4 s.values.length ++ leBytes 8 s.digest.toNat ++ leBytes 4 s.seq.toNat ++
    leBytes 512 (s.values.foldr (fun b n => b2n b + 2 * n) 0))

/-- A slot holds a complete save. -/
def SaveSlot.ok (s : SaveSlot) : Bool := s.valid == validMark && s.check == s.sum

/-- Slot of pan `p` in save unit `k` (0: 1,984, 1: 1,985). -/
def StoreNv.save (s : StoreNv) (k p : Nat) : SaveSlot := (if k = 0 then s.save0 else s.save1).get {} p

/-- Write a slot. -/
def StoreNv.putSave (s : StoreNv) (k p : Nat) (v : SaveSlot) : StoreNv :=
  if k = 0 then { s with save0 := s.save0.set {} p v } else { s with save1 := s.save1.set {} p v }

/-- The save unit that takes the next save: the one fully erased, or unit 1,984 when both are. -/
def StoreNv.saveUnit (s : StoreNv) : Option Nat := if s.save0.isEmpty then some 0 else if s.save1.isEmpty then some 1 else none

/-- The valid, unconsumed slot of a pan with the higher SEQ. -/
def StoreNv.restorable (s : StoreNv) (p : Nat) : Option Nat :=
  let good (k : Nat) : Bool := (s.save k p).ok && (s.save k p).consumed == 0xFFFFFFFF
  if good 0 && (!good 1 || decide ((s.save 1 p).seq.toNat ≤ (s.save 0 p).seq.toNat)) then some 0 else if good 1 then some 1 else none

/-- CONSUMED is written in a slot. -/
def Dev.consume (d : Dev) (k p : Nat) : Dev :=
  { d with storeNv := d.storeNv.putSave k p { d.storeNv.save k p with consumed := 0 } }

/-- The persistent elements of a pan: the first 4,096 (R74). -/
def Dev.persistent (d : Dev) (p : Nat) : List Nat :=
  if (d.pan p).occupied then (persistElements (d.activeFrames p) (d.view p).cfg).take 4096 else []

/-- Save one pan's elements. -/
def Dev.savePan (d : Dev) (k p : Nat) : Dev :=
  let s := d.storeNv
  let top := [0, 1].foldl (fun n j => if (s.save j p).ok then max n (s.save j p).seq.toNat else n) 0
  let fab := (d.pan p).fab
  let v : SaveSlot := {
    module := (d.pan p).module, digest := (d.pan p).digest, seq := BitVec.ofNat 32 (top + 1)
    values := (d.persistent p).map fun m => fab.q.get false m }
  let v := { v with check := v.sum, valid := validMark }
  { d with storeNv := s.putSave k p v }

/-- Save every pan that has persistent elements; none: no save unit is erased, or the Store is FAULTED (R20, R156). The pans
saved. -/
def Dev.saveAll (d : Dev) : Dev × List Nat :=
  let ps := (List.range 64).filter fun p => !(d.persistent p).isEmpty
  match (if d.ust uStore == .faulted then none else d.storeNv.saveUnit), ps with
  | _, [] => (d, [])
  | none, _ => (d, [])
  | some k, _ => (foldS (fun d p => d.savePan k p) d ps, ps)

/-- Restore one pan at start-up (R74, R77). -/
def Dev.restorePan (d : Dev) (p : Nat) : Dev :=
  match d.storeNv.restorable p with
  | none => d
  | some k =>
    let s := d.storeNv.save k p
    let x := d.pan p
    if x.occupied && x.module == s.module && x.digest == s.digest then
      let t := foldS (fun (t : Tab (Option Bool)) (e : Nat × Bool) => t.set none e.1 (some e.2)) [] ((d.persistent p).zip s.values)
      (d.modPan p fun x => { x with persistRestored := true, fab := { x.fab with init := t } }).consume k p
    else d.modPan p fun x => { x with persistMismatch := true }

/-! ### The start count (R157) -/

/-- A start entry is valid. -/
def StartEntry.ok (e : StartEntry) : Bool := e.valid == validMark && e.check == crc32c (leBytes 4 e.count.toNat)

/-- The highest valid count of a unit. -/
def topCount (l : List StartEntry) : Nat := l.foldl (fun n e => if e.ok then max n e.count.toNat else n) 0

/-- The start-count unit in use: the one with the highest entry. -/
def StoreNv.startUnit (s : StoreNv) : Nat := if topCount s.start0 < topCount s.start1 then 1 else 0

/-- A new start entry is written and GLB_START_COUNT is loaded. -/
def Dev.writeStart (d : Dev) : Dev :=
  let s := d.storeNv
  let c := BitVec.ofNat 32 (max (topCount s.start0) (topCount s.start1) + 1)
  let e : StartEntry := { count := c, check := crc32c (leBytes 4 c.toNat), valid := validMark }
  let first := if s.startUnit = 0 then decide (s.start0.length < 1024) else decide (1024 ≤ s.start1.length)
  { d with
    glb := { d.glb with startCount := c }
    storeNv := if first then { s with start0 := s.start0 ++ [e] } else { s with start1 := s.start1 ++ [e] } }

/-! ### What a reset keeps (R12) -/

/-- The volatile state returns to its Reset values; what needs no power stays, and so does the level of PFW_N. -/
def Dev.cleared (d : Dev) : Dev :=
  { fuses := d.fuses, nv := d.nv, storeNv := d.storeNv, freeCtr := d.freeCtr, out := d.out, pfw := { asserted := d.pfw.asserted } }

/-- What PROG_N and wake from DORMANT keep beyond that: the time unit (R500), the always-on registers (R544), the oscillator
and the losses of lock (R537, R538, R549), the straps of a cold start, the TAP, and the levels at the pins. -/
def Dev.clearedWarm (d : Dev) : Dev :=
  let c := d.cleared
  { c with
    time := { d.time with cmd := none }
    pwr := { c.pwr with wakeCause := d.pwr.wakeCause, lastSleep := d.pwr.lastSleep }
    clk := { c.clk with
      trimmed := d.clk.trimmed, lfXtal := d.clk.lfXtal
      plls := foldS (fun (t : Tab Pll) (e : Nat × Pll) => t.set {} e.1 { ({} : Pll) with losses := e.2.losses }) [] d.clk.plls }
    cfg := { c.cfg with lfxtEn := d.cfg.lfxtEn, smbAddr := d.cfg.smbAddr }
    mblk := { c.mblk with jtagOver := d.mblk.jtagOver, boundary := d.mblk.boundary }
    fuse := { c.fuse with condOk := d.fuse.condOk }
    hps := foldS (fun (t : Tab HostPort) p => t.set {} p { ({} : HostPort) with perst := (d.hp p).perst }) [] (List.range 4)
    pins := { c.pins with
      vccioOk := d.pins.vccioOk
      pins := foldS (fun (t : Tab Pin) (e : Nat × Pin) => t.set {} e.1 { ({} : Pin) with level := e.2.level }) [] d.pins.pins } }

/-! ### Steps 1 and 2 (R571, R131, R540) -/

/-- Fuse sense: every fuse into the mirror, the partitions from their templates. -/
def Dev.senseFuses (d : Dev) : Dev :=
  ({ d with fuse := { d.fuse with mirror := d.fuses, sensedKeys := d.fuses, sensed := true } }).loadPartitions

/-- The START options committed with the global area, reserved bits at 0 (R9, R174, R175, R203). -/
def Dev.options (d : Dev) : Word :=
  if (d.pan 64).blank then 0 else (if (d.pan 64).active = 0 then (d.nvu 64).start else (d.nvu 64).startB) &&& 0x00FFFF0F

/-- The setting of PLL `k`: 0–2 are fixed (R539). Reserved bits read 0 (R9, R548, R549). -/
def pllSetting (c : HardCfg) (k : Nat) : Pll :=
  match k with
  | 0 => { cfg := 0x3001, out := 0x85 }
  | 1 => { cfg := 0x4001, out := 0x81 }
  | 2 => { cfg := 0x4001, out := 0x83 }
  | _ => let p := c.plls.get {} k; { cfg := p.cfg &&& 0x3FFFF, frac := p.frac &&& 0xFFFFFF, out := p.out }

/-- What the hard-block frames of the global area give (R468, R496, R540, R544). -/
def Dev.loadHard (d : Dev) : Dev :=
  let c : HardCfg := if (d.pan 64).blank then {} else Config.hardBlocks (d.globalFrames.filter fun e => decide (1024 ≤ e.1))
  let plls := foldS (fun (t : Tab Pll) k => t.set {} k { pllSetting c k with losses := (d.clk.plls.get {} k).losses, locked := bit (pllSetting c k).cfg 0 })
    d.clk.plls (List.range 16)
  let fports := foldS (fun (t : Tab FPort) f =>
    let i : FportInit := c.fports.get {} f
    t.set {} f { ({} : FPort) with
      ctrl := i.ctrl &&& 0x13, clk := i.clk, fmt := i.fmt &&& 0xFFFFF, fifo := i.fifo &&& 0x1FF, nbt := i.nbt, dbt := i.dbt &&& 0x07FFFFFF
      idMatch := i.idMatch &&& 0xBFFFFFFF, idMask := i.idMask &&& 0xBFFFFFFF }) [] (List.range 24)
  { d with clk := { d.clk with plls := plls, inCfg := c.clkIn &&& 0x33333333 }, fports := fports, pwr := { d.pwr with en := c.domainEn } }

/-! ### Steps 3 and 4 -/

/-- The first frame of a unit that fails its check in this start-up. -/
def Dev.badFrame (d : Dev) (u : Nat) : Option Nat := ((d.cfg.badFrames.filter fun e => e.1 == u).map Prod.snd).min?

/-- Step 3: verification, in full or of the global area only (R136, R137, R139, R140). -/
def Dev.verifyStart (d : Dev) : Dev :=
  let mods := (List.range 64).filter fun p => (d.pan p).occupied
  let full := !bit d.cfg.opts 0
  let d1 := if full then foldS (fun d (e : Nat × Nat) => if e.1 = uGlobal ∨ mods.contains e.1 = true then d.reinforce e.1 else d) d d.cfg.weakFrames else d
  let d2 :=
    if full then foldS (fun d p => d.verifyPan true p (d.badFrame p)) d1 mods
    else { d1 with cfg := { d1.cfg with deferred := true }, bgs := { d1.bgs with deferTodo := mods } }
  if (d2.badFrame uGlobal).isSome || !d2.signed uGlobal then { d2 with cfg := { d2.cfg with phase := .failed, errLatched := true } }
  else { d2.modPan uGlobal fun p => { p with verified := true } with cfg := { d2.cfg with phase := .waitDone } }

/-- Step 4: fabric RAM, persistent elements and the start entry. -/
def Dev.loadPans (d : Dev) : Dev :=
  let d1 := foldS (fun d p => ((d.loadRam p).countPersist p).restorePan p) d (List.range 64)
  let d2 := d1.sourcesOf (List.range 64) fun x => { x with srcEmpty := x.empty || x.blank }
  d2.writeStart

/-- Steps 3 and 4 (R201). -/
def Dev.finishStart (d : Dev) : Dev :=
  let d1 := d.verifyStart
  if d1.cfg.phase == .failed then d1 else d1.loadPans

/-- The mode strap makes the port consume nothing (R169, R195). -/
def echoMode (m : BitVec 3) : Bool := m.toNat % 4 == 3

/-- A start-up from a device whose volatile state is cleared: it runs to readiness for DONE, or to the wait for a stream
(R201, R202). Every pin is in its CFG_PULL state until its bank is enabled (R170, R191); the pin arrays and the hard blocks
take what the committed global area, or a blank device, gives them (R468). -/
def Dev.startUp (d : Dev) (cause : StartCause) (st : Straps) (cells : StartCells) : Dev :=
  let d1 := { d with
    cfg := { d.cfg with
      cause := cause, mode := st.cfgMode, pull := st.cfgPull, weakFrames := cells.weakFrames, badFrames := cells.badFrames }
    store := { d.store with work := d.storeNv.hdr }
    pans := foldS (fun (t : Tab Pan) p => t.set {} p { (t.get {} p : Pan) with srcConfig := true }) d.pans (List.range 64) }
  let d2 := d1.refreshPins.senseFuses.selectAll cells.weakValid
  let d3 := d2.loadHard
  let blank := (d3.pan uGlobal).blank
  let d4 := ({ d3 with cfg := { d3.cfg with blank := blank, opts := d3.options } }).loadPins none
  if blank || (cause == .progN && st.cfgMode.getLsbD 2 && !echoMode st.cfgMode) then { d4 with cfg := { d4.cfg with phase := .waitStream } }
  else d4.finishStart

/-- A cold start: every strap is sampled (R538, R590). -/
def Dev.coldStart (d : Dev) (st : Straps) (cells : StartCells) : Dev :=
  let c := d.cleared
  ({ c with cfg := { c.cfg with lfxtEn := st.lfxtEn, smbAddr := st.smbAddr }, clk := { c.clk with lfXtal := st.lfxtEn } }).startUp .cold st cells

/-- POWER_ON_RESET_RELEASE (R612). -/
def opPowerOnResetRelease (st : Straps) (cells : StartCells) (d : Dev) : Dev :=
  if d.cfg.phase == .held then d.coldStart st cells else d

/-- A power-fail warning stands: PFW_N is low, or has been high for less than 1 ms (R616). -/
def Dev.pfwStands (d : Dev) : Bool := d.pfw.asserted || d.pfw.returnWait

/-- A brown-out during the save of PFW_N, which a return of PFW_N does not end: the slot's VALID is not written (R613). -/
def Dev.loseSave (d : Dev) (p : Nat) : Dev :=
  match (if d.pfwStands && (d.pan p).srcPfw then d.storeNv.restorable p else none) with
  | none => d
  | some k =>
    ({ d with storeNv := d.storeNv.putSave k p { d.storeNv.save k p with valid := 0xFFFFFFFF } }).modNv p fun n => { n with saved := false }

/-- The record word that each operation has in progress is written, and nothing follows from it (R190, R612). -/
def Dev.finishWords (d : Dev) : Dev :=
  foldS (fun (d : Dev) (x : Nat × Op × RecJob) => (if x.2.2.startsRecord then d.countRecord x.2.2.unit else d).putRecWord x.2.2) d
    ((List.range 65).filterMap d.recordOp)

/-- BROWN_OUT (R612): the record word in progress completes or not, then the internal reset is held. A frame write in
progress reaches only a shadow, which nothing selects. `unsaved` names the pans whose slot a save in progress has not
completed (R613). -/
def opBrownOut (completes : Bool) (unsaved : List Nat) (d0 : Dev) : Dev :=
  if d0.cfg.phase == .held then d0
  else
    let d := foldS Dev.loseSave d0 unsaved
    (if completes then d.finishWords else d).cleared

/-- PROG_N (R190): a start-up of its own cause, which begins once every record word in progress has been written; nothing
completes. -/
def opProgN (st : Straps) (cells : StartCells) (d : Dev) : Dev :=
  if d.cfg.phase == .held then d else d.finishWords.clearedWarm.startUp .progN st cells

/-! ### DONE and I/O enable (R17, R196–R199) -/

/-- The power domain of a unit; none for units in no domain (R47). Field port `f` lies with pin bank `f` div 2. -/
def unitDomain (u : Nat) : Option Nat :=
  let k := unitIdx u
  match unitClass u with
  | 1 => some k
  | 2 => some (64 + k / 8)
  | 3 => some (80 + k / 4)
  | 4 => some (109 + k / 2)
  | 5 => some (104 + k)
  | 6 => some (109 + k)
  | 0xA => some 108
  | 0xB => some 125
  | 0xD => some k
  | _ => none

/-- A domain is powered by the setup (R17, R544); the always-on domain always is. -/
def Dev.domPowered (d : Dev) (k : Nat) : Bool := k == 126 || d.pwr.en.getLsbD k

/-- A unit retired by fuse words 224–232 as sensed (R571, R596). -/
def Dev.fuseRetired (d : Dev) (u : Nat) : Bool :=
  let f (base : Nat) : Bool := bit (d.fuse.sensedKeys.get 0 (base + unitIdx u / 32)) (unitIdx u % 32)
  match unitClass u with | 1 => f 224 | 2 => f 226 | 3 => f 230 | _ => false

/-- A unit named in the retirement map (R148). -/
def Dev.mapRetired (d : Dev) (u : Nat) : Bool :=
  match unitClass u with
  | 1 => d.store.work.retPans.contains (unitIdx u)
  | 2 => d.store.work.retBanks.contains (unitIdx u)
  | 3 => d.store.work.retLinks.contains (unitIdx u)
  | _ => false

/-- The state a unit takes at start-up; none: it makes no transition (R17, R18, R540). -/
def Dev.initialState (d : Dev) (u : Nat) : Option UState :=
  let k := unitIdx u
  if d.fuseRetired u || d.mapRetired u then some .retired
  else if (unitDomain u).any fun n => !d.domPowered n then none
  else match unitClass u with
    | 1 => let p := d.pan k; if p.failed then some .faulted else if p.occupied then some .running else some .idle
    | 3 | 4 | 5 => some .idle
    | 8 => if u = uCfgPort then some .running else some .idle
    | 0xF => if d.locked (if k = 0 then 7 else 5) then some .retired else some .running
    | 0xE => if bit (d.clk.plls.get {} k).cfg 0 then some .running else none
    | _ => some .running

/-- One unit's initial transition. A pan that runs releases its borders and opens its port. -/
def Dev.initUnit (d : Dev) (u : Nat) : Dev :=
  match (if d.ust u == .off then d.initialState u else none) with
  | none => d
  | some .faulted => d.fault u stFrame ((d.pan (unitIdx u)).failFrame.setWidth 64)
  | some s =>
    let d1 := d.setUnit u s .device
    if unitClass u = 1 && s == .running then d1.modPan (unitIdx u) fun x => { x with shut := false, port := .opened }
    else if unitClass u = 4 then d1.modFport (unitIdx u) FPort.emptied
    else d1

/-- The save of PFW_N: the passes are abandoned and no further non-volatile write starts, every pan with persistent elements
is saved, and each pan saved is held (R74, R130, R190, R615). With no save unit erased, or a FAULTED Store, the save is skipped
(R20, R156). SAVED tells of the saves of PFW_N only (R77). -/
def Dev.pfwSave (d0 : Dev) : Dev :=
  let d := d0.stopPasses
  let skip := d.storeNv.saveUnit.isNone || d.ust uStore == .faulted
  let all := (List.range 64).filter fun p => !(d.persistent p).isEmpty
  let (d1, ps) := ({ d with cfg := { d.cfg with pfwStops := true } }).saveAll
  let d2 := foldS (fun (d : Dev) p => d.modNv p fun n => { n with saved := ps.contains p }) d1 all
  let d3 := if skip then { d2 with storeNv := { d2.storeNv with pffSkipped := true } } else d2
  ({ d3 with pfw := { d3.pfw with savedN := ps.length } } : Dev).sourcesOf ps fun x => { x with srcPfw := true }

/-- DONE_RELEASE: at readiness, at the chosen PPS edge, or after PPS_WAIT. A warning that still stands is acted on now (R613). -/
def opDoneRelease (how : DoneHow) (d : Dev) : Dev :=
  let align := bit d.cfg.opts 1
  let fits := match how with | .ready => !align | .ppsEdge => align | .waitExpired => align
  if d.cfg.phase != .waitDone || !fits then d
  else
    let d1 := { d with
      cfg := { d.cfg with phase := .waitIo, doneReleased := true, ppsMissed := how == .waitExpired }
      glb := { d.glb with
        doneSec := d.time.sec.setWidth 32, doneNs := (d.time.ns.setWidth 32), uptime := 0, uptimeRun := true } }
    if d.pfw.asserted then d1.pfwSave else d1

/-- IO_ENABLE: initial transitions, the highest unit of each class first so that the lower of two faults is the one recorded
(R639), then CONFIG GSR deasserts. Once I/O is enabled the row brings the level that CFG_DONE reads,
and a low after it has read high changes nothing (R198, R452; assumption 83). -/
def opIoEnable (wireHigh : Bool) (d : Dev) : Dev :=
  if d.cfg.phase == .user && d.cfg.ioEnabled then { d with cfg := { d.cfg with wireHigh := d.cfg.wireHigh || wireHigh } }
  else if d.cfg.phase != .waitIo || (bit d.cfg.opts 2 && !wireHigh) then d
  else
    let d1 := foldS Dev.initUnit { d with cfg := { d.cfg with phase := .user, ioEnabled := true, wireHigh := wireHigh } } allUnits.reverse
    d1.sourcesOf (List.range 64) fun x => { x with srcConfig := false }

/-- PIN_BANK_ENABLE: bank `b` is enabled, and bank 15 loads CFG_BOOT (R197, R208, R611). -/
def opPinBankEnable (b : Nat) (ok : Bool) (us : Nat) (d : Dev) : Dev :=
  let p := d.pins
  let oks : BitVec 16 := if ok then p.vccioOk ||| BitVec.ofNat 16 (2 ^ b) else p.vccioOk &&& ~~~(BitVec.ofNat 16 (2 ^ b))
  if !d.cfg.ioEnabled || p.enabled.get false b then d
  else if !ok then ({ d with pins := { p with vccioOk := oks } }).refreshPins
  else
    let c := d.cfg
    let d1 := { d with
      pins := { p with vccioOk := oks, enabled := p.enabled.set false b true }
      cfg := if b ≠ 15 then c else { c with
        bootTime := BitVec.ofNat 16 (min us 0xFFFF), bootLoaded := c.loaded, bootLoadFailed := c.loadFailed
        bootProg := c.cause == StartCause.progN, bootDormant := c.cause == StartCause.dormant } }
    d1.refreshPins

/-! ### Erases of the save and start-count units (R156, R157) -/

/-- A unit of the Store has been erased: its erase count, and TELE's count. -/
def Dev.countErase (d : Dev) (u : Nat) : Dev :=
  { d with
    store := { d.store with work := { d.store.work with erases := d.store.work.erases.set 0 u (d.store.work.erases.get 0 u + 1) } }
    tele := { d.tele with erases := satInc d.tele.erases } }

/-- The Store may erase by itself: after DONE, awake, and not stopped by PFW_N. -/
def Dev.ownErase (d : Dev) : Bool := d.cfg.doneReleased && d.ust uStore == .running && !d.nvStopped && !d.pwr.stopped.contains uStore && !d.pllDead 0

/-- A save unit is due for its erase: it is not fully erased (R156). -/
def Dev.saveErases (d : Dev) (u : Nat) : Bool := d.ownErase && !(if u = 1984 then d.storeNv.save0 else d.storeNv.save1).isEmpty

/-- A start-count unit is due for its erase: it is not in use, and the other has passed 512 entries (R157). -/
def Dev.startErases (d : Dev) (u : Nat) : Bool :=
  let s := d.storeNv
  let (use_, other) := if u = 1986 then (s.start1, s.start0) else (s.start0, s.start1)
  d.ownErase && s.startUnit == 1987 - u && decide (512 < use_.length) && !other.isEmpty

/-- SAVE_UNIT_ERASE. -/
def opSaveUnitErase (u : Nat) (d : Dev) : Dev :=
  if !d.saveErases u then d
  else ({ d with storeNv := if u = 1984 then { d.storeNv with save0 := [] } else { d.storeNv with save1 := [] } } : Dev).countErase u

/-- START_COUNT_UNIT_ERASE. -/
def opStartCountUnitErase (u : Nat) (d : Dev) : Dev :=
  if !d.startErases u then d
  else ({ d with storeNv := if u = 1986 then { d.storeNv with start0 := [] } else { d.storeNv with start1 := [] } } : Dev).countErase u

/-! ### The commands -/

/-- POWER_ON_RESET_RELEASE (R612). -/
def execPowerOnResetRelease (straps : Straps) (cells : StartCells) (s : State) : Res :=
  runCmd (.powerOnResetRelease straps cells) (opPowerOnResetRelease straps cells) s

/-- BROWN_OUT (R612). -/
def execBrownOut (completes : Bool) (unsaved : List Nat) (s : State) : Res :=
  runCmd (.brownOut completes unsaved) (opBrownOut completes unsaved) s

/-- PROG_N (R190). -/
def execProgN (straps : Straps) (cells : StartCells) (s : State) : Res :=
  runCmd (.progN straps cells) (opProgN straps cells) s

/-- DONE_RELEASE (R196). -/
def execDoneRelease (how : DoneHow) (s : State) : Res :=
  runCmd (.doneRelease how) (opDoneRelease how) s

/-- IO_ENABLE (R197). -/
def execIoEnable (wireHigh : Bool) (s : State) : Res :=
  runCmd (.ioEnable wireHigh) (opIoEnable wireHigh) s

/-- PIN_BANK_ENABLE (R197). -/
def execPinBankEnable (bank : Nat) (vccioOk : Bool) (us : Nat) (s : State) : Res :=
  runCmd (.pinBankEnable bank vccioOk us) (opPinBankEnable bank vccioOk us) s

/-- SAVE_UNIT_ERASE (R156). -/
def execSaveUnitErase (unit : Nat) (s : State) : Res :=
  runCmd (.saveUnitErase unit) (opSaveUnitErase unit) s

/-- START_COUNT_UNIT_ERASE (R157). -/
def execStartCountUnitErase (unit : Nat) (s : State) : Res :=
  runCmd (.startCountUnitErase unit) (opStartCountUnitErase unit) s

end Sys2Proof.Machine
end

