-- ==== Sys2Proof/Machine/CfgPort.lean ====
section
/-! DEFINITION. The configuration port (R168–R177, R183–R195): device streams record by record, the daisy chain, the full
device load with its commit, its errors, and the CFG registers (R204–R209). -/

namespace Sys2Proof.Machine

/-! ### Device frames (R176) -/

/-- The unit and relative address of a device frame. -/
def devUnit (n : Nat) : Nat × Nat := if n < 393216 then (n / 6144, n % 6144) else (uGlobal, n - 393216)

/-- The number of the device frame at a 24-bit address; none outside the device's frames. -/
def devIndex (a : Nat) : Option Nat :=
  let area := a / 0x400000 % 4
  let idx := a / 0x10000 % 64
  let col := a / 256 % 256
  let minor := a % 256
  if minor ≥ 64 then none
  else if area = 0 then if col < 96 then some (6144 * idx + 64 * col + minor) else none
  else if area = 3 ∨ col ≠ 0 ∨ 16 ≤ idx then none
  else some (393216 + 1024 * (area - 1) + 64 * idx + minor)

/-- The address of a device frame. -/
def devAddr (n : Nat) : Nat :=
  let (u, r) := devUnit n
  if u = uGlobal then 0x400000 * (1 + r / 1024) + 0x10000 * (r % 1024 / 64) + r % 64 else 0x10000 * u + frameAddr r

/-! ### Taking a record -/

/-- The eight bytes of a record header (R172). -/
def headerBytes (ty : Byte) (h : RecHdr) (len : Nat) : List Byte := [ty, h.flags] ++ leBytes 2 h.target.toNat ++ leBytes 4 len

/-- Bytes sampled on CFG_DIN go out on CFG_DOUT and are counted (R192, R608). -/
def Dev.forward (d : Dev) (sampled : Nat) (out : List Byte) : Dev :=
  ({ d with test := { d.test with cfgCount := satAdd d.test.cfgCount sampled } }).emit (.cfgDout out)

/-- The port takes a stream (R194, R195, R202). -/
def Dev.portWaits (d : Dev) : Bool :=
  d.cfg.phase == .waitStream && !echoMode d.cfg.mode && d.ust uCfgPort != .faulted && !d.nvStopped && !d.pllDead 0

/-- A load ends with an error (R188, R200, R202). -/
def Dev.loadFail (d : Dev) (status addr : Nat) : Dev :=
  let d1 := d.cfgError status 0xF addr 0
  let d2 := { d1 with cfg := { d1.cfg with load := none, synced := false, errLatched := true, loadFailed := true } }
  if d2.cfg.blank then d2 else d2.finishStart

/-- A record is addressed to this device (R193, R194). -/
def Dev.targeted (d : Dev) (h : RecHdr) : Bool := h.target == 0xFFFF || (d.cfg.posSet && h.target == d.cfg.pos.setWidth 16)

/-- A record arrives: it is forwarded; a device that waits takes it with `k`, another one ignores it. -/
def Dev.record (d : Dev) (ty : Byte) (h : RecHdr) (payload : List Byte) (k : Dev → Load → Dev) : Dev :=
  if d.cfg.phase == .held || d.pllDead 0 then d
  else
    let d1 := d.forward (8 + payload.length) (headerBytes ty h payload.length ++ payload)
    if !d1.cfg.synced || echoMode d1.cfg.mode || !d1.targeted h || d1.ust uCfgPort == .faulted then d1
    else match (if d1.portWaits then d1.cfg.load else none) with
      | some l => k d1 l
      | none => { d1 with cfg := { d1.cfg with ignored := true } }

/-- Put the load's state. -/
def Dev.putLoad (d : Dev) (l : Load) : Dev := { d with cfg := { d.cfg with load := some l } }

/-- ENC of a record. -/
def recEnc (h : RecHdr) : Bool := h.flags.getLsbD 0

/-- A record other than KEY, TAG and END: it must carry what encryption requires, and a full epoch must be closed first
(R176, R184, R574). Its payload in clear goes to `k`. -/
def Dev.plainRecord (d : Dev) (ty : Byte) (h : RecHdr) (payload : List Byte) (l : Load) (k : Dev → Load → List Byte → Dev) : Dev :=
  if l.keyed && (l.epochFrames == 256 || l.short) then d.loadFail stAuth (if l.short then l.epoch - 1 else l.epoch)
  else if l.keyed != recEnc h then d.loadFail stAuth 0xFFFFFE
  else
    let l1 := { l with lastTag := false }
    if !recEnc h then k d l1 payload
    else
      let plain := (gcmDecrypt l.key l.nonce (l.ct ++ payload)).drop l.ct.length
      k d { l1 with aad := l.aad ++ headerBytes ty h payload.length, ct := l.ct ++ payload } plain

/-! ### Sync, CHAIN, NOP, REGW, KEY, TAG -/

/-- SYNC_SEQUENCE after `pad` bytes of 0xFF (R171, R200). -/
def opSyncSequence (pad : Nat) (d : Dev) : Dev :=
  if d.cfg.phase == .held || d.pllDead 0 then d
  else
    let d1 := d.forward (pad + 8) (List.replicate pad 0xFF ++ [0xD5, 0x3A, 0xC6, 0x19, 0x6E, 0xB1, 0x4C, 0x27])
    if echoMode d1.cfg.mode || d1.ust uCfgPort == .faulted || d1.cfg.load.isSome then d1
    else { d1 with cfg := { d1.cfg with synced := true, errLatched := false, load := if d1.portWaits then some {} else none } }

/-- CHAIN (R193): the device takes the position and forwards the next one. In a load it is a record like another (R176, R184),
whether or not it gives a position: its value is the payload in clear, and the next value goes out under the same key stream
(assumption 79). -/
def opChainRecord (h : RecHdr) (payload : List Byte) (d : Dev) : Dev :=
  if d.cfg.phase == .held || d.pllDead 0 then d
  else
    let load := if d.portWaits then d.cfg.load else none
    let clear := match load with
      | some l => if l.keyed && recEnc h then (gcmDecrypt l.key l.nonce (l.ct ++ payload)).drop l.ct.length else payload
      | none => payload
    let v := leAt clear 0 2
    let takes := d.cfg.synced && !echoMode d.cfg.mode && d.ust uCfgPort != .faulted && h.target == 0xFFFF && decide (payload.length = 2 ∧ v ≤ 255)
    let next := leBytes 2 (leAt payload 0 2 ^^^ v ^^^ (v + 1))
    let d1 := d.forward (8 + payload.length) (headerBytes 0x01 h payload.length ++ (if takes then next else payload))
    let placed (d : Dev) : Dev := { d with cfg := { d.cfg with posSet := true, pos := BitVec.ofNat 8 v } }
    let mine := d.cfg.synced && !echoMode d.cfg.mode && d.ust uCfgPort != .faulted && d.targeted h
    match (if mine then load else none) with
    | some l => d1.plainRecord 0x01 h payload l fun d l _ => (if takes then placed d else d).putLoad l
    | none => if takes then placed d1 else d1

/-- NOP record. -/
def opNopRecord (h : RecHdr) (payload : List Byte) (d : Dev) : Dev :=
  d.record 0x02 h payload fun d l => d.plainRecord 0x02 h payload l fun d l _ => d.putLoad l

/-- One pair of a REGW record: the load goes on, or fails with a status (R174, R176, R186). -/
def Dev.streamReg (d : Dev) (l : Load) (a v : Nat) : Load ⊕ (Nat × Nat) :=
  match a with
  | 0x0001 => if l.started then .inr (stFrame, 0xFFFFFF) else if v = devType.toNat then .inl { l with devtypeOk := true } else .inr (stWrongDev, 0)
  | 0x0002 => if l.started then .inr (stFrame, 0xFFFFFF) else if d.belowRollback v then .inr (stRollback, 0) else .inl { l with secverOk := true }
  | 0x0003 => .inl { l with design := BitVec.ofNat 32 v }
  | 0x0004 => .inl { l with start := BitVec.ofNat 32 v }
  | _ => .inl l

/-- The pairs of a REGW record. -/
def Dev.streamRegs (d : Dev) : List (Nat × Nat) → Load → Load ⊕ (Nat × Nat)
  | [], l => .inl l
  | (a, v) :: r, l => match d.streamReg l a v with | .inl l1 => d.streamRegs r l1 | .inr e => .inr e

/-- REGW (R174). -/
def opRegwRecord (h : RecHdr) (payload : List Byte) (d : Dev) : Dev :=
  d.record 0x10 h payload fun d l => d.plainRecord 0x10 h payload l fun d l bs =>
    if bs.length % 8 ≠ 0 then d.loadFail stFrame 0xFFFFFF
    else match d.streamRegs ((List.range (bs.length / 8)).map fun i => (leAt bs (8 * i) 4, leAt bs (8 * i + 4) 4)) l with
      | .inl l1 => d.putLoad l1
      | .inr (st, a) => d.loadFail st a

/-- KEY (R183): key epoch 0 begins. -/
def opKeyRecord (h : RecHdr) (payload : List Byte) (d : Dev) : Dev :=
  d.record 0x11 h payload fun d l =>
    let s := leAt payload 0 1
    if payload.length ≠ 16 then d.loadFail stFrame 0xFFFFFF
    else if l.keyed || l.started || recEnc h || !d.deviceSlotOk (some s) then d.loadFail stAuth 0xFFFFFE
    else
      let nonce := slice payload 4 12
      d.putLoad { l with keyed := true, nonce := nonce, key := kdf (d.slotKey s) nonce 0, lastTag := false }

/-- On an N part no record may have ENC = 1 (R574). -/
def Dev.encBarred (d : Dev) (h : RecHdr) : Bool := d.encDisabled && recEnc h

/-- TAG (R184): the tag of the current key epoch is checked, and the next key is derived. Without a KEY record there is no
epoch to close. -/
def opTagRecord (h : RecHdr) (payload : List Byte) (d : Dev) : Dev :=
  d.record 0x12 h payload fun d l =>
    if d.encBarred h then d.loadFail stAuth 0xFFFFFE
    else if payload.length ≠ 16 then d.loadFail stFrame 0xFFFFFF
    else if !l.keyed then d.putLoad { l with lastTag := true }
    else if l.short || gcmTag l.key l.nonce (l.aad ++ headerBytes 0x12 h 16) l.ct != payload then
      d.loadFail stAuth (if l.short then l.epoch - 1 else l.epoch)
    else d.putLoad { l with
      lastTag := true, short := l.epochFrames != 256, epoch := l.epoch + 1, key := kdf l.key l.nonce (l.epoch + 1), epochFrames := 0, aad := [], ct := [] }

/-! ### PANSET and FRAMES -/

/-- What must stand before the first PANSET or FRAMES record (R176, R186 steps 2–4, R574). -/
def Dev.streamStart (d : Dev) (l : Load) : Option (Nat × Nat) :=
  if l.started then none
  else if !l.devtypeOk then some (stWrongDev, 0)
  else if !l.keyed && !d.deviceSlotOk none then some (stAuth, 0xFFFFFE)
  else if !l.secverOk then some (stRollback, 0)
  else none

/-- The shadow of a unit is taken for the load: its slot is invalidated, and the pass counted (R127, R143). -/
def Dev.openShadow (d : Dev) (u : Nat) : Dev := (d.countStage u (d.shadow u)).invalidate u

/-- PANSET (R173). -/
def opPansetRecord (h : RecHdr) (payload : List Byte) (d : Dev) : Dev :=
  d.record 0x20 h payload fun d l => d.plainRecord 0x20 h payload l fun d l bs =>
    match d.streamStart l with
    | some (st, a) => d.loadFail st a
    | none =>
      let p := leAt bs 0 1
      let empty := (slice bs 1 1).any fun b => b.getLsbD 0
      if bs.length ≠ 24 ∨ 64 ≤ p ∨ (l.pansets.get none p).isSome = true then d.loadFail stFrame 0xFFFFFF
      else
        let l1 := { l with
          started := true
          pansets := l.pansets.set none p (some (empty, BitVec.ofNat 8 (leAt bs 2 1), wordAt bs 4, BitVec.ofNat 64 (leAt bs 8 8))) }
        (if empty then d else d.openShadow p).putLoad l1

/-- Write one frame of a load into a shadow (R121). -/
def Dev.loadWrite (d : Dev) (u r : Nat) (f : FrameBits) (c : WriteCheck) : Dev × Bool :=
  let (d1, ok) := d.writeFrame u (d.shadow u) r f c
  ({ d1 with cfg := { d1.cfg with framesCount := satAdd d1.cfg.framesCount (if c = .first then 1 else 2) } }, ok)

/-- The outcome of frame writes that a load makes by itself: the device with the write outcomes still to come, or the address
of the frame whose write failed. -/
abbrev FillOut := (Dev × List WriteCheck) ⊕ (Dev × Nat)

/-- Write `n` zero frames from relative address `r` of a unit, each with its own outcome (R121, R177). -/
def Dev.zeroFrames (d : Dev) (u : Nat) : Nat → Nat → List WriteCheck → FillOut
  | _, 0, cs => .inl (d, cs)
  | r, n + 1, cs =>
    match d.loadWrite u r 0 (cs.headD .first) with
    | (d1, true) => d1.zeroFrames u (r + 1) n cs.tail
    | (d1, false) => .inr (d1, devAddr (if u = uGlobal then 393216 + r else 6144 * u + r))

/-- The gap before device frame `n`: the rest of the unit loaded before, and the start of this one's. -/
def Dev.fillGap (d : Dev) (l : Load) (n : Nat) (cs : List WriteCheck) : FillOut :=
  let (u, r) := devUnit n
  match l.last with
  | none => d.zeroFrames u 0 r cs
  | some k =>
    let (v, q) := devUnit k
    if u = v then d.zeroFrames u (q + 1) (r - (q + 1)) cs
    else match d.zeroFrames v (q + 1) (frameCount v - (q + 1)) cs with
      | .inl (d1, cs1) => d1.zeroFrames u 0 r cs1
      | .inr e => .inr e

/-- One frame of a FRAMES record (R176, R186 step 5). -/
def Dev.streamFrame (d : Dev) (l : Load) (a : Nat) (n : Option Nat) (bs : List Byte) (cs : List WriteCheck) :
    (Dev × Load × List WriteCheck) ⊕ (Dev × Nat × Nat) :=
  match n with
  | none => .inr (d, stRegion, a)
  | some n =>
    let (u, r) := devUnit n
    let f := frameOf (bs.take 512)
    let open_ := u = uGlobal || (match l.pansets.get none u with | some (e, _) => !e | none => false)
    if !open_ then .inr (d, stRegion, a)
    else if l.last.any (fun k => decide (n ≤ k)) then .inr (d, stFrame, a)
    else if wordAt bs 512 ≠ frameCheckAt u r f then .inr (d, stFrame, a)
    else
      let same := l.last.any fun k => (devUnit k).1 == u
      let base := if same then l.census else []
      let census := if u = uGlobal then [] else censusAdd 0 base (frameEnables r f)
      if censusBad census then .inr (d, stDriver, a)
      else
        let d0 := if u = uGlobal && !same then d.openShadow uGlobal else d
        match d0.fillGap l n cs with
        | .inr (d1, b) => .inr (d1, stFrame, b)
        | .inl (dz, cs1) =>
          let (d1, ok) := dz.loadWrite u r f (cs1.headD .first)
          let seen := if same then l.seen else u :: l.seen
          let l1 := { l with last := some n, frames := l.frames + 1, epochFrames := l.epochFrames + 1, census := census, seen := seen }
          if ok then .inl (d1, l1, cs1.tail) else .inr (d1, stFrame, a)

/-- The frames of a FRAMES record, one by one. The write outcomes stand in the order of the writes, filled frames among them. -/
def Dev.streamFrames (d : Dev) (a0 : Nat) (start : Option Nat) (bs : List Byte) :
    Nat → Nat → Load → List WriteCheck → (Dev × Load) ⊕ (Dev × Nat × Nat)
  | 0, _, l, _ => .inl (d, l)
  | k + 1, i, l, cs =>
    let n := start.bind fun s => if s + i < 395264 then some (s + i) else none
    let a := match n with | some n => devAddr n | none => a0 + i
    if l.keyed && l.epochFrames == 256 then .inr (d, stAuth, l.epoch)
    else match d.streamFrame l a n (slice bs (516 * i) 516) cs with
      | .inl (d1, l1, cs1) => d1.streamFrames a0 start bs k (i + 1) l1 cs1
      | .inr e => .inr e

/-- FRAMES (R176). -/
def opFramesRecord (h : RecHdr) (payload : List Byte) (checks : List WriteCheck) (d : Dev) : Dev :=
  d.record 0x21 h payload fun d l => d.plainRecord 0x21 h payload l fun d l bs =>
    match d.streamStart l with
    | some (st, a) => d.loadFail st a
    | none =>
      let a := leAt bs 0 4
      let n := leAt bs 4 4
      if bs.length ≠ 8 + 516 * n then d.loadFail stFrame 0xFFFFFF
      else match d.streamFrames a (if a < 2 ^ 24 then devIndex a else none) (bs.drop 8) n 0 { l with started := true } checks with
        | .inl (d1, l1) => d1.putLoad l1
        | .inr (d1, st, x) => d1.loadFail st (x % 2 ^ 24)

/-! ### END: the commit of the load (R128, R177) -/

/-- The record of a pan in a full load. -/
def Dev.loadRecord (d : Dev) (l : Load) (seq : Word) (p : Nat) : CommitRec :=
  match l.pansets.get none p with
  | some (false, shape, m, g) =>
    mkRec seq m g ((d.nvu p).planeSig p (d.shadow p))
      (linkWord 0 2 (shape.toNat % 4 + 1) (shape.toNat / 4 % 4 + 1) (shape.toNat / 16 % 4) (shape.toNat / 64) false false)
  | _ => mkRec seq 0 0 0 (linkWord 0 2 1 1 0 0 true false)

/-- Zero frames over whole units. -/
def Dev.zeroUnits (d : Dev) : List Nat → List WriteCheck → FillOut
  | [], cs => .inl (d, cs)
  | u :: us, cs =>
    match d.zeroFrames u 0 (frameCount u) cs with
    | .inl (d1, cs1) => d1.zeroUnits us cs1
    | .inr e => .inr e

/-- Fill what the stream did not carry: the rest of the unit loaded last, and the units it carried no frame of. -/
def Dev.fillRest (d : Dev) (l : Load) (cs : List WriteCheck) : FillOut :=
  let loaded := (List.range 64).filter fun p => match l.pansets.get none p with | some (e, _) => !e | none => false
  let whole := (loaded ++ [uGlobal]).filter fun u => !l.seen.contains u
  match l.last.map devUnit with
  | some (v, q) =>
    (match d.zeroFrames v (q + 1) (frameCount v - (q + 1)) cs with
     | .inl (d1, cs1) => d1.zeroUnits whole cs1
     | .inr e => .inr e)
  | none => d.zeroUnits whole cs

/-- The load commits: every linked record, the root last, then SETTLED; it is every pan's commit point (R73, R76); the device goes on at step 3 (R177, R202). -/
def Dev.commitLoad (d2 : Dev) (l : Load) (seq : Word) : Dev :=
  let d3 := foldS (fun d p => match l.pansets.get none p with
    | some (false, _) => d
    | _ => d.invalidate p) d2 (List.range 64)
  let root := mkRec seq l.design 0 ((d3.nvu uGlobal).planeSig uGlobal (d3.shadow uGlobal)) (linkWord 0 0 1 1 0 0 false false)
  let recs := (List.range 64).map (fun p => (p, d3.loadRecord l seq p)) ++ [(uGlobal, root)]
  let d4 := foldS (fun d (e : Nat × CommitRec) => foldS Dev.putRecWord (d.countRecord e.1) (recordJobs e.1 (d.shadow e.1) e.2)) d3 recs
  let d5 := foldS (fun d (u : Nat) => d.putRecWord (settleJob u (d.shadow u))) d4 planeUnits
  let k := d5.shadow uGlobal
  let d6 := d5.modNv uGlobal fun n => if k = 0 then { n with start := l.start } else { n with startB := l.start }
  let d7 := ((foldS (fun d p => d.atCommit p) d6 (List.range 64)).selectAll []).loadHard.loadPins none
  ({ d7 with cfg := { d7.cfg with load := none, loaded := true } }).finishStart

/-- The end of a load: the frames it did not carry are written, then it commits (R177, R186). -/
def Dev.endLoad (d : Dev) (l : Load) (cs : List WriteCheck) : Dev :=
  match d.newSeq planeUnits with
  | none => d.loadFail stWear 0
  | some seq =>
    let d1 := if l.last.any fun k => (devUnit k).1 == uGlobal then d else d.openShadow uGlobal
    match d1.fillRest l cs with
    | .inr (d2, a) => d2.loadFail stFrame a
    | .inl (d2, _) => d2.commitLoad l seq

/-- END (R177): the last tag, then the count, then the commit. -/
def opEndRecord (h : RecHdr) (payload : List Byte) (checks : List WriteCheck) (d : Dev) : Dev :=
  d.record 0x30 h payload fun d l =>
    if d.encBarred h then d.loadFail stAuth 0xFFFFFE
    else if payload.length ≠ 8 then d.loadFail stFrame 0xFFFFFF
    else match d.streamStart l with
      | some (st, a) => d.loadFail st a
      | none =>
        if l.keyed && !l.lastTag then d.loadFail stAuth l.epoch
        else if leAt payload 0 4 ≠ l.frames then d.loadFail stTrunc l.frames
        else d.endLoad l checks

/-- A record of another type is skipped (R173); it counts for the rules of encryption as any other (R176, R184). -/
def opUnknownRecord (ty : Byte) (h : RecHdr) (payload : List Byte) (d : Dev) : Dev :=
  d.record ty h payload fun d l => d.plainRecord ty h payload l fun d l _ => d.putLoad l

/-- FOREIGN_RECORD (R194): a record for another position, or for a device that does not wait. -/
def opForeignRecord (ty : Byte) (h : RecHdr) (payload : List Byte) (d : Dev) : Dev :=
  if d.targeted h && d.portWaits && d.cfg.load.isSome then d else d.record ty h payload fun d _ => d

/-- CFG_TIMEOUT (R189). -/
def opCfgTimeout (d : Dev) : Dev :=
  match (if d.portWaits then d.cfg.load else none) with
  | some l => d.loadFail stTrunc l.frames
  | none => d

/-- PORT_CONTROLLER_PARITY_FAULT (R20). -/
def opPortControllerParityFault (d : Dev) : Dev :=
  if d.cfg.phase == .held || d.ust uCfgPort == .faulted then d
  else
    let l := d.cfg.load
    let d1 := d.fault uCfgPort stInternal 0
    if l.isSome then d1.loadFail stFrame 0xFFFFFF else d1

/-! ### Registers (R205–R208) -/

/-- PHASE of CFG_STATUS. Error latched is shown while the device stands still because of it. -/
def Dev.cfgPhase (d : Dev) : Nat :=
  match d.cfg.phase with
  | .held => 0
  | .waitStream => if d.cfg.load.isSome then 2 else if d.cfg.errLatched then 6 else 1
  | .waitDone | .waitIo => 4
  | .user => 5
  | .failed => 6

/-- CFG_STATUS. -/
def Dev.cfgStatus (d : Dev) : Word :=
  let c := d.cfg
  pack [(d.cfgPhase, 0, 3), (b2n c.blank, 3, 1), (b2n c.posSet, 4, 1), (b2n c.ignored, 5, 1), (c.pos.toNat, 8, 8), (c.mode.toNat, 16, 3), (b2n c.pull, 19, 1)]

/-- CFG_ERR. -/
def Dev.cfgErrWord (d : Dev) : Word :=
  let c := d.cfg
  pack [(c.errStatus.toNat, 0, 8), (c.errSource.toNat, 8, 4), (b2n c.err, 12, 1), (b2n c.errOver, 13, 1), (c.specFail.toNat, 16, 16)]

/-- CFG_START. -/
def Dev.cfgStartWord (d : Dev) : Word := pack [(fld d.cfg.opts 0 24, 0, 24), (b2n d.cfg.ppsMissed, 24, 1), (b2n d.cfg.deferred, 25, 1)]

/-- CFG_BOOT. -/
def Dev.cfgBoot (d : Dev) : Word :=
  let c := d.cfg
  pack [(c.bootTime.toNat, 0, 16), (b2n c.bootLoaded, 16, 1), (b2n c.bootLoadFailed, 17, 1), (b2n c.bootProg, 18, 1), (b2n c.bootDormant, 19, 1)]

/-- CFG_CAT_INFO (R641). -/
def Dev.catInfo (d : Dev) (m : Word) : Word :=
  match (if d.store.ready then d.catEntry m else none) with
  | none => 0
  | some c => pack [(1, 0, 1), (c.w - 1, 1, 2), (c.h - 1, 3, 2), (b2n (d.belowRollback c.secVersion.toNat), 5, 1), (c.keySlot.toNat, 8, 8), (c.units, 16, 16)]

/-- CFG_PFW (R643). -/
def Dev.pfwWord (d : Dev) : Word :=
  pack [(b2n d.pfw.asserted, 0, 1), (b2n ((List.range 64).any fun p => (d.pan p).srcPfw), 1, 1), (b2n d.pfw.returnWait, 2, 1), (d.pfw.savedN, 8, 7)]

/-! ### The commands -/

/-- SYNC_SEQUENCE (R171). -/
def execSyncSequence (pad : Nat) (s : State) : Res :=
  runCmd (.syncSequence pad) (opSyncSequence pad) s

/-- CHAIN_RECORD (R193). -/
def execChainRecord (h : RecHdr) (payload : List Byte) (s : State) : Res :=
  runCmd (.chainRecord h payload) (opChainRecord h payload) s

/-- NOP_RECORD (R173). -/
def execNopRecord (h : RecHdr) (payload : List Byte) (s : State) : Res :=
  runCmd (.nopRecord h payload) (opNopRecord h payload) s

/-- REGW_RECORD (R174). -/
def execRegwRecord (h : RecHdr) (payload : List Byte) (s : State) : Res :=
  runCmd (.regwRecord h payload) (opRegwRecord h payload) s

/-- KEY_RECORD (R183). -/
def execKeyRecord (h : RecHdr) (payload : List Byte) (s : State) : Res :=
  runCmd (.keyRecord h payload) (opKeyRecord h payload) s

/-- TAG_RECORD (R184). -/
def execTagRecord (h : RecHdr) (payload : List Byte) (s : State) : Res :=
  runCmd (.tagRecord h payload) (opTagRecord h payload) s

/-- PANSET_RECORD (R173). -/
def execPansetRecord (h : RecHdr) (payload : List Byte) (s : State) : Res :=
  runCmd (.pansetRecord h payload) (opPansetRecord h payload) s

/-- FRAMES_RECORD (R176). -/
def execFramesRecord (h : RecHdr) (payload : List Byte) (checks : List WriteCheck) (s : State) : Res :=
  runCmd (.framesRecord h payload checks) (opFramesRecord h payload checks) s

/-- END_RECORD (R177). -/
def execEndRecord (h : RecHdr) (x : EndData) (s : State) : Res :=
  runCmd (.endRecord h x) (opEndRecord h x.payload x.checks) s

/-- UNKNOWN_RECORD (R173). -/
def execUnknownRecord (ty : Byte) (h : RecHdr) (payload : List Byte) (s : State) : Res :=
  runCmd (.unknownRecord ty h payload) (opUnknownRecord ty h payload) s

/-- FOREIGN_RECORD (R194). -/
def execForeignRecord (ty : Byte) (h : RecHdr) (payload : List Byte) (s : State) : Res :=
  runCmd (.foreignRecord ty h payload) (opForeignRecord ty h payload) s

/-- CFG_TIMEOUT (R189). -/
def execCfgTimeout (s : State) : Res :=
  runCmd (.cfgTimeout) (opCfgTimeout) s

/-- PORT_CONTROLLER_PARITY_FAULT (R20). -/
def execPortControllerParityFault (s : State) : Res :=
  runCmd (.portControllerParityFault) (opPortControllerParityFault) s

end Sys2Proof.Machine
end

