-- ==== Sys2Proof/Machine/Store.lean ====
section
/-! DEFINITION. The Store (R147–R153, R413): the catalogue, STORE_IMAGE, header writes and the retirement map; the settings
vault (R158–R163, R414, R415). -/

namespace Sys2Proof.Machine

/-! ### The catalogue (R150, R151) -/

/-- The 128 bytes of an entry. -/
def CatEntry.bytes (c : CatEntry) : List Byte :=
  let b := leBytes 4 c.module.toNat ++ [c.shape.setWidth 8, c.keySlot, 0, 0] ++ leBytes 4 c.secVersion.toNat ++ leBytes 4 c.length.toNat ++
    leBytes 2 c.firstUnit ++ leBytes 2 c.units ++ [0, 0, 0, 0] ++ c.digest ++ List.replicate 52 0
  b ++ leBytes 4 (crc32c b).toNat

/-- CHECK of a half. -/
def CatHalf.sum (h : CatHalf) : Word :=
  crc32c (leBytes 4 h.seq.toNat ++ leBytes 4 h.entries.length ++ h.entries.flatMap CatEntry.bytes)

/-- A half is valid. -/
def CatHalf.ok (h : CatHalf) : Bool := h.valid == validMark && h.check == h.sum

/-! ### Allocation (R153) -/

/-- A library unit is free: not worn and in no catalogued image. -/
def Dev.unitFree (d : Dev) (u : Nat) : Bool :=
  decide (34 ≤ u) && decide (u < 1984) && !d.store.work.worn.contains u &&
    !(d.store.cat.any fun c => decide (c.firstUnit ≤ u) && decide (u < c.firstUnit + c.units))

/-- The maximal free runs, ascending: first unit and length. -/
def Dev.freeRuns (d : Dev) : List (Nat × Nat) :=
  ((List.range 1950).foldl (fun (acc : List (Nat × Nat)) i =>
    let u := 34 + i
    if !d.unitFree u then acc
    else match acc with
      | (f, n) :: r => if f + n = u then (f, n + 1) :: r else (u, 1) :: acc
      | [] => [(u, 1)]) []).reverse

/-- The run an image of `n` units takes: the lowest-numbered units of the run whose highest erase count is lowest. -/
def Dev.allocRun (d : Dev) (n : Nat) : Option Nat :=
  let worst (r : Nat × Nat) : Int := (((List.range r.2).map fun i => d.store.work.erases.get 0 (r.1 + i)).foldl max 0 : Nat)
  (argMin worst (d.freeRuns.filter fun r => decide (n ≤ r.2))).map Prod.fst

/-! ### Jobs (R152) -/

/-- Change the job at the head. -/
def Dev.modJob (d : Dev) (f : StoreJob → StoreJob) : Dev :=
  match d.store.jobs with
  | j :: r => { d with store := { d.store with jobs := f j :: r } }
  | [] => d

/-- ACTION of a STORE_IMAGE. -/
def StoreJob.action (j : StoreJob) : Nat := fld (dword j.desc 2) 0 2
/-- MODULE_ID. -/
def StoreJob.module (j : StoreJob) : Word := dword j.desc 1
/-- IMAGE_ADDR. -/
def StoreJob.addr (j : StoreJob) : Nat := (dqword j.desc 3).toNat
/-- IMAGE_LEN. -/
def StoreJob.len (j : StoreJob) : Nat := (dword j.desc 5).toNat
/-- The header copy that was not written last. With neither copy valid the model writes copy 1 first, with SEQ 1 (R148 names no
copy: assumption 79). -/
def Dev.otherHeader (d : Dev) : Nat := if d.storeNv.hdr1.ok && (!d.storeNv.hdr0.ok || decide (d.storeNv.hdr0.seq.toNat < d.storeNv.hdr1.seq.toNat)) then 0 else 1
/-- The units of the half that is not selected. -/
def Dev.otherHalf (d : Dev) : List Nat := (List.range 16).map fun i => 2 + 16 * (1 - d.store.half) + i

mutual
/-- The head job leaves the queue with a completion, and the next one starts. -/
def Dev.endJobN (d : Dev) : Nat → Nat → DWord → Dev
  | 0, _, _ => d
  | n + 1, st, info =>
    match d.store.jobs with
    | [] => d
    | j :: r =>
      let d1 := { d with store := { d.store with jobs := r } }
      let d2 := match j.exec with | some e => d1.complete e st uStore info | none => d1
      d2.startJobN n

/-- The head job starts, if it waits and the catalogue index is loaded: the checks that need the catalogue, then the header
of the image (R413). -/
def Dev.startJobN (d : Dev) : Nat → Dev
  | 0 => d
  | n + 1 =>
    match d.store.jobs with
    | [] => d
    | j :: _ =>
      if j.phase != .waiting then d
      else match j.exec with
        | none => d.modJob fun j => { j with phase := .eraseHeader }
        | some e =>
          if d.storeDead then d.endJobN n stUncorr 0
          else if !d.store.ready then d
          else
            let old := d.catEntry j.module
            let part := d.part j.iss.reader
            if j.action = 0 ∧ old.isSome = true ∨ j.action ≠ 0 ∧ old.isNone = true then d.endJobN n stRefused 0
            else if old.any fun c => !part.slot c.keySlot.toNat then d.endJobN n stPerm 0
            else if j.action = 2 then d.modJob fun j => { j with phase := .eraseHalf d.otherHalf }
            else
              let d1 := d.modJob fun j => { j with phase := .readHeader }
              match j.iss with
              | .ring p _ => if d1.orphaned e then d1.endJobN n stHostAbort 0 else d1.askHost p (.image e) j.addr ((d1.hp p).readSpan j.addr 256)
              | _ => d1
end

/-- The head job ends. -/
def Dev.endJob (d : Dev) (st : Nat) (info : DWord) : Dev := d.endJobN (2 * d.store.jobs.length + 2) st info

/-- The last checks of a STORE_IMAGE: its run is allocated and erased (R413, R152). -/
def Dev.storeAlloc (d : Dev) (j : StoreJob) (h : ImgHdr) : Dev :=
  let n := ceilDiv j.len 65536
  if !(d.part j.iss.reader).slot h.keySlot then d.endJob stPerm 0
  else if wordAt h.bytes 8 ≠ devType then d.endJob stWrongDev 0
  else if d.belowRollback h.secVersion then d.endJob stRollback 0
  else match (if j.action = 0 ∧ 8160 ≤ d.store.cat.length then none else d.allocRun n) with
    | none => d.endJob stNoRoom 0
    | some f => d.modJob fun j => { j with first := f, units := n, phase := .erasing ((List.range n).map fun i => f + i) }

/-- The resource section has arrived (R413, R645): MAGIC, FORMAT and HCHECK come after that read. -/
def Dev.storeResource (d : Dev) (j : StoreJob) (bs : List Byte) : Dev :=
  let h : ImgHdr := { bytes := j.image.take 256 }
  if !h.ok then d.endJob stFrame 0
  else if (resEntries bs).any fun r => decide (h.w * h.hh ≤ r.member) then d.endJob stFrame 0
  else if h.moduleId ≠ j.module ∨ h.length ≠ j.len then d.endJob stBad 0
  else if !h.fitsIn j.len then d.endJob stFrame 0
  else (d.modJob fun j => { j with image := j.image.take 256 }).storeAlloc j h

/-- Ask for a range of the image of the head job. -/
def Dev.askJob (d : Dev) (j : StoreJob) (off len : Nat) (now : Dev → List Byte → Dev) : Dev :=
  match j.exec with
  | none => d
  | some e => d.askBytes e j.iss (.image e) (j.addr + off) len now fun d => d.endJob stHostAbort 0

/-- The header has arrived (R413): the resource section is read where IMAGE_LEN takes it in (assumption 36). -/
def Dev.storeHeader (d : Dev) (j : StoreJob) : Dev :=
  let h : ImgHdr := { bytes := j.image.take 256 }
  if h.resLen = 0 || !h.fitsIn j.len then d.storeResource j []
  else (d.modJob fun j => { j with phase := .readResource }).askJob { j with phase := .readResource } h.resOff h.resLen
    fun d bs => d.storeResource j bs

/-- The run is erased: the rest of the image is read. -/
def Dev.storeBody (d : Dev) (j : StoreJob) : Dev :=
  if j.len ≤ j.image.length then d.modJob fun j => { j with phase := .programming }
  else (d.modJob fun j => { j with phase := .readBody }).askJob j j.image.length (j.len - j.image.length)
    fun d bs => d.modJob fun j => { j with image := (j.image ++ bs).take j.len, phase := .programming }

/-- Bytes of an image for the head job have arrived. -/
def Dev.storeArrived (d : Dev) (bs : List Byte) : Dev :=
  match d.store.jobs with
  | [] => d
  | j :: _ =>
    match j.phase with
    | .readHeader =>
      let j1 := { j with image := j.image ++ bs }
      let d1 := d.modJob fun _ => j1
      if j1.image.length < 256 then d1.askJob j1 j1.image.length (256 - j1.image.length) fun d _ => d else d1.storeHeader j1
    | .readResource =>
      let h : ImgHdr := { bytes := j.image.take 256 }
      let j1 := { j with image := j.image ++ bs }
      let got := j1.image.length - 256
      if h.resLen ≤ got then d.storeResource j (j1.image.drop 256)
      else (d.modJob fun _ => j1).askJob j1 (h.resOff + got) (h.resLen - got) fun d _ => d
    | .readBody =>
      let j1 := { j with image := j.image ++ bs }
      (d.modJob fun _ => j1).storeBody j1
    | _ => d

/-- A read of the image has failed. -/
def Dev.storeReadFailed (d : Dev) : Dev := d.endJob stHostAbort 0

/-- A management interface's bytes are in its buffer, so they are there at once for a head job that waits for its header (R598); the
job that follows one that so ends is fed in turn. -/
def Dev.feedJobs (d : Dev) : Nat → Dev
  | 0 => d
  | n + 1 =>
    match d.store.jobs with
    | j :: _ =>
      let bytes : Option (List Byte) := match j.iss with
        | .ring _ _ => none
        | .smbus => d.bufBytes .smbus j.addr 256
        | .jtag => d.bufBytes .jtag j.addr 256
      (match (if j.phase == .readHeader && j.image.isEmpty then bytes else none) with
       | some bs => (d.storeArrived bs).feedJobs n
       | none => d)
    | [] => d

/-- Start the head job. -/
def Dev.startJobs (d : Dev) : Dev := (d.startJobN (2 * d.store.jobs.length + 2)).feedJobs (d.store.jobs.length + 1)

/-- The read of the image that descriptor `e`'s job at the head waits for has come, or has failed; what comes for any other job is
dropped (R413). -/
def Dev.storeRead (d : Dev) (e : Nat) (got : Option (List Byte)) : Dev :=
  if d.store.jobs.head?.any fun j => j.exec == some e then
    (match got with | some bs => d.storeArrived bs | none => d.storeReadFailed).startJobs
  else d

/-- CATALOGUE_LOADED (R151): the valid half with the higher SEQ; a half that cannot be read does not count, and its unit is
worn (R149). The Rake rebuilds its tag map (R231), and a STORE_IMAGE that waited for
the index starts. -/
def opCatalogueLoaded (bad : Option Nat) (d : Dev) : Dev :=
  if !d.cfg.doneReleased || d.store.ready || d.ust uStore == .faulted || d.pllDead 0 then d
  else
    let s := d.storeNv
    let read (k : Nat) : Bool := bad.all fun u => !(decide (2 + 16 * k ≤ u) && decide (u < 18 + 16 * k))
    let ok0 := s.half0.ok && read 0
    let ok1 := s.half1.ok && read 1
    let pick : Option Nat := if ok0 && (!ok1 || decide (s.half1.seq.toNat < s.half0.seq.toNat)) then some 0 else if ok1 then some 1 else none
    let h : CatHalf := match pick with | some 0 => s.half0 | some _ => s.half1 | none => { seq := 0, check := 0, valid := 0 }
    let d1 := match bad with | some u => if read 0 && read 1 then d else d.wearOut u | none => d
    ({ d1 with store := { d1.store with ready := true, half := pick.getD 0, cat := h.entries, catSeq := h.seq } }).rebuildTags.startJobs

/-- STORE_IMAGE. -/
def opStoreImage (iss : Issuer) (x : Desc) (d : Dev) : Dev :=
  let act := fld (dword x 2) 0 2
  let masks := [(2, 0xFFFFFFFC)] ++ (if act = 2 then [(3, 0xFFFFFFFF), (4, 0xFFFFFFFF), (5, 0xFFFFFFFF)] else []) ++ resFrom 6
  d.beginAt (d.pllDead 0) iss x 0x31 masks fun d e =>
    let addr := (dqword x 3).toNat
    let len := (dword x 5).toNat
    if act = 3 ∨ act ≠ 2 ∧ (addr % 64 ≠ 0 ∨ len < 256 ∨ badRange iss addr len = true) then d.complete e stBad uStore 0
    else if !(d.part iss.reader).storeWrite then d.complete e stPerm uStore 0
    else if d.storeDead then d.complete e stUncorr uStore 0
    else
      let j : StoreJob := { exec := some e, iss := iss, desc := x, phase := .waiting }
      ({ d.setKind e .store with store := { d.store with jobs := d.store.jobs ++ [j] } }).startJobs

/-- Erase a unit's cells. -/
def Dev.eraseLib (d : Dev) (u : Nat) : Dev :=
  { d with storeNv := { d.storeNv with lib := d.storeNv.lib.keep fun k => k / 65536 != u } }

/-- An erased header copy, and an erased half. -/
def Dev.eraseRegion (d : Dev) (u : Nat) : Dev :=
  let s := d.storeNv
  if u = 0 then { d with storeNv := { s with hdr0 := {} } }
  else if u = 1 then { d with storeNv := { s with hdr1 := {} } }
  else if u < 18 then { d with storeNv := { s with half0 := {} } }
  else { d with storeNv := { s with half1 := {} } }

/-- The Store may program and erase: it is awake, and PFW_N does not stop it (R130). -/
def Dev.storeWrites (d : Dev) : Bool := d.ust uStore == .running && !d.nvStopped && !d.pwr.stopped.contains uStore && !d.pllDead 0

/-- STORE_ERASE_DONE (R149, R152): a unit that a job erases, up to eight at once. -/
def opStoreEraseDone (u : Nat) (d : Dev) : Dev :=
  if !d.storeWrites then d
  else match d.store.jobs with
    | [] => d
    | j :: _ =>
      match j.phase with
      | .erasing l =>
        if !(l.take 8).contains u then d
        else
          let j1 := { j with phase := .erasing (l.erase u) }
          let d1 := ((d.eraseLib u).countErase u).modJob fun _ => j1
          if (l.erase u).isEmpty then (d1.storeBody j1).startJobs else d1
      | .eraseHalf l =>
        if !(l.take 8).contains u then d
        else ((d.eraseRegion u).countErase u).modJob fun j => { j with phase := if (l.erase u).isEmpty then .writeHalf else .eraseHalf (l.erase u) }
      | .eraseHeader =>
        if u ≠ d.otherHeader then d else ((d.eraseRegion u).countErase u).modJob fun j => { j with phase := .writeHeader }
      | _ => d

/-- The image is programmed and read back (step 2). -/
def Dev.programImage (d : Dev) (j : StoreJob) (ok : Bool) : Dev :=
  let d1 := { d with storeNv := { d.storeNv with lib := d.storeNv.lib.setList 0xFF (65536 * j.first) j.image } }
  if ok then d1.modJob fun j => { j with phase := .eraseHalf d1.otherHalf }
  else ((foldS (fun d i => d.wearOut (j.first + i)) d1 (List.range j.units)).endJob stUncorr 0).startJobs

/-- The catalogue entry of an image. -/
def StoreJob.entry (j : StoreJob) : CatEntry :=
  let h : ImgHdr := { bytes := j.image.take 256 }
  { module := j.module, shape := BitVec.ofNat 4 (h.w - 1 + 4 * (h.hh - 1)), keySlot := BitVec.ofNat 8 h.keySlot
    secVersion := BitVec.ofNat 32 h.secVersion, length := BitVec.ofNat 32 j.len, firstUnit := j.first, units := j.units, digest := sha384 j.image }

/-- The new catalogue half takes effect (step 4): the module's pre-stages are discarded, the old image's units are free. -/
def Dev.writeHalf (d : Dev) (j : StoreJob) : Dev :=
  let old := d.catEntry j.module
  let reads (d : Dev) (pre : Bool) : Bool := j.action != 0 && d.cfg.passes.any fun x => (pre || x.kind != .pre) && old.any fun c => x.img == c.img
  let d1 := if j.action = 0 || reads d false then d else d.discardModule j.module
  if reads d1 true then d1
  else
    let rest := d1.store.cat.filter fun c => c.module != j.module
    let es := if j.action = 2 then rest
      else (rest.filter fun c => decide (c.module.toNat < j.module.toNat)) ++ [j.entry] ++ rest.filter fun c => decide (j.module.toNat < c.module.toNat)
    let h : CatHalf := { seq := d1.store.catSeq + 1, entries := es, valid := validMark }
    let h := { h with check := h.sum }
    let k := 1 - d1.store.half
    let d2 := { d1 with
      storeNv := if k = 0 then { d1.storeNv with half0 := h } else { d1.storeNv with half1 := h }
      store := { d1.store with half := k, cat := es, catSeq := h.seq } }
    d2.modJob fun j => { j with phase := .eraseHeader }

/-- A header copy is written (R148). -/
def Dev.writeHeader (d : Dev) (j : StoreJob) : Dev :=
  let k := d.otherHeader
  let other := if k = 0 then d.storeNv.hdr1 else d.storeNv.hdr0
  let seq := if other.ok then other.seq + 1 else 1
  let h : StoreHdr := { d.store.work with format := 1, seq := seq, valid := validMark }
  let h := { h with check := h.sum }
  let d1 := { d with storeNv := if k = 0 then { d.storeNv with hdr0 := h } else { d.storeNv with hdr1 := h } }
  if 1 < j.copies then d1.modJob fun j => { j with copies := j.copies - 1, phase := .eraseHeader }
  else
    (d1.endJob stDone (pack64 [(if j.action = 2 then 0 else j.first, 0, 16), (if j.action = 2 then 0 else j.units, 16, 16), (d1.store.catSeq.toNat, 32, 32)])).startJobs

/-- The retirement map has changed: both header copies are to be written (R596). -/
def Dev.writeMap (d : Dev) : Dev := (d.mapJob 2).startJobs

/-! ### The vault (R158–R162) -/

/-- Bytes a record takes in the log: header, data, padding. -/
def VaultRec.size (r : VaultRec) : Nat := 64 + 64 * ceilDiv r.length.toNat 64

/-- Build a record. -/
def mkVault (id : BitVec 16) (owner : Byte) (seq : Word) (data : List Byte) : VaultRec :=
  let hdr := leBytes 2 id.toNat ++ [owner, 0] ++ leBytes 4 data.length ++ leBytes 4 seq.toNat ++ List.replicate 4 0 ++
    leBytes 4 (crc32c data).toNat ++ List.replicate 36 0
  { id := id, owner := owner, length := BitVec.ofNat 16 data.length, seq := seq, data := data, dcheck := crc32c data, hcheck := crc32c hdr, valid := validMark }

/-- Every record of the log with its unit, lower addresses first. -/
def StoreNv.records (s : StoreNv) : List (Nat × VaultRec) := s.log.flatMap fun e => e.2.map fun r => (e.1, r)

/-- The current copy of an ID: the highest SEQ, the lower address first. -/
def StoreNv.current (s : StoreNv) (id : BitVec 16) : Option (Nat × VaultRec) :=
  argMin (fun e => -(e.2.seq.toNat : Int)) (s.records.filter fun e => e.2.id == id && e.2.valid == validMark)

/-- The IDs of the log. -/
def StoreNv.ids (s : StoreNv) : List (BitVec 16) := (s.records.map fun e => e.2.id).eraseDups

/-- The live records: current copies that are no deletion. -/
def StoreNv.liveRecords (s : StoreNv) : List (Nat × VaultRec) := (s.ids.filterMap s.current).filter fun e => e.2.length != 0

/-- Live bytes in the log (R161, R163). -/
def StoreNv.used (s : StoreNv) : Nat := (s.liveRecords.map fun e => e.2.size).sum

/-- The unit that takes a record of `n` bytes: the head, or the next erased unit; none while no unit is erased. -/
def Dev.vaultUnit (d : Dev) (n : Nat) : Option Nat :=
  let s := d.storeNv
  let fill := ((s.log.get [] s.head).map VaultRec.size).sum
  if fill + n ≤ 65536 ∧ d.store.work.worn.contains s.head = false then some s.head
  else ((List.range 60).map fun i => 1988 + (s.head - 1988 + 1 + i) % 60).find? fun u => (s.log.get [] u).isEmpty && !d.store.work.worn.contains u

/-- Append a record at the head of the log. -/
def Dev.vaultAppend (d : Dev) (r : VaultRec) : Option Dev :=
  (d.vaultUnit r.size).map fun u => { d with storeNv := { d.storeNv with head := u, log := d.storeNv.log.set [] u (d.storeNv.log.get [] u ++ [r]) } }

/-- OWNER of what an issuer writes. -/
def vaultOwner (iss : Issuer) : Byte := iss.owner.setWidth 8

/-- An issuer may touch the records of an owner (R161). -/
def Dev.vaultOk (d : Dev) (iss : Issuer) (owner : Byte) : Bool :=
  owner == vaultOwner iss || (d.part iss.reader).vault (if owner = 0x0F then 4 else owner.toNat)

/-- ID and LENGTH or BUF_LEN of a vault descriptor. -/
def vaultId (x : Desc) : BitVec 16 := BitVec.ofNat 16 (fld (dword x 1) 0 16)

/-- Replace a vault job, by its execution record. -/
def Dev.putVault (d : Dev) (e : Nat) (f : VaultJob → VaultJob) : Dev :=
  { d with store := { d.store with vjobs := d.store.vjobs.map fun j => if j.exec = e then f j else j } }

/-- A vault job ends. -/
def Dev.endVault (d : Dev) (e st : Nat) (info : DWord) : Dev :=
  ({ d with store := { d.store with vjobs := d.store.vjobs.filter fun j => j.exec != e } }).complete e st uStore info

/-- The data of a VAULT_WRITE has arrived. -/
def Dev.vaultData (d : Dev) (e : Nat) (bs : List Byte) : Dev :=
  let d1 := d.putVault e fun j => { j with data := j.data ++ bs }
  match d1.store.vjobs.find? fun j => j.exec == e with
  | none => d1
  | some j =>
    let n := fld (dword j.desc 2) 0 16
    if n ≤ j.data.length then d1.putVault e fun j => { j with phase := .ready }
    else d1.askBytes e j.iss (.vaultData e) ((dqword j.desc 3).toNat + j.data.length) (n - j.data.length)
      (fun d bs => d.putVault e fun j => { j with data := j.data ++ bs, phase := .ready }) fun d => d.endVault e stHostAbort 0

/-- An earlier descriptor holds the record of a vault job: each record has one user at a time, in order of arrival (R36, R161). -/
def Dev.vaultHeld (d : Dev) (j : VaultJob) : Bool :=
  (d.store.vjobs.takeWhile fun k => k.exec != j.exec).any fun k => vaultId k.desc == vaultId j.desc

/-- A write within the limits of R161 and R162. -/
def Dev.vaultRoom (d : Dev) (id : BitVec 16) (n : Nat) : Bool :=
  let s := d.storeNv
  let old := match s.current id with | some (_, r) => if r.length = 0 then 0 else r.size | none => 0
  let new := if n = 0 then 0 else 64 + 64 * ceilDiv n 64
  decide (s.used - old + new ≤ 3145728) && (n == 0 || old != 0 || decide (s.liveRecords.length < 16384))

/-- A vault job runs once the index is there. -/
def Dev.runVault (d : Dev) (j : VaultJob) : Dev :=
  let e := j.exec
  let id := vaultId j.desc
  let cur := d.storeNv.current id
  let n := fld (dword j.desc 2) 0 16
  let addr := (dqword j.desc 3).toNat
  if d.storeDead then d.endVault e stUncorr 0
  else if !d.store.vaultReady || d.vaultHeld j then d
  else if cur.any fun r => !d.vaultOk j.iss r.2.owner then d.endVault e stPerm 0
  else if j.write then
    if !d.vaultRoom id n then d.endVault e stNoRoom 0
    else
      let d1 := d.putVault e fun j => { j with phase := .reading }
      if n = 0 then d1.putVault e fun j => { j with phase := .ready }
      else d1.askBytes e j.iss (.vaultData e) addr n (fun d bs => d.vaultData e bs) fun d => d.endVault e stHostAbort 0
  else match cur with
    | none => d.endVault e stDone 0
    | some (u, r) =>
      if !j.readOk then (d.wearOut u).endVault e stUncorr 0
      else
        let bs := r.data.take n
        (d.putHostData e j.iss addr bs).endVault e stDone (pack64 [(r.length.toNat, 0, 16), (r.owner.toNat, 16, 8), (r.seq.toNat, 32, 32)])

/-- The vault jobs that wait are looked at again, in their order. -/
def Dev.resumeVault (d : Dev) : Dev :=
  foldS (fun d j => d.runVault j) d (d.store.vjobs.filter fun j => j.phase == .waiting)

/-- The data of a VAULT_WRITE has arrived, or its read has failed. -/
def Dev.vaultArrived (d : Dev) (e : Nat) (bs : Option (List Byte)) : Dev :=
  (match bs with
   | some bs => d.vaultData e bs
   | none => d.endVault e stHostAbort 0).resumeVault

/-- Start a vault job. -/
def Dev.vaultJob (d : Dev) (e : Nat) (iss : Issuer) (x : Desc) (write readOk : Bool) : Dev :=
  let j : VaultJob := { exec := e, iss := iss, desc := x, write := write, readOk := readOk, phase := .waiting }
  ({ d.setKind e .vault with store := { d.store with vjobs := d.store.vjobs ++ [j] } }).runVault j

/-- The ID is one of the log's. -/
def vaultIdOk (x : Desc) : Bool := decide (0x100 ≤ (vaultId x).toNat) && decide ((vaultId x).toNat ≤ 0xFFFE)

/-- VAULT_WRITE. -/
def opVaultWrite (iss : Issuer) (x : Desc) (d : Dev) : Dev :=
  d.beginAt (d.pllDead 0) iss x 0x32 ([(1, 0xFFFF0000), (2, 0xFFFF0000)] ++ resFrom 5) fun d e =>
    let n := fld (dword x 2) 0 16
    if !vaultIdOk x || decide (4032 < n) || (n != 0 && badRange iss (dqword x 3).toNat n) then d.complete e stBad uStore 0
    else d.vaultJob e iss x true true

/-- VAULT_READ; `readOk`: the Store can read the copy (R149). -/
def opVaultRead (iss : Issuer) (x : Desc) (readOk : Bool) (d : Dev) : Dev :=
  d.beginAt (d.pllDead 0) iss x 0x33 ([(1, 0xFFFF0000), (2, 0xFFFF0000)] ++ resFrom 5) fun d e =>
    if !vaultIdOk x || badRange iss (dqword x 3).toNat (fld (dword x 2) 0 16) then d.complete e stBad uStore 0
    else d.vaultJob e iss x false readOk

/-- VAULT_INDEX_BUILT (R162): what waited goes on in the order of R36. -/
def opVaultIndexBuilt (d : Dev) : Dev :=
  if !d.cfg.doneReleased || d.store.vaultReady || d.ust uStore == .faulted || d.pllDead 0 then d
  else ({ d with store := { d.store with vaultReady := true, vjobs := d.granted uStore (fun j => j.iss) d.store.vjobs } }).resumeVault

/-- The first record whose data is there is appended and its VAULT_WRITE completes (R159), if the limits still allow it
(R161, R162). While no log unit has room it waits for a compaction. -/
def Dev.programVault (d : Dev) : Dev :=
  match d.store.vjobs.find? fun j => j.phase == .ready with
  | none => d
  | some j =>
    let id := vaultId j.desc
    let n := fld (dword j.desc 2) 0 16
    let seq : Word := match d.storeNv.current id with | some (_, r) => r.seq + 1 | none => 1
    if !d.vaultRoom id n then (d.endVault j.exec stNoRoom 0).resumeVault
    else match d.vaultAppend (mkVault id (vaultOwner j.iss) seq (j.data.take n)) with
      | none => d
      | some d1 => (d1.endVault j.exec stDone (seq.setWidth 64)).resumeVault

/-- STORE_PROGRAM_DONE: the programming of the head job, or else of a vault record, completes. -/
def opStoreProgramDone (readsBack : Bool) (d : Dev) : Dev :=
  if !d.storeWrites then d
  else match d.store.jobs with
    | j :: _ =>
      match j.phase with
      | .programming => d.programImage j readsBack
      | .writeHalf => d.writeHalf j
      | .writeHeader => d.writeHeader j
      | _ => d.programVault
    | [] => d.programVault

/-- Log units that are fully erased. -/
def Dev.erasedLog (d : Dev) : Nat := ((List.range 60).filter fun i => (d.storeNv.log.get [] (1988 + i)).isEmpty && !d.store.work.worn.contains (1988 + i)).length

/-- What a compaction must keep of a unit: current copies, and deletions that still hide an older copy elsewhere. -/
def StoreNv.keeps (s : StoreNv) (u : Nat) : List VaultRec :=
  (s.log.get [] u).filter fun r => (s.current r.id).any (fun c => c.1 == u && c.2 == r) &&
    (r.length != 0 || s.records.any fun e => e.1 != u && e.2.id == r.id)

/-- The log unit that the vault compacts now: the one with the fewest live bytes (R160). -/
def Dev.compacts (d : Dev) : Option Nat :=
  let s := d.storeNv
  if !d.storeWrites || !d.store.vaultReady || decide (2 ≤ d.erasedLog) then none
  else
    let live (u : Nat) : Int := ((s.liveRecords.filter fun e => e.1 == u).map fun e => e.2.size).sum
    argMin live (((List.range 60).map fun i => 1988 + i).filter fun u => u != s.head && !(s.log.get [] u).isEmpty && !d.store.work.worn.contains u)

/-- VAULT_COMPACTION (R160): the unit is copied to the head and erased. -/
def opVaultCompaction (d : Dev) : Dev :=
  match d.compacts with
  | none => d
  | some u =>
    match (d.storeNv.keeps u).foldl (fun (o : Option Dev) r => o.bind fun d => d.vaultAppend r) (some d) with
    | none => d
    | some d1 => ({ d1 with storeNv := { d1.storeNv with log := d1.storeNv.log.set [] u [] } }).countErase u

/-! ### Parity failure and registers -/

/-- STORE_PARITY_FAULT (R20): every operation of the Store in progress ends UNCORRECTABLE. A header write for a changed map is
no operation and waits for the recovery. -/
def opStoreParityFault (d : Dev) : Dev :=
  if d.ust uStore == .faulted || d.ust uStore == .off || d.ust uStore == .asleep then d
  else
    let d1 := d.fault uStore stInternal 0
    let d2 := foldS (fun d (j : VaultJob) => d.endVault j.exec stUncorr 0) d1 d1.store.vjobs
    let js := d2.store.jobs
    let maps := (js.filter fun j => j.exec.isNone).map fun j => { j with phase := .waiting }
    let d3 := foldS (fun d (j : StoreJob) => match j.exec with | some e => d.complete e stUncorr uStore 0 | none => d)
      { d2 with store := { d2.store with jobs := maps } } js
    d3.resumeRake

/-- CFG_STORE (R163). A unit that is due for its erase is being erased. -/
def Dev.storeWord (d : Dev) : Word :=
  let job := match d.store.jobs with
    | j :: _ => (match j.phase with | .erasing _ => true | .eraseHalf _ => true | .eraseHeader => true | _ => false)
    | [] => false
  let due := [1984, 1985].any d.saveErases || [1986, 1987].any d.startErases || d.compacts.isSome
  let busy := d.storeWrites && (job || due)
  pack [(b2n d.store.ready, 0, 1), (d.store.half, 1, 1), (b2n d.store.vaultReady, 2, 1), (b2n busy, 3, 1), (d.store.work.worn.length, 4, 12),
    (if d.store.ready then (List.range 1950).countP (fun i => d.unitFree (34 + i)) else 0, 16, 11)]

/-- CFG_VAULT (R163). -/
def Dev.vaultWord (d : Dev) : Word :=
  let u := if d.store.vaultReady then d.storeNv.used else 0
  pack [(u, 0, 22), (b2n (decide (3145728 ≤ u)), 22, 1), (b2n d.storeNv.pffSkipped, 23, 1)]

/-- A read of the CFG block. -/
def Dev.readCfg (d : Dev) (sel : Nat → Word) (o : Nat) : Word :=
  match o with
  | 0x00 => d.cfgStatus
  | 0x04 => d.cfgErrWord
  | 0x08 => pack [(d.cfg.errAddr.toNat, 0, 24), (d.cfg.errPan.toNat, 24, 6)]
  | 0x0C => d.cfgStartWord
  | 0x10 => d.cfgBoot
  | 0x14 => devType
  | 0x18 => d.cfg.passCount
  | 0x1C => d.cfg.framesCount
  | 0x20 | 0x24 | 0x28 | 0x2C => d.laneWord ((o - 0x20) / 4)
  | 0x30 => sel 0x30
  | 0x34 => d.catInfo (sel 0x30)
  | 0x38 => if d.store.ready then (match d.catEntry (sel 0x30) with | some c => c.secVersion | none => 0) else 0
  | 0x3C => if d.store.ready then d.store.catSeq else 0
  | 0x40 => d.storeWord
  | 0x44 => d.vaultWord
  | 0x48 => sel 0x48 &&& 0xFFF
  | 0x4C => d.recData (sel 0x48)
  | 0x50 => d.pfwWord
  | _ => 0

/-- A write of the CFG block: the W1C fields. -/
def Dev.writeCfg (d : Dev) (o : Nat) (v : Word) : Dev :=
  match o with
  | 0x00 => { d with cfg := { d.cfg with ignored := d.cfg.ignored && !bit v 5 } }
  | 0x04 => if bit v 12 then { d with cfg := { d.cfg with err := false, errStatus := 0, errSource := 0, errOver := false, specFail := 0 } } else d
  | 0x0C => { d with cfg := { d.cfg with ppsMissed := d.cfg.ppsMissed && !bit v 24 } }
  | 0x44 => { d with storeNv := { d.storeNv with pffSkipped := d.storeNv.pffSkipped && !bit v 23 } }
  | _ => d

/-! ### The commands -/

/-- CATALOGUE_LOADED (R151). -/
def execCatalogueLoaded (badUnit : Option Nat) (s : State) : Res :=
  runCmd (.catalogueLoaded badUnit) (opCatalogueLoaded badUnit) s

/-- STORE_IMAGE (R152). -/
def execStoreImage (iss : Issuer) (d : Desc) (s : State) : Res :=
  runCmd (.storeImage iss d) (opStoreImage iss d) s

/-- STORE_ERASE_DONE (R149). -/
def execStoreEraseDone (unit : Nat) (s : State) : Res :=
  runCmd (.storeEraseDone unit) (opStoreEraseDone unit) s

/-- STORE_PROGRAM_DONE (R152). -/
def execStoreProgramDone (readsBack : Bool) (s : State) : Res :=
  runCmd (.storeProgramDone readsBack) (opStoreProgramDone readsBack) s

/-- VAULT_WRITE (R159). -/
def execVaultWrite (iss : Issuer) (d : Desc) (s : State) : Res :=
  runCmd (.vaultWrite iss d) (opVaultWrite iss d) s

/-- VAULT_READ (R415). -/
def execVaultRead (iss : Issuer) (d : Desc) (readOk : Bool) (s : State) : Res :=
  runCmd (.vaultRead iss d readOk) (opVaultRead iss d readOk) s

/-- VAULT_INDEX_BUILT (R162). -/
def execVaultIndexBuilt (s : State) : Res :=
  runCmd (.vaultIndexBuilt) (opVaultIndexBuilt) s

/-- VAULT_COMPACTION (R160). -/
def execVaultCompaction (s : State) : Res :=
  runCmd (.vaultCompaction) (opVaultCompaction) s

/-- STORE_PARITY_FAULT (R20). -/
def execStoreParityFault (s : State) : Res :=
  runCmd (.storeParityFault) (opStoreParityFault) s

end Sys2Proof.Machine
end

