-- ==== Sys2Proof/Machine/Mover.lean ====
section
/-! DEFINITION. The descriptors that move data or look at it: NOP, COPY, FILL, FLIPTEST, SNAPSHOT, FENCE and unknown
opcodes (chapter "Descriptor Reference", R366–R368), and the arbitration that starvation decides (R36–R38). -/

namespace Sys2Proof.Machine

/-! ### The unit status word (R24, R25, R647) -/

/-- The sleep in force as the PWR field shows it: 0 on, 1 DOZE, 2 NAP, 3 DEEP (R24). -/
def Dev.sleepCode (d : Dev) : Nat := if d.pwr.phase == .asleep then min 3 d.pwr.modeIn.toNat else 0

/-- PWR of a unit: that of its domain, or as R647 gives outside the domains. -/
def Dev.pwrField (d : Dev) (u : Nat) : Nat :=
  match unitDomain u with
  | some k => if d.domSleeps k then min 3 d.pwr.modeIn.toNat else 0
  | none => if unitClass u == 7 || unitClass u == 0xE then (if d.sleepCode == 3 then 3 else 0) else d.sleepCode

/-- The unit status word (R24). -/
def Dev.statusWord (d : Dev) (u : Nat) : Word :=
  pack [((d.ust u).code, 0, 4), (d.pwrField u, 8, 4), ((d.unit u).epoch.toNat, 16, 16)]

/-- A UNIT_STATUS word as a reader sees it (R25, R352). -/
def Dev.unitStatus (d : Dev) (rd o : Nat) : Word :=
  match statusUnit o with
  | some u => if d.inPart rd u then d.statusWord u else 0
  | none => 0

/-! ### The data movement engine (R366–R368, R406, R407) -/

/-- Positions below this one are still to be copied: the whole length, or what lies below a failing line (R368, R406). -/
def Xfer.limit (x : Xfer) : Nat := match x.fail with | some (p, _) => min p x.len | none => x.len

/-- Bytes and lines of a line request that begins at Sluice offset `o` with `left` bytes to go; a write takes lines
that the range covers only in part one at a time (R366, R406). -/
def lineSpan (o left : Nat) (read : Bool) : Nat :=
  let room := min 8 (64 - o / 64 % 64)
  if read then min left (64 * room - o % 64)
  else if o % 64 ≠ 0 || left < 64 then min left (64 - o % 64)
  else 64 * min room (left / 64)

/-- Bytes of FILL from Sluice offset `p` on: the byte at an offset is byte `offset mod 8` of PATTERN (R407). -/
def fillBytes (pat : DWord) (p n : Nat) : List Byte := (List.range n).map fun i => BitVec.ofNat 8 (pat.toNat >>> (8 * ((p + i) % 8)))

/-- The next write request that its source bytes allow. -/
def Xfer.nextWrite (x : Xfer) : Option Chunk :=
  if !x.dstSl || x.limit ≤ x.wcur then none
  else
    let n := lineSpan (slOff x.dst + x.wcur) (x.limit - x.wcur) false
    match x.pattern with
    | some p => some { pos := x.wcur, len := n, read := false, data := fillBytes p (slOff x.dst + x.wcur) n }
    | none => if n ≤ x.got.length then some { pos := x.wcur, len := n, read := false, data := x.got.take n } else none

/-- The next read request of a Sluice source. -/
def Xfer.nextRead (x : Xfer) : Option Chunk :=
  if !x.srcSl || x.limit ≤ x.rcur then none
  else some { pos := x.rcur, len := lineSpan (slOff x.src + x.rcur) (x.limit - x.rcur) true, read := true, data := [] }

/-- The line request the engine presents next; none while BUSY answers hold it (R367). -/
def Xfer.next (x : Xfer) : Option Chunk :=
  if !x.busy.isEmpty then none
  else match x.again with
    | c :: _ => some c
    | [] => if x.retry then none else x.nextWrite.orElse fun _ => x.nextRead

/-- The engine has presented a request. -/
def Xfer.sent (x : Xfer) (c : Chunk) : Xfer :=
  let y := { x with out := x.out ++ [c] }
  if x.again.head? = some c then { y with again := x.again.tail }
  else if c.read then { y with rcur := c.pos + c.len }
  else { y with wcur := c.pos + c.len, got := x.got.drop c.len }

/-- The lowest failing position is kept; requests at or above it are not reissued (R368). -/
def Xfer.note (x : Xfer) (p st : Nat) : Xfer :=
  let y := match x.fail with
    | some (q, _) => if p < q then { x with fail := some (p, st) } else x
    | none => { x with fail := some (p, st) }
  { y with
    again := y.again.filter fun c => c.pos < y.limit
    busy := y.busy.filter fun c => c.pos < y.limit }

/-- Take pieces that continue what is at hand. -/
def Xfer.join (x : Xfer) : Nat → Xfer
  | 0 => x
  | k + 1 =>
    match x.ahead.find? fun a => a.1 == x.wcur + x.got.length with
    | some a => ({ x with got := x.got ++ a.2, ahead := x.ahead.erase a } : Xfer).join k
    | none => x

/-- Source bytes arrive at position `p`. -/
def Xfer.arrive (x : Xfer) (p : Nat) (bs : List Byte) : Xfer :=
  ({ x with ahead := x.ahead ++ [(p, bs)] } : Xfer).join (x.ahead.length + 1)

/-- Nothing of the movement is left to do. -/
def Xfer.ended (x : Xfer) : Bool :=
  x.out.isEmpty && x.busy.isEmpty && x.again.isEmpty && !x.hostOut && decide (x.limit ≤ x.wcur)

/-- Bytes for a host destination are written as they come, in ascending order. -/
def Dev.drainHost (d : Dev) (e : Nat) (iss : Issuer) (x : Xfer) : Dev × Xfer :=
  if x.dstSl then (d, x)
  else
    let bs := x.got.take (x.limit - x.wcur)
    (d.putHostData e iss (x.dst.toNat + x.wcur) bs, { x with got := [], wcur := x.wcur + bs.length })

/-- Ask for the next piece of a host source, one at a time; the bytes of the management path's buffer are at hand. -/
def Dev.askSource (d : Dev) (e : Nat) (iss : Issuer) (x : Xfer) : Dev × Xfer :=
  if x.srcSl || x.hostOut || x.pattern.isSome || x.limit ≤ x.rcur then (d, x)
  else
    let a := x.src.toNat + x.rcur
    match iss with
    | .ring p _ =>
      if d.orphaned e then (d, x.note x.rcur stHostAbort)
      else
        let n := (d.hp p).readSpan a (x.limit - x.rcur)
        (d.askHost p (.copySrc e x.rcur) a n, { x with hostOut := true, rcur := x.rcur + n })
    | .smbus => (d, ({ x with rcur := x.len } : Xfer).arrive x.rcur ((d.bufBytes .smbus a (x.len - x.rcur)).getD []))
    | .jtag => (d, ({ x with rcur := x.len } : Xfer).arrive x.rcur ((d.bufBytes .jtag a (x.len - x.rcur)).getD []))

/-- Go on after something has happened to a movement; complete it when nothing is left (R368, R406). -/
def Dev.xferGo (d : Dev) (e : Nat) (iss : Issuer) (x : Xfer) : Dev :=
  let (d1, x1) := d.askSource e iss x
  let (d2, x2) := d1.drainHost e iss x1
  if x2.ended then
    match x2.fail with
    | some (p, st) => d2.complete e st iss.unit (BitVec.ofNat 64 p)
    | none => d2.complete e stDone iss.unit (BitVec.ofNat 64 x2.len)
  else d2.setKind e (.xfer x2)

/-- The Sluice request of a line request. -/
def Xfer.request (x : Xfer) (e ing : Nat) (c : Chunk) : SlIn :=
  let base := (if c.read then x.src else x.dst).toNat + c.pos
  let o := base % 64
  let lines := ceilDiv (o + c.len) 64
  let whole := List.replicate o 0 ++ c.data ++ List.replicate (64 * lines - o - c.len) 0
  { ingress := ing, by_ := .exec e c.pos, addr := BitVec.ofNat 64 (base - o), write := !c.read, lines := lines
    be := if c.read || 1 < lines || c.len == 64 then BitVec.allOnes 64 else BitVec.ofNat 64 ((2 ^ c.len - 1) * 2 ^ o)
    data := if c.read then [] else (List.range lines).map fun i => lineOf (slice whole (64 * i) 64)
    poison := false, flip := none, stage := .lookup, tier := 3 }

/-- The ingress of an issuer's engine: 88 + n of host port n (R366); the management path's requests enter at that of
port 0, since the spec gives it none of its own. -/
def Issuer.ingress : Issuer → Nat
  | .ring p _ => 88 + p
  | _ => 88

/-- What an executing descriptor presents next, and the descriptor once it has. -/
def nextRequest (e : Nat) (x : Exec) : Option (SlIn × ExecKind) :=
  match x.kind with
  | .xfer t => t.next.map fun c => (t.request e (Issuer.ingress x.iss) c, .xfer (t.sent c))
  | .flip a false l w m =>
    some ({ ingress := Issuer.ingress x.iss, by_ := .exec e 0, addr := a, write := true, lines := 1, be := BitVec.allOnes 64, data := [l]
            poison := false, flip := some (w, m), stage := .lookup, tier := 3 }, .flip a true l w m)
  | _ => none

/-- Byte position of line `i` of a request. -/
def Xfer.linePos (x : Xfer) (c : Chunk) (i : Nat) : Nat :=
  let o := ((if c.read then x.src else x.dst).toNat + c.pos) % 64
  if i = 0 then c.pos else c.pos + 64 * i - o

/-- The bytes of a request's range in the lines answered. -/
def Xfer.lineData (x : Xfer) (c : Chunk) (ls : List Line) : List Byte :=
  ((ls.flatMap lineBytes).drop ((x.src.toNat + c.pos) % 64)).take c.len

/-- A reissued request that is answered otherwise than BUSY: when none is left, the engine goes on (R367). -/
def Xfer.settle (x : Xfer) : Xfer :=
  if x.retry && x.again.isEmpty && x.out.isEmpty && x.busy.isEmpty then { x with retry := false, busyWin := false } else x

/-- The response of a line request (R367, R368). -/
def Xfer.answer (x : Xfer) (c : Chunk) (lines : List (Byte × Line)) : Xfer :=
  let y := { x with out := x.out.erase c }
  match (indexed lines).find? fun l => l.2.1 != 0 with
  | none => if c.read then (y.arrive c.pos (x.lineData c (lines.map Prod.snd))).settle else y.settle
  | some (i, st, _) =>
    if st = BitVec.ofNat 8 stBusy ∧ !x.busyOver then { y with busy := y.busy ++ [c], busyWin := true }
    else
      let good := x.lineData c ((lines.take i).map Prod.snd)
      let z := if c.read && i != 0 then y.arrive c.pos (good.take (x.linePos c i - c.pos)) else y
      (z.note (x.linePos c i) st.toNat).settle

/-- A response reaches a descriptor's engine. -/
def Dev.execResponse (d : Dev) (e : Nat) (q : SlIn) (lines : List (Byte × Line)) : Dev :=
  match d.exec e with
  | none => d
  | some x =>
    match x.kind with
    | .xfer t =>
      (match q.by_ with
       | .exec _ pos =>
         (match t.out.find? fun c => c.pos == pos && c.read == !q.write with
          | some c => d.xferGo e x.iss (t.answer c lines)
          | none => d)
       | _ => d)
    | .flip _ true _ _ _ =>
      let st := (lines.head?.map fun l => l.1.toNat).getD stDone
      (match q.reached with
       | some (b, pg, ln) =>
         d.complete e st (uBank b) (if st = stDone then pack64 [(b, 0, 8), (pg, 8, 7), (ln, 16, 6)] else 0)
       | none => d.complete e st x.iss.unit 0)
    | _ => d

/-- BUSY_RETRY: 1 µs after the last outstanding response, only the requests answered BUSY are reissued, in ascending
order (R367). -/
def opBusyRetry (iss : Issuer) (e : Nat) (d : Dev) : Dev :=
  match d.exec e with
  | some x =>
    (match x.kind with
     | .xfer t =>
       if x.iss = iss ∧ !t.busy.isEmpty ∧ t.out.isEmpty then
         d.setKind e (.xfer { t with
           busy := [], again := orderBy (fun a b => decide (a.pos < b.pos)) (t.busy ++ t.again), retry := true })
       else d
     | _ => d)
  | none => d

/-- BUSY_WINDOW_EXPIRY: the requests answered BUSY count as failed; the descriptor completes BUSY once its outstanding
responses have come (R367). -/
def opBusyWindowExpiry (iss : Issuer) (e : Nat) (d : Dev) : Dev :=
  match d.exec e with
  | some x =>
    (match x.kind with
     | .xfer t =>
       if x.iss = iss ∧ t.busyWin then
         let lost := t.busy ++ t.again
         let t1 := { t with busyWin := false, busyOver := true, retry := false, busy := [], again := [] }
         d.xferGo e iss (foldS (fun (t : Xfer) (c : Chunk) => t.note c.pos stBusy) t1 lost)
       else d
     | _ => d)
  | none => d

/-! ### COPY and FILL -/

/-- Two Sluice ranges of one device ID and tag overlap (R406). -/
def slOverlap (a b : DWord) (n : Nat) : Bool :=
  slDev a == slDev b && slTag a == slTag b && decide (slOff a < slOff b + n) && decide (slOff b < slOff a + n)

/-- Longest COPY or FILL (R406, R407). -/
def maxCopy : Nat := 16777216

/-- COPY (R406). -/
def opCopy (iss : Issuer) (x : Desc) (d : Dev) : Dev :=
  d.begin iss x 0x10 false false ([(1, 0xFFFFFFFF), (2, 0xFFFFFFFC)] ++ resFrom 8) fun d e =>
    let srcSl := bit (dword x 2) 0
    let dstSl := bit (dword x 2) 1
    let src := dqword x 3
    let dst := dqword x 5
    let n := (dword x 7).toNat
    let (early, d0) := d.usePreread e
    if (!srcSl && !dstSl) || n == 0 || decide (maxCopy < n) || (srcSl && dstSl && slOverlap src dst n) ||
        (!srcSl && badRange iss src.toNat n) || (!dstSl && badRange iss dst.toNat n) then
      d0.complete e stBad iss.unit 0
    else
      let t : Xfer := { srcSl := srcSl, dstSl := dstSl, src := src, dst := dst, len := n, got := if srcSl then [] else early.take n
                        rcur := if srcSl then 0 else min n early.length }
      d0.xferGo e iss t

/-- FILL (R407). -/
def opFill (iss : Issuer) (x : Desc) (d : Dev) : Dev :=
  d.begin iss x 0x11 false false ([(1, 0xFFFFFFFF), (2, 0xFFFFFFFF)] ++ resFrom 8) fun d e =>
    let n := (dword x 5).toNat
    if n = 0 ∨ maxCopy < n then d.complete e stBad iss.unit 0
    else d.xferGo e iss
      { srcSl := false, dstSl := true, src := 0, dst := dqword x 3, len := n, pattern := some (dqword x 6) }

/-- FLIPTEST (R321, R410). -/
def opFliptest (iss : Issuer) (x : Desc) (d : Dev) : Dev :=
  d.begin iss x 0x22 false false ([(1, 0xFFFFFFFF), (2, 0xFFFFFFE0)] ++ resFrom 7) fun d e =>
    let a := dqword x 3
    let w := fld (dword x 2) 0 5
    if 16 < w ∨ slOff a % 64 ≠ 0 ∨ slDev a ≠ d.ownId ∨ slTag a < 0xF000 then d.complete e stBad iss.unit 0
    else d.setKind e (.flip a false (lineOf ((List.range 16).flatMap fun _ => leBytes 4 (dword x 5).toNat)) w (dword x 6))

/-! ### SNAPSHOT (R411, R412) -/

/-- The POOL record (R412). -/
def Dev.poolRecord (d : Dev) (h : Nat) (p : Pool) : List Byte :=
  leBytes 4 (d.poolInfo h).toNat ++ (List.range 16).map (fun i => BitVec.ofNat 8 (p.set.getD i 0xFF)) ++ leBytes 2 h ++
    leBytes 1 p.owner.toNat ++ [0] ++ leBytes 2 (d.rake.moves.countP fun m => m.handle == h) ++ List.replicate 38 0

/-- What a SNAPSHOT of kind UNITS or TAGS writes for a reader (R411). -/
def Dev.unitsView (d : Dev) (rd : Nat) : List Byte :=
  (List.range 4096).flatMap fun i => leBytes 4 (d.unitStatus rd (0x8000 + 4 * i)).toNat

/-- The bound tags that the reader's partition grants, ascending: endpoint bindings, then the handles of live pools, which
the tag map holds as well (R228, R263). -/
def Dev.tagsView (d : Dev) (rd : Nat) : List Byte :=
  let p := d.part rd
  (((d.bound.map Prod.fst).filter p.hasTag) ++ ((d.livePools.map Prod.fst).filter p.hasHandle)).flatMap fun t => leBytes 2 t ++ [0, 0] ++ leBytes 4 (d.tagEntry t).toNat

/-- SNAPSHOT (R411). -/
def opSnapshot (iss : Issuer) (x : Desc) (d : Dev) : Dev :=
  let kind := fld (dword x 2) 0 2
  d.begin iss x 0x30 false false ([(1, if kind = 0 then 0xFFFF0000 else 0xFFFFFFFF), (2, 0xFFFFFFFC)] ++ resFrom 6) fun d e =>
    let a := (dqword x 3).toNat
    let n := (dword x 5).toNat
    let h := fld (dword x 1) 0 16
    let put (bs : List Byte) : Dev :=
      if n < bs.length then d.complete e stNoRoom iss.unit (BitVec.ofNat 64 bs.length)
      else (d.putHostData e iss a bs).complete e stDone iss.unit (BitVec.ofNat 64 bs.length)
    if kind = 3 ∨ a % 64 ≠ 0 ∨ badRange iss a n then d.complete e stBad iss.unit 0
    else if kind = 0 then
      if !(d.part iss.reader).hasHandle h then d.complete e stPerm iss.unit 0
      else match d.rake.pools.get none h with
        | none => d.complete e stRefused iss.unit 0
        | some p => put (d.poolRecord h p)
    else if kind = 1 then put (d.unitsView iss.reader)
    else put (d.tagsView iss.reader)

/-! ### NOP, FENCE and unknown opcodes -/

/-- NOP: INFO holds W2 and W3; nothing but the flags is checked (R391, R397). -/
def opNop (iss : Issuer) (x : Desc) (d : Dev) : Dev :=
  d.begin iss x 0x00 false false [] fun d e => d.complete e stDone iss.unit (dqword x 2)

/-- FENCE (R421). -/
def opFence (iss : Issuer) (x : Desc) (d : Dev) : Dev :=
  d.begin iss x 0x60 false false ([(1, 0xFFFFFFFF), (2, 0xFFFFFFFE)] ++ resFrom 3) fun d e =>
    let mine (y : Exec) : Bool :=
      match iss, y.iss with
      | .ring p q, .ring p2 q2 => p == p2 && !y.orphan && (bit (dword x 2) 0 || q == q2)
      | _, _ => false
    let l := (d.running.filter fun y => y.1 != e && mine y.2).map Prod.fst
    if l.isEmpty then d.complete e stDone iss.unit 0 else d.setKind e (.fence l l.length)

/-- The opcodes of R392. -/
def opcodes : List Nat :=
  [0x00, 0x01, 0x02, 0x03, 0x04, 0x05, 0x06, 0x07, 0x10, 0x11, 0x20, 0x21, 0x22, 0x30, 0x31, 0x32, 0x33, 0x40, 0x41, 0x50, 0x60, 0x70]

/-- BAD_OPCODE: a descriptor whose opcode is not in R392 completes BAD_DESCRIPTOR (R391). -/
def opBadOpcode (iss : Issuer) (x : Desc) (d : Dev) : Dev :=
  if opcodes.contains (Desc.opcode x) then d
  else d.begin iss x (Desc.opcode x) false false [] fun d e => d.complete e stBad iss.unit 0

/-! ### Arbitration (R36–R38, R272) -/

/-- ARBITRATION_STARVATION (R38): a contender has lost a resource for 64 cycles: until it is granted it goes ahead of tiers
3–6 there, as `Dev.grantBefore` has it. Resources are unit IDs, and router outputs. -/
def opArbitrationStarvation (res : Nat) (c : Contender) (d : Dev) : Dev :=
  { d with sl := { d.sl with boost := (d.grantTo res c).sl.boost ++ [(res, c)] } }

/-- REQ_STARVATION (R272): a REQ flit that waited 64 cycles behind RSP and CTL flits goes out at its next cycle with a
credit. The requests that the model holds at an output wait for a bank's queue: the oldest is the next that enters. -/
def opReqStarvation (router output : Nat) (d : Dev) : Dev :=
  match bankOutput router output with
  | none => d
  | some n =>
    match (d.waitingAt n).head? with
    | none => d
    | some e => opArbitrationStarvation (outputRes n) e.2.contender d

/-! ### The commands -/

/-- NOP (R397). -/
def execNop (iss : Issuer) (d : Desc) (s : State) : Res :=
  runCmd (.nop iss d) (opNop iss d) s

/-- COPY (R406). -/
def execCopy (iss : Issuer) (d : Desc) (s : State) : Res :=
  runCmd (.copy iss d) (opCopy iss d) s

/-- FILL (R407). -/
def execFill (iss : Issuer) (d : Desc) (s : State) : Res :=
  runCmd (.fill iss d) (opFill iss d) s

/-- FLIPTEST (R321). -/
def execFliptest (iss : Issuer) (d : Desc) (s : State) : Res :=
  runCmd (.fliptest iss d) (opFliptest iss d) s

/-- SNAPSHOT (R411). -/
def execSnapshot (iss : Issuer) (d : Desc) (s : State) : Res :=
  runCmd (.snapshot iss d) (opSnapshot iss d) s

/-- FENCE (R421). -/
def execFence (iss : Issuer) (d : Desc) (s : State) : Res :=
  runCmd (.fence iss d) (opFence iss d) s

/-- BAD_OPCODE (R391). -/
def execBadOpcode (iss : Issuer) (d : Desc) (s : State) : Res :=
  runCmd (.badOpcode iss d) (opBadOpcode iss d) s

/-- REQ_STARVATION (R272). -/
def execReqStarvation (router : Nat) (output : Nat) (s : State) : Res :=
  runCmd (.reqStarvation router output) (opReqStarvation router output) s

/-- ARBITRATION_STARVATION (R38). -/
def execArbitrationStarvation (resource tier rank : Nat) (s : State) : Res :=
  runCmd (.arbitrationStarvation resource tier rank) (opArbitrationStarvation resource ⟨tier, rank⟩) s

/-- BUSY_RETRY (R367). -/
def execBusyRetry (iss : Issuer) (exec : Nat) (s : State) : Res :=
  runCmd (.busyRetry iss exec) (opBusyRetry iss exec) s

/-- BUSY_WINDOW_EXPIRY (R367). -/
def execBusyWindowExpiry (iss : Issuer) (exec : Nat) (s : State) : Res :=
  runCmd (.busyWindowExpiry iss exec) (opBusyWindowExpiry iss exec) s

end Sys2Proof.Machine
end

