-- ==== Sys2Proof/Machine/Host.lean ====
section
/-! DEFINITION. The host ports (chapter "Host Ports, Partitions and Rings"): port state and loss of the host, rings,
doorbells, fetch and pre-read, reads of host memory as they complete, MSI-X and the HOST block. -/

namespace Sys2Proof.Machine

/-! ### CANCEL (R363) -/

/-- The rings of a port may fetch: HOST_CTRL.ENABLE is 1 and no orphan runs (R351, R356). -/
def HostPort.mayFetch (h : HostPort) : Bool := bit h.ctrl 0 && !h.orphans

/-- Descriptors that one request reads: up to 8, as the maximum read request size allows (R347, R360). -/
def HostPort.fetchSize (h : HostPort) : Nat := min 8 (h.maxRead / 64)

/-- Ask for the descriptors that a CANCEL still has to complete, in requests that do not wrap (R360, R363). -/
def Dev.askCancel (d : Dev) (p q : Nat) : Dev :=
  let s := (d.hp p).sq q
  if s.cancel = 0 || s.fetching ≠ 0 || !s.held.isEmpty || !(d.hp p).mayFetch || !d.hostRuns p then d
  else
    let n := min (min ((d.hp p).fetchSize) s.cancel) (min (64 - s.head % 64) (ringSize s.cfg - s.head))
    (d.modSq p q fun s => { s with fetching := n }).askHost p (.cancelFetch q s.head n s.gen) (ringBase s.baseLo s.baseHi + 64 * s.head) (64 * n)

/-- The last descriptor of a CANCEL is completed: a STOPPED ring runs (R363). -/
def Sq.cancelled (s : Sq) : Sq :=
  if s.cancel = 0 && s.st == .stopped then { s with st := .running } else s

/-- Complete fetched descriptors of a CANCEL while the CQ has slots. -/
def Dev.cancelOut (d : Dev) (p q : Nat) : Nat → Dev
  | 0 => d
  | k + 1 =>
    let s := (d.hp p).sq q
    let c := (d.hp p).cq (fld s.cfg 16 2)
    match s.held with
    | x :: rest =>
      if s.cancel = 0 || !c.enabled || decide (c.free ≤ c.reserved) then d
      else
        let d1 := d.modSq p q fun s =>
          Sq.cancelled { s with held := rest, head := (s.head + 1) % ringSize s.cfg, cancel := s.cancel - 1 }
        let d2 := d1.modCq p (fld s.cfg 16 2) fun c => { c with reserved := c.reserved + 1 }
        (d2.writeCpl p q (BitVec.ofNat 16 (fld (dword x 0) 16 16)) (bit (dword x 0) 11) stCancelled (uHost p) 0).cancelOut p q k
    | [] => d

/-! ### Doorbells (R357–R359, R363, R364, R373, R374) -/

/-- An ignored doorbell (R359). -/
def Dev.badDoorbell (d : Dev) (p ring : Nat) (v : Word) : Dev :=
  (d.hostErr p 0 ring (fld v 0 16)).modHp p fun h => { h with dropBad := satInc h.dropBad }

/-- An SQ doorbell takes effect: the tail form or the CANCEL form. -/
def Dev.sqBell (d : Dev) (p q : Nat) (v : Word) : Dev :=
  let s := (d.hp p).sq q
  let t := fld v 0 16
  if fld v 16 15 ≠ 0 || s.st == .disabled || s.st == .draining || (!bit v 31 && decide (ringSize s.cfg ≤ t)) then d.badDoorbell p q v
  else if s.cancel ≠ 0 then d.modSq p q fun s => { s with after := s.after ++ [(q, v)] }
  else if bit v 31 then
    (d.modSq p q fun s =>
      Sq.cancelled { s.discard with cancel := (s.tail + ringSize s.cfg - s.head) % ringSize s.cfg }).askCancel p q
  else d.modSq p q fun s => { s with tail := t, st := if s.st == .stopped then .running else s.st }

/-- Go on with a CANCEL: complete, fetch, and take the doorbells that followed it. A port that is not RUNNING writes no
completion; it goes on at its wake (R350). -/
def Dev.cancelGo (d : Dev) (p q : Nat) : Dev :=
  if ((d.hp p).sq q).cancel = 0 || !d.hostRuns p then d
  else
    let d1 := d.cancelOut p q 8
    let s := (d1.hp p).sq q
    if s.cancel ≠ 0 then d1.askCancel p q
    else foldS (fun d x => d.sqBell p q x.2) (d1.modSq p q fun s => { s with after := [] }) s.after

/-- A doorbell reaches a RUNNING port, whose function takes it while it serves its BARs, and else logs an unsupported request
(R343, R350). -/
def Dev.doorbell (d : Dev) (p : Nat) (f : Dev → Dev) : Dev :=
  if d.ust (uHost p) != .running then d else if (d.hp p).conf.serves then f d else d.logAer p 20

/-- SQ_DOORBELL (R359, R364): only a RUNNING port takes doorbells, and one that reaches a sleeping port waits for its
wake. Pages 21 to 255 serve no ring: a write there is a bad doorbell (R357). -/
def opSqDoorbell (p q : Nat) (v : Word) (d : Dev) : Dev :=
  d.doorbell p fun d => if 16 ≤ q then d.badDoorbell p 0x1F v else d.sqBell p q v

/-- CANCEL_DOORBELL (R363): the doorbell with bit 31 set. -/
def opCancelDoorbell (p q : Nat) (v : Word) (d : Dev) : Dev :=
  d.doorbell p fun d => d.sqBell p q (setBit v 31 true)

/-- HEAD of a CQ or of the EQ may move to `t`: it does not pass TAIL (R359). -/
def Cq.headOk (c : Cq) (v : Word) : Bool :=
  let n := ringSize c.cfg
  let t := fld v 0 16
  c.enabled && fld v 16 16 == 0 && decide (t < n) && decide ((t + n - c.head) % n ≤ c.count)

/-- CQ_DOORBELL (R373): slots come back, and a CANCEL that waits for one goes on. -/
def opCqDoorbell (p k : Nat) (v : Word) (d : Dev) : Dev :=
  d.doorbell p fun d =>
    if !((d.hp p).cq k).headOk v then d.badDoorbell p (16 + k) v
    else foldS (fun (d : Dev) (q : Nat) => if fld ((d.hp p).sq q).cfg 16 2 = k then d.cancelGo p q else d)
      (d.modCq p k fun c => { c with head := fld v 0 16 }) (List.range 16)

/-- EQ_DOORBELL (R374). -/
def opEqDoorbell (p : Nat) (v : Word) (d : Dev) : Dev :=
  d.doorbell p fun d =>
    if !(d.hp p).eq.headOk v then d.badDoorbell p 20 v
    else (d.modHp p fun h => { h with eq := { h.eq with head := fld v 0 16 } }).flushLost p

/-! ### Ring registers (R354–R356, R385, R387) -/

/-- A SIZE that a ring may have (R354). -/
def sizeOk (v : Word) : Bool := decide (4 ≤ fld v 8 5) && decide (fld v 8 5 ≤ 16)

/-- A ring write that is ignored (R351, R356). -/
def Dev.cfgIgnored (d : Dev) (p ring : Nat) : Dev := d.hostErr p 1 ring 0

/-- A ring is DISABLED (R356). -/
def Dev.ringOff (d : Dev) (p ring : Nat) : Bool :=
  if ring < 16 then ((d.hp p).sq ring).st == .disabled
  else if ring < 20 then !((d.hp p).cq (ring - 16)).enabled
  else !(d.hp p).eq.enabled

/-- Write HOST_SQ_CFG. -/
def Dev.writeSqCfg (d : Dev) (p q : Nat) (v : Word) : Dev :=
  let s := (d.hp p).sq q
  if s.st == .disabled then
    let c := merge 0x00031F00 s.cfg v
    if !bit v 0 then d.modSq p q fun s => { s with cfg := setBit c 0 false }
    else if sizeOk v && ((d.hp p).cq (fld v 16 2)).enabled then
      d.modSq p q fun s => { s with cfg := setBit c 0 true, head := 0, tail := 0, st := .running, stopOn := none }
    else (d.modSq p q fun s => { s with cfg := setBit c 0 false }).cfgIgnored p q
  else if (s.cfg ^^^ v) &&& 0x00031F00 ≠ 0 || (s.st == .draining && bit v 0) then d.cfgIgnored p q
  else if bit v 0 || s.st == .draining then d
  else
    let idle := !(d.running.any fun e => e.2.onRing p q)
    d.modSq p q fun s =>
      { s.discard with cfg := setBit s.cfg 0 false, cancel := 0, after := [], st := if idle then .disabled else .draining }

/-- Write the CFG of a CQ or of the EQ. `busy`: a ring that names it is not DISABLED. -/
def Cq.writeCfg (c : Cq) (v : Word) (busy : Bool) : Cq × Bool :=
  if !c.enabled then
    let f := merge 0xFF3F1F02 c.cfg v
    if !bit v 0 then ({ c with cfg := setBit f 0 false }, true)
    else if sizeOk v then ({ c with cfg := setBit f 0 true, head := 0, tail := 0, phase := true, enabled := true, reserved := 0 }, true)
    else ({ c with cfg := setBit f 0 false }, false)
  else if (c.cfg ^^^ v) &&& 0xFF3F1F02 ≠ 0 then (c, false)
  else if bit v 0 then (c, true)
  else if busy then (c, false)
  else ({ c with cfg := setBit c.cfg 0 false, enabled := false }, true)

/-- A write of a ring's CFG register: ring 0–15 an SQ, 16–19 a CQ, 20 the EQ (R356). While orphans run no ring register
takes writes (R351). -/
def Dev.writeRingCfg (d : Dev) (p ring : Nat) (v : Word) : Dev :=
  if (d.hp p).orphans then d.cfgIgnored p ring
  else if ring < 16 then d.writeSqCfg p ring v
  else if ring < 20 then
    let busy := (List.range 16).any fun q => fld ((d.hp p).sq q).cfg 16 2 == ring - 16 && ((d.hp p).sq q).st != .disabled
    let (c, ok) := ((d.hp p).cq (ring - 16)).writeCfg v busy
    let d1 := d.modCq p (ring - 16) fun _ => c
    if ok then d1 else d1.cfgIgnored p ring
  else
    let (c, ok) := (d.hp p).eq.writeCfg v false
    let d1 := d.modHp p fun h => { h with eq := c }
    if ok then d1 else d1.cfgIgnored p ring

/-- RING_ENABLE (R356). -/
def opRingEnable (p ring : Nat) (v : Word) (d : Dev) : Dev := d.access (.host p) fun d => d.writeRingCfg p ring (setBit v 0 true)

/-- RING_DISABLE (R356). -/
def opRingDisable (p ring : Nat) (v : Word) (d : Dev) : Dev := d.access (.host p) fun d => d.writeRingCfg p ring (setBit v 0 false)

/-- A write of a ring's BASE register: only while the ring is DISABLED (R356). -/
def Dev.writeBase (d : Dev) (p ring : Nat) (hi : Bool) (v : Word) : Dev :=
  if (d.hp p).orphans || !d.ringOff p ring then d.cfgIgnored p ring
  else
    let lo := v &&& 0xFFFFF000
    let put (c : Cq) : Cq := if hi then { c with baseHi := v } else { c with baseLo := lo }
    if ring < 16 then d.modSq p ring fun s => if hi then { s with baseHi := v } else { s with baseLo := lo }
    else if ring < 20 then d.modCq p (ring - 16) put
    else d.modHp p fun h => { h with eq := put h.eq }

/-- Discard the run-ahead of every SQ of a port. -/
def Dev.discardAll (d : Dev) (p : Nat) : Dev :=
  foldS (fun (d : Dev) (q : Nat) => d.modSq p q fun s => if s.cancel = 0 then s.discard else s) d (List.range 16)

/-- Write HOST_CTRL: ENABLE 0 stops fetching on every SQ, as DRAINING does (R356, R379). -/
def Dev.writeHostCtrl (d : Dev) (p : Nat) (v : Word) : Dev :=
  let d1 := d.modHp p fun h => { h with ctrl := merge 0xFFFF000F h.ctrl v }
  if bit (d.hp p).ctrl 0 && !bit v 0 then d1.discardAll p else d1

/-- HOST_CTRL_ENABLE (R356). -/
def opHostCtrlEnable (p : Nat) (v : Word) (d : Dev) : Dev := d.access (.host p) fun d => d.writeHostCtrl p v

/-! ### Fetch and pre-read (R360, R365) -/

/-- DESCRIPTOR_FETCH (R360). -/
def opDescriptorFetch (p q : Nat) (d : Dev) : Dev :=
  let h := d.hp p
  let s := h.sq q
  if s.cancel ≠ 0 then d.askCancel p q
  else if !d.hostRuns p || d.gated (uHost p) || !h.mayFetch || s.st != .running || s.fetching ≠ 0 then d
  else
    let size := ringSize s.cfg
    let i := (s.head + s.held.length) % size
    let left := (s.tail + size - i) % size
    let n0 := min (min h.fetchSize left) (min (32 - s.held.length) (min (size - i) (64 - i % 64)))
    let n := if bit h.ctrl 1 then n0 else if s.held.isEmpty then min 1 n0 else 0
    if n = 0 then d
    else (d.modSq p q fun s => { s with fetching := n }).askHost p (.fetch q i n s.gen) (ringBase s.baseLo s.baseHi + 64 * i) (64 * n)

/-- A range of host memory lies in one enabled window of the port (R365, R384). -/
def HostPort.prefetchable (h : HostPort) (a n : Nat) : Bool :=
  (List.range 8).any fun w =>
    let lo := h.pfLo.get 0 w
    let size := 2 ^ fld lo 1 6
    let base := ((h.pfHi.get 0 w).toNat * 2 ^ 32 + fld lo 12 20 * 4096) / size * size
    bit lo 0 && decide (12 ≤ fld lo 1 6) && decide (fld lo 1 6 ≤ 48) && decide (base ≤ a) && decide (a + n ≤ base + size)

/-- Bytes that a port holds pre-read or has asked for (R365). -/
def HostPort.preHeld (h : HostPort) : Nat :=
  (h.sqs.map fun s => (s.2.preread.map fun e => e.2.length).sum).sum +
    (h.reads.map fun r => match r.2 with | some x => (match x.why with | .preread _ _ _ => x.len | _ => 0) | none => 0).sum

/-- A held COPY that may be pre-read further (R365). -/
def HostPort.mayPreread (h : HostPort) (q : Nat) (s : Sq) (idx : Nat) (x : Desc) : Bool :=
  let n := (dword x 7).toNat
  Desc.opcode x == 0x10 && !bit (dword x 0) 10 && !bit (dword x 0) 9 && !bit (dword x 2) 0 && decide (1 ≤ n) &&
    h.prefetchable (dqword x 3).toNat n && decide ((s.preread.get [] idx).length < n) &&
    !(h.reads.any fun r => match r.2 with | some y => (match y.why with | .preread a i g => a == q && i == idx && g == s.gen | _ => false) | none => false)

/-- PREREAD (R365): the next piece of the first held COPY that may be pre-read. -/
def opPreread (p q : Nat) (d : Dev) : Dev :=
  let h := d.hp p
  let s := h.sq q
  if !d.hostRuns p || !h.mayFetch || !bit h.ctrl 2 || s.st != .running || s.cancel ≠ 0 then d
  else
    match (indexed s.held).find? fun y => h.mayPreread q s ((s.head + y.1) % ringSize s.cfg) y.2 with
    | none => d
    | some (i, x) =>
      let idx := (s.head + i) % ringSize s.cfg
      let done := (s.preread.get [] idx).length
      let a := (dqword x 3).toNat + done
      let n := min (h.readSpan a ((dword x 7).toNat - done)) (65536 - h.preHeld)
      if n = 0 then d else d.askHost p (.preread q idx s.gen) a n

/-! ### Reads of host memory as they complete (R369, R644) -/

/-- The ring and index of an executing descriptor, as HOST_ERR_DESC names them. -/
def Dev.execRing (d : Dev) (e : Nat) : Nat × Nat :=
  match d.exec e with
  | some x => (match x.iss with | .ring _ q => (q, x.idx) | _ => (0x1F, 0))
  | none => (0x1F, 0)

/-- A descriptor fetch has failed: its ring becomes ERROR (R369, R375). -/
def Dev.fetchFailed (d : Dev) (p q idx : Nat) (a : DWord) : Dev :=
  let d1 := d.modSq p q fun s => { s.discard with st := .error, cancel := 0, after := [] }
  (d1.hostErrAddr p 2 q idx a).eventAt p (uHost p) 0x01 stHostAbort (pack64 [(q, 0, 5), (idx, 8, 16), (stHostAbort, 24, 8)])

/-- The descriptors in the bytes of a fetch. -/
def descsOf (bs : List Byte) (n : Nat) : List Desc := (List.range n).map fun i => BitVec.ofNat 512 (leAt bs (64 * i) 64)

/-- The data of a read that an executing descriptor needs has come, or the read has failed. -/
def Dev.neededRead (d : Dev) (why : ReadWhy) (got : Option (List Byte)) : Dev :=
  match why with
  | .copySrc e pos =>
    (match d.exec e with
     | some x =>
       (match x.kind with
        | .xfer t =>
          let t1 := { t with hostOut := false }
          d.xferGo e x.iss (match got with | some bs => t1.arrive pos bs | none => t1.note pos stHostAbort)
        | _ => d)
     | none => d)
  | .image e =>
    (match got, d.op e with
     | some bs, some _ => d.imageArrived e bs
     | none, some _ => d.imageFailed e
     | got, none => d.storeRead e got)
  | .vaultData e => d.vaultArrived e got
  | _ => d

/-- HOST_READ_COMPLETION (R369, R644): a read completes with data or fails. Reads that a discard has overtaken are
dropped; a failed pre-read has no effect. A timeout is logged in AER (R343). No read times out while Device Control 2 disables the completion timeout (R343). -/
def opHostReadCompletion (p r : Nat) (res : HostRead) (d : Dev) : Dev :=
  match (d.hp p).reads.get none r with
  | none => d
  | some rd =>
    let got : Option (List Byte) := match res with | .data bs => some bs | _ => none
    if !rd.sent || (got.any fun bs => bs.length != rd.len) || (res == .timedOut && (d.hp p).conf.devCtl2.getLsbD 4) then d
    else
      let d0 := if res == .timedOut then d.logAer p 14 else d
      let d1 := (d0.modHp p fun h => { h with reads := h.reads.set none r none }).askWaiting p
      match rd.why with
      | .fetch q i n g =>
        if ((d1.hp p).sq q).gen ≠ g then d1
        else (match got with
          | some bs => d1.modSq p q fun s => { s with held := s.held ++ descsOf bs n, fetching := 0 }
          | none => d1.fetchFailed p q i rd.addr)
      | .cancelFetch q i n g =>
        if ((d1.hp p).sq q).gen ≠ g then d1
        else (match got with
          | some bs => (d1.modSq p q fun s => { s with held := descsOf bs n, fetching := 0 }).cancelGo p q
          | none => d1.fetchFailed p q i rd.addr)
      | .preread q i g =>
        (match got with
         | some bs =>
           let s := (d1.hp p).sq q
           if s.gen = g && decide ((i + ringSize s.cfg - s.head) % ringSize s.cfg < s.held.length) then
             d1.modSq p q fun s => { s with preread := s.preread.modify [] i fun b => b ++ bs }
           else d1
         | none => d1)
      | .dropped => d1
      | .copySrc e pos =>
        let d2 := if got.isNone then d1.hostErrAddr p 3 (d1.execRing e).1 (d1.execRing e).2 rd.addr else d1
        d2.neededRead (.copySrc e pos) got
      | .image e =>
        let d2 := if got.isNone then d1.hostErrAddr p 3 (d1.execRing e).1 (d1.execRing e).2 rd.addr else d1
        d2.neededRead (.image e) got
      | .vaultData e =>
        let d2 := if got.isNone then d1.hostErrAddr p 3 (d1.execRing e).1 (d1.execRing e).2 rd.addr else d1
        d2.neededRead (.vaultData e) got

/-! ### Port state and loss of the host (R350, R351) -/

/-- Started descriptors of a port that has left RUNNING still run. -/
def Dev.hasOrphans (d : Dev) (p : Nat) : Bool :=
  d.running.any fun e => e.2.orphan && (match e.2.iss with | .ring q _ => q == p | _ => false)

/-- The registers of a HOST block at their reset values but for the counters of R351; what is no register of the block
stays. -/
def HostPort.cleared (h : HostPort) : HostPort :=
  { linkUp := h.linkUp, speed := h.speed, width := h.width, reversed := h.reversed, polarity := h.polarity
    dropFiltered := h.dropFiltered, dropBad := h.dropBad, eqFull := h.eqFull, eqDisabled := h.eqDisabled, lostCpl := h.lostCpl
    nextRead := h.nextRead, loop := h.loop, query := h.query, perst := h.perst
    table := h.table, conf := h.conf, pendBits := h.pendBits }

/-- No message of a ring's vector is held any longer. -/
def Cq.quiet (c : Cq) : Cq := { c with holding := false, owed := false }

/-- A port leaves RUNNING (R351): run-ahead goes, started descriptors become orphans, and the reads of host memory they
still need fail. Without orphans the block resets at once. -/
def Dev.loseHost (d : Dev) (p : Nat) : Dev :=
  let whys := (d.hp p).reads.filterMap fun r => r.2.map fun x => x.why
  let d1 := foldS (fun (d : Dev) (q : Nat) => d.modSq p q fun s => { s.discard with cancel := 0, after := [] }) d (List.range 16)
  let d2 := { d1 with execs := d1.execs.map fun (e : Nat × Option Exec) => (e.1, e.2.map fun (x : Exec) => if x.onPort p then ({ x with orphan := true } : Exec) else x) }
  let d3 := d2.modHp p fun h => { h with
    reads := [], orphans := true, table := [], conf := {}, pendBits := [], eq := h.eq.quiet
    evHeld := [], posted := [], lostCpl := satAdd h.lostCpl (h.evHeld.length + h.posted.length) }
  let d4 := foldS (fun (d : Dev) (w : ReadWhy) => d.neededRead w none) (foldS (fun (d : Dev) k => d.modCq p k Cq.quiet) d3 (List.range 4)) whys
  if d4.hasOrphans p then d4 else d4.modHp p HostPort.cleared

/-- The link of a port is down. -/
def HostPort.unlinked (h : HostPort) : HostPort := { h with linkUp := false, speed := 0, width := 0, reversed := false, polarity := 0 }

/-- DL_Down, PERST_N low, Hot Reset or FLR (R350, R351). A port that sleeps returns to RUNNING first, and leaves it then
(R21, `Dev.wakeHost`). -/
def Dev.hostLost (d : Dev) (p : Nat) (link : Bool) : Dev :=
  let o := d.unit (uHost p)
  let cut (d : Dev) : Dev := if link then d else d.modHp p HostPort.unlinked
  if o.st == .running then cut ((d.setUnit (uHost p) .idle .device).loseHost p)
  else if o.st == .asleep && o.prior == .running then cut (d.modHp p fun h => { h with lost := true })
  else cut d

/-- The message that a vector has pending is sent once MSI-X is enabled, neither the vector nor the function is masked, and
the port runs (R350, R376). -/
def Dev.sendPending (d : Dev) (p v : Nat) : Dev :=
  let h := d.hp p
  if h.pendBits.get false v && !(h.table.get {} v).masked && h.conf.sends && d.hostRuns p then
    (d.modHp p fun h => { h with pendBits := h.pendBits.set false v false }).sendMsix p v
  else d

/-- What waits at a port whose function may make requests again leaves it: the writes in their order, then the reads (R343). -/
def Dev.releasePosted (d : Dev) (p : Nat) : Dev :=
  if !(d.hp p).conf.asks then d
  else
    let d1 := foldS (fun (d : Dev) (w : DWord × List Byte × Bool) => d.emit (.hostWrite p w.1 w.2.1 w.2.2))
      (d.modHp p fun h => { h with posted := [] }) (d.hp p).posted
    foldS (fun (d : Dev) (_ : Nat × Option HostReadSt) => d.askWaiting p) d1 (d.hp p).reads

/-- A port that makes its own requests again lets go what waited, writes the events it held, sends the messages that pend, and goes
on with its CANCELs (R343, R350, R374, R376). -/
def Dev.hostAgain (d : Dev) (p : Nat) : Dev :=
  foldS (fun (d : Dev) q => d.cancelGo p q)
    (foldS (fun (d : Dev) v => d.sendPending p v) ((d.releasePosted p).flushHeld p) (List.range 64)) (List.range 16)

/-- A port that has woken goes on; one that lost its host while ASLEEP leaves RUNNING (R351, R374). -/
def Dev.wakeHost (d : Dev) (p : Nat) : Dev :=
  let d1 := d.modHp p fun h => { h with lost := false }
  if !(d.hp p).lost then d1.hostAgain p
  else if d1.ust (uHost p) == .running then (d1.setUnit (uHost p) .idle .device).loseHost p
  else d1

/-- HOST_LINK_UP (R346, R350): the link trains once DONE is released and PERST_N is high, not in loopback (R597), and not while JTAG drives the lanes (R603). A link that
is up reports the speed and width it has trained to anew. -/
def opHostLinkUp (p : Nat) (speed : BitVec 3) (width : BitVec 4) (reversed : Bool) (polarity : Byte) (d : Dev) : Dev :=
  let d1 := d.modHp p fun h => { h with linkUp := true, speed := speed, width := width, reversed := reversed, polarity := polarity }
  if speed == 0 || decide (5 < speed.toNat) || (d.hp p).perst || d.mblk.jtagOver.isSome then d
  else if d.ust (uHost p) == .idle && d.cfg.doneReleased && (d.hp p).loop.isNone then d1.setUnit (uHost p) .running .device
  else if d.ust (uHost p) == .running && (d.hp p).linkUp then d1
  else d

/-- HOST_LINK_DOWN: DL_Down (R351). -/
def opHostLinkDown (p : Nat) (d : Dev) : Dev := if (d.hp p).linkUp then d.hostLost p false else d

/-- PERST_N (R345, R346, R351): while it is low the port does not train, and its fall resets the port. -/
def opPerstN (p : Nat) (level : Bool) (d : Dev) : Dev :=
  let d1 := d.modHp p fun h => { h with perst := !level }
  if level || (d.hp p).perst then d1 else d1.hostLost p false

/-- HOT_RESET (R351). -/
def opHotReset (p : Nat) (d : Dev) : Dev := if (d.hp p).linkUp then d.hostLost p false else d

/-- FUNCTION_LEVEL_RESET (R351): the link itself stays. -/
def opFunctionLevelReset (p : Nat) (d : Dev) : Dev := if (d.hp p).linkUp then d.hostLost p true else d

/-- HOST_PORT_PARITY_FAULT (R20, R350, R351). -/
def opHostPortParityFault (p : Nat) (d : Dev) : Dev :=
  let u := d.ust (uHost p)
  if u == .running then (d.fault (uHost p) stInternal 0).loseHost p
  else if u == .idle then d.fault (uHost p) stInternal 0
  else d

/-- ORPHANS_CLEARED (R351): the last orphan has ended, so the HOST block returns to reset. -/
def opOrphansCleared (p : Nat) (d : Dev) : Dev :=
  if (d.hp p).orphans && !d.hasOrphans p then d.modHp p HostPort.cleared else d

/-! ### MSI-X (R376) -/

/-- MSIX_HOLDOFF_EXPIRY: one message for all the requests held, after which the holdoff runs again (R376). A port that is
ASLEEP sends what it owes at its next expiry. -/
def opMsixHoldoffExpiry (p ring : Nat) (d : Dev) : Dev :=
  let next (c : Cq) : Cq := { c with holding := c.owed, owed := false }
  if ring < 16 || !d.hostRuns p then d
  else if ring < 20 then
    let c := (d.hp p).cq (ring - 16)
    let d1 := d.modCq p (ring - 16) next
    if c.holding && c.owed then d1.sendMsix p (fld c.cfg 16 6) else d1
  else
    let c := (d.hp p).eq
    let d1 := d.modHp p fun h => { h with eq := next h.eq }
    if c.holding && c.owed then d1.sendMsix p (fld c.cfg 16 6) else d1

/-- Change an entry of the MSI-X table; what it unmasks is sent. -/
def Dev.putMsix (d : Dev) (p v : Nat) (f : MsixEntry → MsixEntry) : Dev :=
  (d.modHp p fun h => { h with table := h.table.modify {} v f }).sendPending p v

/-- Change the configuration space of a port. -/
def Dev.modConf (d : Dev) (p : Nat) (f : CfgSpace → CfgSpace) : Dev := d.modHp p fun h => { h with conf := f h.conf }

/-- MSI-X Enable or the function mask change; the messages that this lets go are sent in order. -/
def Dev.setMsix (d : Dev) (p : Nat) (f : CfgSpace → CfgSpace) : Dev :=
  foldS (fun (d : Dev) v => d.sendPending p v) (d.modConf p f) (List.range 64)

/-- MSIX_UNMASK: the pending message of a vector, or of every vector of the function, is sent (R376). -/
def opMsixUnmask (p v : Nat) (d : Dev) : Dev :=
  if v < 64 then d.putMsix p v fun m => { m with masked := false } else d.setMsix p fun c => { c with fmask := false }

/-- One DW of the MSI-X table: address, data and vector control of an entry of 16 bytes (R348). -/
def MsixEntry.write (m : MsixEntry) (w : Nat) (v : Word) : MsixEntry :=
  match w with
  | 0 => { m with addr := (m.addr >>> 32).setWidth 32 ++ (v &&& 0xFFFFFFFC) }
  | 1 => { m with addr := v ++ m.addr.setWidth 32 }
  | 2 => { m with data := v }
  | _ => { m with masked := bit v 0 }

/-- A write of BAR4, a DW or a QW (R348, R349). The pending bits take no write. -/
def Dev.writeMsix (d : Dev) (p off : Nat) (v : Word) (hi : Option Word) : Dev :=
  if 1024 ≤ off || off % (if hi.isSome then 8 else 4) ≠ 0 then d
  else
    let w := off % 16 / 4
    d.putMsix p (off / 16) fun m => match hi with | some u => (m.write w v).write (w + 1) u | none => m.write w v

/-- Write the power management control and status register: PowerState D0 or D3hot, PME_En, and PME_Status, which a 1 clears.
With No_Soft_Reset nothing else changes; at the return to D0 the port goes on (R343). -/
def Dev.writePowerControl (d : Dev) (p : Nat) (v : BitVec 16) : Dev :=
  let state := if v.getLsbD 0 = v.getLsbD 1 then 0x0003 else 0
  let d1 := d.modConf p fun c => { c with pmcsr := merge (0x0100 ||| state) c.pmcsr v &&& ~~~(v &&& 0x8000) }
  if (d.hp p).conf.d3 then d1.hostAgain p else d1

/-- Write a register that holds a word: its RW bits, and the bits that a 1 clears. A function that may make requests again goes on. -/
def Dev.writeHeld (d : Dev) (p : Nat) (r : CfgReg) (v : Word) : Dev :=
  match cfgHeld r with
  | none => d
  | some (_, _, rw, clear) =>
    let d1 := d.modConf p fun c => c.modWord r fun w => merge rw w v &&& ~~~(v &&& clear)
    if (d.hp p).conf.asks then d1 else d1.hostAgain p

/-- A write of the configuration space (R343, R347, R376, R526). PRESUMED: the layout is that of the standard. -/
def Dev.writeConfig (d : Dev) (p : Nat) (r : CfgReg) (v : Word) : Dev :=
  match r with
  | .deviceControl => d.modConf p fun c => { c with devCtl := v.setWidth 16 &&& 0x70F0 }
  | .deviceControl2 => d.modConf p fun c => { c with devCtl2 := v.setWidth 16 &&& 0x141F }
  | .linkControl => d.modConf p fun c => { c with linkCtl := v.setWidth 16 &&& 0x0002 }
  | .l1Substates => d.modConf p fun c => { c with l1Sub := v &&& 0x0000000F }
  | .powerControl => d.writePowerControl p (v.setWidth 16)
  | .msixControl => d.setMsix p fun c => { c with msixOn := bit v 15, fmask := bit v 14 }
  | .classCode | .serialLow | .serialHigh => d
  | r => d.writeHeld p r v

/-- One DW of BAR4: the table, the pending bits at 0x1000, and 0 elsewhere (R348). -/
def HostPort.msixWord (h : HostPort) (off : Nat) : Word :=
  if off < 1024 then
    let m := h.table.get {} (off / 16)
    match off % 16 / 4 with
    | 0 => m.addr.setWidth 32
    | 1 => (m.addr >>> 32).setWidth 32
    | 2 => m.data
    | _ => BitVec.ofNat 32 (b2n m.masked)
  else if off = 0x1000 ∨ off = 0x1004 then
    pack ((List.range 32).map fun i => (b2n (h.pendBits.get false (8 * (off - 0x1000) + i)), i, 1))
  else 0

/-! ### The HOST block (R378–R388) -/

/-- HOST_SQ_STATE (R386). -/
def Sq.word (s : Sq) : Word :=
  let st := match s.st with | .disabled => 0 | .running => 1 | .stopped => 2 | .error => 3 | .draining => 4
  pack [(s.head, 0, 16), (st, 16, 3), (s.held.length, 24, 6)]

/-- HOST_CQ_STATE and HOST_EQ_STATE (R388). -/
def Cq.word (c : Cq) : Word := pack [(c.tail, 0, 16), (b2n c.phase, 16, 1), (b2n c.enabled, 17, 1), (c.reserved, 18, 6)]

/-- HOST_PART (R383). -/
def Dev.hostPart (d : Dev) (p : Nat) : Word :=
  let t := d.part p
  pack [(countBits t.pans, 0, 7), (countBits t.banks, 8, 8), (countBits t.links, 16, 7), (countBits t.fports, 23, 5)]

/-- A read of the HOST block and what it leaves: HOST_DROP_COUNT, HOST_EQ_LOST and HOST_LOST_CPL clear (R378). -/
def Dev.readHost (d : Dev) (p o : Nat) : Word × Dev :=
  let h := d.hp p
  let i := o % 0x40 / 4
  let ro (w : Word) : Word × Dev := (w, d)
  if o = 0x00 then ro h.ctrl
  else if o = 0x04 then
    ro (pack [(b2n h.linkUp, 0, 1), (h.speed.toNat, 1, 3), (h.width.toNat, 4, 4), (b2n h.reversed, 8, 1), (d.executing p, 16, 6)
      , (b2n h.orphans, 22, 1), (h.polarity.toNat, 24, 8)])
  else if o = 0x08 then ro (h.err.setWidth 32)
  else if o = 0x0C then ro h.errDesc
  else if o = 0x10 then ro (h.abortAddr.setWidth 32)
  else if o = 0x14 then ro ((h.abortAddr >>> 32).setWidth 32)
  else if o = 0x18 then (h.dropBad ++ h.dropFiltered, d.modHp p fun h => { h with dropBad := 0, dropFiltered := 0 })
  else if o = 0x1C then (h.eqDisabled ++ h.eqFull, d.modHp p fun h => { h with eqDisabled := 0, eqFull := 0 })
  else if o = 0x20 then ro (d.hostPart p)
  else if o = 0x24 then (h.lostCpl, d.modHp p fun h => { h with lostCpl := 0 })
  else if wordIn o 0x40 0x5C then ro (h.pfLo.get 0 (i % 8))
  else if wordIn o 0x60 0x7C then ro (h.pfHi.get 0 (i % 8))
  else if wordIn o 0x100 0x13C then ro (h.sq i).baseLo
  else if wordIn o 0x140 0x17C then ro (h.sq i).baseHi
  else if wordIn o 0x180 0x1BC then ro (h.sq i).cfg
  else if wordIn o 0x1C0 0x1FC then ro (h.sq i).word
  else if wordIn o 0x200 0x20C then ro (h.cq (i % 4)).baseLo
  else if wordIn o 0x210 0x21C then ro (h.cq (i % 4)).baseHi
  else if wordIn o 0x220 0x22C then ro (h.cq (i % 4)).cfg
  else if wordIn o 0x230 0x23C then ro (h.cq (i % 4)).word
  else if o = 0x240 then ro h.eq.baseLo
  else if o = 0x244 then ro h.eq.baseHi
  else if o = 0x248 then ro h.eq.cfg
  else if o = 0x24C then ro h.eq.word
  else ro 0

/-- A write of the HOST block (R378). -/
def Dev.writeHost (d : Dev) (p o : Nat) (v : Word) : Dev :=
  let i := o % 0x40 / 4
  if o = 0x00 then d.writeHostCtrl p v
  else if o = 0x08 then d.modHp p fun h => { h with err := w1c h.err (v.setWidth 6) }
  else if wordIn o 0x40 0x5C then d.modHp p fun h => { h with pfLo := h.pfLo.set 0 (i % 8) (v &&& 0xFFFFF07F) }
  else if wordIn o 0x60 0x7C then d.modHp p fun h => { h with pfHi := h.pfHi.set 0 (i % 8) v }
  else if wordIn o 0x100 0x13C then d.writeBase p i false v
  else if wordIn o 0x140 0x17C then d.writeBase p i true v
  else if wordIn o 0x180 0x1BC then d.writeRingCfg p i v
  else if wordIn o 0x200 0x20C then d.writeBase p (16 + i % 4) false v
  else if wordIn o 0x210 0x21C then d.writeBase p (16 + i % 4) true v
  else if wordIn o 0x220 0x22C then d.writeRingCfg p (16 + i % 4) v
  else if o = 0x240 then d.writeBase p 20 false v
  else if o = 0x244 then d.writeBase p 20 true v
  else if o = 0x248 then d.writeRingCfg p 20 v
  else d

/-- Address of a register of a HOST block. -/
def hostOff (p o : Nat) : Nat := 0x20000 + 0x1000 * p + o

/-- HOST_DROP_COUNT_READ (R378). -/
def opHostDropCountRead (path : Path) (p : Nat) (d : Dev) : Dev :=
  d.readThrough path (.host p) 0x18 (hostOff p 0x18) fun d => d.readHost p 0x18

/-- HOST_EQ_LOST_READ (R378). -/
def opHostEqLostRead (path : Path) (p : Nat) (d : Dev) : Dev :=
  d.readThrough path (.host p) 0x1C (hostOff p 0x1C) fun d => d.readHost p 0x1C

/-- HOST_LOST_CPL_READ (R378). -/
def opHostLostCplRead (path : Path) (p : Nat) (d : Dev) : Dev :=
  d.readThrough path (.host p) 0x24 (hostOff p 0x24) fun d => d.readHost p 0x24

/-! ### The commands -/

/-- HOST_LINK_UP (R350). -/
def execHostLinkUp (port : Nat) (speed : BitVec 3) (width : BitVec 4) (reversed : Bool) (polarity : Byte) (s : State) : Res :=
  runCmd (.hostLinkUp port speed width reversed polarity) (opHostLinkUp port speed width reversed polarity) s

/-- HOST_LINK_DOWN (R351). -/
def execHostLinkDown (port : Nat) (s : State) : Res :=
  runCmd (.hostLinkDown port) (opHostLinkDown port) s

/-- PERST_N (R351). -/
def execPerstN (pin : PerstLevel) (s : State) : Res :=
  runCmd (.perstN pin) (opPerstN pin.port pin.level) s

/-- HOT_RESET (R351). -/
def execHotReset (port : Nat) (s : State) : Res :=
  runCmd (.hotReset port) (opHotReset port) s

/-- FUNCTION_LEVEL_RESET (R351). -/
def execFunctionLevelReset (port : Nat) (s : State) : Res :=
  runCmd (.functionLevelReset port) (opFunctionLevelReset port) s

/-- HOST_PORT_PARITY_FAULT (R350). -/
def execHostPortParityFault (port : Nat) (s : State) : Res :=
  runCmd (.hostPortParityFault port) (opHostPortParityFault port) s

/-- ORPHANS_CLEARED (R351). -/
def execOrphansCleared (port : Nat) (s : State) : Res :=
  runCmd (.orphansCleared port) (opOrphansCleared port) s

/-- SQ_DOORBELL (R359). -/
def execSqDoorbell (port sq : Nat) (value : Word) (s : State) : Res :=
  runCmd (.sqDoorbell port sq value) (opSqDoorbell port sq value) s

/-- CANCEL_DOORBELL (R363). -/
def execCancelDoorbell (port sq : Nat) (value : Word) (s : State) : Res :=
  runCmd (.cancelDoorbell port sq value) (opCancelDoorbell port sq value) s

/-- CQ_DOORBELL (R373). -/
def execCqDoorbell (port cq : Nat) (value : Word) (s : State) : Res :=
  runCmd (.cqDoorbell port cq value) (opCqDoorbell port cq value) s

/-- EQ_DOORBELL (R374). -/
def execEqDoorbell (port : Nat) (value : Word) (s : State) : Res :=
  runCmd (.eqDoorbell port value) (opEqDoorbell port value) s

/-- RING_ENABLE (R356). -/
def execRingEnable (port ring : Nat) (value : Word) (s : State) : Res :=
  runCmd (.ringEnable port ring value) (opRingEnable port ring value) s

/-- RING_DISABLE (R356). -/
def execRingDisable (port ring : Nat) (value : Word) (s : State) : Res :=
  runCmd (.ringDisable port ring value) (opRingDisable port ring value) s

/-- HOST_CTRL_ENABLE (R356). -/
def execHostCtrlEnable (port : Nat) (value : Word) (s : State) : Res :=
  runCmd (.hostCtrlEnable port value) (opHostCtrlEnable port value) s

/-- DESCRIPTOR_FETCH (R360). -/
def execDescriptorFetch (port sq : Nat) (s : State) : Res :=
  runCmd (.descriptorFetch port sq) (opDescriptorFetch port sq) s

/-- PREREAD (R365). -/
def execPreread (port sq : Nat) (s : State) : Res :=
  runCmd (.preread port sq) (opPreread port sq) s

/-- HOST_READ_COMPLETION (R644). -/
def execHostReadCompletion (port : Nat) (read : Nat) (result : HostRead) (s : State) : Res :=
  runCmd (.hostReadCompletion port read result) (opHostReadCompletion port read result) s

/-- MSIX_HOLDOFF_EXPIRY (R376). -/
def execMsixHoldoffExpiry (port ring : Nat) (s : State) : Res :=
  runCmd (.msixHoldoffExpiry port ring) (opMsixHoldoffExpiry port ring) s

/-- MSIX_UNMASK (R376). -/
def execMsixUnmask (port vector : Nat) (s : State) : Res :=
  runCmd (.msixUnmask port vector) (opMsixUnmask port vector) s

/-- HOST_DROP_COUNT_READ (R378). -/
def execHostDropCountRead (path : Path) (port : Nat) (s : State) : Res :=
  runCmd (.hostDropCountRead path port) (opHostDropCountRead path port) s

/-- HOST_EQ_LOST_READ (R378). -/
def execHostEqLostRead (path : Path) (port : Nat) (s : State) : Res :=
  runCmd (.hostEqLostRead path port) (opHostEqLostRead path port) s

/-- HOST_LOST_CPL_READ (R378). -/
def execHostLostCplRead (path : Path) (port : Nat) (s : State) : Res :=
  runCmd (.hostLostCplRead path port) (opHostLostCplRead path port) s

end Sys2Proof.Machine
end

