-- ==== Sys2Proof/Machine/Stream.lean ====
section
/-! DEFINITION. The 802.3 stream of a link port: receive and transmit lines between the line and the bound module
(R430–R434). -/

namespace Sys2Proof.Machine

/-! ### Lines (R431) -/

/-- Control characters of the coded words: start, terminate, error and idle, PRESUMED from IEEE 802.3 (assumption 51). -/
def chStart : Byte := 0xFB
/-- Terminate. -/
def chTerm : Byte := 0xFD
/-- Error. -/
def chError : Byte := 0xFE
/-- Idle. -/
def chIdle : Byte := 0x07

/-- A line of 64 bytes from its words, control flags, byte 54, byte 55 and TIMESTAMP (R431). -/
def streamLine (words : List DWord) (ctrl : List Byte) (b54 b55 : Byte) (stamp : DWord) : Line :=
  lineOf (((List.range 6).flatMap fun i => leBytes 8 (words.getD i 0).toNat) ++ ((List.range 6).map fun i => ctrl.getD i 0) ++
    [b54, b55] ++ leBytes 8 stamp.toNat)

/-- A buffered receive line as the module gets it (R431). -/
def RxLine.line (x : RxLine) : Line :=
  streamLine x.words x.ctrl
    (BitVec.ofNat 8 (x.words.length + 8 * ((x.startWord.getD 0).toNat) + 64 * b2n x.startWord.isSome + 128 * b2n x.lost))
    (BitVec.ofNat 8 (b2n x.report)) (if x.startWord.isSome then x.stamp else 0)

/-- Words valid in a transmit line. -/
def lineCount (bs : List Byte) : Nat := min 6 (leAt bs 54 1 % 8)

/-- The characters of a transmit line in line order: whether each is a control character. -/
def lineChars (l : Line) : List (Bool × Byte) :=
  let bs := lineBytes l
  (List.range (8 * lineCount bs)).map fun i => ((bs.getD (48 + i / 8) 0).getLsbD (i % 8), bs.getD i 0)

/-- A frame is open after these characters, `mid` telling whether one was open before. -/
def frameOpen (mid : Bool) (cs : List (Bool × Byte)) : Bool :=
  foldS (fun m c => if c == (true, chStart) then true else if c == (true, chTerm) then false else m) mid cs

/-- A transmit line whose characters are replaced. -/
def withChars (l : Line) (cs : List (Bool × Byte)) : Line :=
  let bs := lineBytes l
  lineOf ((List.range 64).map fun i => if i < 8 * lineCount bs then (cs.getD i (false, 0)).2 else bs.getD i 0)

/-- A transmit line without the words up to and including word `k` (R432). -/
def cutWords (l : Line) (k : Nat) : Line :=
  let bs := lineBytes l
  let n := lineCount bs - (k + 1)
  streamLine ((List.range n).map fun i => BitVec.ofNat 64 (leAt bs (8 * (k + 1 + i)) 8)) ((List.range n).map fun i => bs.getD (49 + k + i) 0)
    (BitVec.ofNat 8 (leAt bs 54 1 / 8 * 8 + n)) (BitVec.ofNat 8 (leAt bs 55 1)) (BitVec.ofNat 64 (leAt bs 56 8))

/-- The stamp of the fine counter in the layout of TIMESTAMP (R431). -/
def TimeU.stamp (t : TimeU) : DWord := pack64 [(t.ns.toNat, 0, 30), (t.sec.toNat, 30, 16), (t.frac.toNat / 2 ^ 24, 46, 16)]

/-- A stamp in units of 2^−16 ns, seconds modulo 2^16. -/
def stampUnits (s : DWord) : Int := (((nfld s.toNat 30 16) * 10 ^ 9 + nfld s.toNat 0 30) * 2 ^ 16 + nfld s.toNat 46 16 : Nat)

/-- The stamp of the fine counter `age` units of 2^−16 ns ago: when the word that starts a frame crossed the PCS–PMA boundary
(R433). -/
def TimeU.stampAgo (t : TimeU) (age : Nat) : DWord :=
  if age = 0 then t.stamp
  else
    let u := ((stampUnits t.stamp - (age : Int)) % (2 ^ 32 * 10 ^ 9 : Nat)).toNat
    pack64 [(u / 2 ^ 16 % 10 ^ 9, 0, 30), (u / (2 ^ 16 * 10 ^ 9), 30, 16), (u % 2 ^ 16, 46, 16)]

/-- The first of received words that holds a start character (R433). -/
def startWordOf (words : List DWord) (ctrl : List Byte) : Option (BitVec 3) :=
  ((List.range words.length).find? fun i => (List.range 8).any fun j =>
    (ctrl.getD i 0).getLsbD j && nfld (words.getD i 0).toNat (8 * j) 8 == chStart.toNat).map (BitVec.ofNat 3)

/-- One-step update of the correction field of the frame whose start character stands at `s` of these characters (R434): the
characters, and whether the field lies wholly before the FCS. -/
def oneStep (cs : List (Bool × Byte)) (s off : Nat) (egress stamp : DWord) : List (Bool × Byte) × Bool :=
  let t := s + (cs.drop s).findIdx fun c => c == (true, chTerm)
  let f := s + 8 + off
  if t < cs.length && decide (f + 8 ≤ t - 4) then
    let old := ofBe ((List.range 8).map fun i => (cs.getD (f + i) (false, 0)).2)
    let diff := (stampUnits egress - stampUnits stamp) % (10 ^ 9 * 2 ^ 32)
    let new := beBytes 8 ((old + diff.toNat) % 2 ^ 64)
    let c1 := (List.range cs.length).map fun i => if f ≤ i ∧ i < f + 8 then (false, new.getD (i - f) 0) else cs.getD i (false, 0)
    let sum := leBytes 4 (fcs ((c1.drop (s + 8)).take (t - 4 - (s + 8)) |>.map Prod.snd)).toNat
    ((List.range cs.length).map fun i => if t - 4 ≤ i ∧ i < t then (false, sum.getD (i + 4 - t) 0) else c1.getD i (false, 0), true)
  else (cs, false)

/-! ### Receive (R430, R432, R433) -/

/-- MODE in force is an 802.3 mode (R424). -/
def LinkPort.stream (l : LinkPort) : Bool := decide (1 ≤ fld l.inForce 0 3) && decide (fld l.inForce 0 3 ≤ 4)

/-- A port moves lines with its module: it is RUNNING in an 802.3 mode, or loops at the core (R429, R456). -/
def Dev.streams (d : Dev) (n : Nat) : Bool :=
  (d.link n).stream && (d.ust (uLink n) == .running || (d.ust (uLink n) == .quiesced && (d.link n).loop == some 0))

/-- Set flags of LINK_ERR. -/
def Dev.linkErr (d : Dev) (n bit : Nat) : Dev := d.modLink n fun l => { l with err := l.err ||| BitVec.ofNat 14 (2 ^ bit) }

/-- Words that the receive buffer holds, and its size of 32 KiB (R432). -/
def LinkPort.rxWords (l : LinkPort) : Nat := (l.rxBuf.map fun x => x.words.length).sum

/-- Words that are discarded count in LINK_DROP.RX. -/
def Dev.dropWords (d : Dev) (n k : Nat) : Dev := d.modLink n fun l => { l with dropRx := satAdd l.dropRx k }

/-- A line request of an 802.3 port, at OFFSET 0 of its module's endpoint (R430). -/
def streamReq (n : Nat) (by_ : Requester) (write : Bool) (data : List Line) : SlIn :=
  { ingress := 64 + n / 4, by_ := by_, addr := 0, write := write, lines := 1, be := BitVec.allOnes 64, data := data, poison := false
    flip := none, stage := .lookup, tier := 5 }

/-- Issue the WRITE of the oldest received line, one at a time. -/
def Dev.pushRxLine (d : Dev) (n : Nat) : Dev :=
  let l := d.link n
  match l.bound, l.rxBuf with
  | some (_, p, loc), x :: _ =>
    let q := streamReq n (.rx n) true [x.line]
    if l.rxBusy || !d.takes q then d
    else (d.modLink n fun l => { l with rxBusy := true }).enterDirect q p loc
  | _, _ => d

/-- Words arrive for the module: without one they are discarded; beyond 32 KiB they are lost (R430, R432). -/
def Dev.rxTake (d : Dev) (n : Nat) (x : RxLine) : Dev :=
  let l := d.link n
  if l.bound.isNone then (d.linkErr n 10).dropWords n x.words.length
  else
    let room := 4096 - l.rxWords
    let lost := x.words.length - room
    let y := { x with
      words := x.words.take room, ctrl := x.ctrl.take room, lost := l.rxLost
      startWord := if !bit l.ptp 0 then none else if x.report then x.startWord else startWordOf (x.words.take room) (x.ctrl.take room) }
    if x.words.length ≠ 0 && room = 0 then
      (((d.linkErr n 8).dropWords n lost).modLink n fun l => { l with rxLost := true }).pushRxLine n
    else
      let d1 := d.modLink n fun l => { l with rxBuf := l.rxBuf ++ [y], rxLost := decide (0 < lost) }
      (if 0 < lost then (d1.linkErr n 8).dropWords n lost else d1).pushRxLine n

/-- The FEC decoder of a port whose FEC has lock counts its codewords (R459). -/
def Dev.countFec (d : Dev) (n : Nat) (f : FecCount) : Dev :=
  if (d.link n).fecLock then
    d.modLink n fun l => { l with fecCe := satAdd l.fecCe f.corrected.toNat, fecUe := satAdd l.fecUe f.uncorrectable.toNat }
  else d

/-! ### The checker of a looped port (R457) -/

/-- The generator and checker run at this depth. -/
def LinkPort.generates (l : LinkPort) (depth : Nat) : Bool := (1 ≤ depth && decide (depth ≤ 3)) || (depth == 0 && l.brera?)

/-- The next 64 bits of PRBS31 (x^31 + x^28 + 1) after the 31 given, the newest lowest; the first bit is bit 0. -/
def prbsNext (h : BitVec 31) : BitVec 31 × DWord :=
  foldS (fun (a : BitVec 31 × DWord) i =>
    let b := a.1.getLsbD 30 != a.1.getLsbD 27
    ((a.1 <<< 1) ||| BitVec.ofNat 31 (b2n b), a.2 ||| BitVec.ofNat 64 (b2n b * 2 ^ i))) (h, 0) (List.range 64)

/-- The last 31 bits of a block. -/
def lastBits (w : DWord) : BitVec 31 :=
  foldS (fun (a : BitVec 31) i => (a <<< 1) ||| BitVec.ofNat 31 (b2n (w.getLsbD i))) 0 (List.range 64)

/-- The checker takes one block: before lock it follows the received bits, and 64 error-free blocks lock it; then it counts the
bits that differ. -/
def LinkPort.check (l : LinkPort) (w : DWord) : LinkPort :=
  let (h, g) := prbsNext l.loopHist
  if l.loopLocked then { l with loopHist := h, loopErrs := satAdd l.loopErrs (countBits (w ^^^ g)) }
  else
    let good := if w == g && l.loopHist != 0 then l.loopGood + 1 else 0
    { l with loopHist := lastBits w, loopGood := good, loopLocked := decide (64 ≤ good) }

/-- The generator of a looped port sends a block, which comes back to its checker with the bits of `bad` wrong (R457); what it sent. -/
def LinkPort.loopBlock (l : LinkPort) (bad : DWord) : LinkPort × DWord :=
  let (g, w) := prbsNext l.loopGen
  ({ l with loopGen := g }.check (w ^^^ bad), w)

/-- Blocks of a looped port's generator reach its checker, with the bits wrong that `bad` names for each; at D3 the transmit pins carry
them as they were sent (R456, R457; assumption 55). -/
def Dev.loopBlocks (d : Dev) (n depth : Nat) (bad : List DWord) : Dev :=
  let (l, sent) := foldS (fun (a : LinkPort × List DWord) b => let (l, w) := a.1.loopBlock b; (l, a.2 ++ [w])) (d.link n, []) bad
  let d1 := d.modLink n fun _ => l
  if depth = 3 then d1.emit (.txLine n (streamLine sent (sent.map fun _ => 0) (BitVec.ofNat 8 sent.length) 0 0)) else d1

/-- RX_LINE (R430). At a looped port whose generator runs, each word stands for a block of that generator, and names the
bits of it that the loop gets wrong (R456, R457; assumption 55). -/
def opRxLine (n : Nat) (words : List DWord) (ctrl : List Byte) (fec : FecCount) (age : Word) (d : Dev) : Dev :=
  let l := d.link n
  if d.farLoop n then d.emit (.txLine n (streamLine words ctrl (BitVec.ofNat 8 words.length) 0 0))
  else match l.loop.filter l.generates with
    | some k => if d.ust (uLink n) == .quiesced then d.loopBlocks n k words else d
    | none =>
      if l.stream && d.ust (uLink n) == .running then
        (d.countFec n fec).rxTake n { words := words, ctrl := ctrl, startWord := none, stamp := d.time.stampAgo age.toNat, lost := false }
      else d

/-- The response of a receive line (R430). BUSY: it is issued again ahead of later lines. -/
def Dev.rxAnswer (d : Dev) (n st : Nat) : Dev :=
  let d1 := d.modLink n fun l => { l with rxBusy := false }
  if st = stBusy then d1.pushRxLine n
  else
    let k := ((d.link n).rxBuf.head?.map fun x => x.words.length).getD 0
    let d2 := d1.modLink n fun l => { l with rxBuf := l.rxBuf.tail }
    (if st = stDone then d2 else (d2.linkErr n 10).dropWords n k).pushRxLine n

/-! ### Transmit (R430, R432–R434) -/

/-- A line goes out on the line, or comes back in the core loop (R456). -/
def Dev.sendLine (d : Dev) (n : Nat) (l : Line) : Dev :=
  if d.ust (uLink n) == .quiesced then
    let bs := lineBytes l
    let k := lineCount bs
    d.rxTake n
      { words := (List.range k).map fun i => BitVec.ofNat 64 (leAt bs (8 * i) 8), ctrl := (List.range k).map fun i => bs.getD (48 + i) 0
        startWord := none, stamp := d.time.stamp, lost := false }
  else d.emit (.txLine n l)

/-- The transmit report of a line that asks for one and starts a frame (R433). -/
def Dev.txReport (d : Dev) (n : Nat) (l : Line) : Dev :=
  if (leAt (lineBytes l) 54 1).testBit 6 && (lineChars l).contains (true, chStart) then
    d.rxTake n { words := [], ctrl := [], startWord := some 0, stamp := d.time.stamp, lost := false, report := true }
  else d

/-- The correction fields of the frames that start in lines that ask for it (R434): the characters, and whether every such field
lay wholly before its FCS. -/
def oneSteps (egress : DWord) (ls : List (Line × Bool)) : List (Bool × Byte) × Bool :=
  let step (a : List (Bool × Byte) × Bool × Nat) (x : Line × Bool) : List (Bool × Byte) × Bool × Nat :=
    let cs := lineChars x.1
    let bs := lineBytes x.1
    match (if x.2 then cs.findIdx? fun c => c == (true, chStart) else none) with
    | some i =>
      let (c, ok) := oneStep a.1 (a.2.2 + i) (leAt bs 55 1) egress (BitVec.ofNat 64 (leAt bs 56 8))
      (c, a.2.1 && ok, a.2.2 + cs.length)
    | none => (a.1, a.2.1, a.2.2 + cs.length)
  let r := foldS step (ls.flatMap fun x => lineChars x.1, true, 0) ls
  (r.1, r.2.1)

/-- Send lines, the correction fields of their frames updated. `whole`: the frames in them have ended. -/
def Dev.sendFrame (d : Dev) (n : Nat) (ls : List (Line × Bool)) (whole : Bool) : Dev :=
  let (c1, ok) := oneSteps d.time.stamp ls
  let d1 := if ok || !whole then d else d.linkErr n 12
  let (d2, _) := foldS (fun (a : Dev × List (Bool × Byte)) (x : Line × Bool) =>
    let k := (lineChars x.1).length
    ((a.1.sendLine n (withChars x.1 (a.2.take k))).txReport n x.1, a.2.drop k)) (d1, c1) ls
  d2

/-- A transmit line that the module has supplied (R432, R434). -/
def Dev.txTake (d : Dev) (n : Nat) (line : Line) : Dev :=
  let l := d.link n
  let cs := lineChars line
  let cut := (cs.findIdx? fun c => c == (true, chTerm)).map fun i => i / 8
  let rest := if l.txDiscard then cutWords line (cut.getD 5) else line
  let d0 := if l.txDiscard && cut.isSome then d.modLink n fun l => { l with txDiscard := false } else d
  if lineCount (lineBytes rest) = 0 then d0
  else
    let asks := bit l.ptp 1 && (leAt (lineBytes rest) 54 1).testBit 7 && (lineChars rest).contains (true, chStart)
    let all := l.txLines ++ [(rest, asks)]
    let mid := frameOpen l.txMid (lineChars rest)
    let d1 := d0.modLink n fun l => { l with txMid := mid }
    if (!l.txLines.isEmpty || asks) && mid then d1.modLink n fun l => { l with txLines := all }
    else (d1.modLink n fun l => { l with txLines := [] }).sendFrame n all true

/-- TX_LINE_PULL: a one-line READ from the bound module, up to 16 outstanding (R430). -/
def opTxLinePull (n : Nat) (d : Dev) : Dev :=
  let l := d.link n
  match l.bound with
  | none => d
  | some (_, p, loc) =>
    let q := streamReq n (.tx n) false []
    if !d.streams n || 16 ≤ l.txOut || !d.takes q then d
    else (d.modLink n fun l => { l with txOut := l.txOut + 1 }).enterDirect q p loc

/-- The response of a transmit line (R430). BUSY: the line is asked for again; the READs of a port are all alike, and the module
answers each with its next line. Another status counts as one word: the line brought none (assumption 51). -/
def Dev.txAnswer (d : Dev) (n st : Nat) (line : Line) : Dev :=
  let d1 := d.modLink n fun l => { l with txOut := l.txOut - 1 }
  if st = stBusy then opTxLinePull n d1
  else if st = stDone then (if d1.streams n then d1.txTake n line else d1)
  else (d1.linkErr n 10).dropWords n 1

/-- TX_UNDERRUN: a frame has started and no line is there: an error character, then idle (R432). -/
def opTxUnderrun (n : Nat) (d : Dev) : Dev :=
  let l := d.link n
  if !d.streams n || !l.txMid then d
  else
    let d1 := (d.modLink n fun l => { l with txLines := [], txMid := false, txDiscard := true }).sendFrame n l.txLines false
    (d1.sendLine n (streamLine [BitVec.ofNat 64 (ofLe (chError :: List.replicate 7 chIdle))] [0xFF] 1 0 0)).linkErr n 9

/-! ### The commands -/

/-- RX_LINE (R430). -/
def execRxLine (port : Nat) (words : List DWord) (ctrl : List Byte) (fec : FecCount) (age : Word) (s : State) : Res :=
  runCmd (.rxLine port words ctrl fec age) (opRxLine port words ctrl fec age) s

/-- TX_LINE_PULL (R430). -/
def execTxLinePull (port : Nat) (s : State) : Res :=
  runCmd (.txLinePull port) (opTxLinePull port) s

/-- TX_UNDERRUN (R432). -/
def execTxUnderrun (port : Nat) (s : State) : Res :=
  runCmd (.txUnderrun port) (opTxUnderrun port) s

end Sys2Proof.Machine
end

