-- ==== Sys2Proof/Machine/Links.lean ====
section
/-! DEFINITION. The link ports (chapter "Link Ports and the Brera Link"): training and loss, packets with their
acknowledgement and credits, the outstanding table, relay and system start, loopback, the LINK block; and what reaches a
requester: requests that enter at an ingress and responses that leave it. -/

namespace Sys2Proof.Machine

/-! ### Rates (R424, R425) -/

/-- The line rate of a LINK_CTRL: 1 1.25, 2 10.3125, 3 25.78125, 4 28.125 Gb/s; 0 for OFF. -/
def lineRate (c : Word) : Nat :=
  match fld c 0 3 with
  | 1 => 1
  | 2 => 1
  | 3 => 2
  | 4 => 3
  | 5 => 2 + rateOf c
  | _ => 0

/-- A port of the quad is RUNNING or QUIESCED. -/
def Dev.quadBusy (d : Dev) (q : Nat) : Bool :=
  ((List.range 4).map (4 * q + ·)).any fun n => d.ust (uLink n) == .running || d.ust (uLink n) == .quiesced

/-- The line rate of a quad: its PLL keeps the rate while a port is RUNNING or QUIESCED; else the lowest port with ENABLE 1 and a
MODE sets it (R425). -/
def Dev.quadRate (d : Dev) (q : Nat) : Nat :=
  if d.quadBusy q then d.clk.qrate.get 0 q
  else match ((List.range 4).map (4 * q + ·)).find? fun n => bit (d.link n).ctrl 12 && lineRate (d.link n).ctrl != 0 with
    | some n => lineRate (d.link n).ctrl
    | none => 0

/-- The quad PLL takes the rate that a port has in force, and keeps one that it must keep. -/
def Dev.setQuadRate (d : Dev) (n : Nat) : Dev :=
  let r := if d.quadRate (n / 4) = 0 then lineRate (d.link n).inForce else d.quadRate (n / 4)
  { d with clk := { d.clk with qrate := d.clk.qrate.set 0 (n / 4) r } }

/-- The rate in force of a port is its quad's (R425). -/
def Dev.fitsQuad (d : Dev) (n : Nat) : Bool := lineRate (d.link n).inForce == d.quadRate (n / 4)

/-! ### Relay (R452, R453) -/

/-- RELAY_EN counts for the port: it leads a BRERA link (R436, R452). -/
def Dev.relayOn (d : Dev) (n : Nat) : Bool :=
  let c := d.linkCfg n
  fld c 0 3 == 5 && bit c 11 && d.leadOf n == n

/-- STATE last received on a port; 0 while it is not RUNNING. -/
def Dev.relayState (d : Dev) (n : Nat) : Bool := d.ust (uLink n) == .running && (d.link n).relayIn

/-- LOCAL (R452). -/
def Dev.relayLocal (d : Dev) : Bool := d.cfg.ioEnabled && d.cfg.wireHigh

/-- The ports with RELAY_EN. -/
def Dev.relayPorts (d : Dev) : List Nat := (List.range 96).filter d.relayOn

/-- SYS (R452). -/
def Dev.sys (d : Dev) : Bool := d.relayLocal && d.relayPorts.all d.relayState

/-! ### Loss of a link (R443, R444, R448, R449) -/

/-- The tables of a home port that is lost: its replay buffer and received cells go, its outstanding requests and those
that wait for its grant are answered LINK_DOWN. The count is how many. -/
def Dev.dropLink (d : Dev) (h : Nat) : Dev × Nat :=
  let used := (List.range 512).filterMap fun i => match (d.link h).xids.get .free i with | .used r => some r | _ => none
  let waiting := (d.live.filter fun e => e.2.stage == .wantSlot (64 + h)).map fun e => e.1
  let d1 := d.modLink h fun l =>
    { l with
      xids := l.xids.map fun e => (e.1, match e.2 with | .used _ => XidSt.quarantine | x => x)
      unacked := [], sendQ := [], rxReq := [], retRsp := 0, retReq := 0, credRsp := 0, credReq := 0, nakSent := false, rxAny := false, ackDue := false }
  let d2 := d1.modDest (64 + h) fun _ => {}
  let d3 := { d2 with sl := { d2.sl with ingress := d2.sl.ingress.map fun e => (e.1, { e.2 with slots := e.2.slots.set 0 (64 + h) 0 }) } }
  (foldS (fun (d : Dev) r => d.answer r stLinkDown) d3 (used ++ waiting), (used ++ waiting).length)

/-- What a port forgets when its link is down. -/
def LinkPort.down (l : LinkPort) : LinkPort :=
  { l with training := false, ownSeen := false, helloRun := 0, lastHello := none, lock := false, aligned := false, anDone := false
           fecLock := false, hiBer := false, peerAsleep := false, tandemSingle := false, ready := false
           waking := false, gap := false, sleepAsked := false, sleepOk := false }

/-- The link that port `n` leads goes down: it and its member ports enter `into`. A tandem pair goes on over its other
link (R444). The second result counts the requests answered LINK_DOWN; the third is the lead that carries the pair on. -/
def Dev.downLink (d : Dev) (n : Nat) (into : UState) (c : Cause) : Dev × Nat × Option Nat :=
  let h := d.lhome n
  let other := ((d.runningLeads h).filter (· ≠ n)).head?
  let mem := (d.members n).filter fun m => d.ust (uLink m) == d.ust (uLink n)
  let d1 := foldS (fun (d : Dev) m => d.setUnit (uLink m) into c) d (if mem.contains n then mem else [n])
  let d2 := d1.modLink n LinkPort.down
  if !(d.link n).brera? then (d2, 0, none)
  else match other with
    | some o => (d2.modLink o fun l => { l with tandemSingle := true, gap := false }, 0, some o)
    | none =>
      let (d3, k) := d2.dropLink h
      (d3, k, none)

/-- TANDEM_SINGLE: the pair of port `n` goes on over the link that `o` leads (R444, R458). -/
def Dev.single (d : Dev) (n : Nat) (o : Option Nat) : Dev :=
  match o with
  | some m => d.event (uLink n) 0x03 0 (pack64 [(m, 0, 7)])
  | none => d

/-- A link is lost: RUNNING → IDLE with LINK_LOST, and TANDEM_SINGLE where the pair goes on (R443, R444, R458). -/
def Dev.loseLink (d : Dev) (n : Nat) (cause : Nat) : Dev :=
  let (d1, k, o) := d.downLink n .idle .device
  (d1.event (uLink n) 0x02 stLinkDown (pack64 [(cause, 0, 4), (k, 16, 16)])).single n o

/-- Causes of LINK_LOST (R458). -/
def LinkCause.code : LinkCause → Nat
  | .signalLost => 0 | .lockLost => 1 | .replayLimit => 2 | .helloChanged => 3 | .helloMissing => 4 | .creditError => 5 | .pcsLoss => 6

/-! ### Training (R425, R427, R429, R441, R442) -/

/-- The abilities that a port with AN_EN advertises: those of its auto-negotiation, and in Clause 73 only the technologies that
match its quad's rate (R428, R463). -/
def advertised (c an : Word) : Word :=
  match fld c 0 3 with
  | 1 => an &&& 0x007
  | 2 => an &&& 0x400
  | 3 => an &&& 0x04E
  | 4 => an &&& 0x0F6
  | _ => 0

/-- LINK_EQ as it acts: PRESET 11 to 15 act as P5 (R622). -/
def eqActs (v : Word) : Word := if 10 < fld v 0 4 then (v &&& 0x10) ||| 5 else v

/-- Signal detect on every lane of a link: 2^LANES of a BRERA lead, one of an 802.3 port (R461). -/
def allSignals (c : Word) : BitVec 4 := if fld c 0 3 = 5 then BitVec.ofNat 4 (2 ^ 2 ^ lanesOf c - 1) else 1

/-- LINK_TRAIN_START: ENABLE is 1 in IDLE; the fields of LINK_CTRL and LINK_EQ take effect (R427, R622). A rate that differs from the
quad's keeps the port from training (R425). -/
def opLinkTrainStart (n : Nat) (signal : BitVec 4) (d : Dev) : Dev :=
  let l := d.link n
  if d.ust (uLink n) != .idle || d.gated (uLink n) || l.training || !bit l.ctrl 12 || lineRate l.ctrl = 0 || d.leadOf n ≠ n ||
      d.mblk.jtagOver.isSome then d
  else if lineRate l.ctrl ≠ d.quadRate (n / 4) then d.linkErr n 0
  else
    let d1 := (d.modLink n fun l => { l.down with inForce := l.ctrl, eqInForce := eqActs l.eq, training := true, signal := signal, peer := none }).setQuadRate n
    let d2 := { d1 with clk := { d1.clk with qpll := d1.clk.qpll ||| BitVec.ofNat 24 (2 ^ (n / 4)) } }
    if bit l.ctrl 9 && fld l.ctrl 0 3 != 5 then d2.emit (.linkAn n (advertised l.ctrl l.an)) else d2

/-- ENABLE is sampled while the port is IDLE: a port that trains stops when it reads 0 (R427). -/
def Dev.sampleEnable (d : Dev) (n : Nat) : Dev :=
  if (d.link n).training && d.ust (uLink n) == .idle && !bit (d.link n).ctrl 12 then d.modLink n LinkPort.down else d

/-- A port that trains at a rate that is no longer its quad's stops (R425). -/
def Dev.rateLost (d : Dev) (n : Nat) : Dev := (d.linkErr n 0).modLink n LinkPort.down

/-- Data of LINK_UP (R458). -/
def LinkPort.upData (l : LinkPort) : DWord :=
  if l.brera? then
    let p := l.peer.map fun h => (h.device.toNat, h.port.toNat)
    pack64 [(5, 0, 3), (lanesOf l.inForce, 3, 2), (rateOf l.inForce, 5, 2), ((p.map Prod.fst).getD 0, 16, 14), ((p.map Prod.snd).getD 0, 32, 7)]
  else pack64 [(fld l.inForce 0 3, 0, 3)]

/-- FEC is on: Clause 74 in 10GBASE-R and 25GBASE-R, RS-FEC in 25GBASE-R; 3 is what Clause 73 resolves, none without
auto-negotiation (R428, R460, R463). -/
def fecOn (c own partner : Word) : Bool :=
  let mode := fld c 0 3
  let both := advertised c own &&& partner
  match fld c 7 2 with
  | 0 => false
  | 1 => mode == 3 || mode == 4
  | 2 => mode == 4
  | _ => bit c 9 && ((bit both 6 && (mode == 3 || mode == 4)) || (bit both 7 && mode == 4))

/-- PCS_LINK_UP: an 802.3 port has every condition of R429. -/
def opPcsLinkUp (n : Nat) (partner : Word) (d : Dev) : Dev :=
  let l := d.link n
  if !l.training || !l.stream || d.ust (uLink n) != .idle || d.mblk.jtagOver.isSome then d
  else if !d.fitsQuad n then d.rateLost n
  else
    let an := bit l.inForce 9
    let d1 := (d.setQuadRate n).modLink n fun l =>
      { l with
        training := false, signal := allSignals l.inForce, lock := true, hiBer := false, anDone := an, fecLock := fecOn l.inForce l.an partner
        anPartner := if an then partner &&& 0x7FF else l.anPartner }
    (d1.setUnit (uLink n) .running .device).event (uLink n) 0x01 0 (d1.link n).upData

/-- PCS_LINK_LOST: an 802.3 port loses a condition of R429. Cause 6 is hi_ber where the PCS has it, and a loss of synchronisation
in 1000BASE-X and SGMII (R429, R458). -/
def opPcsLinkLost (n : Nat) (cause : LinkCause) (d : Dev) : Dev :=
  if d.ust (uLink n) == .running && (d.link n).stream then
    let d1 := d.loseLink n (LinkCause.code cause)
    if cause == .pcsLoss && 3 ≤ fld (d.link n).inForce 0 3 then d1.modLink n fun l => { l with hiBer := true } else d1
  else d

/-- The HELLO a port sends (R437, R441). -/
def Dev.ownHello (d : Dev) (n : Nat) : Hello :=
  let l := d.link n
  { device := BitVec.ofNat 14 d.ownId, tandem := bit l.inForce 10, relay := bit l.inForce 11, port := BitVec.ofNat 7 n
    seen := l.ownSeen || d.ust (uLink n) == .running, lanes := BitVec.ofNat 2 (lanesOf l.inForce), rate := BitVec.ofNat 2 (rateOf l.inForce)
    version := 1, rspCells := 255, reqCells := 255 }

/-- HELLO_SEND: the HELLO timer of a Brera port expires (R441, R442). -/
def opHelloSend (n : Nat) (d : Dev) : Dev :=
  let l := d.link n
  if l.brera? && d.leadOf n == n && (l.training || d.ust (uLink n) == .running) then d.emit (.linkHello n (d.ownHello n)) else d

/-- The peer's pairing does not match the port's (R444). -/
def Dev.tandemWrong (d : Dev) (n : Nat) (h : Hello) : Bool :=
  let l := d.link n
  h.tandem != bit l.inForce 10 ||
    (d.pairOf n).any fun p =>
      let o := d.link p
      lanesOf o.inForce != lanesOf l.inForce || rateOf o.inForce != rateOf l.inForce || o.peer.any fun g => g.device != h.device

/-- The flags that the failures of a HELLO set; none when it passes (R442, R444). -/
def Dev.helloFlags (d : Dev) (n : Nat) (h : Hello) : List Nat :=
  let l := d.link n
  (if h.version ≠ 1 then [13] else []) ++
    (if h.lanes.toNat ≠ lanesOf l.inForce ∨ h.rate.toNat ≠ rateOf l.inForce then [0] else []) ++
    (if h.device.toNat = d.ownId then [2] else []) ++ (if d.tandemWrong n h then [3] else [])

/-- Credits and sequence numbers as training sets them: the peer's advertisement, SEQ and ACK 0 (R441). -/
def LinkPort.fresh (l : LinkPort) (h : Hello) : LinkPort :=
  { l with
    credRsp := h.rspCells.toNat + 1, credReq := h.reqCells.toNat + 1, txSeq := 0, rxSeq := 0, rxAny := false, nakSent := false
    unacked := [], retRsp := 0, retReq := 0, ackDue := false }

/-- A lead and its members come up with LINK_UP (R426, R441). -/
def Dev.raiseLink (d : Dev) (n : Nat) : Dev :=
  let d1 := foldS (fun (d : Dev) m => if d.ust (uLink m) == .idle then d.setUnit (uLink m) .running .device else d) (d.setQuadRate n) (d.members n)
  let d2 := d1.modLink n fun l => { l with training := false, ready := false, lock := true, aligned := decide (0 < lanesOf l.inForce) }
  d2.event (uLink n) 0x01 0 (d2.link n).upData

/-- A Brera link has seen the third HELLO. A tandem link waits for its partner, or rejoins it (R444). -/
def Dev.breraUp (d : Dev) (n : Nat) (h : Hello) : Dev :=
  let d0 := d.modLink n fun l => { l with peer := some h, ready := true }
  if !bit (d.link n).inForce 10 then ((d0.modLink n fun l => l.fresh h).raiseLink n).flushLink n
  else match d0.pairOf n with
    | none => d0
    | some p =>
      let home := min n p
      if d.ust (uLink p) == .running then
        let d1 := d0.raiseLink n
        (d1.modLink p fun l => { l with tandemSingle := false }).flushLink home
      else if (d.link p).ready then
        (((d0.modLink home fun l => l.fresh h).raiseLink n).raiseLink p).flushLink home
      else d0

/-- HELLO: on a running link a HELLO that differs loses it; while the port trains, or its peer returns from sleep, each
is checked, and the third identical one with SEEN 1 brings the link up (R441, R442, R455); the link-layer state that a tandem pair
shares begins anew with the first of its links that returns. A HELLO comes over lanes that have block
lock and are deskewed, so every lane has its signal (R461); none comes while JTAG drives the lanes (R603). -/
def opHello (n : Nat) (h : Hello) (d : Dev) : Dev :=
  let l := d.link n
  let run := d.ust (uLink n) == .running
  if d.farLoop n then d.emit (.linkHello n h)
  else if d.mblk.jtagOver.isSome || !l.brera? || d.leadOf n ≠ n || !(run || (l.training && d.ust (uLink n) == .idle)) then d
  else if run && !l.peerAsleep then (if l.peer = some h then d else d.loseLink n (LinkCause.code .helloChanged))
  else
    let d0 := d.modLink n fun l => { l with signal := allSignals l.inForce, lock := true, aligned := decide (0 < lanesOf l.inForce) }
    match d.helloFlags n h with
    | f :: fs => (foldS (fun (d : Dev) g => d.linkErr n g) d0 (f :: fs)).modLink n fun l => { l with helloRun := 0, lastHello := none }
    | [] =>
      let k := if !h.seen then 0 else if l.lastHello = some h then l.helloRun + 1 else 1
      let d1 := d0.modLink n fun l => { l with ownSeen := true, lastHello := some h, helloRun := k }
      if k < 3 then d1
      else if !run && !d1.fitsQuad n then d1.rateLost n
      else if run then
        let d2 := d1.modLink n fun l => { l with peerAsleep := false, waking := false, peer := some h, helloRun := 0 }
        let other := (d1.runningLeads (d1.lhome n)).any fun m => m != n && !(d1.link m).peerAsleep
        (if other then d2 else d2.modLink (d1.lhome n) fun l => l.fresh h).flushLink (d1.lhome n)
      else d1.breraUp n h

/-- HELLO_MISSING: 1 ms without a HELLO loses a running link, unless its peer sleeps (R442, R455). -/
def opHelloMissing (n : Nat) (d : Dev) : Dev :=
  let l := d.link n
  if l.brera? && d.leadOf n == n && d.ust (uLink n) == .running && !l.peerAsleep then d.loseLink n (LinkCause.code .helloMissing) else d

/-- TRAIN_TIMEOUT: a Brera port starts its training again, with ENABLE and the fields of LINK_CTRL sampled anew (R427, R441). -/
def opTrainTimeout (n : Nat) (d : Dev) : Dev :=
  let l := d.link n
  if l.brera? && l.training && d.ust (uLink n) == .idle then opLinkTrainStart n l.signal ((d.linkErr n 1).modLink n LinkPort.down)
  else d

/-- BRERA_LINK_LOST: a Brera link is lost for the cause named (R443). -/
def opBreraLinkLost (n : Nat) (cause : LinkCause) (d : Dev) : Dev :=
  if (d.link n).brera? && d.leadOf n == n && d.ust (uLink n) == .running then
    let d1 := match cause with
      | .replayLimit => d.linkErr n 5
      | .creditError => d.linkErr n 11
      | _ => d
    d1.loseLink n (LinkCause.code cause)
  else d

/-- SIGNAL_LOST: signal detect drops on a lane; a running link is lost, unless its peer sleeps (R455, R458). -/
def opSignalLost (n : Nat) (d : Dev) : Dev :=
  let lead := d.leadOf n
  let d1 := d.modLink lead fun l => { l with signal := l.signal &&& ~~~BitVec.ofNat 4 (2 ^ (n - lead)) }
  if d.ust (uLink lead) == .running && !(d.link lead).peerAsleep && (d.link lead).loop.isNone then d1.loseLink lead (LinkCause.code .signalLost) else d1

/-! ### Acknowledgement, credits and replay (R437, R439, R440) -/

/-- ACK is cumulative: the packets up to the SEQ named leave the replay buffer. -/
def LinkPort.takeAck (l : LinkPort) (ack : BitVec 12) (valid : Bool) : LinkPort :=
  match (if valid then l.unacked.findIdx? fun u => u.pkt.seq == ack else none) with
  | some i => { l with unacked := l.unacked.drop (i + 1) }
  | none => l

/-- The links of a home port are lost. -/
def Dev.loseHome (d : Dev) (h cause : Nat) : Dev :=
  foldS (fun (d : Dev) n => if d.ust (uLink n) == .running then d.loseLink n cause else d) d (d.runningLeads h)

/-- Credits come back; beyond the advertised total the link is lost (R439). -/
def Dev.takeCredits (d : Dev) (n rsp req : Nat) : Dev :=
  let h := d.lhome n
  let l := d.link h
  let total := (d.link n).peer.map fun g => (g.rspCells.toNat + 1, g.reqCells.toNat + 1)
  let (tr, tq) := total.getD (256, 256)
  if tr < l.credRsp + rsp ∨ tq < l.credReq + req then (d.linkErr n 11).loseHome h (LinkCause.code .creditError)
  else (d.modLink h fun l => { l with credRsp := l.credRsp + rsp, credReq := l.credReq + req }).flushLink h

/-- Replay the unacknowledged packets from position `i` on; the 16th consecutive replay of one loses the link (R440). -/
def Dev.replayFrom (d : Dev) (h i : Nat) : Dev :=
  let l := d.link h
  let again := l.unacked.drop i
  if again.isEmpty then d
  else
    let d1 := d.modLink h fun l =>
      { l with unacked := l.unacked.take i ++ again.map (fun u => { u with replays := u.replays + 1 }), replays := satAdd l.replays again.length }
    if again.any fun u => 15 ≤ u.replays then (d1.linkErr h 5).loseHome h (LinkCause.code .replayLimit)
    else foldS (fun (d : Dev) (u : Unacked) => foldS (fun (d : Dev) n => d.emit (.linkPacket n u.pkt)) d (d.runningLeads h)) d1 again

/-- The port leads a Brera link that is RUNNING. -/
def Dev.breraRuns (d : Dev) (n : Nat) : Bool := (d.link n).brera? && d.leadOf n == n && d.ust (uLink n) == .running

/-- NAK: the sender replays from the named SEQ (R440). -/
def opNak (n : Nat) (seq : BitVec 12) (d : Dev) : Dev :=
  let h := d.lhome n
  if d.farLoop n then d.emit (.linkNak n seq)
  else match (if d.breraRuns n then (d.link h).unacked.findIdx? fun u => u.pkt.seq == seq else none) with
  | some i => d.replayFrom h i
  | none => d

/-- LINK_IDLE_BLOCK: credits and acknowledgements come back (R437). -/
def opLinkIdleBlock (n : Nat) (ack : BitVec 12) (valid : Bool) (rsp req : Byte) (d : Dev) : Dev :=
  if d.farLoop n then d.emit (.linkIdle n ack valid rsp req)
  else if d.breraRuns n then (d.modLink (d.lhome n) fun l => l.takeAck ack valid).takeCredits n rsp.toNat req.toNat else d

/-- ACK_TIMEOUT: ACK has not advanced for 4 µs (R440). -/
def opAckTimeout (n : Nat) (d : Dev) : Dev := if d.breraRuns n then d.replayFrom (d.lhome n) 0 else d

/-! ### The outstanding table (R448) -/

/-- XID_TIMEOUT: a request without a response is answered LINK_DOWN. -/
def opXidTimeout (n i : Nat) (d : Dev) : Dev :=
  match (d.link n).xids.get .free i with
  | .used r => (d.modLink n fun l => { l with xids := l.xids.set .free i .quarantine }).answer r stLinkDown
  | _ => d

/-- XID_QUARANTINE_END: the entry may be used again. -/
def opXidQuarantineEnd (n i : Nat) (d : Dev) : Dev :=
  if (d.link n).xids.get .free i == .quarantine then d.modLink n fun l => { l with xids := l.xids.set .free i .free } else d

/-- The response of a request sent from here: it goes to its requester; an entry found free makes it LATE (R448). -/
def Dev.remoteResponse (d : Dev) (p : Packet) : Dev :=
  let e := p.xid.toNat / 512
  let i := p.xid.toNat % 512
  match (d.link e).xids.get .free i with
  | .used r =>
    let down := p.status == BitVec.ofNat 8 stLinkDown
    let d1 := d.modLink e fun l => { l with xids := l.xids.set .free i (if down then .quarantine else .free) }
    (match d1.req r with
     | some q =>
       if q.write || p.status != 0 then d1.respond r (List.replicate q.space (p.status, 0))
       else d1.respond r ((List.range q.lines).map fun j => (0, p.payload.getD j 0))
     | none => d1)
  | _ => (d.linkErr e 7).modLink e fun l => { l with dropLate := satInc l.dropLate }

/-! ### Packets (R438–R440, R444, R447) -/

/-- An accepted packet: a request waits for its admission at the quad ingress; a response goes to its requester, or to
its egress when it is for another device (R447). -/
def Dev.acceptPacket (d : Dev) (n : Nat) (p : Packet) : Dev :=
  let h := d.lhome n
  if !p.rsp then d.modLink h fun l => { l with rxReq := l.rxReq ++ [p] }
  else
    let d1 := d.modLink h fun l => { l with retRsp := l.retRsp + Packet.cells p }
    if p.dstDev.toNat = d.ownId then d1.remoteResponse p
    else match d1.routeFor p.dstDev.toNat with
      | some e => let x := d1.transitAnswer p; x.1.queuePacket e x.2
      | none => d1

/-- SEQ `s` has been accepted already, the expected one being `e` (R444). -/
def seqBehind (s e : BitVec 12) : Bool := decide (2048 ≤ (s - e).toNat)

/-- One NAK names the expected SEQ; in a tandem pair only once neither copy has arrived (R440, R444). -/
def Dev.packetGap (d : Dev) (n : Nat) : Dev :=
  let h := d.lhome n
  let d1 := d.modLink n fun l => { l with gap := true }
  let leads := d1.runningLeads h
  if (d1.link h).nakSent || !(leads.all fun m => (d1.link m).gap) then d1
  else foldS (fun (d : Dev) m => d.emit (.linkNak m (d.link h).rxSeq)) (d1.modLink h fun l => { l with nakSent := true }) leads

/-- BRERA_PACKET: a packet with the expected SEQ and a good CRC is accepted, with the acknowledgement and the credits it carries;
any other is discarded whole, as is the second copy of a tandem pair (R439, R440, R444). -/
def opBreraPacket (n : Nat) (p : Packet) (d : Dev) : Dev :=
  if d.farLoop n then d.emit (.linkPacket n p)
  else if !d.breraRuns n then d
  else
    let h := d.lhome n
    let pair := decide (1 < (d.runningLeads h).length)
    let l := d.link h
    if !Packet.crcOk p then ((d.linkErr n 4).modLink n fun l => { l with crcErrs := satInc l.crcErrs }).packetGap n
    else if p.seq = l.rxSeq then
      let d1 := (d.modLink h fun l => l.takeAck p.ack p.ackValid).takeCredits n p.rspCredits.toNat p.reqCredits.toNat
      if !d1.breraRuns n then d1
      else
        let d2 := d1.modLink h fun l => { l with rxSeq := l.rxSeq + 1, rxAny := true, nakSent := false, ackDue := true }
        ((foldS (fun (d : Dev) m => d.modLink m fun l => { l with gap := false }) d2 (d2.runningLeads h)).acceptPacket n p).idleBlock h
    else if pair && seqBehind p.seq l.rxSeq then d
    else d.packetGap n

/-! ### Relay and system start (R452, R453) -/

/-- RELAY_BLOCK: STATE of a running relay link (R452). -/
def opRelayBlock (n : Nat) (st : Bool) (d : Dev) : Dev :=
  if d.farLoop n then d.emit (.linkRelay n st)
  else if d.breraRuns n && bit (d.link n).inForce 11 && (d.link n).peer.any fun h => h.relay then d.modLink n fun l => { l with relayIn := st } else d

/-- A port with RELAY_EN is a relay link: its peer has RELAY 1. One that is not RUNNING counts as a relay link of state 0
(R452). -/
def Dev.relayLink (d : Dev) (n : Nat) : Bool := d.ust (uLink n) != .running || (d.link n).peer.any fun h => h.relay

/-- RELAY_SEND: a RELAY block on each relay link that is RUNNING (R452), while START.DONE_RELAY has DONE relayed (R175). -/
def opRelaySend (d : Dev) : Dev :=
  if !bit d.cfg.opts 3 then d
  else foldS (fun (a : Dev) n =>
    if d.breraRuns n && bit (d.link n).inForce 11 && (d.link n).peer.any fun h => h.relay then
      let st := d.relayLocal && (d.relayPorts.filter fun m => m ≠ n && d.relayLink m).all d.relayState
      (a.modLink n fun l => { l with relayOut := st }).emit (.linkRelay n st)
    else a) d (List.range 96)

/-- SYS_START rises: at once, or at a PPS edge when PPS_ALIGN is 1 (R453, R207). The event carries the lowest relay port's
unit ID, or port 0's without a relay link. -/
def opSysStart (atPps : Bool) (d : Dev) : Dev :=
  if d.glb.sysStart || !d.sys || bit d.cfg.opts 1 != atPps then d
  else
    let d1 := { d with glb := { d.glb with sysStart := true } }
    (d1.event (uLink (d.relayPorts.headD 0)) 0x04 0 (BitVec.ofNat 64 (b2n atPps))).refreshPins

/-! ### Faults and loopback (R20, R422, R426, R456) -/

/-- LINK_PARITY_FAULT: the link is down, with every port of a bonded link; its outstanding requests are answered LINK_DOWN (R20,
R426, R448). -/
def opLinkParityFault (n : Nat) (d : Dev) : Dev :=
  let u := d.ust (uLink n)
  let lead := d.leadOf n
  if u != .running && u != .idle then d
  else
    let mem := if (d.link lead).brera? && d.ust (uLink lead) == u then (d.members lead).filter fun m => d.ust (uLink m) == u else [n]
    let d1 := foldS (fun (a : Dev) m => (a.event (uLink m) 0x81 stInternal 0).noteFault (uLink m) stInternal) d mem
    if u == .running then let (d2, _, o) := d1.downLink lead .faulted .device; d2.single lead o
    else foldS (fun (a : Dev) m => a.setUnit (uLink m) .faulted .device) (foldS (fun (a : Dev) m => a.modLink m LinkPort.down) d1 mem) mem

/-- A link port enters loopback: its traffic stops and it goes to QUIESCED (R422, R456). -/
def Dev.linkLoop (d : Dev) (n depth : Nat) (c : Cause) : Dev :=
  let d0 := if d.ust (uLink n) == .idle then (d.modLink n fun l => { l with inForce := l.ctrl }).setQuadRate n else d
  let (d1, _, o) := d0.downLink n .quiesced c
  (d1.modLink n fun l => { l with loop := some depth, loopGen := 0x7FFFFFFF, loopHist := 0, loopGood := 0, loopLocked := false, loopErrs := 0 }).single n o

/-- It leaves its loop for IDLE, with its member ports. -/
def Dev.linkUnloop (d : Dev) (n : Nat) (c : Cause) : Dev :=
  let d1 := d.modLink n fun l => { l with loop := none, loopHist := 0, loopGood := 0, loopLocked := false, loopErrs := 0 }
  foldS (fun (d : Dev) m => if d.ust (uLink m) == .quiesced && (d.link m).loop.isNone then d.setUnit (uLink m) .idle c else d) d1 (d.members n)

/-- LOOPBACK (R422). -/
def opLoopback (iss : Issuer) (x : Desc) (d : Dev) : Dev :=
  d.begin iss x 0x70 false false ([(1, 0xFFFF0000), (2, 0xFFF00000)] ++ resFrom 3) fun d e =>
    let u := fld (dword x 1) 0 16
    let k := unitIdx u
    let epoch := BitVec.ofNat 16 (fld (dword x 2) 0 16)
    let depth := fld (dword x 2) 16 3
    let on := bit (dword x 2) 19
    let link := unitClass u == 3
    if !unitExists u || (unitClass u != 3 && unitClass u != 4) then d.complete e stBad iss.unit 0
    else if (if link then 4 < depth else depth != 0 && depth != 3) then d.complete e stBad u 0
    else if !d.inPart iss.reader u then d.complete e stPerm u 0
    else
      let st := d.ust u
      let looped := if link then (d.link k).loop.isSome else (d.fport k).loop.isSome
      let closable := if link then d.leadOf k == k else !on || depth == 0 || d.carried k
      let legal := (if on then st == .idle || st == .running else st == .quiesced && looped) && closable
      match d.epochCheck u epoch (d.pwr.phase != .awake) legal with
      | some s => d.complete e s u (d.epochInfo u)
      | none =>
        if link && on && depth == 4 && !(d.link k).signal.getLsbD 0 then d.complete e stLinkDown u 0
        else
          let d1 := if link then (if on then d.linkLoop k depth iss.cause else d.linkUnloop k iss.cause)
            else if on then d.fportLoop k depth iss.cause else d.fportUnloop k iss.cause
          d1.complete e stDone u (d1.epochInfo u)

/-! ### Requests at an ingress (R273, R279, R447) -/

/-- The first request that waits for admission at a link of the quad and has this address and direction. -/
def Dev.admitted (d : Dev) (quad : Nat) (r : SlReq) : Option (Nat × Packet) :=
  ((List.range 4).map (4 * quad + ·)).findSome? fun n =>
    match (d.link n).rxReq with
    | p :: _ => if p.addr = r.addr ∧ p.write = r.write then some (n, p) else none
    | [] => none

/-- A request of a link is admitted at its quad's ingress; its cells come back as credits. A request for another device
passes with HOPS increased; at 15 it is answered LINK_DOWN (R447). -/
def Dev.admitPacket (d : Dev) (n : Nat) (p : Packet) (err : FlitErr) : Dev :=
  let own := p.dstDev.toNat == d.ownId
  let q : SlIn :=
    { ingress := 64 + n / 4, by_ := .link n p.src p.srcDev p.xid, addr := p.addr, write := p.write, lines := p.len.toNat + 1
      be := if p.write && p.len == 0 then p.be else BitVec.allOnes 64, data := p.payload, poison := false, flip := none, stage := .lookup
      tier := 5, hops := if own then p.hops.toNat else p.hops.toNat + 1 }
  if !d.takes q then d
  else
    let d1 := d.modLink n fun l => { l with rxReq := l.rxReq.tail, retReq := l.retReq + Packet.cells p }
    if !own && 15 ≤ q.hops then
      let r := d1.sl.nextReq
      (({ d1 with sl := { d1.sl with reqs := d1.sl.reqs.set none r (some q), nextReq := r + 1 } }).linkErr n 6).answer r stLinkDown
    else (d1.present q err).idleBlock n

/-- The descriptor of a port whose engine presents this request next. -/
def Dev.presenting (d : Dev) (ing : Nat) (r : SlReq) : Option (Nat × SlIn × ExecKind) :=
  d.running.findSome? fun y =>
    if Issuer.ingress y.2.iss ≠ ing then none
    else match nextRequest y.1 y.2 with
      | some (q, k) => if q.addr = r.addr ∧ q.write = r.write then some (y.1, q, k) else none
      | none => none

/-- SLUICE_REQUEST: a requester presents a request at its ingress: a module (0–63), a link of a quad (64–87) or the
engine of a host port (88–91). What a link or an engine presents is the request that it holds (R273, R279). -/
def opSluiceRequest (r : SlReq) (d : Dev) : Dev :=
  if r.ingress < 64 then
    let q := panRequest r
    if d.panTakes r.ingress r.tid.toNat then (if d.takes q then (d.present q r.err).panBeats r.ingress (if r.write then q.lines else 1) else d) else d
  else if r.ingress < 88 then
    match d.admitted (r.ingress - 64) r with
    | some (n, p) => d.admitPacket n p r.err
    | none => d
  else match d.presenting r.ingress r with
    | some (e, q, k) => if d.takes q then (d.setKind e k).present q r.err else d
    | none => d

/-! ### Responses at an ingress (R280, R284, R366, R447) -/

/-- The lines of a response as its requester sees them: a read that returns a poisoned word is UNCORRECTABLE (R286). -/
def SlIn.seen (q : SlIn) (lines : List (Byte × Line)) : List (Byte × Line) :=
  if q.poisons lines then q.uniform stUncorr else lines

/-- A response reaches a module beat by beat; one that finds the module held is discarded and flagged (R280, R284). -/
def Dev.panResponse (d : Dev) (p tid : Nat) (lines : List (Byte × Line)) : Dev :=
  if (d.pan p).port == .opened && !(d.pan p).held then
    foldS (fun (d : Dev) (x : Nat × Byte × Line) =>
      d.emit (.rsi p tid x.1 x.2.1 x.2.2 (x.1 + 1 == lines.length))) (d.panBeats p lines.length) (indexed lines)
  else { d with sl := { d.sl with err := setBit d.sl.err 5 true } }

/-- A response returns to the device that a link brought its request from (R438, R447). -/
def Dev.linkResponse (d : Dev) (dev : BitVec 14) (src xid : BitVec 16) (write : Bool) (lines : List (Byte × Line)) : Dev :=
  match lines.find? fun l => l.1 != 0 with
  | some (st, _) => d.sendRsp dev src xid st []
  | none => d.sendRsp dev src xid 0 (if write then [] else lines.map Prod.snd)

/-- RESPONSE_DELIVERY: the oldest response at an ingress reaches its requester and frees its response space (R280);
one that the Sluice makes UNCORRECTABLE here sets its flag (R285). -/
def opResponseDelivery (i : Nat) (d : Dev) : Dev :=
  match (d.ing i).resp with
  | [] => d
  | x :: rest =>
    match d.req x.rid with
    | none => d.modIng i fun g => { g with resp := rest }
    | some q =>
      if d.sluiceStops || (decide (i < 64) && d.domSleeps i) then d
      else
        let d0 := if q.poisons x.lines then d.slErr 3 stUncorr q else d
        let d1 := (d0.modIng i fun g => { g with resp := rest }).dropReq x.rid
        let lines := q.seen x.lines
        let st := (lines.head?.map fun l => l.1.toNat).getD 0
        match q.by_ with
        | .pan p tid => d1.panResponse p tid lines
        | .exec e _ => d1.execResponse e q lines
        | .link _ src dev xid => d1.linkResponse dev src xid q.write lines
        | .rx n => d1.rxAnswer n st
        | .tx n => d1.txAnswer n st ((lines.head?.map Prod.snd).getD 0)

/-! ### The LINK block (R459–R465) -/

/-- LINK_STATUS (R461). -/
def Dev.linkStatus (d : Dev) (n : Nat) : Word :=
  let l := d.link n
  pack [(b2n (d.ust (uLink n) == .running), 0, 1), (b2n l.lock, 1, 1), (b2n l.aligned, 2, 1), (b2n l.anDone, 3, 1), (b2n l.fecLock, 4, 1)
    , (b2n l.hiBer, 5, 1), (b2n l.peerAsleep, 6, 1), (b2n l.tandemSingle, 7, 1), (l.signal.toNat, 8, 4)]

/-- LINK_PEER (R464). -/
def LinkPort.peerWord (l : LinkPort) : Word :=
  match l.peer with
  | none => 0
  | some h => pack [(h.device.toNat, 0, 14), (1, 14, 1), (b2n h.tandem, 15, 1), (h.port.toNat, 16, 7), (b2n h.relay, 23, 1), (h.lanes.toNat, 24, 2)
      , (h.rate.toNat, 26, 2), (h.version.toNat, 28, 4)]

/-- A read of the LINK block and what it leaves: the counters clear (R459). -/
def Dev.readLink (d : Dev) (n : Nat) (sel : Nat → Word) (o : Nat) : Word × Dev :=
  let l := d.link n
  let ro (w : Word) : Word × Dev := (w, d)
  match o with
  | 0x00 => ro l.ctrl
  | 0x04 => ro (d.linkStatus n)
  | 0x08 => ro (l.err.setWidth 32)
  | 0x0C => ro l.an
  | 0x10 => ro l.anPartner
  | 0x14 => (l.fecCe, d.modLink n fun l => { l with fecCe := 0 })
  | 0x18 => (l.fecUe, d.modLink n fun l => { l with fecUe := 0 })
  | 0x1C => ro l.ptp
  | 0x20 => ro l.brera
  | 0x24 => ro l.peerWord
  | 0x28 =>
    let h := d.link (d.lhome n)
    ro (pack [(h.credRsp, 0, 9), (h.credReq, 16, 9)])
  | 0x2C => (l.crcErrs ++ l.replays, d.modLink n fun l => { l with crcErrs := 0, replays := 0 })
  | 0x30 => ro (pack [(b2n l.relayIn, 0, 1), (b2n l.relayOut, 1, 1), (b2n d.sys, 2, 1), (b2n d.glb.sysStart, 3, 1)])
  | 0x34 => ro (pack [(l.loop.getD 7, 0, 3), (b2n l.loopLocked, 3, 1), (l.loopErrs.toNat, 16, 16)])
  | 0x38 => ro l.eq
  | 0x3C => (l.dropLate ++ l.dropRx, d.modLink n fun l => { l with dropLate := 0, dropRx := 0 })
  | 0x40 => ro (sel 0x40 &&& 0x3FFF)
  | 0x44 => ro (d.routes.get 0 (fld (sel 0x40) 0 14))
  | _ => ro 0

/-- A route entry names only ports of the writer's partition (R459). -/
def Dev.routeOk (d : Dev) (rd : Nat) (v : Word) : Bool :=
  let t := d.part rd
  (!bit v 7 || t.links.getLsbD (fld v 0 7)) && (!bit v 15 || t.links.getLsbD (fld v 8 7))

/-- A write of LINK_RT_DATA (R446, R459, R465). -/
def Dev.writeRoute (d : Dev) (i : Nat) (v : Word) : Dev := { d with routes := d.routes.set 0 i (v &&& 0xFFFF) }

/-- A write of the LINK block. -/
def Dev.writeLink (d : Dev) (n : Nat) (sel : Nat → Word) (o : Nat) (v : Word) : Dev :=
  match o with
  | 0x00 => (d.modLink n fun l => { l with ctrl := v &&& 0x1FFF }).sampleEnable n
  | 0x08 => d.modLink n fun l => { l with err := w1c l.err (v.setWidth 14) }
  | 0x0C => d.modLink n fun l => { l with an := v &&& 0x4FF }
  | 0x1C => d.modLink n fun l => { l with ptp := v &&& 3 }
  | 0x20 => d.modLink n fun l => { l with brera := v &&& 0x7FFFFF }
  | 0x38 => d.modLink n fun l => { l with eq := v &&& 0x1F }
  | 0x44 => d.writeRoute (fld (sel 0x40) 0 14) v
  | _ => d

/-- Address of a register of a LINK block. -/
def linkOff (n o : Nat) : Nat := 0x180000 + 0x200 * n + o

/-- The selection register at a BAR0 offset as a reader wrote it (R632). -/
def Dev.selAt (d : Dev) (path : Path) (off : Nat) : Word :=
  match path with
  | .host p | .hostPart p => (d.hp p).query.get 0 off
  | _ => d.mblk.query.get 0 off

/-- ROUTE_TABLE_WRITE (R446): LINK_RT_DATA of port n, at the entry the writer's LINK_RT_INDEX names. -/
def opRouteTableWrite (path : Path) (n : Nat) (v : Word) (d : Dev) : Dev :=
  d.filteredIf path (.link n) 0x44 (fun d => d.routeOk path.reader v) fun d => d.writeRoute (fld (d.selAt path (linkOff 0 0x40)) 0 14) v

/-- LINK_FEC_CE_READ (R459). -/
def opLinkFecCeRead (path : Path) (n : Nat) (d : Dev) : Dev :=
  d.readThrough path (.link n) 0x14 (linkOff n 0x14) fun d => d.readLink n (fun _ => 0) 0x14

/-- LINK_FEC_UE_READ (R459). -/
def opLinkFecUeRead (path : Path) (n : Nat) (d : Dev) : Dev :=
  d.readThrough path (.link n) 0x18 (linkOff n 0x18) fun d => d.readLink n (fun _ => 0) 0x18

/-- LINK_REPLAY_READ (R459). -/
def opLinkReplayRead (path : Path) (n : Nat) (d : Dev) : Dev :=
  d.readThrough path (.link n) 0x2C (linkOff n 0x2C) fun d => d.readLink n (fun _ => 0) 0x2C

/-- LINK_DROP_READ (R459). -/
def opLinkDropRead (path : Path) (n : Nat) (d : Dev) : Dev :=
  d.readThrough path (.link n) 0x3C (linkOff n 0x3C) fun d => d.readLink n (fun _ => 0) 0x3C

/-! ### The commands -/

/-- LOOPBACK (R422). -/
def execLoopback (iss : Issuer) (d : Desc) (s : State) : Res :=
  runCmd (.loopback iss d) (opLoopback iss d) s

/-- SLUICE_REQUEST (R273). -/
def execSluiceRequest (r : SlReq) (s : State) : Res :=
  runCmd (.sluiceRequest r) (opSluiceRequest r) s

/-- RESPONSE_DELIVERY (R280). -/
def execResponseDelivery (ingress : Nat) (s : State) : Res :=
  runCmd (.responseDelivery ingress) (opResponseDelivery ingress) s

/-- LINK_TRAIN_START (R427). -/
def execLinkTrainStart (port : Nat) (signal : BitVec 4) (s : State) : Res :=
  runCmd (.linkTrainStart port signal) (opLinkTrainStart port signal) s

/-- PCS_LINK_UP (R429). -/
def execPcsLinkUp (port : Nat) (partner : Word) (s : State) : Res :=
  runCmd (.pcsLinkUp port partner) (opPcsLinkUp port partner) s

/-- PCS_LINK_LOST (R429). -/
def execPcsLinkLost (port : Nat) (cause : LinkCause) (s : State) : Res :=
  runCmd (.pcsLinkLost port cause) (opPcsLinkLost port cause) s

/-- HELLO (R442). -/
def execHello (port : Nat) (h : Hello) (s : State) : Res :=
  runCmd (.hello port h) (opHello port h) s

/-- HELLO_SEND (R442). -/
def execHelloSend (port : Nat) (s : State) : Res :=
  runCmd (.helloSend port) (opHelloSend port) s

/-- HELLO_MISSING (R442). -/
def execHelloMissing (port : Nat) (s : State) : Res :=
  runCmd (.helloMissing port) (opHelloMissing port) s

/-- TRAIN_TIMEOUT (R441). -/
def execTrainTimeout (port : Nat) (s : State) : Res :=
  runCmd (.trainTimeout port) (opTrainTimeout port) s

/-- BRERA_LINK_LOST (R443). -/
def execBreraLinkLost (port : Nat) (cause : LinkCause) (s : State) : Res :=
  runCmd (.breraLinkLost port cause) (opBreraLinkLost port cause) s

/-- BRERA_PACKET (R440). -/
def execBreraPacket (port : Nat) (p : Packet) (s : State) : Res :=
  runCmd (.breraPacket port p) (opBreraPacket port p) s

/-- NAK (R440). -/
def execNak (port : Nat) (seq : BitVec 12) (s : State) : Res :=
  runCmd (.nak port seq) (opNak port seq) s

/-- LINK_IDLE_BLOCK (R437). -/
def execLinkIdleBlock (port : Nat) (ack : BitVec 12) (ackValid : Bool) (rspCredits reqCredits : Byte) (s : State) : Res :=
  runCmd (.linkIdleBlock port ack ackValid rspCredits reqCredits) (opLinkIdleBlock port ack ackValid rspCredits reqCredits) s

/-- ACK_TIMEOUT (R440). -/
def execAckTimeout (port : Nat) (s : State) : Res :=
  runCmd (.ackTimeout port) (opAckTimeout port) s

/-- XID_TIMEOUT (R448). -/
def execXidTimeout (port : Nat) (entry : Nat) (s : State) : Res :=
  runCmd (.xidTimeout port entry) (opXidTimeout port entry) s

/-- XID_QUARANTINE_END (R448). -/
def execXidQuarantineEnd (port : Nat) (entry : Nat) (s : State) : Res :=
  runCmd (.xidQuarantineEnd port entry) (opXidQuarantineEnd port entry) s

/-- RELAY_BLOCK (R452). -/
def execRelayBlock (port : Nat) (state : Bool) (s : State) : Res :=
  runCmd (.relayBlock port state) (opRelayBlock port state) s

/-- SYS_START (R453). -/
def execSysStart (atPps : Bool) (s : State) : Res :=
  runCmd (.sysStart atPps) (opSysStart atPps) s

/-- SIGNAL_LOST (R458). -/
def execSignalLost (port : Nat) (s : State) : Res :=
  runCmd (.signalLost port) (opSignalLost port) s

/-- LINK_PARITY_FAULT (R426). -/
def execLinkParityFault (port : Nat) (s : State) : Res :=
  runCmd (.linkParityFault port) (opLinkParityFault port) s

/-- ROUTE_TABLE_WRITE (R446). -/
def execRouteTableWrite (path : Path) (port : Nat) (value : Word) (s : State) : Res :=
  runCmd (.routeTableWrite path port value) (opRouteTableWrite path port value) s

/-- LINK_FEC_CE_READ (R459). -/
def execLinkFecCeRead (path : Path) (port : Nat) (s : State) : Res :=
  runCmd (.linkFecCeRead path port) (opLinkFecCeRead path port) s

/-- LINK_FEC_UE_READ (R459). -/
def execLinkFecUeRead (path : Path) (port : Nat) (s : State) : Res :=
  runCmd (.linkFecUeRead path port) (opLinkFecUeRead path port) s

/-- LINK_REPLAY_READ (R459). -/
def execLinkReplayRead (path : Path) (port : Nat) (s : State) : Res :=
  runCmd (.linkReplayRead path port) (opLinkReplayRead path port) s

/-- LINK_DROP_READ (R459). -/
def execLinkDropRead (path : Path) (port : Nat) (s : State) : Res :=
  runCmd (.linkDropRead path port) (opLinkDropRead path port) s

/-- RELAY_SEND (R452). -/
def execRelaySend (s : State) : Res :=
  runCmd (.relaySend) (opRelaySend) s

end Sys2Proof.Machine
end

