-- ==== Sys2Proof/Machine/Time.lean ====
section
/-! DEFINITION. The time unit (chapter "Time and the PPS Input"). Fine time is one number in units of 2^−40 ns: the 16
visible and the 24 further fraction bits of R498. -/

namespace Sys2Proof.Machine

/-- One second in units of 2^−40 ns. -/
def secUnit : Int := 10 ^ 9 * 2 ^ 40

/-- The counter at a time: SEC, NS and the fraction; SEC is 48 bits and wraps (R498). -/
def TimeU.putNow (t : TimeU) (x : Int) : TimeU :=
  let n := (x % (secUnit * 2 ^ 48)).toNat
  { t with
    sec := BitVec.ofNat 48 (n / (10 ^ 9 * 2 ^ 40)), ns := BitVec.ofNat 30 (n / 2 ^ 40 % 10 ^ 9)
    frac := BitVec.ofNat 40 (n % 2 ^ 40) }

/-- A number of 2^−40 ns units in whole ns, to the nearest. -/
def nearNs (x : Int) : Int := (x + 2 ^ 39) / 2 ^ 40

/-- What QUALITY is called (R509). -/
def qUnset : BitVec 3 := 0
/-- Set, but not steered. -/
def qFreerun : BitVec 3 := 1
/-- Carried without PPS. -/
def qHoldover : BitVec 3 := 2
/-- Steered to PPS. -/
def qAcquiring : BitVec 3 := 3
/-- Locked. -/
def qLocked : BitVec 3 := 4

/-- The bound of ACQUIRING and LOCKED: |e| + 2 (R510). -/
def errBound (e : Word) : Word := satU32 (min (e.toInt.natAbs + 2) 0xFFFFFFFE)

/-- The error bound that a quality gives; HOLDOVER keeps its own (R510). -/
def TimeU.boundFor (t : TimeU) (q : BitVec 3) : Word :=
  if q = qUnset ∨ q = qFreerun then 0xFFFFFFFF
  else if q = qHoldover then (if t.quality = qHoldover then t.holdover else errBound t.ppsErr)
  else errBound t.ppsErr

/-- A TIME_ADJ slew runs (R417). -/
def TimeU.adjusting (t : TimeU) : Bool := match t.cmd with | some (.slew _ _ _ _) => true | _ => false

/-- Change QUALITY, with its bound, the window of R505 and the QUALITY event (R509, R517). -/
def Dev.setQuality (d : Dev) (q : BitVec 3) : Dev :=
  let t := d.time
  let steered : BitVec 3 → Bool := fun x => x == qAcquiring || x == qLocked
  let t1 : TimeU := { t with
    quality := q
    holdover := t.boundFor q
    lockCount := if steered q then t.lockCount else 0
    calStart := if steered q && steered t.quality then t.calStart else none
    calBad := if steered q && steered t.quality then t.calBad else t.adjusting
    calSlew := if steered q && steered t.quality then t.calSlew else 0 }
  let d1 := { d with time := t1 }
  if q = t.quality then d1 else d1.event uTime 0x01 0 (pack64 [(q.toNat, 0, 3), (t.quality.toNat, 3, 3)])

/-- The alarm is reached (R516). -/
def TimeU.alarmDue (t : TimeU) : Bool :=
  let an := fld t.alarmNs 0 30
  let sec := t.sec.toNat % 2 ^ 32
  bit t.alarmNs 31 && decide (an < 10 ^ 9) &&
    (decide (sec > t.alarmSec.toNat) || (sec == t.alarmSec.toNat && decide (t.ns.toNat ≥ an)))

/-- What the alarm does as it fires (R516). -/
def Dev.ringAlarm (d : Dev) : Dev :=
  (({ d with time := { d.time with alarmNs := setBit (setBit d.time.alarmNs 31 false) 30 true, alarmOut := true, alarmRang := true } }).event
    uTime 0x05 0 (d.time.alarmSec.setWidth 64)).refreshPins

/-- The alarm fires where the counter has reached it (R516). -/
def Dev.fireAlarm (d : Dev) : Dev := if d.time.alarmDue then d.ringAlarm else d

/-- The coarse count at which an armed alarm fires, from a coarse edge `c0` (R516). -/
def TimeU.alarmCount (t : TimeU) (c0 : BitVec 48) : Option (BitVec 48) :=
  let an := fld t.alarmNs 0 30
  if !bit t.alarmNs 31 || decide (10 ^ 9 ≤ an) then none
  else
    let left : Int := (((t.alarmSec.toNat : Int) - (t.sec.toNat % 2 ^ 32 : Nat)) * 10 ^ 9 + an - (t.ns.toNat : Int)) * 2 ^ 40 - (t.frac.toNat : Int)
    some (c0 + BitVec.ofNat 48 (ceilDiv left.toNat (max 1 (if t.calValid then t.cal.toNat else 0x77359400) * 2 ^ 24)))

/-- A step of the counter by `x`: the last valid edge moves with it, a running window ends, STEPS counts, STEP is raised
after the step, and an alarm it reaches fires (R504–R507, R515–R517, R520). -/
def Dev.stepTime (d : Dev) (x : Int) : Dev :=
  let t := d.time.putNow (d.time.now + x)
  let t1 : TimeU := { t with
    lastEdge := t.lastEdge + x, steps := satInc t.steps, slewing := none, lockCount := 0
    winN := 0, winLeft := 0, calBad := true, ppsSecond := t.sec }
  (({ d with time := t1 }).event uTime 0x02 0 (satS64 (nearNs x))).fireAlarm

/-- The increment of the running source, in units of 2^−32 ns (R503). -/
def TimeU.inc (t : TimeU) : BitVec 40 := if t.srcInt then t.incInt else t.incRef

/-- The running source's increment has been calibrated (R504). -/
def TimeU.incCal (t : TimeU) : Bool := if t.srcInt then t.incCalInt else t.incCalRef

/-- What one cycle of a slew applies, at most what is left: the increment × RATE × 10^−9 (R503). -/
def slewPart (inc : Nat) (rate : Nat) (left : Int) : Int :=
  let m : Int := ((inc * 2 ^ 8 * rate / 10 ^ 9 : Nat) : Int)
  if left ≥ 0 then min m left else - min m (-left)

/-- The default slew rate in ppb; 0 acts as 1 (R518). -/
def TimeU.rate (t : TimeU) : Nat := max 1 (fld t.slewReg 0 16)

/-- STAB × 10 in ppb (R518). -/
def TimeU.stab (t : TimeU) : Nat := fld t.slewReg 16 16 * 10

/-- The coarse counter beside a cycle of the source: it counts its nominal periods; the rows that name a coarse edge bring its
count (R499; assumption 3). -/
def TimeU.coarseCycle (t : TimeU) : TimeU :=
  let acc := t.coarseAcc + t.inc.toNat
  if acc < 10 ^ 9 * 2 ^ 17 then { t with coarseAcc := acc } else { t with coarseAcc := acc - 10 ^ 9 * 2 ^ 17, coarse := t.coarse + 1 }

/-- QUALITY is ACQUIRING or LOCKED. -/
def TimeU.steered (t : TimeU) : Bool := t.quality == qAcquiring || t.quality == qLocked

/-- At a coarse edge with QUALITY ACQUIRING or LOCKED and no window, the first window of R505 starts. -/
def TimeU.startCoarse (t : TimeU) : TimeU :=
  if t.steered && t.calStart.isNone then { t with calStart := some (t.coarse, t.now), calBad := t.adjusting, calSlew := 0 } else t

/-- One cycle of the source: the counter adds the increment and a part of any slew (R498, R503). While the time unit is ASLEEP
the coarse counter alone counts (R499, R511). -/
def TimeU.tick (t : TimeU) (asleep : Bool) : TimeU :=
  if asleep then { t with coarse := t.coarse + 1 }
  else
    let old := t.coarse
    let edge (t : TimeU) : TimeU := if t.coarse = old then t else t.startCoarse
    edge <|
    let i : Int := ((t.inc.toNat * 2 ^ 8 : Nat) : Int)
    let t := { t.coarseCycle with incFresh := false }
    match t.cmd with
    | some (.slew e left rate us) =>
      let p := slewPart t.inc.toNat rate left
      { t.putNow (t.now + i + p) with cmd := some (.slew e (left - p) rate (us + t.inc.toNat * 2 ^ 8)), winN := t.winN + 1 }
    | _ =>
      match t.slewing with
      | some (left, rate) =>
        let p := slewPart t.inc.toNat rate left
        { t.putNow (t.now + i + p) with slewing := some (left - p, rate), winN := t.winN + 1, calSlew := t.calSlew + p }
      | none => { t.putNow (t.now + i) with winN := t.winN + 1 }

/-- What the block does when no command waits: one cycle of the fine counter (DESIGN CHOICE, assumption 3). While the
internal reset is held nothing counts. -/
def Dev.tick (d : Dev) : Dev :=
  let asleep := d.ust uTime == .asleep
  if d.cfg.phase == .held then d
  else { d with
    time := d.time.tick asleep
    glb := if d.glb.uptimeRun && !asleep then { d.glb with uptime := d.glb.uptime + d.time.inc.toNat } else d.glb }

/-! ### PPS edges -/

/-- A calibration window starts, of 2^AVG intervals; none while FREQ_EN is 0 (R504). -/
def TimeU.startWindow (t : TimeU) : TimeU :=
  let n := 2 ^ min (fld t.ctrl 2 3) 4
  { t with winLeft := if bit t.ctrl 1 then n else 0, winSize := n, winN := 0 }

/-- The calibration window at a valid edge (R504). A window keeps the AVG of its start (assumption 61). -/
def TimeU.calibrate (t : TimeU) : TimeU :=
  if bit t.ctrl 1 && decide (1 < t.winLeft) then { t with winLeft := t.winLeft - 1 }
  else if !bit t.ctrl 1 || t.winLeft = 0 || t.winN = 0 || t.incFresh then t.startWindow
  else
    let inc := BitVec.ofNat 40 ((2 * (t.winSize * 10 ^ 9 * 2 ^ 32) + t.winN) / (2 * t.winN))
    let t1 := t.startWindow
    if t.srcInt then { t1 with incInt := inc, incCalInt := true } else { t1 with incRef := inc, incCalRef := true }

/-- The signed phase error of a captured time, in units of 2^−40 ns: the time less the nearest whole second (R507). -/
def phaseErr (c : Int) : Int := c - (c + secUnit / 2) / secUnit * secUnit

/-- An edge captured at `c` is valid (R506). -/
def TimeU.edgeValid (t : TimeU) (c : Int) : Bool :=
  t.firstEdge || decide ((c - t.lastEdge - secUnit).natAbs ≤ 100000 * 2 ^ 40)

/-- A valid edge takes HOLDOVER to ACQUIRING, and FREERUN where the running increment is calibrated or FREQ_EN is 0 (R509). -/
def Dev.edgeQuality (d : Dev) : Dev :=
  let t := d.time
  if t.quality = qHoldover ∨ (t.quality = qFreerun ∧ (t.incCal ∨ !bit t.ctrl 1)) then d.setQuality qAcquiring else d

/-- The correction at a valid edge with phase error `e` (R507, R509). -/
def Dev.correctPps (d : Dev) (e : Int) : Dev :=
  let t := d.time
  let lim : Int := max 1 (fld t.stepLimit 0 30)
  let steer := t.quality == qHoldover || t.quality == qAcquiring || t.quality == qLocked || t.incCal || !bit t.ctrl 1
  if t.quality = qUnset ∨ e.natAbs > lim.natAbs * 2 ^ 40 then
    let d1 := d.stepTime (-e)
    ({ d1 with time := d1.time.startWindow }).setQuality (if steer then qAcquiring else qFreerun)
  else
    let d1 := { d with time := { t with slewing := some (-e, t.rate) } }
    if steer then
      let n := min 4 (t.lockCount + 1)
      ({ d1 with time := { d1.time with lockCount := n } }).setQuality (if n ≥ 4 then qLocked else qAcquiring)
    else d1.setQuality qFreerun

/-- Apply a TIME_SET value: a step to it, QUALITY FREERUN (R416, R509). Answers the step. -/
def Dev.timeSetTo (d : Dev) (v : Int) : Dev × Int :=
  let x := v - d.time.now
  ((d.stepTime x).setQuality qFreerun, x)

/-- A time of day from its parts. -/
def timeOf (sec ns frac : Nat) : Int := ((sec * 10 ^ 9 + ns : Nat) : Int) * 2 ^ 40 + ((frac * 2 ^ 24 : Nat) : Int)

/-- A rising edge of PPS_IN captured `half` half-nanoseconds before now (R506–R508, R512). -/
def opPpsEdge (half : Nat) (d : Dev) : Dev :=
  let t := d.time
  if d.ust uTime == .asleep then { d with time := { t with capPps := some t.coarse } }
  else
    let c := t.now - half * 2 ^ 39
    if !t.edgeValid c then { d with time := { t with winLeft := 0, winN := 0 } }
    else
      let e := phaseErr c
      let t1 : TimeU := { t with ppsErr := satS32 (nearNs e), firstEdge := false, ppsOk := true, lastEdge := c }
      let t2 := if d.ust uTime == .faulted then t1 else t1.calibrate
      let t3 := { t2 with holdover := if t2.quality == qAcquiring || t2.quality == qLocked then errBound t2.ppsErr else t2.holdover }
      let d1 := { d with time := t3 }
      match t3.cmd with
      | some (.setPps x sec ns frac) =>
        let (d2, s) := ({ d1 with time := { t3 with cmd := none } }).timeSetTo
          (timeOf sec.toNat ns.toNat frac.toNat + half * 2 ^ 39)
        ({ d2 with time := d2.time.startWindow }).complete x stDone uTime (satS64 (nearNs s))
      | some (.slew _ _ _ _) => if d.ust uTime == .faulted then d1 else d1.edgeQuality
      | none => if d.ust uTime == .faulted then d1 else if !bit t3.ctrl 0 then d1.edgeQuality else d1.correctPps e

/-- 1.5 s without a valid edge (R506, R509). -/
def opPpsLost (d : Dev) : Dev :=
  let t := d.time
  if !t.ppsOk || d.ust uTime == .asleep then d
  else
    let d1 := ({ d with time := { t with ppsOk := false, firstEdge := true, lockCount := 0, winLeft := 0, winN := 0 } }).event uTime 0x03 0
      (t.ppsErr.setWidth 64)
    if t.quality = qAcquiring then d1.setQuality qFreerun
    else if t.quality = qLocked then d1.setQuality qHoldover
    else d1

/-! ### Sources -/

/-- Switch the counter's source (R502). -/
def Dev.switchSource (d : Dev) (toInt : Bool) : Dev :=
  let t := d.time
  if t.srcInt = toInt then d
  else
    let d1 := ({ d with time := { t with srcInt := toInt, winLeft := 0, winN := 0, calBad := true } }).event uTime 0x04 0
      (BitVec.ofNat 64 (b2n toInt))
    if t.quality = qUnset then d1 else d1.setQuality qFreerun

/-- REF_OK falls (R502). -/
def opRefLost (d : Dev) : Dev :=
  if d.ust uTime == .asleep then d
  else ({ d with time := { d.time with refOk := false } }).switchSource true

/-- REF_RETURN: where REF_OK is 0, TIME_REF is good again and it rises; where it is 1, it has held for 1 s, and with AUTO_RETURN
the counter switches back (R502; assumption 85). A FAULTED unit stays on the internal oscillator (R20). -/
def opRefReturn (d : Dev) : Dev :=
  if d.ust uTime == .asleep || fld d.time.ctrl 5 2 = 0 then d
  else if !d.time.refOk then { d with time := { d.time with refOk := true } }
  else if bit d.time.ctrl 7 && d.ust uTime != .faulted then d.switchSource false else d

/-- The coarse period over a window of 64 s, 2,097,152 ticks, between two coarse edges (R505). A window in which a TIME_ADJ slew
runs is discarded. Where no window runs yet, the edge starts the first (assumption 3). -/
def opCoarseCalibration (d : Dev) : Dev :=
  let t := d.time
  if d.ust uTime == .asleep || d.ust uTime == .faulted || !t.steered then d
  else match t.calStart with
    | none => { d with time := TimeU.startCoarse { t with coarse := t.coarse + 1, coarseAcc := 0 } }
    | some (c0, f0) =>
      let c1 := c0 + 0x200000
      let t1 : TimeU := { t with coarse := c1, coarseAcc := 0, calStart := some (c1, t.now), calBad := t.adjusting, calSlew := 0 }
      if t.calBad then { d with time := t1 }
      else { d with time := { t1 with cal := BitVec.ofInt 32 ((t.now - f0 - t.calSlew + 2 ^ 44) / 2 ^ 45), calValid := true } }

/-- The bound grows each second in HOLDOVER (R510): STAB × 10 ppb of one second is STAB × 10 ns. -/
def opHoldoverTick (d : Dev) : Dev :=
  if d.time.quality = qHoldover ∧ d.ust uTime ≠ .asleep then
    { d with time := { d.time with holdover := BitVec.ofNat 32 (min (d.time.holdover.toNat + d.time.stab) 0xFFFFFFFE) } }
  else d

/-! ### PPS_OUT and the alarm -/

/-- PPS_OUT rises when the counter has passed a whole second (R515). -/
def opPpsOutPulse (d : Dev) : Dev :=
  let t := d.time
  if bit t.ppsOut 0 && t.quality != qUnset && d.ust uTime != .asleep && t.ppsSecond != t.sec then
    (({ d with time := { t with ppsLevel := true, ppsSecond := t.sec } }).emit (.ppsOut true)).refreshPins
  else { d with time := { t with ppsSecond := t.sec } }

/-- PPS_OUT falls (R515). -/
def Dev.ppsFall (d : Dev) : Dev :=
  if d.time.ppsLevel then (({ d with time := { d.time with ppsLevel := false } }).emit (.ppsOut false)).refreshPins else d

/-- WIDTH ms after its rise PPS_OUT falls (R515). -/
def opPpsOutFall (d : Dev) : Dev := d.ppsFall

/-- A write of TIME_ALARM_NS: FIRED is write-1-to-clear, ARMED and NS are written, source 0x012 clears (R516, R521). -/
def TimeU.armAlarm (t : TimeU) (v : Word) : TimeU :=
  { t with
    alarmNs := pack [(fld v 0 30, 0, 30), (b2n (bit t.alarmNs 30 && !bit v 30), 30, 1), (b2n (bit v 31), 31, 1)]
    alarmOut := false }

/-- The alarm's time is reached: on the fine counter, or in DEEP and DORMANT on the coarse one (R516). -/
def opAlarmFire (d : Dev) : Dev :=
  if d.ust uTime != .asleep then d.fireAlarm
  else match d.time.slept with
    | none => d
    | some r =>
      if bit d.time.alarmNs 31 && r.alarmAt.any fun a => decide ((a - r.c0).toNat ≤ (d.time.coarse - r.c0).toNat) then d.ringAlarm else d

/-! ### Control writes -/

/-- The nominal increment of a REF_FREQ in units of 2^−32 ns (R503). -/
def nominalRef : Nat → Option (BitVec 40)
  | 1 => some (BitVec.ofNat 40 (100 * 2 ^ 32))
  | 2 => some (BitVec.ofNat 40 (40 * 2 ^ 32))
  | 3 => some (BitVec.ofNat 40 (10 * 2 ^ 32))
  | _ => none

/-- A write of TIME_CTRL (R503, R519): it writes REF_FREQ, which loads INC_REF. Another REF_FREQ is measured afresh
(assumption 31). -/
def Dev.writeTimeCtrl (d : Dev) (v : Word) : Dev :=
  let t := d.time
  let t1 := { t with ctrl := merge 0x1FF t.ctrl v, incRef := (nominalRef (fld v 5 2)).getD t.incRef, incCalRef := false }
  if fld v 5 2 = fld t.ctrl 5 2 then { d with time := t1 } else ({ d with time := { t1 with refOk := false } }).switchSource true

/-- A write of TIME_INC_FRAC applies the held pair (R503). It prevails over a calibration in the same cycle (R504). -/
def TimeU.writeIncFrac (t : TimeU) (v : Word) : TimeU :=
  let sel := bit t.ctrl 8
  let old := if sel then t.incInt else t.incRef
  let ns := if t.incPend then t.incHold.toNat else old.toNat / 2 ^ 32
  let inc := BitVec.ofNat 40 (ns * 2 ^ 32 + v.toNat)
  let t1 := { t with incPend := false, incFresh := t.incFresh || sel == t.srcInt }
  if sel then { t1 with incInt := inc } else { t1 with incRef := inc }

/-- A write of TIME_INC_NS is held (R503). -/
def TimeU.writeIncNs (t : TimeU) (v : Word) : TimeU := { t with incHold := v.setWidth 8, incPend := true }

/-- The word of TIME_STATUS (R520). -/
def TimeU.status (t : TimeU) : Word :=
  let slew := t.slewing.isSome || t.adjusting
  pack [(t.quality.toNat, 0, 3), (b2n t.srcInt, 3, 1), (b2n t.refOk, 4, 1), (b2n t.ppsOk, 5, 1), (b2n slew, 6, 1),
    (b2n t.calValid, 7, 1), (b2n t.incCalRef, 8, 1), (b2n t.incCalInt, 9, 1), (b2n t.retro, 10, 1),
    (t.lockCount, 16, 3), (t.steps.toNat, 24, 8)]

/-- A read of the TIME block, the snapshot of TIME_SEC_LO apart (R518). -/
def TimeU.read (t : TimeU) (off : Nat) : Word :=
  match off with
  | 0x00 => t.ctrl
  | 0x04 => t.status
  | 0x08 => BitVec.ofNat 32 t.sec.toNat
  | 0x0C => t.snapHi.setWidth 32
  | 0x10 => t.snapNs.setWidth 32
  | 0x14 => t.snapFrac.setWidth 32
  | 0x18 => BitVec.ofNat 32 ((if bit t.ctrl 8 then t.incInt else t.incRef).toNat / 2 ^ 32)
  | 0x1C => BitVec.ofNat 32 (if bit t.ctrl 8 then t.incInt else t.incRef).toNat
  | 0x20 => t.stepLimit
  | 0x24 => t.slewReg
  | 0x28 => t.ppsErr
  | 0x2C => t.cal
  | 0x30 => t.holdover
  | 0x34 => t.alarmSec
  | 0x38 => t.alarmNs
  | 0x3C => t.ppsOut
  | _ => 0

/-- The snapshot a read of TIME_SEC_LO takes (R501). -/
def TimeU.snapshot (t : TimeU) : TimeU :=
  { t with
    snapHi := BitVec.ofNat 16 (t.sec.toNat / 2 ^ 32), snapNs := t.ns
    snapFrac := BitVec.ofNat 16 (t.frac.toNat / 2 ^ 24), snapQ := t.quality }

/-- A write of the TIME block (R518–R521). -/
def Dev.writeTime (d : Dev) (off : Nat) (v : Word) : Dev :=
  let t := d.time
  match off with
  | 0x00 => d.writeTimeCtrl v
  | 0x18 => { d with time := t.writeIncNs v }
  | 0x1C => { d with time := t.writeIncFrac v }
  | 0x20 => { d with time := { t with stepLimit := merge 0x3FFFFFFF t.stepLimit v } }
  | 0x24 => { d with time := { t with slewReg := v } }
  | 0x34 => { d with time := { t with alarmSec := v } }
  | 0x38 => ({ d with time := t.armAlarm v }).refreshPins
  | 0x3C => { d with time := { t with ppsOut := merge 0xFF01 t.ppsOut v } }
  | _ => d

/-- A write of TIME_ALARM_NS through a path (R516). -/
def opAlarmArm (path : Path) (v : Word) (d : Dev) : Dev := d.filtered path .time 0x38 fun d => d.writeTime 0x38 v

/-- A write of TIME_INC_FRAC through a path (R503). -/
def opTimeIncFracWrite (path : Path) (v : Word) (d : Dev) : Dev := d.filtered path .time 0x1C fun d => d.writeTime 0x1C v

/-- A write of TIME_CTRL through a path (R503, R519). -/
def opTimeCtrlWrite (path : Path) (v : Word) (d : Dev) : Dev := d.filtered path .time 0x00 fun d => d.writeTime 0x00 v

/-- A read of TIME_SEC_LO through a path (R501). -/
def opTimeSecLoRead (path : Path) (d : Dev) : Dev :=
  d.readThrough path .time 0x08 0x280008 fun d => (d.time.read 0x08, { d with time := d.time.snapshot })

/-! ### TIME_SET, TIME_ADJ (R416, R417) -/

/-- The checks TIME_SET and TIME_ADJ share, after R391; a FAULTED unit answers BUSY (R20). -/
def Dev.timeCheck (d : Dev) (iss : Issuer) (x : Desc) (bad : Bool) : Option Nat :=
  if dword x 1 ≠ 0x7000 ∨ bad then some stBad
  else if !d.inPart iss.reader uTime then some stPerm
  else if d.time.cmd.isSome || d.ust uTime == .faulted then some stBusy
  else none

/-- TIME_SET (R416). -/
def opTimeSet (iss : Issuer) (x : Desc) (d : Dev) : Dev :=
  d.begin iss x 0x40 false false ([(1, 0xFFFF0000), (2, 0xFFFFFFFE), (5, 0xC0000000)] ++ resFrom 6) fun d e =>
    let sec := (dword x 3).toNat + fld (dword x 4) 0 16 * 2 ^ 32
    let frac := fld (dword x 4) 16 16
    let ns := fld (dword x 5) 0 30
    match d.timeCheck iss x (decide (ns ≥ 10 ^ 9)) with
    | some st => d.complete e st uTime 0
    | none =>
      if bit (dword x 2) 0 then
        ({ d with time := { d.time with cmd := some (.setPps e (BitVec.ofNat 48 sec) (BitVec.ofNat 30 ns) (BitVec.ofNat 16 frac)) } }).setKind e .time
      else
        let (d1, s) := d.timeSetTo (timeOf sec ns frac)
        d1.complete e stDone uTime (satS64 (nearNs s))

/-- No valid edge within 2 s (R416). -/
def opTimeSetPpsTimeout (d : Dev) : Dev :=
  match d.time.cmd with
  | some (.setPps e _ _ _) => ({ d with time := { d.time with cmd := none } }).complete e stTimeout uTime 0
  | _ => d

/-- Time a slew of `x` (2^−40 ns) takes at `rate` ppb, in units of 2^−40 ns. -/
def slewTakes (x : Int) (rate : Nat) : Nat := x.natAbs * 10 ^ 9 / max 1 rate

/-- µs of a time in units of 2^−40 ns, saturating at 32 bits. -/
def usOf (n : Nat) : DWord := (satU32 (n / (1000 * 2 ^ 40))).setWidth 64

/-- TIME_ADJ (R417). -/
def opTimeAdj (iss : Issuer) (x : Desc) (d : Dev) : Dev :=
  d.begin iss x 0x41 false false ([(1, 0xFFFF0000), (2, 0xFFFFFFFE), (5, 0xFFFF0000)] ++ resFrom 6) fun d e =>
    match d.timeCheck iss x false with
    | some st => d.complete e st uTime 0
    | none =>
      let off : Int := (dqword x 3).toInt * 2 ^ 24
      if bit (dword x 2) 0 then ((d.stepTime off).setQuality qFreerun).complete e stDone uTime 0
      else
        let r := fld (dword x 5) 0 16
        let rate := if r = 0 then d.time.rate else r
        ({ d with time := { d.time with cmd := some (.slew e off rate 0), slewing := none, calBad := true } }).setKind e .time

/-- A slew has applied its whole offset (R417): what was left is applied, and a TIME_ADJ completes with the µs taken. -/
def opSlewEnd (d : Dev) : Dev :=
  let t := d.time
  if d.ust uTime == .asleep then d
  else match t.cmd with
  | some (.slew e left rate us) =>
    (({ d with time := { t.putNow (t.now + left) with cmd := none } }).fireAlarm).complete e stDone uTime
      (usOf (us + slewTakes left rate))
  | _ =>
    match t.slewing with
    | some (left, _) => ({ d with time := { t.putNow (t.now + left) with slewing := none, calSlew := t.calSlew + left } }).fireAlarm
    | none => d

/-- End a TIME command with INTERNAL (R20): a TIME_ADJ reports the µs taken. -/
def Dev.endTimeCmd (d : Dev) : Dev :=
  match d.time.cmd with
  | some (.setPps e _ _ _) => ({ d with time := { d.time with cmd := none } }).complete e stInternal uTime 0
  | some (.slew e _ _ us) => ({ d with time := { d.time with cmd := none } }).complete e stInternal uTime (usOf us)
  | none => d

/-- A parity failure in the time unit (R20). -/
def opTimeUnitParityFault (d : Dev) : Dev :=
  if d.ust uTime != .running then d
  else
    let d1 := d.fault uTime stInternal 0
    let d2 := { d1 with time := { d1.time with srcInt := true, incInt := 0x0500000000, slewing := none, winLeft := 0, winN := 0, calBad := true } }
    let d3 := if d2.time.quality = qUnset then d2 else d2.setQuality qFreerun
    d3.endTimeCmd

/-! ### Across sleep (R511, R512) -/

/-- At coarse edge C0: the fine time and the holdover record are latched, with the coarse count that the alarm's time comes to,
PPS_OUT falls, and the unit goes to ASLEEP (R511, R515, R516). -/
def Dev.timeStop (d : Dev) (c0 : BitVec 48) : Dev :=
  let t := d.time
  let r : HoldRec :=
    { c0 := c0, f0 := t.now.toNat, cal := t.cal, slewReg := t.slewReg, holdover := t.holdover, quality := t.quality
      alarmSec := t.alarmSec, alarmNs := t.alarmNs, alarmAt := t.alarmCount c0, slew := t.cmd }
  let d1 := { d with time := { t with slept := some r, coarse := c0, coarseAcc := 0, capPps := none, slewing := none } }
  (d1.setUnit uTime .asleep .device).ppsFall

/-- At coarse edge C1 after wake: the counter is reloaded and QUALITY updated (R511), aligned retroactively where the
captured edge allows it (R512). -/
def Dev.timeReload (d : Dev) (c1 : BitVec 48) : Dev :=
  match d.time.slept with
  | none => d
  | some r =>
    let ratio : Nat := if d.time.calValid then r.cal.toNat else 0x77359400
    let el (c : BitVec 48) : Nat := (c - r.c0).toNat * ratio       -- 2^−16 ns
    let elapsed := el c1
    let stab := d.time.stab
    let grow (units : Nat) : Nat := ceilDiv (units * stab) (10 ^ 9 * 2 ^ 16)
    let bound := min (r.holdover.toNat + 100 + grow elapsed) 0xFFFFFFFE
    let x0 : Int := (r.f0 + elapsed * 2 ^ 24 : Nat)
    let t1 : TimeU := { d.time.putNow x0 with
      coarse := c1, coarseAcc := 0, slept := none, firstEdge := true, retro := false, winLeft := 0, winN := 0, lockCount := 0 }
    let d1 := { d with time := { t1 with ppsSecond := t1.sec } }
    if r.quality = qUnset then d1.fireAlarm
    else if !d.time.calValid then (d1.setQuality qFreerun).fireAlarm
    else
      let d2 := d1.setQuality qHoldover
      let d3 := { d2 with time := { d2.time with holdover := BitVec.ofNat 32 bound } }
      match d.time.capPps with
      | none => d3.fireAlarm
      | some cc =>
        let e := phaseErr ((r.f0 + el cc * 2 ^ 24 : Nat) : Int)
        let rb := 30518 + grow ((c1 - cc).toNat * ratio)
        if bound < 500000000 && rb < bound then
          ({ d3 with time := { d3.time.putNow (x0 - e) with holdover := BitVec.ofNat 32 rb, retro := true } }).fireAlarm
        else d3.fireAlarm

/-! ### The commands -/

/-- TIME_SET (R416). -/
def execTimeSet (iss : Issuer) (d : Desc) (s : State) : Res :=
  runCmd (.timeSet iss d) (opTimeSet iss d) s

/-- TIME_ADJ (R417). -/
def execTimeAdj (iss : Issuer) (d : Desc) (s : State) : Res :=
  runCmd (.timeAdj iss d) (opTimeAdj iss d) s

/-- PPS_EDGE (R506). -/
def execPpsEdge (backHalfNs : Nat) (s : State) : Res :=
  runCmd (.ppsEdge backHalfNs) (opPpsEdge backHalfNs) s

/-- ALARM_ARM (R516). -/
def execAlarmArm (path : Path) (value : Word) (s : State) : Res :=
  runCmd (.alarmArm path value) (opAlarmArm path value) s

/-- TIME_INC_FRAC_WRITE (R503). -/
def execTimeIncFracWrite (path : Path) (value : Word) (s : State) : Res :=
  runCmd (.timeIncFracWrite path value) (opTimeIncFracWrite path value) s

/-- TIME_CTRL_WRITE (R503). -/
def execTimeCtrlWrite (path : Path) (value : Word) (s : State) : Res :=
  runCmd (.timeCtrlWrite path value) (opTimeCtrlWrite path value) s

/-- TIME_SEC_LO_READ (R501). -/
def execTimeSecLoRead (path : Path) (s : State) : Res :=
  runCmd (.timeSecLoRead path) (opTimeSecLoRead path) s

/-- TIME_SET_PPS_TIMEOUT (R416). -/
def execTimeSetPpsTimeout (s : State) : Res :=
  runCmd (.timeSetPpsTimeout) (opTimeSetPpsTimeout) s

/-- SLEW_END (R417). -/
def execSlewEnd (s : State) : Res :=
  runCmd (.slewEnd) (opSlewEnd) s

/-- PPS_LOST (R506). -/
def execPpsLost (s : State) : Res :=
  runCmd (.ppsLost) (opPpsLost) s

/-- REF_LOST (R502). -/
def execRefLost (s : State) : Res :=
  runCmd (.refLost) (opRefLost) s

/-- REF_RETURN (R502). -/
def execRefReturn (s : State) : Res :=
  runCmd (.refReturn) (opRefReturn) s

/-- COARSE_CALIBRATION (R505). -/
def execCoarseCalibration (s : State) : Res :=
  runCmd (.coarseCalibration) (opCoarseCalibration) s

/-- HOLDOVER_TICK (R510). -/
def execHoldoverTick (s : State) : Res :=
  runCmd (.holdoverTick) (opHoldoverTick) s

/-- PPS_OUT_PULSE (R515). -/
def execPpsOutPulse (s : State) : Res :=
  runCmd (.ppsOutPulse) (opPpsOutPulse) s

/-- PPS_OUT_FALL (R515). -/
def execPpsOutFall (s : State) : Res :=
  runCmd (.ppsOutFall) (opPpsOutFall) s

/-- ALARM_FIRE (R516). -/
def execAlarmFire (s : State) : Res :=
  runCmd (.alarmFire) (opAlarmFire) s

/-- TIME_UNIT_PARITY_FAULT (R20). -/
def execTimeUnitParityFault (s : State) : Res :=
  runCmd (.timeUnitParityFault) (opTimeUnitParityFault) s

end Sys2Proof.Machine
end

