-- ==== Sys2Proof/Machine/Power.lean ====
section
/-! DEFINITION. Power states and clocks (chapter "Power States and Clocks"): the stop of every unit in nine steps, the drop,
the wake, wake on access, the power-fail warning (R130, R534, R615, R616), the PLLs and the frequency measurement. -/

namespace Sys2Proof.Machine

/-! ### Who is asked (R526, R535) -/

/-- MODE of the sleep that is entered or in force (R525). -/
def Dev.sleepMode (d : Dev) : Nat := d.pwr.modeIn.toNat

/-- A domain stays powered and running in DOZE and NAP (R535). -/
def Dev.kept (d : Dev) (k : Nat) : Bool := decide (d.sleepMode ≤ 2) && decide (k < 126) && d.domPowered k && d.pwr.keepIn.getLsbD k

/-- The units that step `k` asks, before those of kept domains are left out. -/
def stepUnits : Nat → List Nat
  | 1 => [uBgs]
  | 2 => (List.range 4).map uLane ++ [uCfgPort, uRake, uStore]
  | 3 => (List.range 64).map uPan
  | 4 => (List.range 24).map uFport ++ (List.range 16).map uPinBank
  | 5 => (List.range 96).map uLink
  | 6 => (List.range 128).map uBank
  | 7 => (List.range 64).map uRouter
  | 8 => (List.range 4).map uHost
  | 9 => uTime :: (List.range 16).map uClk
  | _ => []

/-- The units that step `k` asks. -/
def Dev.stepAsked (d : Dev) (k : Nat) : List Nat :=
  (stepUnits k).filter fun u =>
    d.ust u != .off && d.ust u != .retired && !((unitDomain u).any fun n => d.kept n)

/-- Some pan has persistent elements. -/
def Dev.anyPersistent (d : Dev) : Bool := (List.range 64).any fun p => !(d.persistent p).isEmpty

/-- The Store refuses for want of an erased save unit (R527). -/
def Dev.noSave (d : Dev) : Bool := decide (3 ≤ d.sleepMode) && d.anyPersistent && d.storeNv.saveUnit.isNone

/-- The condition under which a router accepts: no flit, no reservation, no outstanding miss (R526). -/
def Dev.sluiceQuiet (d : Dev) : Bool :=
  d.live.isEmpty && d.sl.invals.isEmpty && (d.sl.ingress.all fun e => e.2.misses.isEmpty && e.2.resp.isEmpty) &&
    d.sl.dests.all fun e => e.2.table.isEmpty && e.2.queue.isEmpty

/-- The bank is the source of a move in its close or finish (R332). -/
def Dev.bankMoving (d : Dev) (n : Nat) : Bool := d.rake.moves.any fun m => m.srcBank == n && m.phase == .close

/-- The bank of a group has nothing queued. -/
def Dev.bankIdle (d : Dev) (n : Nat) : Bool := (d.bank n).queue.isEmpty && !d.bankMoving n

/-- A program or an erase of a foreground operation is in progress in the Store (R526). A VAULT_WRITE that waits for a compaction to
erase a log unit programs nothing. -/
def Dev.storeBusy (d : Dev) : Bool :=
  (d.store.jobs.head?.any fun j => j.exec.isSome &&
    (match j.phase with | .waiting | .readHeader | .readResource | .readBody => false | _ => true)) ||
    (d.store.vjobs.find? fun j => j.phase == .ready).any fun j =>
      (d.vaultUnit (mkVault (vaultId j.desc) (vaultOwner j.iss) 0 (j.data.take (fld (dword j.desc 2) 0 16))).size).isSome

/-- ASPM L1 and L1.2 are enabled in a host port's configuration space, or its link is not RUNNING (R526; assumption 81). -/
def Dev.mayEnterL1 (d : Dev) (p : Nat) : Bool :=
  d.ust (uHost p) != .running || ((d.hp p).conf.linkCtl.getLsbD 1 && (d.hp p).conf.l1Sub.getLsbD 2)

/-- A unit's condition for accepting the stop (R526). A RUNNING pan's is its QACK. -/
def Dev.stopOk (d : Dev) (u : Nat) : Bool :=
  let k := unitIdx u
  match unitClass u with
  | 0x1 => d.ust u != .running || ((d.pan k).qreq && d.qackHigh k)
  | 0x6 | 0xC | 0xE => true
  | 0x3 => d.sleepMode == 1 || !(d.link (d.leadOf k)).brera? || d.ust u != .running || (d.link (d.leadOf k)).sleepOk
  | 0x4 => d.sleepMode == 1 || d.fportQuiet k
  | 0x2 => d.bankIdle k
  | 0xA => d.sluiceQuiet
  | 0x5 => !(d.running.any fun e => e.2.onPort k && e.2.kind != .wait) && (!(d.sleepMode == 2 || d.sleepMode == 3) || d.mayEnterL1 k)
  | 0x7 => decide (d.sleepMode ≤ 2)
  | 0x8 => if u = uCfgPort then d.cfg.load.isNone else !((d.lanePass k).any fun x => x.kind != .pre)
  | 0x9 => d.rakeIdle
  | 0xB => !d.storeBusy && !d.noSave
  | _ => false

/-- The lead port's tables let it ask its peer to sleep (R455). -/
def Dev.linkEmpty (d : Dev) (n : Nat) : Bool :=
  let l := d.link (d.lhome n)
  l.unacked.isEmpty && l.sendQ.isEmpty && l.rxReq.isEmpty && l.xids.all fun e => match e.2 with | .used _ => false | _ => true

/-- A unit may answer with a refusal: its condition fails. Pans and routers refuse only by giving no answer (R526), and so does a Brera
port whose REQUEST is unanswered, while its tables are empty (R455). -/
def Dev.mayRefuse (d : Dev) (u : Nat) : Bool :=
  match unitClass u with
  | 0x1 | 0x6 | 0x7 | 0xA | 0xC | 0xE => false
  | 0x2 => d.bankMoving (unitIdx u)
  | 0x3 => !d.stopOk u && !((d.link (d.leadOf (unitIdx u))).sleepAsked && d.linkEmpty (d.leadOf (unitIdx u)))
  | _ => !d.stopOk u

/-- A unit that gives no answer in time refuses (R526). -/
def mayTimeout (u : Nat) : Bool :=
  match unitClass u with | 0x6 | 0x7 | 0xC | 0xE => false | _ => true

/-! ### Asking (R526, R223, R455) -/

/-- One unit is asked to stop: a pan's QREQ rises, a Brera port sends SLEEP REQUEST. -/
def Dev.askUnit (d : Dev) (u : Nat) : Dev :=
  let k := unitIdx u
  if unitClass u = 1 then if d.ust u == .running then d.setQreq k true else d
  else if unitClass u = 3 && decide (2 ≤ d.sleepMode) && d.breraRuns k && d.linkEmpty k then
    (d.modLink k fun l => { l with sleepAsked := true }).emit (.linkSleep k .request)
  else d

/-! ### The drop (R527, R523, R21) -/

/-- The domains that sleep in the mode entered. -/
def Dev.sleepDoms (d : Dev) : List Nat :=
  (List.range 126).filter fun k =>
    d.domPowered k && !d.kept k &&
      !(d.sleepMode == 1 && ((decide (80 ≤ k) && decide (k ≤ 103)) || (decide (109 ≤ k) && decide (k ≤ 124))))

/-- A unit goes to ASLEEP with its domain, or as R647 names it. The time unit sleeps at C0. -/
def Dev.sleepsNow (d : Dev) (doms : List Nat) (u : Nat) : Bool :=
  let s := d.ust u
  s != .off && s != .retired && s != .asleep &&
    (match unitDomain u with
     | some k => doms.contains k
     | none => unitClass u == 0 || unitClass u == 8 || unitClass u == 9 || unitClass u == 0xC)

/-- A unit goes to ASLEEP; a bank abandons its moves, for it leaves RUNNING (R328). -/
def Dev.goToSleep (d : Dev) (u : Nat) : Dev :=
  (if unitClass u = 2 then d.abandonBank (unitIdx u) else d).setUnit u .asleep .device

/-- The domains' outputs are clamped at once and their units go to ASLEEP; the Rake passes through QUIESCED (R213). -/
def Dev.sleepUnits (d : Dev) (doms : List Nat) : Dev :=
  let d1 := d.keepSinks.shutPans ((List.range 64).filter fun p => doms.contains p && d.ust (uPan p) == .running)
  let moved := d1.ust uRake == .running
  let d2 := if moved then d1.setUnit uRake .quiesced .device else d1
  let d3 := { d2 with pwr := { d2.pwr with rakeMoved := moved } }
  let d4 := foldS (fun d u => if d.sleepsNow doms u then d.goToSleep u else d) d3 allUnits
  let q := d4.clk.qpll.toNat
  let off := (List.range 24).foldl (fun n j => if doms.contains (80 + j) then n else n ||| (q &&& 2 ^ j)) 0
  { d4 with clk := { d4.clk with qpll := BitVec.ofNat 24 off } }

/-- In DEEP and DORMANT every PLL stops (R540). -/
def Dev.stopPlls (d : Dev) (on : Bool) : Dev :=
  { d with clk := { d.clk with
    plls := foldS (fun (t : Tab Pll) k =>
      let p : Pll := t.get {} k
      if bit p.cfg 0 then t.set {} k { p with stopped := on } else t) d.clk.plls (List.range 16) } }

/-- In DORMANT the pins take their CFG_PULL state and the hosts see DL_Down (R490, R523). -/
def Dev.unpower (d : Dev) : Dev :=
  let d1 := { d with pins := { d.pins with enabled := [] } }.refreshPins
  foldS (fun d p => d.modHp p HostPort.unlinked) d1 [0, 1, 2, 3]

/-- µs that coarse ticks take at the nominal rate. -/
def coarseUs (n : Nat) : Nat := n * 15625 / 512

/-- The wake begins (R529, R531, R532). From DORMANT it is a start-up, and the time asleep is what the coarse counter, which
alone counts then, has counted (R544; assumption 85). -/
def Dev.beginWake (d : Dev) (early : Bool) (code unit : Nat) (st : Straps) (cells : StartCells) : Dev :=
  let cause := code + (if early then 0x80 else 0)
  let p := { d.pwr with
    wakeCause := pack [(cause, 0, 8), (unit, 16, 16)], wakeCode := BitVec.ofNat 8 cause, wakeUnit := BitVec.ofNat 16 unit
    early := none, earlyCount := if early then satInc d.pwr.earlyCount else d.pwr.earlyCount }
  let d1 := { d with pwr := p }
  if d.sleepMode ≠ 4 then { d1 with pwr := { p with phase := .waking } }
  else
    let us := if early then 0 else coarseUs (d.time.coarse - d.pwr.dropAt).toNat
    ({ d1 with pwr := { p with lastSleep := satU32 us } }).clearedWarm.startUp .dormant st cells

/-- The power drops once step 9 has ended (R527); a wake event that came during the entry starts the wake at once (R529). -/
def Dev.powerDrop (d : Dev) : Dev :=
  let m := d.sleepMode
  let (d1, saved) := if 3 ≤ m && !d.nvStopped then d.saveAll else (d, [])
  let doms := d1.sleepDoms
  let d2 := if m = 1 then d1 else d1.sleepUnits doms
  let d3 := if 3 ≤ m then d2.stopPlls true else d2
  let d4 := if m = 4 then d3.unpower else d3
  let d5 := { d4 with pwr := { d4.pwr with phase := .asleep, step := 0, slept := doms, awoken := [], waking := [], savedPans := saved, dropAt := d4.time.coarse } }.refreshPins
  match d5.pwr.early with
  | none => d5
  | some (c, u, st, cells) => d5.beginWake true c.toNat u st cells

/-! ### The steps -/

/-- Ask step `k`, or drop power after the last; a step that asks nobody has ended. -/
def Dev.askStep (d : Dev) : Nat → Nat → Dev
  | 0, _ => d
  | n + 1, k =>
    if 9 < k then d.powerDrop
    else
      let us := d.stepAsked k
      let d1 := { d with pwr := { d.pwr with step := k, asked := us, refused := [] } }
      if us.isEmpty then d1.askStep n (k + 1) else foldS Dev.askUnit d1 us

/-- The lowest of the units that refused, with its reason. -/
def lowestRefuser (l : List (Nat × Nat)) : Nat × Nat := (argMin (fun (e : Nat × Nat) => (e.1 : Int)) l).getD (0, 0)

/-- The sleep controller alone raised QREQ at a pan: no STOP of the management path and no operation waits for it (R223). -/
def Dev.sleepQreq (d : Dev) (p : Nat) : Bool := d.ust (uPan p) == .running && (d.pan p).stopPend.isNone && (d.opOf p).isNone

/-- Give up an entry (R528): its QREQ withdrawn, SLEEP REFUSE where a peer had accepted, the refusal recorded, WAIT REFUSED. -/
def Dev.abortSleep (d : Dev) : Dev :=
  let (u, reason) := lowestRefuser d.pwr.refused
  let d1 := foldS (fun d p => if d.sleepQreq p then d.setQreq p false else d) d (List.range 64)
  let d2 := foldS (fun d n =>
    let l := d.link n
    let d1 := if l.sleepOk then d.emit (.linkSleep n .refuse) else d
    if l.sleepOk || l.sleepAsked then d1.modLink n fun l => { l with sleepOk := false, sleepAsked := false } else d1) d1 (List.range 96)
  let p := d2.pwr
  let c := unitClass u
  let d3 := { d2 with pwr := { p with
    phase := .awake, step := 0, asked := [], refused := [], stopped := [], early := none, waitExec := none, modeIn := 0
    lastRefuser := pack [(u, 0, 16), (p.step, 16, 4), (reason, 20, 2), (p.modeIn.toNat, 22, 3)]
    refuse := p.refuse.set 0 c (satInc (p.refuse.get 0 c)), abortCount := satInc p.abortCount } }
  (match p.waitExec with
   | some e => d3.complete e stRefused u (BitVec.ofNat 64 (2 ^ 63))
   | none => d3).resumeRake

/-- Every unit of the step has answered: the next step is asked, or the entry is given up. -/
def Dev.stepEnd (d : Dev) : Dev :=
  if !d.pwr.asked.isEmpty then d
  else if d.pwr.refused.isEmpty then d.askStep 10 (d.pwr.step + 1)
  else d.abortSleep

/-- Borrowed slots are restored before background services stop (R332, R556). -/
def Dev.restoreSlots (d : Dev) : Dev :=
  foldS (fun (d : Dev) n => if (d.bank n).borrow.isSome then d.modBank n Bank.abortBorrow else d) d (List.range 128)

/-- What a unit does as it accepts: background services and the lanes leave what they may, and a bank restores its borrowed
slot; a host port sends its LTR message before it enters L1 (R526, R555, R213, R332, R533). -/
def Dev.onAccept (d : Dev) (u : Nat) : Dev :=
  match unitClass u with
  | 0xC => (match d.bgs.pstRun with | some p => d.restoreSlots.abortPst p | none => d.restoreSlots)
  | 0x8 => if u = uCfgPort then d else d.abandonPre
  | 0x9 => d.abandonPre
  | 0x2 => d.modBank (unitIdx u) Bank.abortBorrow
  | 0x5 =>
    let p := unitIdx u
    if (d.sleepMode == 2 || d.sleepMode == 3) && d.ust u == .running && (d.hp p).conf.devCtl2.getLsbD 10 then
      d.emit (.ltr p (if d.sleepMode = 2 then 20 else 400))
    else d
  | _ => d

/-- In DOZE, pins, field ports, links, the time unit and the clocks keep running (R523). -/
def Dev.gates (d : Dev) (u : Nat) : Bool :=
  d.sleepMode != 1 || !(unitClass u == 3 || unitClass u == 4 || unitClass u == 6 || unitClass u == 7 || unitClass u == 0xE)

/-- A unit accepts. -/
def Dev.acceptUnit (d : Dev) (u : Nat) : Dev :=
  let d1 := d.onAccept u
  ({ d1 with pwr := { d1.pwr with
    asked := d1.pwr.asked.erase u, stopped := if d.gates u then d1.pwr.stopped ++ [u] else d1.pwr.stopped } }).stepEnd

/-- A unit refuses with a reason: 0 refused, 1 no answer, 2 NO_SAVE (R546). -/
def Dev.refuseUnit (d : Dev) (u reason : Nat) : Dev :=
  ({ d with pwr := { d.pwr with asked := d.pwr.asked.erase u, refused := d.pwr.refused ++ [(u, reason)] } }).stepEnd

/-- The sleep controller asks this unit. -/
def Dev.isAsked (d : Dev) (u : Nat) : Bool := d.pwr.phase == .entering && d.pwr.asked.contains u

/-- UNIT_STOP_ACCEPT. -/
def opUnitStopAccept (u : Nat) (d : Dev) : Dev := if d.isAsked u && d.stopOk u && !d.pllDead 0 then d.acceptUnit u else d

/-- UNIT_STOP_REFUSE. -/
def opUnitStopRefuse (u : Nat) (d : Dev) : Dev :=
  if d.isAsked u && d.mayRefuse u && !d.pllDead 0 then d.refuseUnit u (if u = uStore && d.noSave then 2 else 0) else d

/-- PWR_STOP_TIMEOUT: whoever has not answered and may refuse, refuses. -/
def opPwrStopTimeout (d : Dev) : Dev :=
  let us := d.pwr.asked.filter mayTimeout
  if d.pwr.phase != .entering || us.isEmpty || d.pllDead 0 then d
  else ({ d with pwr := { d.pwr with
    asked := d.pwr.asked.filter fun u => !mayTimeout u, refused := d.pwr.refused ++ us.map fun u => (u, 1) } }).stepEnd

/-! ### WAIT (R418–R420, R525) -/

/-- WAIT. -/
def opWait (iss : Issuer) (x : Desc) (d : Dev) : Dev :=
  d.beginAt (d.pllDead 0) iss x 0x50 ([(1, 0xFFFF0000), (2, 0xFFFF0000)] ++ resFrom 3) fun d e =>
    let mode := fld d.pwr.mode 0 3
    if dword x 1 ≠ 0 ∨ mode = 0 ∨ 4 < mode then d.complete e stBad 0 0
    else if !(d.part iss.reader).power then d.complete e stPerm 0 0
    else match d.epochCheck 0 (BitVec.ofNat 16 (fld (dword x 2) 0 16)) (d.pwr.phase != .awake) (d.ust 0 == .running) with
      | some st => d.complete e st 0 (d.epochInfo 0)
      | none =>
        let d1 := d.setKind e .wait
        ({ d1 with pwr := { d1.pwr with
          phase := .entering, step := 0, modeIn := BitVec.ofNat 3 mode, keepIn := d.pwr.keep
          resleepIn := BitVec.ofNat 16 (fld d.pwr.mode 8 16), waitExec := some e, stopped := [], early := none }
                   time := { d1.time with alarmRang := false } }).askStep 10 1

/-! ### Brera SLEEP blocks (R455, R528) -/

/-- Nothing is queued or reserved for the link of home port `h`. -/
def Dev.linkIdle (d : Dev) (h : Nat) : Bool :=
  let l := d.link h
  l.sendQ.isEmpty && l.unacked.isEmpty && (d.dest (64 + h)).table.isEmpty && (d.dest (64 + h)).granted == 0

/-- The answer to a SLEEP REQUEST has come: the ports of the link accept or refuse the stop. -/
def Dev.sleepAnswer (d : Dev) (n : Nat) (ok : Bool) : Dev :=
  let d1 := d.modLink n fun l => { l with sleepAsked := false, sleepOk := ok }
  if !d1.isAsked (uLink n) then d1 else if ok then d1.acceptUnit (uLink n) else d1.refuseUnit (uLink n) 0

/-- SLEEP_BLOCK. -/
def opSleepBlock (n : Nat) (k : SleepKind) (d : Dev) : Dev :=
  if d.farLoop n then d.emit (.linkSleep n k)
  else if !d.breraRuns n then d
  else match k with
    | .request =>
      if d.linkIdle (d.lhome n) then (d.modLink n fun l => { l with peerAsleep := true }).emit (.linkSleep n .accept)
      else d.emit (.linkSleep n .refuse)
    | .accept => if (d.link n).sleepAsked then d.sleepAnswer n true else d
    | .refuse =>
      if (d.link n).sleepAsked then d.sleepAnswer n false
      else if (d.link n).peerAsleep then (d.modLink n fun l => { l with peerAsleep := false, waking := false }).flushLink (d.lhome n)
      else d

/-- SLEEP_ANSWER_TIMEOUT: no answer within 10 µs. -/
def opSleepAnswerTimeout (n : Nat) (d : Dev) : Dev := if (d.link n).sleepAsked then d.sleepAnswer n false else d

/-! ### Wake (R531–R533) -/

/-- The unit ID that a wake source reports; none: the source is no such unit's, or does not wake from this mode (R531). -/
def Dev.wakeSource (d : Dev) (code unit : Nat) : Option Nat :=
  let m := d.sleepMode
  match code with
  | 1 => if d.locked 7 then none else some (uMgmt .smbus)
  | 2 => some uTime
  | 3 =>
    let pends := d.pins.pins.any fun e => pinBank e.1 == unitIdx unit && e.2.wakeEn && e.2.pend
    if unitClass unit = 6 && unitExists unit && decide (m ≤ 3) && pends then some unit else none
  | 4 => if unitClass unit = 3 && unitExists unit && decide (m ≤ 3) && (m != 1 || d.ust unit != .running) then some unit else none
  | 5 => if unitClass unit = 5 && unitExists unit then some unit else none
  | 6 => if d.time.alarmRang then some uTime else none
  | _ => none

/-- WAKE_EVENT: an enabled source fires; during the entry it is latched (R529). PFW_N wakes through its own commands. -/
def opWakeEvent (code : BitVec 4) (unit : Nat) (st : Straps) (cells : StartCells) (d : Dev) : Dev :=
  match (if bit d.pwr.wakeEn (code.toNat - 1) then d.wakeSource code.toNat unit else none) with
  | none => d
  | some u =>
    match d.pwr.phase with
    | .entering => if d.pwr.early.isSome then d else { d with pwr := { d.pwr with early := some (code, u, st, cells) } }
    | .asleep => d.beginWake false code.toNat u st cells
    | _ => d

/-- A unit returns from ASLEEP to the state it held: a field port that returns to IDLE has empty FIFOs, and a CAN FD port that
runs again integrates first (R21, R481, R490). -/
def Dev.wakeUnit (d : Dev) (u : Nat) : Dev :=
  let k := unitIdx u
  let back := (d.unit u).prior
  if unitClass u = 4 && back == .idle then d.fportToIdle k .device
  else if unitClass u = 4 && back == .running && (d.fport k).kind == 3 then
    (d.modFport k fun x => { x with integrating := true }).setUnit u back .device
  else d.setUnit u back .device

/-- Each unit that sleeps returns to the state it held (R21); of those that return to FAULTED the lowest is noted last (R639). -/
def Dev.wakeUnits (d : Dev) (p : Nat → Bool) : Dev :=
  let us := allUnits.filter fun u => p u && d.ust u == .asleep && u != uTime
  let d1 := foldS Dev.wakeUnit d us
  foldS (fun d u => d.noteFault u 0) d1 (us.filter fun u => d1.ust u == .faulted).reverse

/-- A UNIT_CMD whose unit this wake has brought out of ASLEEP is compared with the epoch of its sleep while nothing else moves
the unit (R31). -/
def Dev.noteWoken (d0 d : Dev) : Dev :=
  let note (l : LateCmd) : LateCmd :=
    if d0.ust l.unit == .asleep && d.ust l.unit != .asleep then { l with woken := some (d.unit l.unit).epoch } else l
  d.modMg .smbus fun m => { m with late := m.late.map note }

/-- Lines that wait in receive buffers are presented, and pans whose clocks run again settle (R48). -/
def Dev.afterWake (d : Dev) (pans : List Nat) : Dev :=
  foldS (fun (d : Dev) (e : Nat × LinkPort) => if e.2.rxBuf.isEmpty then d else d.pushRxLine e.1) (foldS Dev.settle d pans).refreshPins d.links

/-- The wake ends the holds of a save in NAP or DEEP: the warning passed without a loss of power, which wakes the device, or
would where PWR_WAKE_EN lets it. A hold whose warning came in DOZE, during an entry or awake, or stands as another source wakes the
device, lasts until the next start-up (R72, R534, R616). -/
def Dev.pfwWake (d : Dev) : Bool := !d.pfwStands && (d.pwr.wakeCode == 7 || d.pwr.pfwNap) && decide (2 ≤ d.sleepMode)

/-- Pans released at step 3, at one edge: QREQ is withdrawn, a hold after a save ends, borders follow their frames again
(R113, R533, R616). -/
def Dev.wakePans (d : Dev) (slept : List Nat) : Dev :=
  let runs := (List.range 64).filter fun p => d.ust (uPan p) == .running
  let d1 := foldS (fun d p => if d.sleepQreq p then d.setQreq p false else d) d runs
  let open_ := if 2 ≤ d.sleepMode then runs.filter slept.contains else []
  let d2 := foldS (fun d p => d.modPan p fun x => { x with shut := false }) d1 open_
  d2.sourcesOf (if d.pfwWake then List.range 64 else open_) fun x => { x with srcPfw := x.srcPfw && !d.pfwWake }

/-- A link that slept trains again; it is not a link loss (R455, R533). -/
def Dev.wakeLink (d : Dev) (slept : List Nat) (n : Nat) : Dev :=
  if decide (2 ≤ d.sleepMode) && slept.contains (80 + n / 4) && d.leadOf n == n && d.ust (uLink n) == .running then
    (d.downLink n .idle .device).1
  else d

/-- The tokens and the uptime due for the time asleep in DEEP (R557, R638). -/
def Dev.sleepTime (d : Dev) (us : Nat) : Dev :=
  let n : Nat := us * min 790 (fld d.bgs.wearRate 0 10) / 10 ^ 6
  let d1 := { d with glb := { d.glb with uptime := d.glb.uptime + us * 1000 * 2 ^ 32 } }
  if n = 0 then d1 else foldS (fun d p => d.setTokens p (d.tokens p + n)) d1 (List.range 64)

/-- The saves that the sleep left: their slots are consumed, as after a restore. While a warning stands nothing non-volatile is
written: the pans stay held and the start-up that follows restores them (R527, R534, R615, R616; assumption 62). -/
def Dev.wakeSaves (d : Dev) (ps : List Nat) : Dev :=
  if d.pfwStands then d.sourcesOf ps fun x => { x with srcPfw := true }
  else foldS (fun (d : Dev) q => match d.storeNv.restorable q with | some k => d.consume k q | none => d) d ps

/-- WAKE_COMPLETE: the units are released from step 9 to step 1 and WAIT completes DONE (R533). `us` is the time from the end
of the drop to the wake event. -/
def opWakeComplete (us : Nat) (d : Dev) : Dev :=
  if d.pwr.phase != .waking || (d.sleepMode == 3 && d.time.slept.isSome) then d
  else
    let p := d.pwr
    let t := if p.wakeCode.getLsbD 7 then 0 else us
    let d1 := d.wakeUnits fun _ => true
    let d2 := if d.sleepMode = 3 then (d1.stopPlls false).sleepTime t else d1
    let d3 := foldS (fun d h => d.wakeHost h) d2 [0, 1, 2, 3]
    let d4 := foldS (fun (d : Dev) n => d.wakeLink p.slept n) d3 (List.range 96)
    let d5 := d4.wakePans p.slept
    let d6 := d5.wakeSaves p.savedPans
    let d7 := if p.rakeMoved && d6.ust uRake == .quiesced then d6.setUnit uRake .running .device else d6
    let d7 := d.noteWoken d7
    let d8 := { d7 with
      pwr := { d7.pwr with
        phase := .awake, step := 0, modeIn := 0, slept := [], awoken := [], waking := [], stopped := [], asked := [], savedPans := []
        rakeMoved := false, lastSleep := satU32 t, waitExec := none, pfwNap := false } }.afterWake ((List.range 64).filter p.slept.contains)
    (match p.waitExec with
     | some e => d8.complete e stDone 0 (pack64 [(p.wakeCode.toNat, 0, 8), (p.wakeUnit.toNat, 16, 16), ((satU32 t).toNat, 32, 32)])
     | none => d8).resumeRake

/-- DEEP_ENTRY_C0: the time unit accepts the stop at a coarse edge (R511, R526). -/
def opDeepEntryC0 (c : BitVec 48) (d : Dev) : Dev :=
  if d.isAsked uTime && decide (3 ≤ d.sleepMode) then (d.timeStop c).acceptUnit uTime else d

/-- WAKE_RELOAD_C1: the counter is reloaded at a coarse edge after the wake, or in the start-up that wake from DORMANT is
(R511, R533). -/
def opWakeReloadC1 (c : BitVec 48) (d : Dev) : Dev :=
  if d.time.slept.isNone || d.pwr.phase == .entering || d.pwr.phase == .asleep then d
  else
    let d1 := d.timeReload c
    d.noteWoken (if d1.ust uTime == .asleep then d1.returnUnit uTime (d1.unit uTime).prior .device else d1)

/-! ### Wake on first access (R48, R536) -/

/-- The domain is a pan, a bank group or the Sluice. -/
def wakesAlone (k : Nat) : Bool := decide (k < 80) || k == 108

/-- DOMAIN_WAKE_ON_ACCESS. -/
def opDomainWakeOnAccess (k : Nat) (d : Dev) : Dev :=
  if d.pwr.phase != .asleep || 2 < d.sleepMode || !wakesAlone k || !d.domSleeps k || d.pwr.waking.contains k then d
  else { d with pwr := { d.pwr with waking := d.pwr.waking ++ [k] } }

/-- DOMAIN_READY: from NAP the domain's units return from ASLEEP. -/
def opDomainReady (k : Nat) (d : Dev) : Dev :=
  if d.pwr.phase != .asleep || !d.pwr.waking.contains k then d
  else
    let d1 := { d with pwr := { d.pwr with waking := d.pwr.waking.erase k, slept := d.pwr.slept.erase k, awoken := d.pwr.awoken ++ [k] } }
    let d2 := if d.sleepMode = 1 then d1 else d1.wakeUnits fun u => unitDomain u == some k
    let d3 := if d.sleepMode ≠ 1 && k < 64 && d2.ust (uPan k) == .running then d2.modPan k fun x => { x with shut := false } else d2
    (d.noteWoken d3).afterWake (if k < 64 then [k] else [])

/-- The domain is idle: a pan holds QACK, and its port is drained (R223, R536). -/
def Dev.domIdle (d : Dev) (k : Nat) : Bool :=
  if k = 108 then d.sluiceQuiet
  else if k < 64 then d.portDrainedOk k && (d.ust (uPan k) != .running || ((d.pan k).qreq && d.qackHigh k))
  else (List.range 8).all fun j => (d.bank (8 * (k - 64) + j)).queue.isEmpty

/-- RESLEEP_TIMEOUT. -/
def opResleepTimeout (k : Nat) (d : Dev) : Dev :=
  if d.pwr.phase != .asleep || d.pwr.resleepIn = 0 || !d.pwr.awoken.contains k || !d.domIdle k then d
  else
    let d1 := { d with pwr := { d.pwr with awoken := d.pwr.awoken.erase k, slept := d.pwr.slept ++ [k] } }
    if d.sleepMode = 1 then d1
    else
      let d2 := if k < 64 && d1.ust (uPan k) == .running then d1.shutPan k else d1
      (foldS (fun d u => if unitDomain u == some k && d.ust u != .off && d.ust u != .retired then d.goToSleep u else d)
        d2 allUnits).refreshPins

/-! ### The power-fail warning (R130, R190, R534, R615, R616) -/

/-- A start-up in progress: no stream is taken any more, and the save waits until DONE is released (R190, R613). -/
def Dev.pfwStart (d : Dev) : Dev := { d with cfg := { d.cfg with pfwStops := true, load := none } }

/-- The power-fail warning is an enabled wake source (R531, R546). -/
def Dev.pfwWakes (d : Dev) : Bool := bit d.pwr.wakeEn 6

/-- PFW_N falls: the fuse bit in progress is the last of its command (R599). -/
def Dev.pfwFalls (d : Dev) : Dev :=
  { d with
    pfw := { d.pfw with asserted := true, returnWait := false }
    fuse := { d.fuse with jobs := d.fuse.jobs.map fun j => { j with cut := j.cut || j.started } } }

/-- PFW_ASSERT. A warning that asserts again before the 1 ms has passed is the same warning. Once DONE is released a save is written
at once (R534, R613). -/
def opPfwAssert (d : Dev) : Dev :=
  if d.pfw.asserted then d
  else
    let again := d.pfw.returnWait
    let d1 := d.pfwFalls
    if again || d.cfg.phase == .held then d1
    else if d.cfg.phase != .user && d.cfg.phase != .waitIo then d1.pfwStart
    else match d.pwr.phase with
      | .asleep =>
        (match d.sleepMode with
         | 1 => let d2 := d1.pfwSave; if d2.pfwWakes then d2.beginWake false 7 0 default default else d2
         | 2 =>
           let d2 := d1.pfwSave
           let held := (List.range 64).filter fun p => (d2.pan p).srcPfw
           { d2 with pwr := { d2.pwr with pfwNap := true, savedPans := held } }
         | 3 => { d1 with pwr := { d1.pwr with pfwNap := true }, cfg := { d1.cfg with pfwStops := true } }
         | _ => d1)
      | .entering =>
        let d2 := d1.pfwSave
        if d2.pfwWakes && d2.pwr.early.isNone && decide (d.sleepMode ≤ 3) then { d2 with pwr := { d2.pwr with early := some (7, 0, default, default) } } else d2
      | _ => d1.pfwSave

/-- PFW_RETURN. -/
def opPfwReturn (d : Dev) : Dev :=
  if d.pfw.asserted then { d with pfw := { d.pfw with asserted := false, returnWait := true } } else d

/-- PFW_RETURN_TIMEOUT: PFW_N has stayed high for 1 ms (R616). Where the warning stopped nothing, because a start-up ran
since and has not acted on it, nothing follows (assumption 62, DEDUCED). -/
def opPfwReturnTimeout (st : Straps) (cells : StartCells) (d : Dev) : Dev :=
  if !d.pfw.returnWait then d
  else if d.cfg.phase == .held then { d with pfw := {} }
  else if d.pwr.pfwNap && (d.pwr.phase == .asleep || d.pwr.phase == .waking) then
    let d1 : Dev := { d with pfw := {}, cfg := { d.cfg with pfwStops := false } }
    if d.pfwWakes && d.pwr.phase == .asleep then ({ d1 with pwr := { d1.pwr with pfwNap := false } } : Dev).beginWake false 7 0 st cells else d1
  else if (d.pwr.phase == .asleep && d.sleepMode == 4) || !d.cfg.pfwStops then { d with pfw := {} }
  else d.clearedWarm.startUp .cold st cells

/-! ### Clocks (R537–R541, R548–R550) -/

/-- A general PLL. -/
def Dev.pll (d : Dev) (k : Nat) : Pll := d.clk.plls.get {} k
/-- Change it. -/
def Dev.modPll (d : Dev) (k : Nat) (f : Pll → Pll) : Dev := { d with clk := { d.clk with plls := d.clk.plls.modify {} k f } }

/-- PLL_LOSS_OF_LOCK (R541). -/
def opPllLossOfLock (k : Nat) (d : Dev) : Dev :=
  let p := d.pll k
  if !bit p.cfg 0 || !p.locked || p.stopped then d
  else
    let d1 := d.modPll k fun p => { p with locked := false, gated := true, losses := satInc p.losses }
    let d2 := { d1 with clk := { d1.clk with err := d1.clk.err ||| BitVec.ofNat 18 (2 ^ k) } }
    if d2.ust (uClk k) == .running then d2.fault (uClk k) 0 0 else d2

/-- What stood still for want of PLLs 0–2 goes on: the Rake takes up what waits, and lines in receive buffers are presented. -/
def Dev.afterRelock (d : Dev) (k : Nat) : Dev :=
  if k = 0 then d.resumeRake else if k = 1 then d.afterWake [] else d

/-- PLL_RELOCK: the outputs of PLLs 0–2 restart; the others stay gated (R541). -/
def opPllRelock (k : Nat) (d : Dev) : Dev :=
  let p := d.pll k
  if !bit p.cfg 0 || p.locked || p.stopped then d
  else (d.modPll k fun p => { p with locked := true, gated := if k < 3 then false else p.gated && d.ust (uClk k) == .faulted }).afterRelock k

/-- QUAD_PLL_LOSS_OF_LOCK (R548). -/
def opQuadPllLossOfLock (q : Nat) (d : Dev) : Dev :=
  if d.clk.qpll.getLsbD q then
    { d with clk := { d.clk with qpll := d.clk.qpll &&& ~~~(BitVec.ofNat 24 (2 ^ q)), err := d.clk.err ||| 0x20000 } }
  else d

/-- LF_CRYSTAL_TIMEOUT (R538). -/
def opLfCrystalTimeout (d : Dev) : Dev :=
  if d.clk.lfXtal then { d with clk := { d.clk with lfXtal := false, lfFail := true, err := d.clk.err ||| 0x10000 } } else d

/-- A write of CLK_MEAS_SEL starts or restarts a measurement (R550). -/
def Clk.measure (c : Clk) (v : Word) : Clk := { c with measSel := v &&& 0x37F, measBusy := true, measCount := 0 }

/-- CLK_MEAS_START. -/
def opClkMeasStart (path : Path) (v : Word) (d : Dev) : Dev :=
  d.filtered path .clk 0x28 fun d => { d with clk := d.clk.measure v }

/-- CLK_MEAS_DONE. -/
def opClkMeasDone (count : Nat) (d : Dev) : Dev :=
  if d.clk.measBusy then
    { d with clk := { d.clk with measBusy := false, measCount := pack [(min count 0x7FFFFFFF, 0, 31), (1, 31, 1)] } }
  else d

/-! ### Registers (R544–R550) -/

/-- PWR_DOMAIN_INFO (R547). -/
def Dev.domainInfo (d : Dev) (k : Nat) : Word :=
  if 126 < k then 0
  else
    let s := d.domSleeps k
    let inForce := d.pwr.phase == .entering || d.pwr.phase == .asleep
    pack [(if s then min 3 d.sleepMode else 0, 0, 4), (b2n (d.domPowered k), 4, 1), (b2n (inForce && d.kept k), 5, 1)
      , (b2n (d.pwr.awoken.contains k), 6, 1), (b2n (s && decide (2 ≤ d.sleepMode)), 7, 1)]

/-- PHASE codes (R545). -/
def PwrPhase.code : PwrPhase → Nat
  | .awake => 0 | .entering => 1 | .asleep => 2 | .waking => 3

/-- A register of the PWR block; `sel` gives the reader's selection registers. -/
def Dev.readPwr (d : Dev) (sel : Nat → Word) (o : Nat) : Word :=
  let p := d.pwr
  match o with
  | 0x00 => p.mode
  | 0x04 => pack [(p.phase.code, 0, 2), (p.step, 4, 4), (d.sleepMode, 8, 3), (p.awoken.length, 16, 7)]
  | 0x08 => p.stopTimeout
  | 0x0C => p.wakeEn
  | 0x10 => p.wakeCause
  | 0x14 => p.lastRefuser
  | 0x18 => p.abortCount
  | 0x1C => p.earlyCount
  | 0x20 => p.lastSleep
  | 0x24 => sel 0x24
  | 0x28 => d.domainInfo (fld (sel 0x24) 0 7)
  | _ =>
    if 0x30 ≤ o ∧ o < 0x40 then
      let w := (o - 0x30) / 4
      pack ((List.range 4).map fun j => ((p.refuse.get 0 (4 * w + j)).toNat, 8 * j, 8))
    else if 0x40 ≤ o ∧ o < 0x50 then BitVec.ofNat 32 (p.en.toNat >>> (32 * ((o - 0x40) / 4)))
    else if 0x50 ≤ o ∧ o < 0x60 then BitVec.ofNat 32 (p.keep.toNat >>> (32 * ((o - 0x50) / 4)))
    else 0

/-- A write of the PWR block, the selection register apart. Bit 31 of PWR_KEEP[3], which names no domain, is stored and read
back as written: the model's choice (R9, R544; assumption 79). -/
def Dev.writePwr (d : Dev) (o : Nat) (v : Word) : Dev :=
  let p := d.pwr
  match o with
  | 0x00 => { d with pwr := { p with mode := v &&& 0x00FFFF07 } }
  | 0x08 => { d with pwr := { p with stopTimeout := v &&& 0xFFFFF } }
  | 0x0C => { d with pwr := { p with wakeEn := v &&& 0x7F } }
  | _ =>
    if 0x50 ≤ o ∧ o < 0x60 then
      let s := 32 * ((o - 0x50) / 4)
      let m : BitVec 128 := BitVec.ofNat 128 (0xFFFFFFFF <<< s)
      { d with pwr := { p with keep := (p.keep &&& ~~~m) ||| BitVec.ofNat 128 (v.toNat <<< s) } }
    else d

/-- *f*VCO in MHz as configured (R539, R549). A CLKIN or TIME_REF reference has a rate of the board, which only it knows, so
the field is then a free value. -/
def Dev.vco (d : Dev) (k : Nat) : Nat :=
  let p := d.pll k
  let n := fld p.cfg 10 8 * 2 ^ 24 + fld p.frac 0 24
  if !bit p.cfg 0 then 0
  else if fld p.cfg 1 4 = 0 then 200 * n / ((fld p.cfg 5 5 + 1) * 2 ^ 24) % 65536
  else (Config.vcoMHz k p.cfg p.frac).toNat

/-- A register of the CLK block. -/
def Dev.readClk (d : Dev) (sel : Nat → Word) (o : Nat) : Word :=
  let c := d.clk
  let k := fld (sel 0x0C) 0 4
  let p := d.pll k
  match o with
  | 0x00 => c.ctrl
  | 0x04 => pack [(b2n c.trimmed, 0, 1), (b2n c.lfXtal, 1, 1), (b2n c.lfFail, 2, 1)]
  | 0x08 => c.inCfg
  | 0x0C => sel 0x0C
  | 0x10 => p.cfg
  | 0x14 => p.frac
  | 0x18 => p.out
  | 0x1C => pack [(b2n (p.locked && !p.stopped), 0, 1), (b2n p.stopped, 1, 1), (b2n p.gated, 2, 1), (p.losses.toNat, 8, 8), (d.vco k, 16, 16)]
  | 0x20 => c.qpll.setWidth 32
  | 0x24 => c.err.setWidth 32
  | 0x28 => c.measSel
  | 0x2C => c.measCount
  | _ => 0

/-- A write of the CLK block, the selection register apart. -/
def Dev.writeClk (d : Dev) (o : Nat) (v : Word) : Dev :=
  match o with
  | 0x00 => { d with clk := { d.clk with ctrl := v &&& 1 } }
  | 0x24 => { d with clk := { d.clk with err := w1c d.clk.err (v.setWidth 18) } }
  | 0x28 => { d with clk := d.clk.measure v }
  | _ => d

/-! ### The commands -/

/-- WAIT (R418). -/
def execWait (iss : Issuer) (d : Desc) (s : State) : Res :=
  runCmd (.wait iss d) (opWait iss d) s

/-- DOMAIN_WAKE_ON_ACCESS (R536). -/
def execDomainWakeOnAccess (domain : Nat) (s : State) : Res :=
  runCmd (.domainWakeOnAccess domain) (opDomainWakeOnAccess domain) s

/-- DOMAIN_READY (R536). -/
def execDomainReady (domain : Nat) (s : State) : Res :=
  runCmd (.domainReady domain) (opDomainReady domain) s

/-- RESLEEP_TIMEOUT (R536). -/
def execResleepTimeout (domain : Nat) (s : State) : Res :=
  runCmd (.resleepTimeout domain) (opResleepTimeout domain) s

/-- PFW_RETURN_TIMEOUT (R616). -/
def execPfwReturnTimeout (straps : Straps) (cells : StartCells) (s : State) : Res :=
  runCmd (.pfwReturnTimeout straps cells) (opPfwReturnTimeout straps cells) s

/-- UNIT_STOP_ACCEPT (R526). -/
def execUnitStopAccept (unit : Nat) (s : State) : Res :=
  runCmd (.unitStopAccept unit) (opUnitStopAccept unit) s

/-- UNIT_STOP_REFUSE (R528). -/
def execUnitStopRefuse (unit : Nat) (s : State) : Res :=
  runCmd (.unitStopRefuse unit) (opUnitStopRefuse unit) s

/-- WAKE_EVENT (R531). -/
def execWakeEvent (code : BitVec 4) (unit : Nat) (straps : Straps) (cells : StartCells) (s : State) : Res :=
  runCmd (.wakeEvent code unit straps cells) (opWakeEvent code unit straps cells) s

/-- WAKE_COMPLETE (R533). -/
def execWakeComplete (asleepUs : Nat) (s : State) : Res :=
  runCmd (.wakeComplete asleepUs) (opWakeComplete asleepUs) s

/-- PLL_LOSS_OF_LOCK (R541). -/
def execPllLossOfLock (pll : Nat) (s : State) : Res :=
  runCmd (.pllLossOfLock pll) (opPllLossOfLock pll) s

/-- PLL_RELOCK (R541). -/
def execPllRelock (pll : Nat) (s : State) : Res :=
  runCmd (.pllRelock pll) (opPllRelock pll) s

/-- CLK_MEAS_START (R550). -/
def execClkMeasStart (path : Path) (value : Word) (s : State) : Res :=
  runCmd (.clkMeasStart path value) (opClkMeasStart path value) s

/-- CLK_MEAS_DONE (R550). -/
def execClkMeasDone (count : Nat) (s : State) : Res :=
  runCmd (.clkMeasDone count) (opClkMeasDone count) s

/-- DEEP_ENTRY_C0 (R511). -/
def execDeepEntryC0 (coarse : BitVec 48) (s : State) : Res :=
  runCmd (.deepEntryC0 coarse) (opDeepEntryC0 coarse) s

/-- WAKE_RELOAD_C1 (R511). -/
def execWakeReloadC1 (coarse : BitVec 48) (s : State) : Res :=
  runCmd (.wakeReloadC1 coarse) (opWakeReloadC1 coarse) s

/-- SLEEP_BLOCK (R455). -/
def execSleepBlock (port : Nat) (kind : SleepKind) (s : State) : Res :=
  runCmd (.sleepBlock port kind) (opSleepBlock port kind) s

/-- SLEEP_ANSWER_TIMEOUT (R455). -/
def execSleepAnswerTimeout (port : Nat) (s : State) : Res :=
  runCmd (.sleepAnswerTimeout port) (opSleepAnswerTimeout port) s

/-- QUAD_PLL_LOSS_OF_LOCK (R548). -/
def execQuadPllLossOfLock (quad : Nat) (s : State) : Res :=
  runCmd (.quadPllLossOfLock quad) (opQuadPllLossOfLock quad) s

/-- PFW_ASSERT (R615). -/
def execPfwAssert (s : State) : Res :=
  runCmd (.pfwAssert) (opPfwAssert) s

/-- PFW_RETURN (R616). -/
def execPfwReturn (s : State) : Res :=
  runCmd (.pfwReturn) (opPfwReturn) s

/-- PWR_STOP_TIMEOUT (R526). -/
def execPwrStopTimeout (s : State) : Res :=
  runCmd (.pwrStopTimeout) (opPwrStopTimeout) s

/-- LF_CRYSTAL_TIMEOUT (R538). -/
def execLfCrystalTimeout (s : State) : Res :=
  runCmd (.lfCrystalTimeout) (opLfCrystalTimeout) s

end Sys2Proof.Machine
end

