-- ==== Sys2Proof/Machine/Services.lean ====
section
/-! DEFINITION. Background services that work on the planes and the pans (chapter "Background Services and Telemetry"):
the margin scan, the signature checks, deferred verification, calibration, pan self-test; their registers; and the self-test
and the PRBS31 checker of the TEST block (R604, R605). -/

namespace Sys2Proof.Machine

/-! ### Configuration refresh (R140–R142, R554) -/

/-- Frames of a margin scan: 64 pans of 6,144 and the global area's 2,048. -/
def scanFrames : Nat := 395264

/-- The shadow of a unit holds a checked image: a valid pre-stage or a STAGED one. -/
def Dev.scansShadow (d : Dev) (u : Nat) : Bool := decide (u < 64) && (d.pan u).shadowValid

/-- The scan goes on to the next frame; after the last a REFRESH_PASS event is raised (R564). -/
def Dev.scanNext (d : Dev) (shadow : Bool) (u : Nat) : Dev :=
  let b := d.bgs
  if !shadow && d.scansShadow u then { d with bgs := { b with refreshShadow := true } }
  else if b.refreshPos + 1 < scanFrames then { d with bgs := { b with refreshShadow := false, refreshPos := b.refreshPos + 1 } }
  else
    let d1 := d.bgsEvent d.teleHosts 0x03 (BitVec.ofNat 64 (b.refreshCount % 2 ^ 32))
    { d1 with bgs := { d1.bgs with
      refreshShadow := false, refreshPos := 0, refreshCount := 0, refreshPasses := satInc b.refreshPasses } }

/-- A pan's active plane can fail a check now: it holds a module and no operation holds it (R137, R554). -/
def Dev.checkable (d : Dev) (p : Nat) : Bool :=
  (d.pan p).occupied && (d.ust (uPan p) == .running || d.ust (uPan p) == .quiesced) && !(d.pan p).srcCommitHold

/-- A pan that goes to FAULTED while QREQ is up acknowledges at once (R223). -/
def Dev.faultAck (d : Dev) (p : Nat) : Dev :=
  match (if d.ust (uPan p) == .faulted then d.findOp (fun o => o.needAck.contains p) else none) with
  | some (e, _) => d.opAck e p
  | none => d

/-- A full verification of a pan in service. -/
def Dev.checkPan (d : Dev) (p : Nat) (bad : Option Nat) : Dev := (d.verifyPan false p bad).faultAck p

/-- MARGIN_CHECK: the next frame is read at tightened margin; a low-margin frame is reinforced, and a frame of an active plane
that fails at normal margin too takes its pan to FAULTED. -/
def opMarginCheck (low fails : Bool) (d : Dev) : Dev :=
  if !d.bgsRuns || !bit d.bgs.ctrl 2 || d.nvStopped then d
  else
    let (u, rel) := devUnit d.bgs.refreshPos
    let shadow := d.bgs.refreshShadow && d.scansShadow u
    let d1 :=
      if fails then if !shadow && decide (u < 64) && d.checkable u then (d.failVerify u (some rel)).faultAck u else d
      else if low then let e := d.reinforce u; { e with bgs := { e.bgs with refreshCount := e.bgs.refreshCount + 1 } }
      else d
    d1.scanNext shadow u

/-! ### Signature checks and deferred verification (R135–R137, R553, R554) -/

/-- The pan a periodic check takes next, from `n` on. -/
def Dev.nextSig (d : Dev) (n : Nat) : Option Nat := (List.range 64).find? fun p => decide (n ≤ p) && d.checkable p

/-- A pass of the periodic check whose last pans have gone is complete (R567). -/
def Dev.endSigPass (d : Dev) : Dev :=
  if d.bgs.sigNext ≠ 0 ∧ d.nextSig d.bgs.sigNext = none then
    { d with bgs := { d.bgs with sigNext := 0, sigPasses := satInc d.bgs.sigPasses } }
  else d

/-- The first of the pans named that no operation holds: a held one keeps its turn. -/
def Dev.firstFree (d : Dev) (ps : List Nat) : Option Nat := ps.find? fun p => !(d.pan p).srcCommitHold

/-- SIGNATURE_CHECK: pans committed since their last check come first, in the order of their commits, a pan whose operation
still holds it once that ends. -/
def opSignatureCheck (bad : Option Nat) (d : Dev) : Dev :=
  if !d.bgsRuns || !bit d.bgs.ctrl 1 || !d.bgs.deferTodo.isEmpty then d
  else match d.firstFree d.bgs.sigQueue with
    | some p =>
      let d1 := { d with bgs := { d.bgs with sigQueue := d.bgs.sigQueue.erase p } }
      if d.checkable p then d1.checkPan p bad else d1
    | none =>
      let d0 := d.endSigPass
      match d0.nextSig d0.bgs.sigNext with
      | none => d0
      | some p =>
        let d1 := d0.checkPan p bad
        let last := (d1.nextSig (p + 1)).isNone
        { d1 with bgs := { d1.bgs with
          sigNext := if last then 0 else p + 1, sigPasses := if last then satInc d1.bgs.sigPasses else d1.bgs.sigPasses } }

/-- DEFERRED_VERIFY: the next pan in ascending index, but for one that an operation holds, which keeps its turn; a pan that no
longer runs a module has nothing to verify. After the last a DEFER_DONE event tells how many pans were verified (R564). -/
def opDeferredVerify (bad : Option Nat) (d : Dev) : Dev :=
  match (if d.bgsRuns then d.firstFree d.bgs.deferTodo else none) with
  | none => d
  | some p =>
    let rest := d.bgs.deferTodo.erase p
    let n := d.bgs.deferCount + b2n (d.checkable p)
    let d1 := { d with bgs := { d.bgs with deferTodo := rest, deferCount := n } }
    let d2 := if d.checkable p then d1.checkPan p bad else d1
    if rest.isEmpty then d2.bgsEvent d2.teleHosts 0x02 (BitVec.ofNat 64 (n % 128)) else d2

/-! ### Calibration (R537, R551) -/

/-- CALIBRATION: with TRIM_EN and a reference the oscillator becomes trimmed. Sensor offsets and driver impedance are not seen
by software. -/
def opCalibration (d : Dev) : Dev :=
  if d.bgsRuns && bit d.bgs.ctrl 3 && bit d.clk.ctrl 0 && d.time.refOk then { d with clk := { d.clk with trimmed := true } } else d

/-! ### Pan self-test (R555, R604) -/

/-- Self-test may run in a pan: IDLE and not reserved. -/
def Dev.mayTest (d : Dev) (p : Nat) : Bool := d.ust (uPan p) == .idle && !d.reserved p

/-- A test starts in a pan: GSR is held. -/
def Dev.startPst (d : Dev) (p : Nat) (demand : Bool) : Dev :=
  ({ d with bgs := { d.bgs with pstRun := some p, pstDemand := demand } }).panSources p fun x => { x with selfTest := true }

/-- PAN_SELFTEST_START: the next IDLE unreserved pan in ascending index. -/
def opPanSelftestStart (d : Dev) : Dev :=
  if !d.bgsRuns || !bit d.bgs.ctrl 5 || d.bgs.pstRun.isSome then d
  else
    let from_ (n : Nat) : Option Nat := (List.range 64).find? fun p => decide (n ≤ p) && d.mayTest p
    match (match from_ d.bgs.pstNext with | some p => some p | none => from_ 0) with
    | none => d
    | some p => ({ d with bgs := { d.bgs with pstNext := p + 1 } }).startPst p false

/-- The result of an on-demand test (R604, R608). -/
def bistWord (fail : Bool) (status first : Nat) : Word := pack [(1, 0, 1), (b2n fail, 1, 1), (status, 8, 8), (first, 16, 16)]

/-- PAN_SELFTEST_DONE: the test ends, a periodic one only while its activity is enabled (R552); a defect is its resource and the index of the first failing block or unit. -/
def opPanSelftestDone (defect : Option (Nat × Nat)) (d : Dev) : Dev :=
  match d.bgs.pstRun with
  | none => d
  | some p =>
    let demand := d.bgs.pstDemand
    if d.pllDead 0 || (!demand && (!d.bgsRuns || !bit d.bgs.ctrl 5)) then d
    else
      let b := d.bgs
      let fail := defect.isSome
      let d1 := ({ d with bgs := { b with
        pstRun := none, pstDemand := false, pstLast := BitVec.ofNat 6 p, pstLastFail := fail
        pstFirst := if fail && b.pstFirst.isNone then some (BitVec.ofNat 6 p) else b.pstFirst
        pstFails := if fail then satInc b.pstFails else b.pstFails } }).panSources p fun x => { x with selfTest := false }
      let d2 := if demand then { d1 with test := { d1.test with
        bistBusy := false, bistResult := bistWord fail stDone ((defect.map fun x => x.2).getD 0) } } else d1
      match defect with
      | none => d2
      | some (r, i) => d2.bgsEvent (fun h => d2.inPart h (uPan p)) 0x01 (pack64 [(p, 0, 6), (r, 8, 2), (i, 16, 7)])

/-! ### Registers of the BGS block (R565–R567) -/

/-- BGS_PST_RESULT. -/
def Bgs.pstWord (b : Bgs) : Word :=
  pack [(b.pstLast.toNat, 0, 6), (b2n b.pstLastFail, 6, 1), (b2n b.pstFirst.isSome, 7, 1), ((b.pstFirst.getD 0).toNat, 8, 6)
    , (b.pstFails.toNat, 16, 8), (b.pstAborts.toNat, 24, 8)]

/-- A register of the BGS block. Between commands no window is in progress but those of an enabled self-test, or of one on
demand. -/
def Dev.readBgs (d : Dev) (o : Nat) : Word :=
  let b := d.bgs
  match o with
  | 0x00 => b.ctrl
  | 0x04 =>
    pack [(b2n (b.bstRun.isSome || d.bgsRuns && bit b.ctrl 4 && (List.range 128).any fun n => (d.bank n).borrow.isSome), 4, 1)
      , (b2n (b.pstRun.isSome && (b.pstDemand || d.bgsRuns && bit b.ctrl 5)), 5, 1), (b.deferTodo.length, 8, 7)
      , (b.refreshPasses.toNat, 16, 8), (b.sigPasses.toNat, 24, 8)]
  | 0x08 => b.scrubPeriod
  | 0x0C => b.sigPeriod
  | 0x10 => b.refreshPeriod
  | 0x14 => b.stPeriod
  | 0x18 => b.zfGap
  | 0x1C => b.calPeriod
  | 0x20 => b.wearSize
  | 0x24 => b.wearRate
  | 0x28 => b.pstWord
  | 0x2C => BitVec.ofNat 32 (devAddr b.refreshPos)
  | _ => 0

/-- A write of the BGS block. -/
def Dev.writeBgs (d : Dev) (o : Nat) (v : Word) : Dev :=
  let b := d.bgs
  match o with
  | 0x00 => { d with bgs := { b with ctrl := v &&& 0x7F } }
  | 0x08 => { d with bgs := { b with scrubPeriod := v &&& 0xFFFFFF } }
  | 0x0C => { d with bgs := { b with sigPeriod := v &&& 0xFFFFFF } }
  | 0x10 => { d with bgs := { b with refreshPeriod := v &&& 0x3FF } }
  | 0x14 => { d with bgs := { b with stPeriod := v } }
  | 0x18 => { d with bgs := { b with zfGap := v &&& 0xFF } }
  | 0x1C => { d with bgs := { b with calPeriod := v &&& 0xFFFF } }
  | 0x20 => d.writeWearSize v
  | 0x24 => { d with bgs := { b with wearRate := v &&& 0x007F03FF } }
  | _ => d

/-! ### The TEST block (R604, R605, R608) -/

/-- The TEST block is closed (R575). -/
def Dev.testClosed (d : Dev) : Bool := d.locked 8

/-- START of TEST_BIST_SEL: the test starts, or its STATUS says why not. -/
def Dev.startBist (d : Dev) (u : Nat) : Dev :=
  let k := unitIdx u
  let say (st : Nat) : Dev := { d with test := { d.test with bistResult := bistWord false st 0 } }
  let run (d : Dev) : Dev := { d with test := { d.test with bistBusy := true, bistResult := 0 } }
  if !unitExists u then say stRefused
  else if !d.inPart 4 u then say stPerm
  else if unitClass u = 1 && d.mayTest k then
    run ((match d.bgs.pstRun with | some p => d.endPst p | none => d).startPst k true)
  else if unitClass u = 2 && d.ust u == .running then
    let d1 := d.modBank k fun b => { b.abortBorrow with stNext := 0 }
    run { d1 with bgs := { d1.bgs with bstRun := some k, bstFail := none } }
  else say stRefused

/-- A write of TEST_BIST_SEL. -/
def Dev.writeBistSel (d : Dev) (v : Word) : Dev :=
  let d1 := { d with test := { d.test with bistSel := v &&& 0xFFFF } }
  if !bit v 31 || d.test.bistBusy then d1 else d1.startBist (fld v 0 16)

/-- The PRBS31 checker runs on the lanes of a looped host port that TEST_PRBS_CTRL chooses: each receives its own pattern
whole, so it locks and finds no error (R597, R605, R608; assumption 64). A port that is not looped gives the checker no
pattern. -/
def Dev.checkPrbs (d : Dev) : Dev :=
  let c := d.test.prbsCtrl
  if bit c 2 && (d.hp (fld c 0 2)).loop.isSome then { d with test := { d.test with prbsLock := BitVec.ofNat 32 (fld c 8 8) } } else d

/-- A write of TEST_PRBS_CTRL: EN starts the checker on the lanes chosen, which then holds no lock and no error until it has
seen the pattern; other lanes or another port lock anew. -/
def Dev.writePrbs (d : Dev) (v : Word) : Dev :=
  let t := d.test
  let w := v &&& 0xFF07
  let t1 := { t with prbsCtrl := w }
  ({ d with test := if bit v 2 && !bit t.prbsCtrl 2 then { t1 with prbsLock := 0, prbsErr := 0 }
                    else if bit v 2 && w != t.prbsCtrl then { t1 with prbsLock := 0 }
                    else t1 } : Dev).checkPrbs

/-- A write of the TEST block; a closed block ignores it. -/
def Dev.writeTest (d : Dev) (o : Nat) (v : Word) : Dev :=
  if d.testClosed then d
  else match o with
    | 0x00 => { d with test := { d.test with ctrl := v &&& 1 } }
    | 0x04 => d.writeBistSel v
    | 0x0C => d.writePrbs v
    | _ => d

/-- A read of the TEST block; `left` counts the readback bytes that the reader has not taken. -/
def Dev.readTest (d : Dev) (left : Nat) (o : Nat) : Word × Dev :=
  let t := d.test
  if d.testClosed then (0, d)
  else match o with
    | 0x00 => (t.ctrl, d)
    | 0x04 => (t.bistSel, d)
    | 0x08 => (t.bistResult, d)
    | 0x0C => (t.prbsCtrl, d)
    | 0x10 => (t.prbsLock, d)
    | 0x14 => (t.prbsErr, d)
    | 0x18 => (t.cfgCount, { d with test := { t with cfgCount := 0 } })
    | 0x1C => (BitVec.ofNat 32 left, d)
    | _ => (0, d)

/-- BIST_START: TEST_BIST_SEL is written through a path. -/
def opBistStart (path : Path) (v : Word) (d : Dev) : Dev := d.filtered path .test 0x04 fun d => d.writeTest 0x04 v

/-- PRBS_ENABLE: TEST_PRBS_CTRL is written through a path. -/
def opPrbsEnable (path : Path) (v : Word) (d : Dev) : Dev := d.filtered path .test 0x0C fun d => d.writeTest 0x0C v

/-! ### The commands -/

/-- MARGIN_CHECK (R140). -/
def execMarginCheck (lowMargin : Bool) (failsNormal : Bool) (s : State) : Res :=
  runCmd (.marginCheck lowMargin failsNormal) (opMarginCheck lowMargin failsNormal) s

/-- SIGNATURE_CHECK (R554). -/
def execSignatureCheck (badFrame : Option Nat) (s : State) : Res :=
  runCmd (.signatureCheck badFrame) (opSignatureCheck badFrame) s

/-- DEFERRED_VERIFY (R553). -/
def execDeferredVerify (badFrame : Option Nat) (s : State) : Res :=
  runCmd (.deferredVerify badFrame) (opDeferredVerify badFrame) s

/-- PAN_SELFTEST_DONE (R555). -/
def execPanSelftestDone (defect : Option (Nat × Nat)) (s : State) : Res :=
  runCmd (.panSelftestDone defect) (opPanSelftestDone defect) s

/-- BIST_START (R604). -/
def execBistStart (path : Path) (value : Word) (s : State) : Res :=
  runCmd (.bistStart path value) (opBistStart path value) s

/-- PRBS_ENABLE (R605). -/
def execPrbsEnable (path : Path) (value : Word) (s : State) : Res :=
  runCmd (.prbsEnable path value) (opPrbsEnable path value) s

/-- CALIBRATION (R551). -/
def execCalibration (s : State) : Res :=
  runCmd (.calibration) (opCalibration) s

/-- PAN_SELFTEST_START (R555). -/
def execPanSelftestStart (s : State) : Res :=
  runCmd (.panSelftestStart) (opPanSelftestStart) s

end Sys2Proof.Machine
end

