-- ==== Sys2Proof/Machine/Regs.lean ====
section
/-! DEFINITION. The registers of BAR0 as a whole (chapter "Register Summary"): the GLB, PAN and MGMT blocks, the selection
registers that each reader keeps (R632), and one read and one write of a register through a path (R10, R349, R352, R593). -/

namespace Sys2Proof.Machine

/-! ### The GLB block (R634–R639) -/

/-- GLB_CAPS1 (R636): the part options come from fuse word 2. -/
def Dev.caps1 (d : Dev) : Word :=
  let w := d.mirrorWord 2
  pack [(4, 0, 4), (16, 4, 5), (16, 9, 5), (fld w 1 2, 14, 2), (fld w 3 1, 16, 1), (fld w 0 1, 17, 1)]

/-- GLB_STATUS (R637). -/
def Dev.glbStatus (d : Dev) : Word :=
  pack [(b2n d.cfg.doneReleased, 0, 1), (b2n (d.pins.enabled.get false 15), 1, 1), (b2n d.glb.sysStart, 2, 1), (b2n d.cfg.blank, 3, 1)
    , (b2n (!d.bgs.deferTodo.isEmpty), 4, 1), (b2n d.store.ready, 5, 1), (b2n d.store.vaultReady, 6, 1), (b2n d.rake.mapReady, 7, 1)
    , (b2n (allUnits.any fun u => d.ust u == .faulted), 8, 1)]

/-- GLB_FAULTED (R639). -/
def Dev.glbFaulted (d : Dev) : Word :=
  let us := allUnits.filter fun u => d.ust u == .faulted
  pack ((List.range 16).map (fun c => (b2n (us.any fun u => unitClass u == c), c, 1)) ++ [(us.length, 16, 12)])

/-- Uptime in µs, 64 bits (R638). -/
def Glb.micros (g : Glb) : Nat := g.uptime / (1000 * 2 ^ 32) % 2 ^ 64

/-- DESIGN, the MODULE word of the selected global-area record (R174); 0 when BLANK. -/
def Dev.glbDesign (d : Dev) : Word := if (d.pan 64).blank then 0 else (d.pan 64).module

/-- A register of the GLB block as reader `rd` sees it. -/
def Dev.readGlb (d : Dev) (rd o : Nat) : Word × Dev :=
  let g := d.glb
  match o with
  | 0x00 => (0x01010016, d)
  | 0x04 => (0x18608040, d)
  | 0x08 => (d.caps1, d)
  | 0x0C => (d.glbStatus, d)
  | 0x10 => (g.startCount, d)
  | 0x14 =>
    (BitVec.ofNat 32 g.micros, { d with glb := { g with uptimeHi := BitVec.ofNat 32 (g.micros / 2 ^ 32) } })
  | 0x18 => (g.uptimeHi, d)
  | 0x1C => (d.glbFaulted, d)
  | 0x20 => (pack [(g.lastUnit.toNat, 0, 16), (g.lastStatus.toNat, 16, 8), (g.lastCount.toNat, 24, 8)], d)
  | 0x24 => (d.glbDesign, d)
  | 0x28 => (if (d.pan 64).blank then 0 else (d.pan 64).seq, d)
  | 0x2C => (g.doneSec, d)
  | 0x30 => (g.doneNs, d)
  | 0x34 => (BitVec.ofNat 32 rd, d)
  | 0x38 => (g.scratch, d)
  | _ => (if 0x8000 ≤ o then d.unitStatus rd o else 0, d)

/-! ### The PAN block (R75, R118, R144–R146, R264, R640) -/

/-- Pins owned by a pan (R473). -/
def Dev.pinsOf (d : Dev) (p : Nat) : Nat := (List.range 768).countP fun n => (pinOwners (d.pin n).sel).contains p

/-- PAN_STATUS (R640). -/
def Dev.panStatus (d : Dev) (p : Nat) : Word :=
  let x := d.pan p
  let port := match x.port with | .opened => 0 | .held => 1 | .refusing => 2 | .empty => 3
  let n := d.pinsOf p
  pack [(b2n (d.reserved p), 0, 1), (b2n x.qreq, 1, 1), (b2n x.qack, 2, 1), (b2n x.selfTest, 3, 1), (port, 4, 2)
    , ((d.opOf p).elim 0 (fun y => Desc.opcode y.2.desc), 8, 8), (n, 16, 10), (b2n (decide (0 < n) && d.panHandover p), 26, 1)]

/-- A register of a PAN block. -/
def Dev.readPan (d : Dev) (p o : Nat) : Word :=
  let x := d.pan p
  match o with
  | 0x00 => d.panStatus p
  | 0x10 => x.planeWord
  | 0x14 => x.module
  | 0x18 => x.seq
  | 0x1C => (d.nvu p).wear
  | 0x20 => (d.win p).word
  | 0x24 => (d.win p).pos
  | 0x30 => x.gsrWord
  | 0x34 => d.panPersist p
  | 0x38 => x.ramColl
  | 0x3C => x.busCont
  | 0x40 => d.panBorder p
  | _ => 0

/-- A write of a PAN block. -/
def Dev.writePan (d : Dev) (p o : Nat) (v : Word) : Dev :=
  match o with
  | 0x10 => d.modPan p fun x => x.clearPlane v
  | 0x30 => d.writePanGsr p v
  | 0x38 => d.modPan p fun x => x.clearColl v
  | 0x3C => d.modPan p fun x => { x with busCont := w1c x.busCont v }
  | _ => d

/-! ### The MGMT block (R606, R607) -/

/-- MGMT_STATUS. -/
def Dev.mgmtStatus (d : Dev) : Word :=
  pack [(d.cfg.smbAddr.toNat, 0, 2), (b2n (d.locked 6), 2, 1), (b2n ((d.mg .smbus).slot != 0), 3, 1), (b2n ((d.mg .jtag).slot != 0), 4, 1)
    , (b2n ([MgmtIf.smbus, MgmtIf.jtag].any fun v => (d.mg v).rdbk.any fun r => r.pan.isSome), 5, 1)]

/-- MGMT_HPLOOP. -/
def Dev.hpLoop (d : Dev) : Word := pack ((List.range 4).map fun p => ((d.hp p).loop.getD 7, 4 * p, 3))

/-- MGMT_COUNT as it stands, and cleared. -/
def Dev.takeCounts (d : Dev) : Word × Dev :=
  ((d.mg .jtag).count ++ (d.mg .smbus).count, (d.modMg .smbus fun m => { m with count := 0 }).modMg .jtag fun m => { m with count := 0 })

/-- A register of the MGMT block. -/
def Dev.readMgmt (d : Dev) (o : Nat) : Word × Dev :=
  match o with
  | 0x00 => (d.mblk.ctrl, d)
  | 0x04 => (d.mgmtStatus, d)
  | 0x08 => (d.mblk.err.setWidth 32, d)
  | 0x0C => (d.hpLoop, d)
  | 0x10 => d.takeCounts
  | 0x14 => (d.mblk.last, d)
  | _ => (0, d)

/-- A write of the MGMT block. -/
def Dev.writeMgmt (d : Dev) (o : Nat) (v : Word) : Dev :=
  match o with
  | 0x00 => { d with mblk := { d.mblk with ctrl := v &&& 7 } }
  | 0x08 => { d with mblk := { d.mblk with err := w1c d.mblk.err (v.setWidth 6) } }
  | _ => d

/-- SMB_ALERT_N is asserted (R593, R598): a completion of a management slot is unread, or a unit has entered FAULTED. -/
def Dev.smbAlert (d : Dev) : Bool :=
  (bit d.mblk.ctrl 0 && ((d.mg .smbus).slot == 2 || (d.mg .jtag).slot == 2)) || (bit d.mblk.ctrl 1 && d.mblk.err.getLsbD 5)

/-! ### Selection registers (R632) -/

/-- The bits of a selection register that each reader keeps for itself; none where the register is no such one. -/
def selMask : Blk → Nat → Option Word
  | .rake, 0x44 => some 0xFFFF
  | .pool, 0x0C => some 0xFFFF
  | .sluice, 0x08 => some 0x7F
  | .bank _, 0x10 => some 0x3F
  | .bank _, 0x20 => some 0x7F
  | .link _, 0x40 => some 0x3FFF
  | .pwr, 0x24 => some 0x7F
  | .clk, 0x0C => some 0xF
  | .fuse, 0x1C => some 0x1FF
  | .fuse, 0x24 => some 0x1F0F
  | .cfg, 0x30 => some 0xFFFFFFFF
  | .cfg, 0x48 => some 0xFFF
  | _, _ => none

/-- Where a block's selection registers are kept. LINK_RT_INDEX is one register that every link port's block reaches, as
it reaches the one route table (R459). -/
def selBase (b : Blk) (off o : Nat) : Nat :=
  match b with
  | .link _ => 0x180000
  | _ => off - o

/-- Store a reader's selection at its BAR0 offset. -/
def Dev.setSel (d : Dev) (path : Path) (off : Nat) (v : Word) : Dev :=
  match path with
  | .host p | .hostPart p => d.modHp p fun h => { h with query := h.query.set 0 off v }
  | _ => { d with mblk := { d.mblk with query := d.mblk.query.set 0 off v } }

/-- Readback bytes that the reading interface has not taken (R608). -/
def Dev.rdbkLeft (d : Dev) : Path → Nat
  | .host _ | .hostPart _ => 0
  | .smbus => ((d.mg .smbus).rdbk.map fun r => r.bytes.length).getD 0
  | .jtag => ((d.mg .jtag).rdbk.map fun r => r.bytes.length).getD 0

/-! ### One read and one write -/

/-- The register at offset `o` of a block, which lies at `off` of BAR0, as a path reads it. -/
def Dev.readBlk (d : Dev) (path : Path) (off : Nat) (b : Blk) (o : Nat) : Word × Dev :=
  let rd := path.reader
  let sel (q : Nat) : Word := d.selAt path (selBase b off o + q)
  match b with
  | .glb => d.readGlb rd o
  | .fuse => (d.readFuse rd sel o, d)
  | .host p => d.readHost p o
  | .rake => (d.readRake sel o, d)
  | .cfg =>
    if o = 0x18 then (d.cfg.passCount, { d with cfg := { d.cfg with passCount := 0 } })
    else if o = 0x1C then (d.cfg.framesCount, { d with cfg := { d.cfg with framesCount := 0 } })
    else (d.readCfg sel o, d)
  | .sluice => (d.readSluice sel o, d)
  | .pool => (d.readPool rd sel o, d)
  | .pan p => (d.readPan p o, d)
  | .bank n => (d.readBank n sel o, d)
  | .link n => d.readLink n sel o
  | .fport f => if o = 0x18 then d.readRxdata f else if o = 0x34 then d.readFportCount f else (d.readFport f o, d)
  | .pin => (d.readPin rd o, d)
  | .time => (d.time.read o, if o = 0x08 then { d with time := d.time.snapshot } else d)
  | .pwr => (d.readPwr sel o, d)
  | .clk => (d.readClk sel o, d)
  | .bgs => (d.readBgs o, d)
  | .tele => if o = 0x0C then d.readRec0 rd else (d.readTele rd o, d)
  | .mgmt => d.readMgmt o
  | .test => d.readTest (d.rdbkLeft path) o

/-- A write of the register at offset `o` of a block. -/
def Dev.writeBlk (d : Dev) (path : Path) (off : Nat) (b : Blk) (o : Nat) (v : Word) : Dev :=
  let rd := path.reader
  let sel (q : Nat) : Word := d.selAt path (selBase b off o + q)
  let d := match selMask b o with | some m => d.setSel path (selBase b off o + o) (v &&& m) | none => d
  match b with
  | .glb => if o = 0x38 then { d with glb := { d.glb with scratch := v } } else d
  | .fuse =>
    if o = 0x00 then { d with fuse := { d.fuse with narrowErr := d.fuse.narrowErr && !bit v 2 } }
    else if o = 0x2C then d.writeNarrow rd v else d
  | .host p => d.writeHost p o v
  | .rake => d.writeRake o v
  | .cfg => d.writeCfg o v
  | .sluice => d.writeSluice o v
  | .pool => d.writePool o v
  | .pan p => d.writePan p o v
  | .bank n => d.modBank n fun b => b.write o v
  | .link n => d.writeLink n sel o v
  | .fport f => if o = 0x14 then d.writeTxdata f v else d.writeFport f o v
  | .pin => d.writePin rd o v
  | .time => d.writeTime o v
  | .pwr => d.writePwr o v
  | .clk => d.writeClk o v
  | .bgs => d.writeBgs o v
  | .tele => d.writeTele rd o v
  | .mgmt => d.writeMgmt o v
  | .test => d.writeTest o v

/-- A reader reaches a register; an entry of the sink select array goes by the unit of its signal (R352). -/
def Dev.opens (d : Dev) (rd : Nat) (b : Blk) (o : Nat) (write : Bool) : Bool :=
  d.reaches rd b o write && !(b == .pin && decide (0x4000 ≤ o) && !d.signalIn rd ((o - 0x4000) / 4))

/-- The value written names only what lies in the writer's partition (R459, R471). -/
def Dev.valueOk (d : Dev) (rd : Nat) (b : Blk) (o : Nat) (v : Word) : Bool :=
  match b with
  | .pin => !(decide (0x1000 ≤ o) && decide (o < 0x1C00)) || d.pinSelOk rd v
  | .link _ => o != 0x44 || d.routeOk rd v
  | _ => true

/-- A read of BAR0 through a path (R349, R352, R630). -/
def Dev.readReg (d : Dev) (path : Path) (off : Word) : Word × Dev :=
  if !path.whole || off.toNat % 4 ≠ 0 then (0, d.badAccess path)
  else match regBlock off.toNat with
    | none => (0, d)
    | some (b, o) => if regListed b o && d.opens path.reader b o false then d.readBlk path off.toNat b o else (0, d)

/-- A write of BAR0 through a path, with its response (R10, R349, R352, R593, R630). -/
def Dev.writeReg (d : Dev) (path : Path) (off v : Word) : Dev :=
  if !path.whole || off.toNat % 4 ≠ 0 then (d.badAccess path).wrote path
  else match regBlock off.toNat with
    | none => d.wrote path
    | some (b, o) =>
      if !regListed b o then d.wrote path
      else if d.opens path.reader b o true && d.valueOk path.reader b o v then (d.writeBlk path off.toNat b o v).wrote path
      else d.dropWrite path

/-- A write of BANK_LOG_SEL through a path (R339): the selection is the writer's, both CLEAR bits act. -/
def Dev.writeLogSel (d : Dev) (path : Path) (n : Nat) (v : Word) : Dev :=
  d.filtered path (.bank n) 0x10 fun d => d.writeBlk path (0x100010 + 256 * n) (.bank n) 0x10 v

/-- BANK_LOG_SEL written with CLEAR_CE set. -/
def opClearCe (path : Path) (n : Nat) (v : Word) (d : Dev) : Dev := d.writeLogSel path n (v ||| 0x40000000)
/-- BANK_LOG_SEL written with CLEAR_UE set. -/
def opClearUe (path : Path) (n : Nat) (v : Word) (d : Dev) : Dev := d.writeLogSel path n (v ||| 0x80000000)

/-- A write of BAR2 (R349, R357): the DW at offset 0 of a ring's page is its doorbell, and any other is a bad doorbell. -/
def Dev.writeBell (d : Dev) (p off : Nat) (v : Word) : Dev :=
  let page := off / 4096 % 256
  if off % 4 ≠ 0 then d.badAccess (.host p)
  else if off % 4096 ≠ 0 then d.badDoorbell p 0x1F v
  else if page < 16 then opSqDoorbell p page v d
  else if page < 20 then opCqDoorbell p (page - 16) v d
  else if page = 20 then opEqDoorbell p v d
  else d.badDoorbell p 0x1F v

/-- A write that a space of a path takes (R348): a register of BAR0, a doorbell of BAR2, the MSI-X table of BAR4, or a register
of the configuration space. A part of a DW is a bad access of BAR0 and BAR2 alone (R349). -/
def Dev.writeSpace (d : Dev) (path : Path) (sp : Space) (off v : Word) : Dev :=
  match path, sp with
  | _, .bar0 => d.writeReg path off v
  | .host p, .bar2 => d.writeBell p off.toNat v
  | .host p, .bar4 hi => d.writeMsix p off.toNat v hi
  | .host p, .config r => d.writeConfig p r v
  | .hostPart _, .bar4 _ | .hostPart _, .config _ => d
  | _, _ => d.badAccess path

/-- A read of the configuration space: 64 vectors in Message Control, class code 0x12_0000, the serial number of the fuses
(R343, R570). -/
def Dev.readConfig (d : Dev) (p : Nat) (r : CfgReg) : Word :=
  let c := (d.hp p).conf
  match r with
  | .deviceControl => c.devCtl.setWidth 32
  | .deviceControl2 => c.devCtl2.setWidth 32
  | .linkControl => c.linkCtl.setWidth 32
  | .l1Substates => c.l1Sub
  | .powerControl => c.pmcsr.setWidth 32
  | .msixControl => pack [(63, 0, 11), (b2n c.fmask, 14, 1), (b2n c.msixOn, 15, 1)]
  | .classCode => 0x00120000
  | .serialLow => d.mirrorWord 0
  | .serialHigh => d.mirrorWord 1
  | r => c.word r

/-- A read of a space of a path, and what it returns: a DW, or the QW of BAR4 (R348, R349). BAR2 reads as 0 (R357), and a read of
an unsupported form of BAR0 or BAR2 returns 0 and is a bad access (R349). -/
def Dev.readSpace (d : Dev) (path : Path) (sp : Space) (off : Word) : DWord × Dev :=
  match path, sp with
  | _, .bar0 => let (w, d1) := d.readReg path off; (w.setWidth 64, d1)
  | .host p, .bar2 => (0, if off.toNat % 4 = 0 then d else d.badAccess (.host p))
  | .host p, .bar4 hi =>
    (match hi with
     | none => ((d.hp p).msixWord off.toNat).setWidth 64
     | some _ => (d.hp p).msixWord (off.toNat + 4) ++ (d.hp p).msixWord off.toNat, d)
  | .host p, .config r | .hostPart p, .config r => ((d.readConfig p r).setWidth 64, d)
  | .hostPart _, .bar4 _ => (0, d)
  | _, _ => (0, d.badAccess path)

/-- An access to a space of a path: the configuration space is served whatever the function's power state (R343). -/
def Dev.accessSpace (d : Dev) (path : Path) (sp : Space) (f : Dev → Dev) : Dev :=
  match path, sp with
  | .host p, .config _ | .hostPart p, .config _ => if d.linkReaches p then f d else d
  | _, _ => d.access path f

/-- REGISTER_WRITE (R10, R348). -/
def opRegisterWrite (path : Path) (sp : Space) (off v : Word) (d : Dev) : Dev :=
  d.accessSpace path sp fun d => d.writeSpace path sp off v

/-- A read of a space through a path: its effect and what it returns, of a QW the lower DW first (R348, R349). -/
def Dev.readIn (d : Dev) (path : Path) (sp : Space) (off : Word) : Dev :=
  d.accessSpace path sp fun d =>
    let (w, d1) := d.readSpace path sp off
    let d2 := d1.returns path off.toNat (w.setWidth 32)
    match sp with
    | .bar4 (some _) => d2.returns path (off.toNat + 4) ((w >>> 32).setWidth 32)
    | _ => d2

/-- A read of BAR0 through a path. -/
def Dev.readAt (d : Dev) (path : Path) (off : Nat) : Dev := d.readIn path .bar0 (BitVec.ofNat 32 off)

/-- MGMT_COUNT_READ. -/
def opMgmtCountRead (path : Path) (d : Dev) : Dev := d.readAt path 0x2D0010
/-- TEST_CFG_COUNT_READ. -/
def opTestCfgCountRead (path : Path) (d : Dev) : Dev := d.readAt path 0x2E0018
/-- CFG_PASS_COUNT_READ. -/
def opCfgPassCountRead (path : Path) (d : Dev) : Dev := d.readAt path 0x40018
/-- CFG_FRAMES_READ. -/
def opCfgFramesRead (path : Path) (d : Dev) : Dev := d.readAt path 0x4001C
/-- GLB_UPTIME_LO_READ. -/
def opGlbUptimeLoRead (path : Path) (d : Dev) : Dev := d.readAt path 0x14

/-! ### The commands -/

/-- MGMT_COUNT_READ (R606). -/
def execMgmtCountRead (path : Path) (s : State) : Res :=
  runCmd (.mgmtCountRead path) (opMgmtCountRead path) s

/-- TEST_CFG_COUNT_READ (R608). -/
def execTestCfgCountRead (path : Path) (s : State) : Res :=
  runCmd (.testCfgCountRead path) (opTestCfgCountRead path) s

/-- CFG_PASS_COUNT_READ (R629). -/
def execCfgPassCountRead (path : Path) (s : State) : Res :=
  runCmd (.cfgPassCountRead path) (opCfgPassCountRead path) s

/-- CFG_FRAMES_READ (R629). -/
def execCfgFramesRead (path : Path) (s : State) : Res :=
  runCmd (.cfgFramesRead path) (opCfgFramesRead path) s

/-- GLB_UPTIME_LO_READ (R638). -/
def execGlbUptimeLoRead (path : Path) (s : State) : Res :=
  runCmd (.glbUptimeLoRead path) (opGlbUptimeLoRead path) s

/-- REGISTER_WRITE (R10). -/
def execRegisterWrite (path : Path) (space : Space) (offset : Word) (value : Word) (s : State) : Res :=
  runCmd (.registerWrite path space offset value) (opRegisterWrite path space offset value) s

/-- CLEAR_CE (R339). -/
def execClearCe (path : Path) (bank : Nat) (value : Word) (s : State) : Res :=
  runCmd (.clearCe path bank value) (opClearCe path bank value) s

/-- CLEAR_UE (R339). -/
def execClearUe (path : Path) (bank : Nat) (value : Word) (s : State) : Res :=
  runCmd (.clearUe path bank value) (opClearUe path bank value) s

end Sys2Proof.Machine
end

