-- ==== Sys2Proof/Machine/Manage.lean ====
section
/-! DEFINITION. The management path (chapter "Management Path, Readback and Test"): the status mirror, unit commands,
readback, descriptor slots and buffers, register access, SMBus errors, JTAG; the quiesce acknowledge, which a management STOP,
an operation of the Rake and the sleep controller share; and the parity faults of the device and the interfaces (R20). -/

namespace Sys2Proof.Machine

/-- The register path of an interface. -/
def mgPath : MgmtIf → Path
  | .smbus => .smbus
  | .jtag => .jtag

/-! ### The response of UNIT_CMD (R592, R594, R606) -/

/-- MGMT_LAST. -/
def lastCmd (u action st : Nat) : Word := pack [(u, 0, 16), (action, 16, 3), (st, 24, 8)]

/-- The response block: status, 0, epoch, state, 0. -/
def Dev.unitReply (d : Dev) (u st : Nat) : List Byte :=
  [BitVec.ofNat 8 st, 0] ++ leBytes 2 (d.unit u).epoch.toNat ++ [BitVec.ofNat 8 (d.ust u).code, 0]

/-- Record and answer a UNIT_CMD. -/
def Dev.unitResponse (d : Dev) (via : MgmtIf) (u action st : Nat) : Dev :=
  { d with mblk := { d.mblk with last := lastCmd u action st } }.emit (.mgmtResponse via (d.unitReply u st))

/-- The interface of a pending STOP. -/
def stopVia (k : Nat) : MgmtIf := if k = 0 then .smbus else .jtag

/-- The number an interface has in a pan's pending STOP. -/
def mgNum : MgmtIf → Nat
  | .smbus => 0
  | .jtag => 1

/-- A STOP that waited ends. An interface that has abandoned its transaction gets no response (R590). -/
def Dev.endStop (d : Dev) (p k st : Nat) : Dev :=
  let via := stopVia k
  let d1 := d.modPan p fun x => { x with stopPend := none }
  let d2 := { d1 with mblk := { d1.mblk with last := lastCmd (uPan p) 1 st } }
  if (d.mg via).wait = some (.stop p) then
    (d2.modMg via fun m => { m with wait := none }).lateReply via (d2.unitReply (uPan p) st)
  else d2

/-- The pan whose STOP an interface waits for. -/
def Dev.mgStop (d : Dev) (v : MgmtIf) : Option Nat := (List.range 64).find? fun p => (d.pan p).stopPend == some (mgNum v)

/-! ### QACK and its timeout (R223–R225, R526, R595) -/

/-- A management STOP takes its pan to QUIESCED: hold, clamped edges, the port to REFUSING (R595). -/
def Dev.stopPan (d : Dev) (p : Nat) (via : MgmtIf) : Dev :=
  (((d.shutPan p).panSources p fun x => { x with srcStop := true }).modPan p fun x => { x with port := .refusing }).setUnit
    (uPan p) .quiesced (.mgmt via)

/-- QACK: the synchroniser of a pan's QACK has passed on a 1 of the wire that the image chooses, or QREQ where it connects
none, to whoever raised QREQ; a FAULTED pan acknowledges whatever its wire reads (R223). -/
def opQack (p : Nat) (d : Dev) : Dev :=
  if d.pllDead 0 || !(d.pan p).qreq || (d.pan p).qack || !(d.qackHigh p || d.ust (uPan p) == .faulted) then d
  else
    let d1 := d.modPan p fun x => { x with qack := true }
    match d1.findOp fun o => o.needAck.contains p with
    | some (e, _) => d1.opAck e p
    | none =>
      match (d1.pan p).stopPend with
      | some k =>
        if d1.ust (uPan p) == .running then ((d1.stopPan p (stopVia k)).endStop p k stDone).refreshPins
        else d1.endStop p k stRefused
      | none => if d1.isAsked (uPan p) && d1.ust (uPan p) == .running then d1.acceptUnit (uPan p) else d1

/-- QUIESCE_TIMEOUT: RAKE_QUIESCE.TIMEOUT has passed. -/
def opQuiesceTimeout (p : Nat) (d : Dev) : Dev :=
  match d.findOp fun o => o.needAck.contains p with
  | some (e, _) => d.opTimeout e
  | none =>
    match (if d.pllDead 0 then none else (d.pan p).stopPend) with
    | some k => ((if d.isAsked (uPan p) then d else d.setQreq p false).endStop p k stTimeout)
    | none => d

/-! ### Unit commands (R594–R597) -/

/-- A UNIT_CMD that comes over SMBus while its unit is ASLEEP is the access that wakes it, as JTAG is no wake source (R531), and
waits: the epoch it will be compared with is that of now (R31). -/
def Dev.noteLate (d : Dev) (via : MgmtIf) (u action : Nat) (expected : BitVec 16) : Dev :=
  if via = .smbus && d.sleeps && d.hears via && d.ust u == .asleep then
    d.modMg via fun m => { m with late := some { unit := u, action := action, expected := expected, held := (d.unit u).epoch } }
  else d

/-- The epoch that a UNIT_CMD is compared with: the unit's own, or that of its sleep where this command has waited for the
wake and the unit has made no transition since (R28, R31). -/
def Dev.epochHeld (d : Dev) (via : MgmtIf) (u action : Nat) (expected : BitVec 16) : BitVec 16 :=
  match (d.mg via).late with
  | some l =>
    if l.unit = u ∧ l.action = action ∧ l.expected = expected ∧ l.woken = some (d.unit u).epoch then l.held else (d.unit u).epoch
  | none => (d.unit u).epoch

/-- The checks before the epoch check: the unit exists and lies within template 4. -/
def Dev.unitCmd (d : Dev) (via : MgmtIf) (unit : BitVec 16) (action : Nat) (pre : Option Nat) (epoch : BitVec 16) (busy legal : Dev → Nat → Bool)
    (act : Dev → Nat → Dev) : Dev :=
  let u := unit.toNat
  (d.noteLate via u action epoch).carry via false fun d =>
    let held := d.epochHeld via u action epoch
    let d := d.modMg via fun m => { m with late := none }
    if !unitExists u then d.unitResponse via u action stRefused
    else if !d.inPart 4 u then d.unitResponse via u action stPerm
    else match pre with
      | some st => d.unitResponse via u action st
      | none =>
        match epochOutcome held epoch (d.pwr.phase != .awake || busy d u) (legal d u) with
        | some st => d.unitResponse via u action st
        | none => act d u

/-- A pan is the subject of an operation, a readback or another STOP. -/
def Dev.unitBusy (d : Dev) (u : Nat) : Bool := unitClass u == 1 && d.busyPan (unitIdx u)

/-- Act, then answer DONE. -/
def Dev.acting (d : Dev) (via : MgmtIf) (action u : Nat) (f : Dev → Dev) : Dev := (f d).unitResponse via u action stDone

/-- Background services stop: a borrowed slot is restored, and a periodic pan self-test ends (R556). -/
def Dev.stopBgs (d : Dev) : Dev :=
  match (if d.bgs.pstDemand then none else d.bgs.pstRun) with
  | some p => d.restoreSlots.endPst p
  | none => d.restoreSlots

/-- STOP is legal (R594, R213). -/
def Dev.stopLegal (d : Dev) (u : Nat) : Bool :=
  d.ust u == .running && (unitClass u == 1 || (u == uRake && d.rakeIdle) || u == uBgs)

/-- UNIT_CMD STOP: a pan's QREQ rises, and the response waits for QACK (R595). -/
def opUnitCmdStop (via : MgmtIf) (unit epoch : BitVec 16) (_param : Byte) (d : Dev) : Dev :=
  d.unitCmd via unit 1 none epoch (fun d u => d.unitBusy u) Dev.stopLegal fun d u =>
    if unitClass u = 1 then
      ((d.modPan (unitIdx u) fun x => { x with stopPend := some (mgNum via) }).modMg via fun m =>
        { m with wait := some (.stop (unitIdx u)) }).setQreq (unitIdx u) true
    else if u = uRake then d.acting via 1 u fun d => d.abandonPre.setUnit uRake .quiesced (.mgmt via)
    else d.acting via 1 u fun d => d.stopBgs.setUnit uBgs .quiesced (.mgmt via)

/-- End the readback that holds a pan (R601). -/
def Dev.endRdbk (d : Dev) (p : Nat) : Dev :=
  foldS (fun (d : Dev) v => if (d.mg v).rdbk.any (fun r => r.pan == some p) then d.modMg v fun m => { m with rdbk := none } else d)
    d [MgmtIf.smbus, MgmtIf.jtag]

/-- A stopped pan runs again: QREQ withdrawn, hold released, the edges release, the port opens (R595). -/
def Dev.startPan (d : Dev) (p : Nat) (via : MgmtIf) : Dev :=
  (((((d.endRdbk p).modPan p fun x => { x with shut := false, handover := false, port := .opened }).setQreq p false).setUnit
    (uPan p) .running (.mgmt via)).panSources p fun x => { x with srcStop := false }).refreshPins

/-- START is legal. -/
def Dev.startLegal (d : Dev) (u : Nat) : Bool :=
  d.ust u == .quiesced && (unitClass u == 1 || u == uRake || u == uBgs)

/-- UNIT_CMD START. A readback does not make the pan busy (R601). -/
def opUnitCmdStart (via : MgmtIf) (unit epoch : BitVec 16) (_param : Byte) (d : Dev) : Dev :=
  d.unitCmd via unit 2 none epoch
    (fun d u => unitClass u == 1 && ((d.opOf (unitIdx u)).isSome || (d.pan (unitIdx u)).stopPend.isSome)) Dev.startLegal fun d u =>
    d.acting via 2 u fun d =>
      if unitClass u = 1 then d.startPan (unitIdx u) via
      else if u = uRake then (d.setUnit uRake .running (.mgmt via)).resumeRake
      else d.setUnit uBgs .running (.mgmt via)

/-- RECOVER is legal: the unit is FAULTED and its class has the action; an interface is recovered through the other one. -/
def Dev.recoverLegal (via : MgmtIf) (d : Dev) (u : Nat) : Bool :=
  d.ust u == .faulted && u != 0 && unitClass u != 1 && u != uMgmt via

/-- What recovery does to each class (R594, R286, R333, R493, R541). -/
def Dev.recover (d : Dev) (u : Nat) (c : Cause) : Dev :=
  let k := unitIdx u
  match unitClass u with
  | 0x2 => (d.modBank k Bank.recovered).setUnit u .running c
  | 0x3 =>
    let mem := if d.leadOf k == k && (d.link k).brera? then (d.members k).filter fun m => d.ust (uLink m) == .faulted else [k]
    foldS (fun (d : Dev) m => d.setUnit (uLink m) .idle c) d mem
  | 0x4 => d.fportToIdle k c
  | 0x6 => ((d.setUnit u .running c).loadPins (some k)).refreshPins
  | 0x7 => (d.setUnit u .running c).setQuality qFreerun
  | 0x9 => ((d.recoverRake).setUnit u .running c).resumeRake
  | 0xA => (d.setUnit u .running c).recoverSluice
  | 0xB => { d.setUnit u .running c with store := { d.store with ready := false, vaultReady := false, cat := [] } }
  | 0xE => (d.modPll k fun p => { p with gated := p.gated && !p.locked }).setUnit u .running c
  | 0xF => d.setUnit u .running c
  | _ => d.setUnit u .idle c

/-- UNIT_CMD RECOVER. -/
def opUnitCmdRecover (via : MgmtIf) (unit epoch : BitVec 16) (_param : Byte) (d : Dev) : Dev :=
  d.unitCmd via unit 3 none epoch (fun d u => d.unitBusy u) (fun d u => d.recoverLegal via u) fun d u =>
    d.acting via 3 u fun d => d.recover u (.mgmt via)

/-- A number put into an ascending list. -/
def insertNat (n : Nat) : List Nat → List Nat
  | [] => [n]
  | x :: xs => if n < x then n :: x :: xs else if n = x then x :: xs else x :: insertNat n xs

/-- Change the retirement map by a unit, and have both header copies written (R596). -/
def Dev.retireMap (d : Dev) (u : Nat) (f : Nat → List Nat → List Nat) : Dev :=
  let k := unitIdx u
  let w := d.store.work
  let w1 := match unitClass u with
    | 1 => { w with retPans := f k w.retPans }
    | 2 => { w with retBanks := f k w.retBanks }
    | _ => { w with retLinks := f k w.retLinks }
  ({ d with store := { d.store with work := w1 } }).writeMap

/-- RETIRE is legal (R594). -/
def Dev.retireLegal (d : Dev) (u : Nat) : Bool :=
  match unitClass u with
  | 1 => d.ust u == .idle
  | 2 => d.ust u == .running && (d.bank (unitIdx u)).alloc.isEmpty
  | 3 => d.ust u == .idle
  | _ => false

/-- UNIT_CMD RETIRE: a pan leaves self-test and loses its pre-stage, a bank its page moves and its self-test. -/
def opUnitCmdRetire (via : MgmtIf) (unit epoch : BitVec 16) (_param : Byte) (d : Dev) : Dev :=
  d.unitCmd via unit 4 none epoch (fun d u => d.unitBusy u) Dev.retireLegal fun d u =>
    d.acting via 4 u fun d =>
      let k := unitIdx u
      let d1 := if unitClass u = 1 then (d.endPst k).discardPre k
        else if unitClass u = 2 then (d.abandonBank k).modBank k Bank.abortBorrow else d
      (d1.setUnit u .retired (.mgmt via)).retireMap u insertNat

/-- RETURN is legal: retired by the map and not by fuse, in a powered domain. -/
def Dev.returnLegal (d : Dev) (u : Nat) : Bool :=
  (unitClass u == 1 || unitClass u == 2 || unitClass u == 3) && d.ust u == .retired && !d.fuseRetired u &&
    !((unitDomain u).any fun n => !d.domPowered n)

/-- What RETURN does: a pan is EMPTY, every page of a bank is unwritten. -/
def Dev.comeBack (d : Dev) (u : Nat) (c : Cause) : Dev :=
  let k := unitIdx u
  if unitClass u = 1 then
    let d1 := d.panSources k fun x =>
      if x.occupied then { x with empty := true, module := 0, srcEmpty := true, shut := true, port := .empty } else x
    d1.setUnit u .idle c
  else if unitClass u = 2 then
    (d.modBank k fun b => { b with slots := [], zfPage := none, borrow := none }).setUnit u .running c
  else d.setUnit u .idle c

/-- UNIT_CMD RETURN. -/
def opUnitCmdReturn (via : MgmtIf) (unit epoch : BitVec 16) (_param : Byte) (d : Dev) : Dev :=
  d.unitCmd via unit 5 none epoch (fun d u => d.unitBusy u) Dev.returnLegal fun d u =>
    d.acting via 5 u fun d => (d.comeBack u (.mgmt via)).retireMap u fun n l => l.filter (· ≠ n)

/-- A depth that the unit's interface does not offer (R597). Other classes take no LOOP at all. -/
def loopBad (u depth : Nat) : Bool :=
  match unitClass u with
  | 5 => !(depth == 0 || depth == 2 || depth == 3)
  | 6 => !(depth == 0 || depth == 3)
  | _ => false

/-- LOOP is legal. -/
def Dev.loopLegal (d : Dev) (u : Nat) : Bool :=
  match unitClass u with
  | 5 => d.ust u == .idle
  | 6 => d.ust u == .running
  | _ => false

/-- UNIT_CMD LOOP: DEPTH [2:0] and ENABLE [3] of the parameter. No transition. -/
def opUnitCmdLoop (via : MgmtIf) (unit epoch : BitVec 16) (param : Byte) (d : Dev) : Dev :=
  let depth := param.toNat % 8
  let on := param.getLsbD 3
  d.unitCmd via unit 6 (if loopBad unit.toNat depth then some stBad else none) epoch (fun d u => d.unitBusy u) Dev.loopLegal fun d u =>
    d.acting via 6 u fun d =>
      let k := unitIdx u
      if unitClass u = 5 then (d.modHp k fun h => { h with loop := if on then some depth else none }).checkPrbs
      else
        let code : BitVec 2 := if !on then 0 else if depth = 0 then 1 else 2
        ({ d with pins := { d.pins with loop := d.pins.loop.set 0 k code } }).refreshPins

/-! ### The status mirror (R24, R26, R593) -/

/-- MIRROR_READ: any unit, whatever template 4 holds. -/
def opMirrorRead (via : MgmtIf) (unit : BitVec 16) (d : Dev) : Dev :=
  d.carry via true fun d =>
    d.emit (.mgmtResponse via (leBytes 4 (if unitExists unit.toNat then (d.statusWord unit.toNat).toNat else 0)))

/-! ### Readback (R600, R601) -/

/-- A frame as it is read back: its data and its frame check. -/
def Dev.rdbkFrame (d : Dev) (u k rel : Nat) : List Byte :=
  let f := d.frame u k rel
  frameBytes f ++ leBytes 4 (frameCheckAt u rel f).toNat

/-- The Q of every macrocell: storage elements as they stand, COMB macrocells at INIT. -/
def Dev.rdbkCells (d : Dev) (p : Nat) : List Byte :=
  let v := d.view p
  let stored := v.p.fab.q.foldl (fun n e => if e.2 && decide ((v.cfg.cell e.1).mode < 4) then n ||| 2 ^ e.1 else n) 0
  leBytes 4096 (v.inits.foldl (fun n m => if 4 ≤ (v.cfg.cell m).mode then n ||| 2 ^ m else n) stored)

/-- The 96 fabric RAM blocks in ascending index, content bit i at bit i. -/
def Dev.rdbkRams (d : Dev) (p : Nat) : List Byte :=
  let ram := (d.pan p).fab.ram
  (List.range 96).flatMap fun r =>
    leBytes 4608 (ram.foldl (fun n e => if e.1 / 1024 = r then n ||| (e.2.toNat <<< (36 * (e.1 % 1024))) else n) 0)

/-- What a readback names. -/
inductive RdbkTarget where
  | frame (unit rel : Nat)
  | pan (p : Nat)
  deriving DecidableEq, Repr

/-- The target of RDBK_START; none: BAD_DESCRIPTOR. -/
def rdbkTarget (kind plane : Byte) (target : Word) : Option RdbkTarget :=
  if 3 ≤ kind.toNat ∨ 2 ≤ plane.toNat then none
  else if kind = 0 then
    if target.toNat < 2 ^ 24 then (devIndex target.toNat).map fun n => let (u, r) := devUnit n; .frame u r else none
  else if unitClass target.toNat = 1 ∧ target.toNat < 0x1040 then some (.pan (unitIdx target.toNat)) else none

/-- The pan a target lies in; none for the global area. -/
def RdbkTarget.panOf : RdbkTarget → Option Nat
  | .frame u _ => if u < 64 then some u else none
  | .pan p => some p

/-- The status of RDBK_START once its target is named, in the order of R601. -/
def Dev.rdbkStatus (d : Dev) (plane : Byte) (t : RdbkTarget) : Nat :=
  let shadowBusy (u : Nat) : Bool := plane == 1 && (d.pan u).shadowWriting
  if d.locked 3 || (t.panOf.any fun p => !d.inPart 4 (uPan p)) then stPerm
  else match t with
    | .pan p =>
      if d.ust (uPan p) != .quiesced then stRefused
      else if d.reserved p || shadowBusy p then stBusy else stDone
    | .frame u _ => if (t.panOf.any fun p => d.reserved p) || shadowBusy u then stBusy else stDone

/-- Bytes as the sense path gives them: at tightened margin a cell of low margin may read otherwise, so which bits do is a free value
(R600; assumption 68). -/
def Dev.sensed (d : Dev) (bs : List Byte) : List Byte :=
  if bit d.test.ctrl 0 then (indexed bs).map fun x => x.2 ^^^ (Config.freeWord (d.freeCtr + x.1)).setWidth 8 else bs

/-- The bytes of a readback. -/
def Dev.rdbkBytes (d : Dev) (kind plane : Byte) : RdbkTarget → List Byte
  | .frame u r => d.sensed (d.rdbkFrame u (if plane = 1 then d.shadow u else (d.pan u).active) r)
  | .pan p => if kind = 1 then d.rdbkCells p else d.rdbkRams p

/-- RDBK_START: the interface's own readback ends; a capture holds its pan until it is read out. -/
def opRdbkStart (via : MgmtIf) (kind plane : Byte) (target : Word) (d : Dev) : Dev :=
  d.carry via false fun d0 =>
    let d := d0.modMg via fun m => { m with rdbk := none }
    let answer (d : Dev) (st n : Nat) : Dev := d.emit (.mgmtResponse via ([BitVec.ofNat 8 st, 0, 0, 0] ++ leBytes 4 n))
    match rdbkTarget kind plane target with
    | none => answer d stBad 0
    | some t =>
      let st := d.rdbkStatus plane t
      if st ≠ stDone then answer d st 0
      else
        let bs := d.rdbkBytes kind plane t
        let hold := match t with | .pan p => some p | .frame _ _ => none
        let d1 := if bit d.test.ctrl 0 && hold.isNone then { d with freeCtr := d.freeCtr + bs.length } else d
        answer (d1.modMg via fun m => { m with rdbk := some { bytes := bs, pan := hold } }) stDone bs.length

/-- A readback after some of its bits were taken; none when nothing is left. -/
def Rdbk.after (r : Rdbk) (bits : Nat) : Option Rdbk :=
  let b := r.bytes.drop (bits / 8)
  if b.isEmpty then none else some { r with bytes := b, bit := bits % 8 }

/-- RDBK_DATA: up to 240 of the next bytes. A byte that RDBK_STREAM has shifted in part is not given again. -/
def opRdbkData (via : MgmtIf) (d : Dev) : Dev :=
  d.carry via false fun d =>
    match (d.mg via).rdbk with
    | none => d.emit (.mgmtResponse via [])
    | some r =>
      let skip := if r.bit = 0 then 0 else 1
      let bs := (r.bytes.drop skip).take 240
      (d.modMg via fun m => { m with rdbk := r.after (8 * (skip + bs.length)) }).emit (.mgmtResponse via bs)

/-! ### Descriptor slot and buffer (R598) -/

/-- DESC_SUBMIT: the slot takes the descriptor; one that is not empty sets MGMT_ERR.SLOT, and the command
is not performed (R598, R606). -/
def opDescSubmit (via : MgmtIf) (x : Desc) (d : Dev) : Dev :=
  d.carryFree via false fun d =>
    if (d.mg via).slot ≠ 0 then { d with mblk := { d.mblk with err := d.mblk.err ||| 0x10 } }
    else (d.countMgmt via).modMg via fun m => { m with slot := 1, desc := some x }

/-- DESC_RESULT: the state, and the completion record, which empties the slot. -/
def opDescResult (via : MgmtIf) (d : Dev) : Dev :=
  d.carry via false fun d =>
    let m := d.mg via
    if m.slot = 2 then (d.modMg via fun m => { m with slot := 0, cpl := [] }).emit (.mgmtResponse via ((2 : Byte) :: m.cpl))
    else d.emit (.mgmtResponse via [BitVec.ofNat 8 m.slot])

/-- BUF_WRITE: bytes beyond the buffer are not stored. -/
def opBufWrite (via : MgmtIf) (off : BitVec 16) (bs : List Byte) (d : Dev) : Dev :=
  d.carry via false fun d => d.modMg via fun m => { m with buf := m.buf.setList 0 off.toNat (bs.take (4096 - off.toNat)) }

/-- BUF_READ: at most 240 bytes; beyond the buffer nothing is stored, and 0 is read. -/
def opBufRead (via : MgmtIf) (off : BitVec 16) (len : Byte) (d : Dev) : Dev :=
  d.carry via false fun d => d.emit (.mgmtResponse via ((d.mg via).buf.getList 0 off.toNat (min 240 len.toNat)))

/-! ### Register access (R593) -/

/-- The Alert Response Address is read: the port answers with its own address while it asserts SMB_ALERT_N, unless it answers nothing at
all (R590; assumption 87). -/
def Dev.alertRead (d : Dev) : Dev :=
  if !d.hears .smbus || d.sleeps || (d.mg .smbus).wait.isSome || !d.smbAlert then d
  else d.emit (.mgmtResponse .smbus [BitVec.ofNat 8 (2 * (0x58 + d.cfg.smbAddr.toNat))])

/-- REG_READ (R593), and a host's read of a space of its port (R348, R349, R357). -/
def opRegRead (by_ : RegReader) (off : Word) (d : Dev) : Dev :=
  match by_ with
  | .mgmt via => d.readIn (mgPath via) .bar0 off
  | .host path sp => d.readIn path sp off
  | .alert => d.alertRead

/-- REG_WRITE. -/
def opRegWrite (via : MgmtIf) (off v : Word) (d : Dev) : Dev := d.access (mgPath via) fun d => d.writeReg (mgPath via) off v

/-! ### SMBus errors (R590, R592) -/

/-- The command codes of R592. -/
def smbusCodes : List Nat := [0x01, 0x10, 0x20, 0x21, 0x30, 0x31, 0x40, 0x41, 0x50, 0x51, 0x60, 0x61, 0x62]

/-- Set flags of MGMT_ERR and NACK. -/
def Dev.smbusNack (d : Dev) (flags : BitVec 6) : Dev :=
  { d with mblk := { d.mblk with err := d.mblk.err ||| flags } }.emit (.mgmtNack .smbus)

/-- SMBUS_BAD_COMMAND (none reaches the port while it holds SCL low for a response, R592): a PEC that is wrong, or missing where MGMT_CTRL.PEC_REQ requires one; a code that no table lists; a
command that SMB_LIMIT closes. A command of another row stands for one whose PEC is right, or not required. -/
def opSmbusBadCommand (code : Byte) (pec : Pec) (d : Dev) : Dev :=
  if d.viaDead .smbus || d.locked 7 || (d.sleeps && d.pwr.modeIn == 4) then d.emit (.mgmtNack .smbus)
  else if d.sleeps || (d.mg .smbus).wait.isSome then d
  else if pec = .wrong ∨ pec = .missing ∧ bit d.mblk.ctrl 2 = true then d.smbusNack 0x01
  else
    let unknown := !smbusCodes.contains code.toNat
    let closed := d.locked 6 && code != 0x01
    if !unknown && !closed then d
    else d.smbusNack ((if unknown then 0x02 else 0) ||| (if closed then 0x04 else 0))

/-- SMBUS_SCL_TIMEOUT: the transaction is abandoned; a STOP or a fuse command that it began goes on without a response. -/
def opSmbusSclTimeout (d : Dev) : Dev :=
  if d.viaDead .smbus || d.locked 7 || d.sleeps then d
  else ({ d with
      mblk := { d.mblk with err := d.mblk.err ||| 0x08 }
      fuse := { d.fuse with jobs := d.fuse.jobs.map fun j => { j with silent := j.silent || j.via == .smbus } } } : Dev).modMg .smbus
    fun m => { m with wait := none }

/-! ### JTAG (R602, R603) -/

/-- The TAP is closed: the internal reset is held, or JTAG_OFF (R575). A FAULTED interface keeps boundary scan (R20). -/
def Dev.tapOff (d : Dev) : Bool := d.cfg.phase == .held || d.locked 5 || d.ust (uMgmt .jtag) == .retired

/-- Private instructions act as BYPASS (R20, R575, R602). -/
def Dev.privateOff (d : Dev) : Bool := d.locked 4 || d.ust (uMgmt .jtag) == .faulted

/-- The instruction before leaves: pins return to their crossbar sources (R603). -/
def Dev.tapLeave (d : Dev) : Dev :=
  if d.mblk.jtagOver.isNone then d else ({ d with mblk := { d.mblk with jtagOver := none } }).refreshPins

/-- An instruction is shifted in: the instruction register shifts out what it captured (R602). -/
def Dev.irScan (d : Dev) : Dev := d.emit (.tdo (shiftOut 8 1))

/-- An instruction that does not drive the pins is in force. -/
def Dev.tap (d : Dev) (f : Dev → Dev) : Dev := if d.tapOff then d else f d.irScan.tapLeave

/-- An instruction that overrides the pins and the lanes: every link goes down, a link port with cause 0, and a port that trains stops
(R603). -/
def Dev.tapDrive (d : Dev) (code : BitVec 8) : Dev :=
  if d.tapOff then d
  else
    let d1 := { d.irScan with mblk := { d.mblk with jtagOver := some code } }
    let d2 := foldS (fun (d : Dev) p => if (d.hp p).linkUp then d.hostLost p false else d) d1 [0, 1, 2, 3]
    let d3 := foldS (fun (d : Dev) n =>
      if d.ust (uLink n) == .running && d.leadOf n == n then d.loseLink n 0
      else if (d.link n).training then d.modLink n LinkPort.down
      else d) d2 (List.range 96)
    d3.refreshPins

/-- JTAG_IDCODE. -/
def opJtagIdcode (d : Dev) : Dev := d.tap fun d => d.emit (.tdo (shiftOut 32 0x14D161AB))

/-- The boundary register is scanned: what its cells capture shifts out, and what is shifted in is latched. -/
def Dev.scanBoundary (d : Dev) (x : BoundaryScan) (pads : BitVec 2624) : Dev :=
  ({ d with mblk := { d.mblk with boundary := x.update.getD d.mblk.boundary } }).emit (.tdo (shiftOut 2624 pads.toNat))

/-- JTAG_SAMPLE_PRELOAD; under EXTEST, EXTEST_PULSE and EXTEST_TRAIN the same scan drives the pins with what it latches (R602,
R603). -/
def opJtagSamplePreload (x : BoundaryScan) (pads : BitVec 2624) (d : Dev) : Dev :=
  if !x.extest then d.tap fun d => d.scanBoundary x pads
  else if d.tapOff || !(d.mblk.jtagOver.any fun i => i == 3 || i == 6 || i == 7) then d
  else (d.scanBoundary x pads).refreshPins

/-- JTAG_EXTEST. -/
def opJtagExtest (d : Dev) : Dev := d.tapDrive 0x03
/-- JTAG_CLAMP. -/
def opJtagClamp (d : Dev) : Dev := d.tapDrive 0x04
/-- JTAG_HIGHZ. -/
def opJtagHighz (d : Dev) : Dev := d.tapDrive 0x05
/-- JTAG_EXTEST_PULSE. -/
def opJtagExtestPulse (d : Dev) : Dev := d.tapDrive 0x06
/-- JTAG_EXTEST_TRAIN. -/
def opJtagExtestTrain (d : Dev) : Dev := d.tapDrive 0x07

/-- JTAG_INSTRUCTION_EXIT: the TAP is reset, and the instruction in force leaves. -/
def opJtagInstructionExit (d : Dev) : Dev := if d.tapOff then d else d.tapLeave

/-- The bypass register, which captures 0, is scanned. -/
def Dev.bypass (d : Dev) : Dev := d.tap fun d => d.emit (.tdo [false])

/-- JTAG_BYPASS: BYPASS, a value that the table does not list, or a private instruction that is closed. -/
def opJtagBypass (ir : BitVec 8) (d : Dev) : Dev :=
  let n := ir.toNat
  if (decide (1 ≤ n) && decide (n ≤ 7)) || ((n == 0x20 || n == 0x21) && !d.privateOff) then d else d.bypass

/-- JTAG_RDBK_STREAM: the next bits of the readback, 0 when none are left. -/
def opJtagRdbkStream (n : Nat) (d : Dev) : Dev :=
  if d.privateOff then d.bypass
  else if d.sleeps then d
  else d.tap fun d =>
    match (d.mg .jtag).rdbk with
    | none => d.emit (.tdo (List.replicate n false))
    | some r =>
      let x := ofLe (r.bytes.take (n / 8 + 2)) >>> r.bit
      (d.modMg .jtag fun m => { m with rdbk := r.after (r.bit + n) }).emit (.tdo (shiftOut n x))

/-- A command that JTAG carries with an action, a code or a length that R592 does not give: it is not performed (R606). -/
def Dev.jtagBad (d : Dev) : Dev :=
  d.carryFree .jtag false fun d => { d with mblk := { d.mblk with err := d.mblk.err ||| 0x02 } }

/-- One command of R592 as MGMT_ACCESS carries it. -/
def Dev.jtagCommand (d : Dev) (code : Nat) (b : List Byte) : Dev :=
  let n := b.length
  let h (o : Nat) : BitVec 16 := BitVec.ofNat 16 (leAt b o 2)
  let by8 (o : Nat) : Byte := b.getD o 0
  let w (o : Nat) : Word := wordAt b o
  match code with
  | 0x01 => if n = 2 then opMirrorRead .jtag (h 0) d else d.jtagBad
  | 0x10 =>
    if n ≠ 6 then d.jtagBad
    else match (by8 4).toNat with
      | 1 => opUnitCmdStop .jtag (h 0) (h 2) (by8 5) d
      | 2 => opUnitCmdStart .jtag (h 0) (h 2) (by8 5) d
      | 3 => opUnitCmdRecover .jtag (h 0) (h 2) (by8 5) d
      | 4 => opUnitCmdRetire .jtag (h 0) (h 2) (by8 5) d
      | 5 => opUnitCmdReturn .jtag (h 0) (h 2) (by8 5) d
      | 6 => opUnitCmdLoop .jtag (h 0) (h 2) (by8 5) d
      | a => d.carry .jtag false fun d => d.unitResponse .jtag (h 0).toNat a stRefused
  | 0x20 => if n = 6 then opRdbkStart .jtag (by8 0) (by8 1) (w 2) d else d.jtagBad
  | 0x21 => if n = 0 then opRdbkData .jtag d else d.jtagBad
  | 0x30 => if n = 64 then opDescSubmit .jtag (BitVec.ofNat 512 (ofLe b)) d else d.jtagBad
  | 0x31 => if n = 0 then opDescResult .jtag d else d.jtagBad
  | 0x40 => if 3 ≤ n ∧ n ≤ 240 then opBufWrite .jtag (h 0) (b.drop 2) d else d.jtagBad
  | 0x41 => if n = 3 then opBufRead .jtag (h 0) (by8 2) d else d.jtagBad
  | 0x50 => if n = 4 then opRegRead (.mgmt .jtag) (w 0) d else d.jtagBad
  | 0x51 => if n = 8 then opRegWrite .jtag (w 0) (w 4) d else d.jtagBad
  | 0x60 => if n = 6 then opFuseProgram .jtag (h 0) (w 2) d else d.jtagBad
  | 0x61 => if n = 1 then opFuseLock .jtag (by8 0) d else d.jtagBad
  | 0x62 => if n = 2 then opFuseRollback .jtag (h 0) d else d.jtagBad
  | _ => d.jtagBad

/-- The response to the MGMT_ACCESS before which `n` outputs stood is captured: at once, or when it comes. -/
def Dev.captureDr (d : Dev) (code : Byte) (n : Nat) : Dev :=
  match (d.out.drop n).findSome? fun o => match o with | .mgmtResponse .jtag bs => some bs | _ => none with
  | some bs => d.emit (.tdo (drBits code bs))
  | none => d.modMg .jtag fun m => { m with drCode := if m.wait.isSome then some code else none }

/-- JTAG_MGMT_ACCESS. -/
def opJtagMgmtAccess (x : MgmtFrame) (d : Dev) : Dev :=
  if d.privateOff then d.bypass else d.tap fun d => (d.jtagCommand x.code.toNat x.data).captureDr x.code d.out.length

/-! ### A fuse bit and what its lock ends (R571, R577, R599) -/

/-- An interface is closed: its readback ends, the STOP that it waits for ends REFUSED, and a fuse command of its own that has
not started is REFUSED (R577). -/
def Dev.closeVia (d0 : Dev) (v : MgmtIf) : Dev :=
  let d := d0.modMg v fun m => { m with rdbk := none, late := none }
  let d1 := match d.mgStop v with
    | some p => (if d.isAsked (uPan p) then d else d.setQreq p false).endStop p (mgNum v) stRefused
    | none => d
  let shut (j : FuseJob) : Bool := !j.started && j.via == v
  foldS (fun (d : Dev) j => d.fuseResponse j stRefused) { d1 with fuse := { d1.fuse with jobs := d1.fuse.jobs.filter fun j => !shut j } }
    (d1.fuse.jobs.filter shut)

/-- The TEST block closes: a test on demand ends REFUSED, and the checker stops (R575, R577). -/
def Dev.closeTest (d : Dev) : Dev :=
  let d1 := match (if d.bgs.pstDemand then d.bgs.pstRun else none) with | some p => d.endPst p | none => d
  let d2 := match d1.bgs.bstRun with | some n => d1.modBank n Bank.abortBorrow | none => d1
  { d2 with
    bgs := { d2.bgs with bstRun := none }
    test := { d2.test with
      bistBusy := false, prbsCtrl := d2.test.prbsCtrl &&& 0xFF03
      bistResult := if d.test.bistBusy then bistWord false stRefused 0 else d2.test.bistResult } }

/-- A load in clear ends, and so do the passes of images that are not encrypted (R574, R577). -/
def Dev.endClear (d : Dev) : Dev :=
  let d1 := if d.cfg.load.any fun l => !l.keyed && l.started then d.loadFail stAuth 0xFFFFFE else d
  let clear (x : Pass) : Bool := (x.kind == .real || x.kind == .pre) && x.lane.isSome && (d1.imgHdr x.img).any fun h => h.keySlot == 0xFF
  foldS (fun (d : Dev) (x : Pass) => if d.cfg.passes.contains x then d.passFail x stAuth 0xFFFFFE else d) d1 (d1.cfg.passes.filter clear)

/-- What lock `n` ends at the cycle one of its fuses is programmed (R571, R575, R577): READBACK_LOCK the readbacks, TEST_LOCK
the production tests, and the locks of an interface what that interface has in progress; JTAG_OFF and SMB_OFF retire their
unit too, and JTAG_OFF gives back the pins. ENC_REQUIRED ends a device load that carries records in clear and the passes of
images that are not encrypted (R574). R577's 'at once' holds for a FAULTED unit too, although R19 lets a unit leave FAULTED only by a command with an
expected epoch: the model's choice (assumption 79). -/
def Dev.lockActs (d : Dev) (via : MgmtIf) (f : Nat) : Dev :=
  match (if 256 ≤ f ∧ f < 256 + 33 then some ((f - 256) / 3) else none) with
  | some 0 => d.endClear
  | some 3 => (d.modMg .smbus fun m => { m with rdbk := none }).modMg .jtag fun m => { m with rdbk := none }
  | some 4 => d.closeVia .jtag
  | some 5 => ((d.closeVia .jtag).setUnit (uMgmt .jtag) .retired (.mgmt via)).tapLeave
  | some 6 => d.closeVia .smbus
  | some 7 => (d.closeVia .smbus).setUnit (uMgmt .smbus) .retired (.mgmt via)
  | some 8 => d.closeTest
  | _ => d

/-- A fuse bit finishes its programming and verifies, or does not; the bit in progress as PFW_N asserted is the last (R599). While the device unit is FAULTED no fuse is programmed
(R20): the command ends REFUSED. -/
def opFuseBitVerified (via : MgmtIf) (verifies : Bool) (d : Dev) : Dev :=
  match d.fuse.jobs with
  | [] => d
  | j :: rest =>
    if !j.started || j.via != via then d
    else match j.left with
      | [] => d
      | f :: fs =>
        let stop (d : Dev) (st : Nat) : Dev :=
          (({ d with fuse := { d.fuse with jobs := d.fuse.jobs.tail } }).fuseResponse j st).fuseStart rest.length
        if d.ust 0 == .faulted then stop d stRefused
        else if !verifies then stop d stUncorr
        else
          let d1 := (d.setFuse f).lockActs via f
          if j.cut then stop d1 stTimeout
          else if fs = [] then stop d1 stDone
          else { d1 with fuse := { d1.fuse with jobs := { j with left := fs } :: d1.fuse.jobs.tail } }

/-! ### Parity faults (R20) -/

/-- MANAGEMENT_PARITY_FAULT. -/
def opManagementParityFault (via : MgmtIf) (d : Dev) : Dev :=
  if d.ust (uMgmt via) == .running then d.fault (uMgmt via) stInternal 0 else d

/-- DEVICE_PARITY_FAULT. -/
def opDeviceParityFault (d : Dev) : Dev := if d.ust 0 == .running then d.fault 0 stInternal 0 else d

/-! ### The commands -/

/-- QACK (R223). -/
def execQack (pan : Nat) (s : State) : Res :=
  runCmd (.qack pan) (opQack pan) s

/-- QUIESCE_TIMEOUT (R225). -/
def execQuiesceTimeout (pan : Nat) (s : State) : Res :=
  runCmd (.quiesceTimeout pan) (opQuiesceTimeout pan) s

/-- MIRROR_READ (R593). -/
def execMirrorRead (via : MgmtIf) (unit : BitVec 16) (s : State) : Res :=
  runCmd (.mirrorRead via unit) (opMirrorRead via unit) s

/-- UNIT_CMD_STOP (R595). -/
def execUnitCmdStop (via : MgmtIf) (unit : BitVec 16) (epoch : BitVec 16) (param : Byte) (s : State) : Res :=
  runCmd (.unitCmdStop via unit epoch param) (opUnitCmdStop via unit epoch param) s

/-- UNIT_CMD_START (R595). -/
def execUnitCmdStart (via : MgmtIf) (unit : BitVec 16) (epoch : BitVec 16) (param : Byte) (s : State) : Res :=
  runCmd (.unitCmdStart via unit epoch param) (opUnitCmdStart via unit epoch param) s

/-- UNIT_CMD_RECOVER (R594). -/
def execUnitCmdRecover (via : MgmtIf) (unit : BitVec 16) (epoch : BitVec 16) (param : Byte) (s : State) : Res :=
  runCmd (.unitCmdRecover via unit epoch param) (opUnitCmdRecover via unit epoch param) s

/-- UNIT_CMD_RETIRE (R596). -/
def execUnitCmdRetire (via : MgmtIf) (unit : BitVec 16) (epoch : BitVec 16) (param : Byte) (s : State) : Res :=
  runCmd (.unitCmdRetire via unit epoch param) (opUnitCmdRetire via unit epoch param) s

/-- UNIT_CMD_RETURN (R596). -/
def execUnitCmdReturn (via : MgmtIf) (unit : BitVec 16) (epoch : BitVec 16) (param : Byte) (s : State) : Res :=
  runCmd (.unitCmdReturn via unit epoch param) (opUnitCmdReturn via unit epoch param) s

/-- UNIT_CMD_LOOP (R597). -/
def execUnitCmdLoop (via : MgmtIf) (unit : BitVec 16) (epoch : BitVec 16) (param : Byte) (s : State) : Res :=
  runCmd (.unitCmdLoop via unit epoch param) (opUnitCmdLoop via unit epoch param) s

/-- RDBK_START (R601). -/
def execRdbkStart (via : MgmtIf) (kind : Byte) (plane : Byte) (target : Word) (s : State) : Res :=
  runCmd (.rdbkStart via kind plane target) (opRdbkStart via kind plane target) s

/-- RDBK_DATA (R592). -/
def execRdbkData (via : MgmtIf) (s : State) : Res :=
  runCmd (.rdbkData via) (opRdbkData via) s

/-- DESC_SUBMIT (R598). -/
def execDescSubmit (via : MgmtIf) (d : Desc) (s : State) : Res :=
  runCmd (.descSubmit via d) (opDescSubmit via d) s

/-- DESC_RESULT (R598). -/
def execDescResult (via : MgmtIf) (s : State) : Res :=
  runCmd (.descResult via) (opDescResult via) s

/-- BUF_WRITE (R592). -/
def execBufWrite (via : MgmtIf) (offset : BitVec 16) (bytes : List Byte) (s : State) : Res :=
  runCmd (.bufWrite via offset bytes) (opBufWrite via offset bytes) s

/-- BUF_READ (R592). -/
def execBufRead (via : MgmtIf) (offset : BitVec 16) (length : Byte) (s : State) : Res :=
  runCmd (.bufRead via offset length) (opBufRead via offset length) s

/-- REG_READ (R593). -/
def execRegRead (by_ : RegReader) (offset : Word) (s : State) : Res :=
  runCmd (.regRead by_ offset) (opRegRead by_ offset) s

/-- REG_WRITE (R593). -/
def execRegWrite (via : MgmtIf) (offset : Word) (value : Word) (s : State) : Res :=
  runCmd (.regWrite via offset value) (opRegWrite via offset value) s

/-- SMBUS_BAD_COMMAND (R592). -/
def execSmbusBadCommand (code : Byte) (pec : Pec) (s : State) : Res :=
  runCmd (.smbusBadCommand code pec) (opSmbusBadCommand code pec) s

/-- JTAG_SAMPLE_PRELOAD (R602). -/
def execJtagSamplePreload (scan : BoundaryScan) (pads : BitVec 2624) (s : State) : Res :=
  runCmd (.jtagSamplePreload scan pads) (opJtagSamplePreload scan pads) s

/-- JTAG_MGMT_ACCESS (R602). -/
def execJtagMgmtAccess (frame : MgmtFrame) (s : State) : Res :=
  runCmd (.jtagMgmtAccess frame) (opJtagMgmtAccess frame) s

/-- JTAG_RDBK_STREAM (R602). -/
def execJtagRdbkStream (bits : Nat) (s : State) : Res :=
  runCmd (.jtagRdbkStream bits) (opJtagRdbkStream bits) s

/-- JTAG_BYPASS (R602). -/
def execJtagBypass (ir : Byte) (s : State) : Res :=
  runCmd (.jtagBypass ir) (opJtagBypass ir) s

/-- MANAGEMENT_PARITY_FAULT (R20). -/
def execManagementParityFault (via : MgmtIf) (s : State) : Res :=
  runCmd (.managementParityFault via) (opManagementParityFault via) s

/-- FUSE_BIT_VERIFIED (R599). -/
def execFuseBitVerified (via : MgmtIf) (verifies : Bool) (s : State) : Res :=
  runCmd (.fuseBitVerified via verifies) (opFuseBitVerified via verifies) s

/-- SMBUS_SCL_TIMEOUT (R590). -/
def execSmbusSclTimeout (s : State) : Res :=
  runCmd (.smbusSclTimeout) (opSmbusSclTimeout) s

/-- JTAG_IDCODE (R602). -/
def execJtagIdcode (s : State) : Res :=
  runCmd (.jtagIdcode) (opJtagIdcode) s

/-- JTAG_EXTEST (R603). -/
def execJtagExtest (s : State) : Res :=
  runCmd (.jtagExtest) (opJtagExtest) s

/-- JTAG_CLAMP (R603). -/
def execJtagClamp (s : State) : Res :=
  runCmd (.jtagClamp) (opJtagClamp) s

/-- JTAG_HIGHZ (R603). -/
def execJtagHighz (s : State) : Res :=
  runCmd (.jtagHighz) (opJtagHighz) s

/-- JTAG_EXTEST_PULSE (R602). -/
def execJtagExtestPulse (s : State) : Res :=
  runCmd (.jtagExtestPulse) (opJtagExtestPulse) s

/-- JTAG_EXTEST_TRAIN (R602). -/
def execJtagExtestTrain (s : State) : Res :=
  runCmd (.jtagExtestTrain) (opJtagExtestTrain) s

/-- JTAG_INSTRUCTION_EXIT (R603). -/
def execJtagInstructionExit (s : State) : Res :=
  runCmd (.jtagInstructionExit) (opJtagInstructionExit) s

/-- DEVICE_PARITY_FAULT (R20). -/
def execDeviceParityFault (s : State) : Res :=
  runCmd (.deviceParityFault) (opDeviceParityFault) s

end Sys2Proof.Machine
end

