-- ==== Sys2Proof/Machine/Dispatch.lean ====
section
/-! DEFINITION. One arm for each command: a direct call of its meaning. -/

namespace Sys2Proof.Machine

/-- The effect of a command on everything but the queue. -/
def exec (i : Instr) (s : State) : Host.Outcome State Fault Refusal :=
  match i with
  | .powerOnResetRelease straps cells => Sys2Proof.Machine.execPowerOnResetRelease straps cells s
  | .brownOut completes unsaved => Sys2Proof.Machine.execBrownOut completes unsaved s
  | .progN straps cells => Sys2Proof.Machine.execProgN straps cells s
  | .doneRelease how => Sys2Proof.Machine.execDoneRelease how s
  | .ioEnable wireHigh => Sys2Proof.Machine.execIoEnable wireHigh s
  | .pinBankEnable bank vccioOk us => Sys2Proof.Machine.execPinBankEnable bank vccioOk us s
  | .catalogueLoaded badUnit => Sys2Proof.Machine.execCatalogueLoaded badUnit s
  | .saveUnitErase unit => Sys2Proof.Machine.execSaveUnitErase unit s
  | .startCountUnitErase unit => Sys2Proof.Machine.execStartCountUnitErase unit s
  | .syncSequence pad => Sys2Proof.Machine.execSyncSequence pad s
  | .chainRecord h payload => Sys2Proof.Machine.execChainRecord h payload s
  | .nopRecord h payload => Sys2Proof.Machine.execNopRecord h payload s
  | .regwRecord h payload => Sys2Proof.Machine.execRegwRecord h payload s
  | .keyRecord h payload => Sys2Proof.Machine.execKeyRecord h payload s
  | .tagRecord h payload => Sys2Proof.Machine.execTagRecord h payload s
  | .pansetRecord h payload => Sys2Proof.Machine.execPansetRecord h payload s
  | .framesRecord h payload checks => Sys2Proof.Machine.execFramesRecord h payload checks s
  | .endRecord h x => Sys2Proof.Machine.execEndRecord h x s
  | .unknownRecord ty h payload => Sys2Proof.Machine.execUnknownRecord ty h payload s
  | .foreignRecord ty h payload => Sys2Proof.Machine.execForeignRecord ty h payload s
  | .stagingFrame lane arrival check => Sys2Proof.Machine.execStagingFrame lane arrival check s
  | .passEnd lane => Sys2Proof.Machine.execPassEnd lane s
  | .qack pan => Sys2Proof.Machine.execQack pan s
  | .quiesceTimeout pan => Sys2Proof.Machine.execQuiesceTimeout pan s
  | .portDrained pan => Sys2Proof.Machine.execPortDrained pan s
  | .captureDone pan => Sys2Proof.Machine.execCaptureDone pan s
  | .commitPoint pan => Sys2Proof.Machine.execCommitPoint pan s
  | .recordWordWritten pan => Sys2Proof.Machine.execRecordWordWritten pan s
  | .planeSwitch pan => Sys2Proof.Machine.execPlaneSwitch pan s
  | .borderRelease pan => Sys2Proof.Machine.execBorderRelease pan s
  | .nop iss d => Sys2Proof.Machine.execNop iss d s
  | .place iss d => Sys2Proof.Machine.execPlace iss d s
  | .evict iss d => Sys2Proof.Machine.execEvict iss d s
  | .migrate iss d => Sys2Proof.Machine.execMigrate iss d s
  | .hint iss d => Sys2Proof.Machine.execHint iss d s
  | .bind iss d => Sys2Proof.Machine.execBind iss d s
  | .poolCreate iss d => Sys2Proof.Machine.execPoolCreate iss d s
  | .poolFree iss d => Sys2Proof.Machine.execPoolFree iss d s
  | .copy iss d => Sys2Proof.Machine.execCopy iss d s
  | .fill iss d => Sys2Proof.Machine.execFill iss d s
  | .scrub iss d => Sys2Proof.Machine.execScrub iss d s
  | .retire iss d => Sys2Proof.Machine.execRetire iss d s
  | .fliptest iss d => Sys2Proof.Machine.execFliptest iss d s
  | .snapshot iss d => Sys2Proof.Machine.execSnapshot iss d s
  | .storeImage iss d => Sys2Proof.Machine.execStoreImage iss d s
  | .storeEraseDone unit => Sys2Proof.Machine.execStoreEraseDone unit s
  | .storeProgramDone readsBack => Sys2Proof.Machine.execStoreProgramDone readsBack s
  | .vaultWrite iss d => Sys2Proof.Machine.execVaultWrite iss d s
  | .vaultRead iss d readOk => Sys2Proof.Machine.execVaultRead iss d readOk s
  | .timeSet iss d => Sys2Proof.Machine.execTimeSet iss d s
  | .timeAdj iss d => Sys2Proof.Machine.execTimeAdj iss d s
  | .wait iss d => Sys2Proof.Machine.execWait iss d s
  | .fence iss d => Sys2Proof.Machine.execFence iss d s
  | .loopback iss d => Sys2Proof.Machine.execLoopback iss d s
  | .badOpcode iss d => Sys2Proof.Machine.execBadOpcode iss d s
  | .sluiceRequest r => Sys2Proof.Machine.execSluiceRequest r s
  | .reqStarvation router output => Sys2Proof.Machine.execReqStarvation router output s
  | .arbitrationStarvation resource tier rank => Sys2Proof.Machine.execArbitrationStarvation resource tier rank s
  | .lookup ingress => Sys2Proof.Machine.execLookup ingress s
  | .reply ingress => Sys2Proof.Machine.execReply ingress s
  | .inval router => Sys2Proof.Machine.execInval router s
  | .reserve ingress dest => Sys2Proof.Machine.execReserve ingress dest s
  | .grant dest => Sys2Proof.Machine.execGrant dest s
  | .slotReturn ingress dest => Sys2Proof.Machine.execSlotReturn ingress dest s
  | .close pan st => Sys2Proof.Machine.execClose pan st s
  | .open pan => Sys2Proof.Machine.execOpen pan s
  | .endpointRequest pan => Sys2Proof.Machine.execEndpointRequest pan s
  | .endpointResponse pan itag status data => Sys2Proof.Machine.execEndpointResponse pan itag status data s
  | .responseDelivery ingress => Sys2Proof.Machine.execResponseDelivery ingress s
  | .domainWakeOnAccess domain => Sys2Proof.Machine.execDomainWakeOnAccess domain s
  | .domainReady domain => Sys2Proof.Machine.execDomainReady domain s
  | .resleepTimeout domain => Sys2Proof.Machine.execResleepTimeout domain s
  | .bankRequest bank => Sys2Proof.Machine.execBankRequest bank s
  | .scrubStep bank => Sys2Proof.Machine.execScrubStep bank s
  | .zeroFillStep bank => Sys2Proof.Machine.execZeroFillStep bank s
  | .bankSelftestStep bank defects badLines => Sys2Proof.Machine.execBankSelftestStep bank defects badLines s
  | .recodeStep bank => Sys2Proof.Machine.execRecodeStep bank s
  | .bankCtrlWrite path bank value => Sys2Proof.Machine.execBankCtrlWrite path bank value s
  | .flipArm path bank value => Sys2Proof.Machine.execFlipArm path bank value s
  | .clearCe path bank value => Sys2Proof.Machine.execClearCe path bank value s
  | .clearUe path bank value => Sys2Proof.Machine.execClearUe path bank value s
  | .bankParityFault bank => Sys2Proof.Machine.execBankParityFault bank s
  | .pageCopyPass bank => Sys2Proof.Machine.execPageCopyPass bank s
  | .pageMark ingress bank => Sys2Proof.Machine.execPageMark ingress bank s
  | .pageMoveFinish bank => Sys2Proof.Machine.execPageMoveFinish bank s
  | .hostLinkUp port speed width reversed polarity => Sys2Proof.Machine.execHostLinkUp port speed width reversed polarity s
  | .hostLinkDown port => Sys2Proof.Machine.execHostLinkDown port s
  | .perstN pin => Sys2Proof.Machine.execPerstN pin s
  | .hotReset port => Sys2Proof.Machine.execHotReset port s
  | .functionLevelReset port => Sys2Proof.Machine.execFunctionLevelReset port s
  | .hostPortParityFault port => Sys2Proof.Machine.execHostPortParityFault port s
  | .orphansCleared port => Sys2Proof.Machine.execOrphansCleared port s
  | .sqDoorbell port sq value => Sys2Proof.Machine.execSqDoorbell port sq value s
  | .cancelDoorbell port sq value => Sys2Proof.Machine.execCancelDoorbell port sq value s
  | .cqDoorbell port cq value => Sys2Proof.Machine.execCqDoorbell port cq value s
  | .eqDoorbell port value => Sys2Proof.Machine.execEqDoorbell port value s
  | .ringEnable port ring value => Sys2Proof.Machine.execRingEnable port ring value s
  | .ringDisable port ring value => Sys2Proof.Machine.execRingDisable port ring value s
  | .hostCtrlEnable port value => Sys2Proof.Machine.execHostCtrlEnable port value s
  | .descriptorFetch port sq => Sys2Proof.Machine.execDescriptorFetch port sq s
  | .preread port sq => Sys2Proof.Machine.execPreread port sq s
  | .hostReadCompletion port read result => Sys2Proof.Machine.execHostReadCompletion port read result s
  | .busyRetry iss exec => Sys2Proof.Machine.execBusyRetry iss exec s
  | .busyWindowExpiry iss exec => Sys2Proof.Machine.execBusyWindowExpiry iss exec s
  | .msixHoldoffExpiry port ring => Sys2Proof.Machine.execMsixHoldoffExpiry port ring s
  | .msixUnmask port vector => Sys2Proof.Machine.execMsixUnmask port vector s
  | .marginCheck lowMargin failsNormal => Sys2Proof.Machine.execMarginCheck lowMargin failsNormal s
  | .signatureCheck badFrame => Sys2Proof.Machine.execSignatureCheck badFrame s
  | .deferredVerify badFrame => Sys2Proof.Machine.execDeferredVerify badFrame s
  | .panSelftestDone defect => Sys2Proof.Machine.execPanSelftestDone defect s
  | .wearSizeWrite path value => Sys2Proof.Machine.execWearSizeWrite path value s
  | .telemetrySample temps volts vccioOk => Sys2Proof.Machine.execTelemetrySample temps volts vccioOk s
  | .teleClear path value => Sys2Proof.Machine.execTeleClear path value s
  | .teleRec0Read path => Sys2Proof.Machine.execTeleRec0Read path s
  | .pfwReturnTimeout straps cells => Sys2Proof.Machine.execPfwReturnTimeout straps cells s
  | .unitStopAccept unit => Sys2Proof.Machine.execUnitStopAccept unit s
  | .unitStopRefuse unit => Sys2Proof.Machine.execUnitStopRefuse unit s
  | .wakeEvent code unit straps cells => Sys2Proof.Machine.execWakeEvent code unit straps cells s
  | .wakeComplete asleepUs => Sys2Proof.Machine.execWakeComplete asleepUs s
  | .pllLossOfLock pll => Sys2Proof.Machine.execPllLossOfLock pll s
  | .pllRelock pll => Sys2Proof.Machine.execPllRelock pll s
  | .clkMeasStart path value => Sys2Proof.Machine.execClkMeasStart path value s
  | .clkMeasDone count => Sys2Proof.Machine.execClkMeasDone count s
  | .ppsEdge backHalfNs => Sys2Proof.Machine.execPpsEdge backHalfNs s
  | .alarmArm path value => Sys2Proof.Machine.execAlarmArm path value s
  | .timeIncFracWrite path value => Sys2Proof.Machine.execTimeIncFracWrite path value s
  | .timeCtrlWrite path value => Sys2Proof.Machine.execTimeCtrlWrite path value s
  | .timeSecLoRead path => Sys2Proof.Machine.execTimeSecLoRead path s
  | .deepEntryC0 coarse => Sys2Proof.Machine.execDeepEntryC0 coarse s
  | .wakeReloadC1 coarse => Sys2Proof.Machine.execWakeReloadC1 coarse s
  | .linkTrainStart port signal => Sys2Proof.Machine.execLinkTrainStart port signal s
  | .pcsLinkUp port partner => Sys2Proof.Machine.execPcsLinkUp port partner s
  | .pcsLinkLost port cause => Sys2Proof.Machine.execPcsLinkLost port cause s
  | .hello port h => Sys2Proof.Machine.execHello port h s
  | .helloSend port => Sys2Proof.Machine.execHelloSend port s
  | .helloMissing port => Sys2Proof.Machine.execHelloMissing port s
  | .trainTimeout port => Sys2Proof.Machine.execTrainTimeout port s
  | .breraLinkLost port cause => Sys2Proof.Machine.execBreraLinkLost port cause s
  | .breraPacket port p => Sys2Proof.Machine.execBreraPacket port p s
  | .nak port seq => Sys2Proof.Machine.execNak port seq s
  | .linkIdleBlock port ack ackValid rspCredits reqCredits => Sys2Proof.Machine.execLinkIdleBlock port ack ackValid rspCredits reqCredits s
  | .ackTimeout port => Sys2Proof.Machine.execAckTimeout port s
  | .xidTimeout port entry => Sys2Proof.Machine.execXidTimeout port entry s
  | .xidQuarantineEnd port entry => Sys2Proof.Machine.execXidQuarantineEnd port entry s
  | .relayBlock port state => Sys2Proof.Machine.execRelayBlock port state s
  | .sysStart atPps => Sys2Proof.Machine.execSysStart atPps s
  | .sleepBlock port kind => Sys2Proof.Machine.execSleepBlock port kind s
  | .sleepAnswerTimeout port => Sys2Proof.Machine.execSleepAnswerTimeout port s
  | .signalLost port => Sys2Proof.Machine.execSignalLost port s
  | .rxLine port words ctrl fec age => Sys2Proof.Machine.execRxLine port words ctrl fec age s
  | .txLinePull port => Sys2Proof.Machine.execTxLinePull port s
  | .txUnderrun port => Sys2Proof.Machine.execTxUnderrun port s
  | .linkParityFault port => Sys2Proof.Machine.execLinkParityFault port s
  | .routeTableWrite path port value => Sys2Proof.Machine.execRouteTableWrite path port value s
  | .fportStart port => Sys2Proof.Machine.execFportStart port s
  | .uartRxCharacter port ch parityErr framingErr brk => Sys2Proof.Machine.execUartRxCharacter port ch parityErr framingErr brk s
  | .uartTxCharacter port => Sys2Proof.Machine.execUartTxCharacter port s
  | .spiByte port byteIn => Sys2Proof.Machine.execSpiByte port byteIn s
  | .spiCsEnd port => Sys2Proof.Machine.execSpiCsEnd port s
  | .i2cByte port byteIn ended first readReq stopped => Sys2Proof.Machine.execI2cByte port byteIn ended first readReq stopped s
  | .i2cStretchTimeout port => Sys2Proof.Machine.execI2cStretchTimeout port s
  | .canRxFrame port words ended => Sys2Proof.Machine.execCanRxFrame port words ended s
  | .canTxFrame port ended => Sys2Proof.Machine.execCanTxFrame port ended s
  | .canBusOff port => Sys2Proof.Machine.execCanBusOff port s
  | .fportParityFault port => Sys2Proof.Machine.execFportParityFault port s
  | .fportTxdataWrite path port value => Sys2Proof.Machine.execFportTxdataWrite path port value s
  | .fportRxdataRead path port => Sys2Proof.Machine.execFportRxdataRead path port s
  | .fieldChannelTx pan channel value => Sys2Proof.Machine.execFieldChannelTx pan channel value s
  | .pinSelWrite path pin value => Sys2Proof.Machine.execPinSelWrite path pin value s
  | .pinEdge pin level => Sys2Proof.Machine.execPinEdge pin level s
  | .pinBankParityFault bank => Sys2Proof.Machine.execPinBankParityFault bank s
  | .panGsrWrite path pan value => Sys2Proof.Machine.execPanGsrWrite path pan value s
  | .userGsrWire pan level => Sys2Proof.Machine.execUserGsrWire pan level s
  | .fuseNarrow path value => Sys2Proof.Machine.execFuseNarrow path value s
  | .fuseProgram via word mask => Sys2Proof.Machine.execFuseProgram via word mask s
  | .fuseLock via lock => Sys2Proof.Machine.execFuseLock via lock s
  | .fuseRollback via value => Sys2Proof.Machine.execFuseRollback via value s
  | .mirrorRead via unit => Sys2Proof.Machine.execMirrorRead via unit s
  | .unitCmdStop via unit epoch param => Sys2Proof.Machine.execUnitCmdStop via unit epoch param s
  | .unitCmdStart via unit epoch param => Sys2Proof.Machine.execUnitCmdStart via unit epoch param s
  | .unitCmdRecover via unit epoch param => Sys2Proof.Machine.execUnitCmdRecover via unit epoch param s
  | .unitCmdRetire via unit epoch param => Sys2Proof.Machine.execUnitCmdRetire via unit epoch param s
  | .unitCmdReturn via unit epoch param => Sys2Proof.Machine.execUnitCmdReturn via unit epoch param s
  | .unitCmdLoop via unit epoch param => Sys2Proof.Machine.execUnitCmdLoop via unit epoch param s
  | .rdbkStart via kind plane target => Sys2Proof.Machine.execRdbkStart via kind plane target s
  | .rdbkData via => Sys2Proof.Machine.execRdbkData via s
  | .descSubmit via d => Sys2Proof.Machine.execDescSubmit via d s
  | .descResult via => Sys2Proof.Machine.execDescResult via s
  | .bufWrite via offset bytes => Sys2Proof.Machine.execBufWrite via offset bytes s
  | .bufRead via offset length => Sys2Proof.Machine.execBufRead via offset length s
  | .regRead by_ offset => Sys2Proof.Machine.execRegRead by_ offset s
  | .regWrite via offset value => Sys2Proof.Machine.execRegWrite via offset value s
  | .smbusBadCommand code pecBad => Sys2Proof.Machine.execSmbusBadCommand code pecBad s
  | .jtagSamplePreload scan pads => Sys2Proof.Machine.execJtagSamplePreload scan pads s
  | .jtagMgmtAccess frame => Sys2Proof.Machine.execJtagMgmtAccess frame s
  | .jtagRdbkStream bits => Sys2Proof.Machine.execJtagRdbkStream bits s
  | .jtagBypass ir => Sys2Proof.Machine.execJtagBypass ir s
  | .bistStart path value => Sys2Proof.Machine.execBistStart path value s
  | .prbsEnable path value => Sys2Proof.Machine.execPrbsEnable path value s
  | .hostDropCountRead path port => Sys2Proof.Machine.execHostDropCountRead path port s
  | .hostEqLostRead path port => Sys2Proof.Machine.execHostEqLostRead path port s
  | .hostLostCplRead path port => Sys2Proof.Machine.execHostLostCplRead path port s
  | .linkFecCeRead path port => Sys2Proof.Machine.execLinkFecCeRead path port s
  | .linkFecUeRead path port => Sys2Proof.Machine.execLinkFecUeRead path port s
  | .linkReplayRead path port => Sys2Proof.Machine.execLinkReplayRead path port s
  | .linkDropRead path port => Sys2Proof.Machine.execLinkDropRead path port s
  | .fportCountRead path port => Sys2Proof.Machine.execFportCountRead path port s
  | .mgmtCountRead path => Sys2Proof.Machine.execMgmtCountRead path s
  | .testCfgCountRead path => Sys2Proof.Machine.execTestCfgCountRead path s
  | .cfgPassCountRead path => Sys2Proof.Machine.execCfgPassCountRead path s
  | .cfgFramesRead path => Sys2Proof.Machine.execCfgFramesRead path s
  | .glbUptimeLoRead path => Sys2Proof.Machine.execGlbUptimeLoRead path s
  | .registerWrite path space offset value => Sys2Proof.Machine.execRegisterWrite path space offset value s
  | .userClockEdge pan edges => Sys2Proof.Machine.execUserClockEdge pan edges s
  | .laneParityFault lane => Sys2Proof.Machine.execLaneParityFault lane s
  | .managementParityFault via => Sys2Proof.Machine.execManagementParityFault via s
  | .quadPllLossOfLock quad => Sys2Proof.Machine.execQuadPllLossOfLock quad s
  | .fuseBitVerified via verifies => Sys2Proof.Machine.execFuseBitVerified via verifies s
  | .vaultIndexBuilt => Sys2Proof.Machine.execVaultIndexBuilt s
  | .cfgTimeout => Sys2Proof.Machine.execCfgTimeout s
  | .passStart => Sys2Proof.Machine.execPassStart s
  | .prestageStart => Sys2Proof.Machine.execPrestageStart s
  | .vaultCompaction => Sys2Proof.Machine.execVaultCompaction s
  | .timeSetPpsTimeout => Sys2Proof.Machine.execTimeSetPpsTimeout s
  | .slewEnd => Sys2Proof.Machine.execSlewEnd s
  | .invalAck => Sys2Proof.Machine.execInvalAck s
  | .calibration => Sys2Proof.Machine.execCalibration s
  | .panSelftestStart => Sys2Proof.Machine.execPanSelftestStart s
  | .tokenRefill => Sys2Proof.Machine.execTokenRefill s
  | .activityWindowEnd => Sys2Proof.Machine.execActivityWindowEnd s
  | .pfwAssert => Sys2Proof.Machine.execPfwAssert s
  | .pfwReturn => Sys2Proof.Machine.execPfwReturn s
  | .pwrStopTimeout => Sys2Proof.Machine.execPwrStopTimeout s
  | .lfCrystalTimeout => Sys2Proof.Machine.execLfCrystalTimeout s
  | .ppsLost => Sys2Proof.Machine.execPpsLost s
  | .refLost => Sys2Proof.Machine.execRefLost s
  | .refReturn => Sys2Proof.Machine.execRefReturn s
  | .coarseCalibration => Sys2Proof.Machine.execCoarseCalibration s
  | .holdoverTick => Sys2Proof.Machine.execHoldoverTick s
  | .ppsOutPulse => Sys2Proof.Machine.execPpsOutPulse s
  | .ppsOutFall => Sys2Proof.Machine.execPpsOutFall s
  | .alarmFire => Sys2Proof.Machine.execAlarmFire s
  | .timeUnitParityFault => Sys2Proof.Machine.execTimeUnitParityFault s
  | .relaySend => Sys2Proof.Machine.execRelaySend s
  | .smbusSclTimeout => Sys2Proof.Machine.execSmbusSclTimeout s
  | .jtagIdcode => Sys2Proof.Machine.execJtagIdcode s
  | .jtagExtest => Sys2Proof.Machine.execJtagExtest s
  | .jtagClamp => Sys2Proof.Machine.execJtagClamp s
  | .jtagHighz => Sys2Proof.Machine.execJtagHighz s
  | .jtagExtestPulse => Sys2Proof.Machine.execJtagExtestPulse s
  | .jtagExtestTrain => Sys2Proof.Machine.execJtagExtestTrain s
  | .jtagInstructionExit => Sys2Proof.Machine.execJtagInstructionExit s
  | .deviceParityFault => Sys2Proof.Machine.execDeviceParityFault s
  | .rakeParityFault => Sys2Proof.Machine.execRakeParityFault s
  | .portControllerParityFault => Sys2Proof.Machine.execPortControllerParityFault s
  | .storeParityFault => Sys2Proof.Machine.execStoreParityFault s

end Sys2Proof.Machine
end

