-- ==== Sys2Proof/Safety.lean ====
section
/-! DEFINITION. The terms in which the statements speak: what it means that a command takes effect, that nothing but
the event rings has changed, and that an access of a path reaches the registers. -/

namespace Sys2Proof.Machine

/-- Every command that waits names what the device has, so that no step of the queue ends in a fault. -/
def State.safe (s : State) : Prop := ∀ c ∈ s.pending, c.wf = true

/-- The command answers a next state: the queue is untouched and the device satisfies `P`. -/
def Takes (c : Instr) (s : State) (P : Dev → Prop) : Prop :=
  ∃ t : State, exec c s = .next t ∧ t.pending = s.pending ∧ P t.dev

/-- Two states of a host port differ at most in what raising events changes: the event ring's place and vector, the
events held or lost, the pending bits of its vectors, and PME_Status. -/
def HostPort.EvSame (g h : HostPort) : Prop :=
  h = { g with
    eq := { g.eq with tail := h.eq.tail, phase := h.eq.phase, holding := h.eq.holding, owed := h.eq.owed }
    eqLost := h.eqLost, evHeld := h.evHeld, eqFull := h.eqFull, eqDisabled := h.eqDisabled, lostCpl := h.lostCpl
    pendBits := h.pendBits, conf := { g.conf with pmcsr := h.conf.pmcsr } }

/-- An output that raising an event makes: a record in an event ring, its vector, or a PME message. -/
def Output.isEvent : Output → Bool
  | .hostWrite _ _ _ _ => true
  | .msix _ _ _ _ => true
  | .pme _ => true
  | _ => false

/-- `t` is `d` after some events: every other field is equal, and what the device emitted before is still there. -/
def Dev.Events (d t : Dev) : Prop :=
  t = { d with hps := t.hps, out := t.out } ∧ (∀ p, (d.hp p).EvSame (t.hp p)) ∧
    ∃ l, t.out = d.out ++ l ∧ ∀ o ∈ l, o.isEvent = true

/-- The record of an event of unit `u` is written where TAIL stood, in the event ring of each host port whose partition holds the
unit, that runs in D0 with no orphans, and whose ring is enabled, owes nothing and has room (R374, R394). -/
def Dev.Records (d t : Dev) (u code status : Nat) (data : DWord) : Prop :=
  ∀ p, p < 4 → d.inPart p u = true → d.hostRuns p = true → (d.hp p).orphans = false → (d.hp p).eq.enabled = true →
    (d.hp p).eqLost = 0 → 0 < (d.hp p).eq.free →
    let q := (d.hp p).eq
    Output.hostWrite p (BitVec.ofNat 64 (ringBase q.baseLo q.baseHi + 32 * q.tail))
      (eventBytes q.phase { unit := u, code := code, status := status, data := data, stamp := d.stampWords }) false ∈ t.out

/-- An access of the path goes through to the registers: a host's link is up, its port does not sleep and its function serves its BARs, or the
management interface performs the command (R350, R523, R591, R592, R602). -/
def Dev.pathOpen (d : Dev) : Path → Prop
  | .host p => p < 4 ∧ (d.hp p).linkUp = true ∧ d.sleeps = false ∧ (d.hp p).conf.serves = true
  | .hostPart _ => False
  | .smbus => d.viaDead .smbus = false ∧ d.locked 7 = false ∧ d.locked 6 = false ∧ d.sleeps = false ∧ (d.mg .smbus).wait = none
  | .jtag => d.viaDead .jtag = false ∧ d.locked 4 = false ∧ d.locked 5 = false ∧ d.sleeps = false ∧ (d.mg .jtag).wait = none

/-- What the path counts before the access: the commands of a management interface (R606). -/
def Dev.entered (d : Dev) : Path → Dev
  | .host _ | .hostPart _ => d
  | .smbus => d.countMgmt .smbus
  | .jtag => d.countMgmt .jtag

/-- A path reaches a register for a write (R352, R634). -/
def Dev.canWrite (d : Dev) (path : Path) (b : Blk) (o : Nat) : Prop :=
  d.pathOpen path ∧ d.reaches path.reader b o true = true

/-- A path reaches a register for a read. -/
def Dev.canRead (d : Dev) (path : Path) (b : Blk) (o : Nat) : Prop :=
  d.pathOpen path ∧ d.reaches path.reader b o false = true

/-- A management interface performs a command (R20, R575, R591, R592, R602). -/
def Dev.viaOpen (d : Dev) : MgmtIf → Prop
  | .smbus => d.pathOpen .smbus
  | .jtag => d.pathOpen .jtag

/-! ### Descriptors -/

/-- The descriptor may start, is of opcode `op`, and passes the checks of R391 for that opcode. -/
def Dev.mayStart (d : Dev) (iss : Issuer) (x : Desc) (op : Nat) (force pinned : Bool) (masks : List (Nat × Nat)) : Prop :=
  iss.wf = true ∧ Desc.opcode x = op ∧ d.startable iss x = true ∧ flagsOk x force pinned = true ∧ reservedOk x masks = true ∧
    (match iss with | .ring _ _ => True | i => ∀ y ∈ d.running, y.2.iss ≠ i)

/-- Two states of a host port differ at most in what completions and events change: the rings' places and states, the
vectors' pending bits, the counts of what was lost, and what the bytes of a read of host memory are for. -/
def HostPort.CplSame (g h : HostPort) : Prop :=
  h = { g with
    sqs := h.sqs, cqs := h.cqs
    eq := { g.eq with tail := h.eq.tail, phase := h.eq.phase, holding := h.eq.holding, owed := h.eq.owed }
    eqLost := h.eqLost, evHeld := h.evHeld, eqFull := h.eqFull, eqDisabled := h.eqDisabled, lostCpl := h.lostCpl
    posted := h.posted, reads := h.reads, pendBits := h.pendBits, conf := { g.conf with pmcsr := h.conf.pmcsr } } ∧
  ∀ r, (h.reads.get none r).map (fun y => (y.addr, y.len, y.sent)) = (g.reads.get none r).map (fun y => (y.addr, y.len, y.sent))

/-- What a descriptor's start and completion may change beside its own effect: the rings, the slots of the management
interfaces, the executing descriptors, and what was emitted. -/
def Dev.Replied (d t : Dev) : Prop :=
  t = { d with hps := t.hps, execs := t.execs, nextExec := t.nextExec, mgmt := t.mgmt, out := t.out } ∧
    (∀ p, (d.hp p).CplSame (t.hp p)) ∧ ∃ l, t.out = d.out ++ l

/-- The completion record of descriptor `x`, started from `d`, with this status, unit and INFO has been delivered by
`t`: written into the completion ring of its submission ring (R370, R393), or held in the slot (R598). -/
def Dev.Delivered (d t : Dev) (iss : Issuer) (x : Desc) (status unit : Nat) (info : DWord) : Prop :=
  let tag := BitVec.ofNat 16 (fld (dword x 0) 16 16)
  match iss with
  | .ring p q =>
    let s := (d.hp p).sq q
    let c := (d.hp p).cq (fld s.cfg 16 2)
    ∃ l, t.out = d.out ++ l ∧
      Output.hostWrite p (BitVec.ofNat 64 (ringBase c.baseLo c.baseHi + 16 * c.tail))
        (wordsBytes (completionWords tag status q c.phase unit ((s.head + 1) % ringSize s.cfg) info)) false ∈ l
  | .smbus => (t.mg .smbus).slot = 2 ∧ (t.mg .smbus).exec = none ∧
      (t.mg .smbus).cpl = wordsBytes (completionWords tag status 0 true unit 0 info)
  | .jtag => (t.mg .jtag).slot = 2 ∧ (t.mg .jtag).exec = none ∧
      (t.mg .jtag).cpl = wordsBytes (completionWords tag status 0 true unit 0 info)

/-- The descriptor has had the effect `d'` on the device and completed with this record. -/
def Dev.Answered (d d' t : Dev) (iss : Issuer) (x : Desc) (status unit : Nat) (info : DWord) : Prop :=
  d'.Replied t ∧ t.nextExec = d.nextExec + 1 ∧ d.Delivered t iss x status unit info

/-- The descriptor has started and executes as number `d.nextExec`, waiting for `k`; the device is otherwise `d'`. -/
def Dev.Executes (d d' t : Dev) (iss : Issuer) (x : Desc) (k : ExecKind) : Prop :=
  d'.Replied t ∧ t.nextExec = d.nextExec + 1 ∧ t.out = d'.out ∧
    t.exec d.nextExec = some { iss := iss, opcode := BitVec.ofNat 8 (fld (dword x 0) 0 8), flags := BitVec.ofNat 8 (fld (dword x 0) 8 8)
                               tag := BitVec.ofNat 16 (fld (dword x 0) 16 16)
                               idx := (match iss with | .ring p q => ((d.hp p).sq q).head | _ => 0), kind := k }

end Sys2Proof.Machine
end

