-- ==== Sys2Proof/Certificates/Slice0/Obligations.lean ====
section
/-! DEFINITION. The statements for the provers. Each docstring cites the rules of spec/ that it states or rests on. A
command's statement concludes that it takes effect (`Takes`), says what the effect is, and, by the equation
`t = { d with … }`, that no other field of the device changes. -/

open Sys2Proof Sys2Proof.Machine

/-! ### The queue and the machine as a whole -/

/-- A step takes the command at the front of the queue and runs it with the rest of the queue; the order of the queue
is the order of arrival (the model's own queue, assumption 3). -/
def Obligations.StepRunsFrontCommand : Prop :=
  ∀ (c : Instr) (rest : List Instr) (d : Dev),
    step { dev := d, pending := c :: rest } = exec c { dev := d, pending := rest }

/-- With no command waiting, a step is one cycle of the fine counter: nothing but the time unit and the uptime moves,
and nothing at all while the internal reset is held (assumption 3). -/
def Obligations.IdleStepMovesOnlyTime : Prop :=
  ∀ (d : Dev), ∃ t : Dev, step { dev := d, pending := [] } = .next { dev := t, pending := [] } ∧
    t = { d with time := t.time, glb := t.glb } ∧ t.glb = { d.glb with uptime := t.glb.uptime } ∧
    (d.cfg.phase = .held → t = d)

/-- A command that names what the device does not have is a fault; every other command answers a next state and leaves
the queue alone. No command is refused. -/
def Obligations.CommandsOnWhatExistsComplete : Prop :=
  ∀ (c : Instr) (s : State),
    (c.wf = false → exec c s = .fault .noSuchUnit) ∧
    (c.wf = true → ∃ t : State, exec c s = .next t ∧ t.pending = s.pending)

/-- A run whose queue names only what the device has never stops: each step answers a next state with such a queue. -/
def Obligations.SafeQueueNeverStops : Prop :=
  ∀ s : State, s.safe → ∃ t : State, step s = .next t ∧ t.safe ∧ t.pending = s.pending.tail

/-! ### Invariants -/

/-- A fuse bit once programmed reads 1 after every step (R570, R572): no command clears a fuse. -/
def Obligations.ProgrammedFusesStay : Prop :=
  ∀ (s t : State) (w : Nat), s.dev.fuses.wf 0 = true → s.dev.units.wf {} = true →
    (∀ u, (s.dev.unit u).epoch ≠ 0xFFFF) → step s = .next t →
    s.dev.fuses.get 0 w &&& t.dev.fuses.get 0 w = s.dev.fuses.get 0 w

/-- No unit's epoch ever takes the value 0xFFFF, which the commands reserve for "do not check" (R23, R28), and the table
of units keeps its canonical form. -/
def Obligations.EpochsNeverReserved : Prop :=
  ∀ (s t : State), s.dev.fuses.wf 0 = true → s.dev.units.wf {} = true → (∀ u, (s.dev.unit u).epoch ≠ 0xFFFF) →
    step s = .next t →
    t.dev.fuses.wf 0 = true ∧ t.dev.units.wf {} = true ∧ ∀ u, (t.dev.unit u).epoch ≠ 0xFFFF

/-- After reset every unit is OFF with epoch 0 (R17), no command waits, no descriptor executes, the internal reset is
held (R612), and the invariants hold. -/
def Obligations.ResetLeavesUnitsOff : Prop :=
  (∀ u, State.reset.dev.ust u = .off ∧ (State.reset.dev.unit u).epoch = 0) ∧ State.reset.pending = [] ∧
  State.reset.dev.running = [] ∧ State.reset.dev.cfg.phase = .held ∧
  State.reset.dev.fuses.wf 0 = true ∧ State.reset.dev.units.wf {} = true ∧ State.reset.safe

/-! ### Transitions and events -/

/-- A transition writes the new state and the next epoch, which follows 0xFFFE with 0 and is never 0xFFFF, remembers the state a unit sleeps
from, and touches no other unit (R23); what it raises reaches event rings only (R33).
A unit that faults notes itself in GLB_LAST_FAULT and MGMT_ERR.FAULT, enters FAULTED with the next epoch, and changes
nothing else but the event rings (R20, R593, R639). -/
def Obligations.TransitionsAndFaultsAreNoted : Prop :=
  (∀ (d : Dev) (u v : Nat) (new : UState) (c : Cause), d.ust u ≠ new →
    (d.setUnit u new c).ust u = new ∧
    ((d.setUnit u new c).unit u).epoch = (if (d.unit u).epoch = 0xFFFE then 0 else (d.unit u).epoch + 1) ∧
    ((d.unit u).epoch ≠ 0xFFFF → ((d.setUnit u new c).unit u).epoch ≠ 0xFFFF) ∧
    (v ≠ u → (d.setUnit u new c).unit v = d.unit v) ∧ (d.putUnit u new).Events (d.setUnit u new c)) ∧
  (∀ (d : Dev) (u status : Nat) (data : DWord), d.ust u ≠ .faulted →
    (d.fault u status data).ust u = .faulted ∧
    (d.fault u status data).glb.lastUnit = BitVec.ofNat 16 u ∧ (d.fault u status data).glb.lastStatus = BitVec.ofNat 8 status ∧
    (d.fault u status data).glb.lastCount = satInc d.glb.lastCount ∧ (d.fault u status data).mblk.err = d.mblk.err ||| 0x20 ∧
    ((d.noteFault u status).putUnit u .faulted).Events (d.fault u status data))

/-- An event of a RUNNING host port in D0 with no orphans, whose event ring is enabled, owes nothing and has room, is written at TAIL
with the ring's phase, and TAIL advances, the phase turning over at the ring's end (R374, R394). -/
def Obligations.EventWrittenAtTail : Prop :=
  ∀ (d : Dev) (p u code status : Nat) (data : DWord), d.hostRuns p = true → (d.hp p).orphans = false →
    (d.hp p).eq.enabled = true → (d.hp p).eqLost = 0 → 0 < (d.hp p).eq.free →
    let q := (d.hp p).eq
    let t := d.eventAt p u code status data
    (∃ l, t.out = d.out ++ [Output.hostWrite p (BitVec.ofNat 64 (ringBase q.baseLo q.baseHi + 32 * q.tail))
        (eventBytes q.phase { unit := u, code := code, status := status, data := data, stamp := d.stampWords }) false] ++ l) ∧
    ((t.hp p).eq.tail = (if q.tail + 1 < ringSize q.cfg then q.tail + 1 else 0)) ∧
    ((t.hp p).eq.phase = (if q.tail + 1 < ringSize q.cfg then q.phase else !q.phase)) ∧ d.Events t

/-! ### The Sluice -/

/-- RESERVE enters the destination's table behind those before it, for the requests that wait, at most 8 (R278), and wakes the sleeping
peer of a link (R455); RETURN gives every unspent slot back (R278); nothing else changes.
GRANT serves the RESERVE that came first of those that can be granted to with the slots that are free, keeps the rest of a partly
served RESERVE in its place, and the ingress spends what it gets on its waiting requests (R278, R449).
A contender that has starved at a resource is granted there ahead of tiers 3 to 6 until it is granted, and tiers 1 and 2 stay
ahead of it (R38); without starvation the earlier tier wins, then the lower rank (R36). A starved request flit before a
bank is the next that its output grants (R272; which output leads to a bank is the model's, assumption 80). -/
def Obligations.SluiceGrantsSlots : Prop :=
  (∀ (s : State) (i k : Nat), i < 92 → k < 160 →
    (s.dev.waitingFor i k ≠ [] → s.dev.sluiceStops = false → (∀ e ∈ (s.dev.dest k).table, e.1 ≠ i) →
      Takes (.reserve i k) s fun t =>
        let e := s.dev.modDest k fun x => { x with table := x.table ++ [(i, min (s.dev.waitingFor i k).length 8)] }
        (k < 64 ∨ (s.dev.link (k - 64)).peerAsleep = false → t = e) ∧
        (64 ≤ k → (s.dev.link (k - 64)).peerAsleep = true → (s.dev.link (k - 64)).waking = false →
          s.dev.runningLeads (k - 64) = [k - 64] →
          t = (e.modLink (k - 64) fun l => { l with waking := true }).emit (.linkWake (k - 64)))) ∧
    (s.dev.sluiceStops = false → Takes (.slotReturn i k) s fun t =>
      t = (s.dev.modIng i fun g => { g with slots := g.slots.set 0 k 0 }).modDest k fun x =>
        { x with granted := x.granted - (s.dev.ing i).slots.get 0 k })) ∧
  (∀ (s : State) (i k n : Nat), k < 160 → (s.dev.dest k).table.find? (fun e => s.dev.freeSlots k e.1 != 0) = some (i, n) →
    s.dev.sluiceStops = false →
    (k < 64 → (s.dev.pan k).port ≠ .held ∧ s.dev.domSleeps k = false) →
    (64 ≤ k → (s.dev.link (k - 64)).peerAsleep = false) →
    Takes (.grant k) s fun t =>
      let g := min n (s.dev.freeSlots k i)
      let d1 := s.dev.modDest k fun x => { x with
        granted := x.granted + g
        table := if g < n then x.table.map (fun e => if e = (i, n) then (i, n - g) else e) else x.table.erase (i, n) }
      t = (d1.modIng i fun x => { x with slots := x.slots.set 0 k (x.slots.get 0 k + g) }).spend i k) ∧
  (∀ (s : State) (res : Nat) (c : Contender) (r o : Nat), r < 64 → o < 9 →
    Takes (.arbitrationStarvation res c.tier c.rank) s (fun t =>
      t = { s.dev with sl := { s.dev.sl with boost := t.sl.boost } } ∧
      (∀ y, y ∈ t.sl.boost ↔ y = (res, c) ∨ y ∈ s.dev.sl.boost) ∧
      (∀ x : Contender, 3 ≤ c.tier → (res, x) ∉ t.sl.boost → t.grantBefore res c x = decide (3 ≤ x.tier)) ∧
      (∀ a b : Contender, (res, a) ∉ t.sl.boost → (res, b) ∉ t.sl.boost →
        t.grantBefore res a b = decide (a.tier < b.tier ∨ (a.tier = b.tier ∧ a.rank < b.rank)))) ∧
    Takes (.reqStarvation r o) s (fun t =>
      t = { s.dev with sl := { s.dev.sl with boost := t.sl.boost } } ∧ (bankOutput r o = none → t = s.dev) ∧
      (∀ n, bankOutput r o = some n → (s.dev.waitingAt n = [] → t = s.dev) ∧
        ∀ e rest, s.dev.waitingAt n = e :: rest → (outputRes n, e.2.contender) ∈ t.sl.boost)))

/-- A module's request for a pool page whose translation its ingress caches goes to the bank's queue: it counts one hit,
becomes the newest use of the cache, and holds bank, page and line (R273, R274, R276, R280); the queue holds at most 32
(R310). One behind an outstanding miss of its page waits with it, and one that nothing serves becomes a miss of its own (R274, R287).
LOOKUP answers the oldest miss that no page move holds back with what the tag map says (R274, R325), and the answer
travels behind those sent before it (R270); REPLY, which no INVAL sent before it is behind, installs the answer as the
newest of at most 512 entries and lets the requests go on that waited for it (R270, R274).
An INVAL that reaches a router, behind the REPLYs sent before it, removes what it names from every ingress attached to it,
counts what it removed, and leaves every other ingress alone (R270, R275); the INVAL_ACK of one that nothing waits for takes it off the list and records its
time, a free value (R275, R293). -/
def Obligations.SluiceFindsDestinations : Prop :=
  (∀ (s : State) (r : SlReq) (e : TcEntry) (h k b pg : Nat),
    let d := s.dev
    let q := panRequest r
    let line := slOff r.addr / 64 % 64
    r.wf = true → r.ingress < 64 → r.err = .none → d.panTakes r.ingress r.tid.toNat = true → d.takes q = true →
    slDev r.addr = d.ownId → slTag r.addr ≠ 0 → line + q.lines ≤ 64 → bit d.sl.ctrl 16 = true →
    ((d.ing r.ingress).misses.any fun m => m.tag == slTag r.addr && m.k == pageOf r.addr) = false →
    (d.ing r.ingress).cache.find? (fun c => c.serves (slTag r.addr) (pageOf r.addr)) = some e →
    e.trans = .page h k b pg → k < e.size → d.transOk r.ingress e.owner e.trans = true →
    (d.bank b).queue.length < 32 → d.waitingAt b = [] →
    Takes (.sluiceRequest r) s fun t =>
      t = { d with sl := t.sl, banks := t.banks, tele := t.tele } ∧
      t.req d.sl.nextReq = some { q with stage := .bank b pg line, reached := some (b, pg, line) } ∧
      t.sl.nextReq = d.sl.nextReq + 1 ∧ (∀ j, j ≠ d.sl.nextReq → t.req j = d.req j) ∧
      t.bank b = { d.bank b with queue := (d.bank b).queue ++ [d.sl.nextReq] } ∧ (∀ n, n ≠ b → t.bank n = d.bank n) ∧
      t.ing r.ingress = { d.ing r.ingress with
        hit := satInc (d.ing r.ingress).hit, cache := e :: (d.ing r.ingress).cache.erase e } ∧
      (∀ j, j ≠ r.ingress → t.ing j = d.ing j)) ∧
  (∀ (s : State) (r : SlReq),
    let d := s.dev
    let q := panRequest r
    let g := d.ing r.ingress
    r.wf = true → r.ingress < 64 → r.err = .none → d.panTakes r.ingress r.tid.toNat = true → d.takes q = true →
    slDev r.addr = d.ownId → slTag r.addr ≠ 0 → slOff r.addr / 64 % 64 + q.lines ≤ 64 →
    Takes (.sluiceRequest r) s fun t =>
      ((g.misses.any fun m => m.tag == slTag r.addr && m.k == pageOf r.addr) = true →
        t = { d with sl := t.sl, tele := t.tele } ∧ t.req d.sl.nextReq = some { q with stage := .lookup } ∧ t.sl.ingress = d.sl.ingress) ∧
      ((g.misses.any fun m => m.tag == slTag r.addr && m.k == pageOf r.addr) = false →
        (bit d.sl.ctrl 16 = false ∨ g.cache.find? (fun c => c.serves (slTag r.addr) (pageOf r.addr)) = none) →
        t = { d with sl := t.sl, tele := t.tele } ∧ t.req d.sl.nextReq = some { q with stage := .lookup } ∧
          t.ing r.ingress = { g with
            miss := satInc g.miss, misses := g.misses ++ [{ tag := slTag r.addr, k := pageOf r.addr, reply := none }] })) ∧
  (∀ (s : State) (i r : Nat), i < 92 → r < 64 →
    Takes (.lookup i) s (fun t =>
      t = { s.dev with sl := { s.dev.sl with ingress := t.sl.ingress, ctlSent := t.sl.ctlSent } } ∧ ∀ j, j ≠ i → t.ing j = s.dev.ing j) ∧
    Takes (.inval r) s (fun t =>
      t = { s.dev with sl := { s.dev.sl with ingress := t.sl.ingress, invals := t.sl.invals, marks := t.sl.marks } } ∧
      ∀ j, 92 ≤ j ∨ ingressRouter j ≠ r → t.ing j = s.dev.ing j) ∧
    (∀ m, s.dev.sluiceStops = false → (s.dev.ing i).misses.find? (fun m => m.reply.isSome) = some m → m.reply = some none →
      s.dev.invalBefore (ingressRouter i) m.sent = false →
      (∀ y ∈ s.dev.live, y.2.ingress = i → y.2.stage = .lookup → slTag y.2.addr ≠ m.tag ∨ pageOf y.2.addr ≠ m.k) →
      Takes (.reply i) s fun t => t = s.dev.modIng i fun g => { g with misses := g.misses.erase m }) ∧
    (∀ m r q, s.dev.sluiceStops = false → (s.dev.ing i).misses.find? (fun m => m.reply.isSome) = some m →
      s.dev.invalBefore (ingressRouter i) m.sent = false → (r, q) ∈ s.dev.live → q.ingress = i → q.stage = .lookup →
      slTag q.addr = m.tag → pageOf q.addr = m.k →
      Takes (.reply i) s fun t => ∀ q', t.req r = some q' → q'.stage ≠ .lookup)) ∧
  (∀ (s : State) (i : Nat), i < 92 → s.dev.sluiceStops = false →
    (∀ m, (s.dev.ing i).misses.find? (fun m => m.reply.isNone && !s.dev.pageMoving m.tag m.k) = some m →
      Takes (.lookup i) s fun t => t = { s.dev with sl := { s.dev.sl with ingress := t.sl.ingress, ctlSent := s.dev.sl.ctlSent + 1 } } ∧
        (∀ j, j ≠ i → t.ing j = s.dev.ing j) ∧
        let rest := (s.dev.ing i).misses.erase m
        t.ing i = { s.dev.ing i with misses := rest.filter (fun x => x.reply.isSome) ++
          { m with reply := some (s.dev.tagMap m.tag m.k), sent := s.dev.sl.ctlSent } :: rest.filter fun x => x.reply.isNone }) ∧
    (∀ m e, (s.dev.ing i).misses.find? (fun m => m.reply.isSome) = some m → m.reply = some (some e) →
      s.dev.invalBefore (ingressRouter i) m.sent = false → s.dev.installs e = true → (∀ p l, e.trans = .endpoint p l → p < 64) →
      Takes (.reply i) s fun t => t = { s.dev with sl := t.sl, banks := t.banks } ∧
        (t.ing i).misses = (s.dev.ing i).misses.erase m ∧
        (t.ing i).cache = (e :: (s.dev.ing i).cache.filter fun x => !x.serves m.tag m.k).take 512 ∧
        (∀ j, j ≠ i → t.ing j = s.dev.ing j))) ∧
  (∀ (s : State) (r : Nat) (v : Inval) (l : List Nat), r < 64 → s.dev.sluiceStops = false → v.kind = .tags l →
    (s.dev.sl.invals.find? (fun v => v.left.contains r && (match invalParent r with | none => true | some p => !v.left.contains p) &&
        !s.dev.replyBefore r v.sent) = some v →
      Takes (.inval r) s fun t =>
        t = { s.dev with sl := { s.dev.sl with ingress := t.sl.ingress, invals := t.sl.invals } } ∧
        t.sl.invals = (s.dev.sl.invals.map fun x => if x == v then { x with left := x.left.erase r } else x) ∧
        (∀ i, i < 92 → ingressRouter i = r → t.ing i = { s.dev.ing i with
          cache := (s.dev.ing i).cache.filter fun e => !l.contains e.tag
          inval := satAdd (s.dev.ing i).inval ((s.dev.ing i).cache.countP fun e => l.contains e.tag) }) ∧
        (∀ i, 92 ≤ i ∨ ingressRouter i ≠ r → t.ing i = s.dev.ing i)) ∧
    (s.dev.sl.invals.find? (fun v => v.left.isEmpty) = some v → v.exec = none →
      Takes .invalAck s fun t =>
        let w : BitVec 16 := (Config.freeWord s.dev.freeCtr).setWidth 16
        t = { s.dev with freeCtr := s.dev.freeCtr + 1, sl := { s.dev.sl with
          invals := s.dev.sl.invals.erase v, invalLast := w
          invalMax := if s.dev.sl.invalMax.toNat < w.toNat then w else s.dev.sl.invalMax } }))

/-- CLOSE sets the port state that the table of R283 gives for the pan as it stands, OPEN opens the port of a RUNNING pan
whose borders are released (R283); nothing else changes.
An open port delivers its oldest request on RQI under its lowest free ITAG (R280, R281); a module's answer gives the
slot back and reaches the requester's ingress with its status unchanged (R281, R282).
A response that has arrived at a pan's ingress leaves the table of requests and is given to the module beat by beat
(R280, R281). -/
def Obligations.PanPortsCarryRequests : Prop :=
  (∀ (s : State) (p : Nat), p < 64 →
    (s.dev.ust (uPan p) = .staged ∨ ((s.dev.pan p).srcCommitHold = true ∧ s.dev.ust (uPan p) = .running) →
      Takes (.close p .held) s fun t => t = s.dev.setPan p { s.dev.pan p with port := .held }) ∧
    (s.dev.ust (uPan p) = .quiesced ∨ ((s.dev.pan p).srcCommitHold = true ∧ s.dev.ust (uPan p) = .running) →
      Takes (.close p .refusing) s fun t => t = s.dev.setPan p { s.dev.pan p with port := .refusing }) ∧
    (s.dev.ust (uPan p) ∈ [.idle, .staged, .faulted, .off] →
      Takes (.close p .empty) s fun t => t = s.dev.setPan p { s.dev.pan p with port := .empty }) ∧
    (s.dev.ust (uPan p) = .running → (s.dev.pan p).shut = false → (s.dev.pan p).srcCommitHold = false →
      Takes (.open p) s fun t => t = s.dev.setPan p { s.dev.pan p with port := .opened })) ∧
  (∀ (s : State) (p : Nat), p < 64 →
    (∀ r rest q tg, (s.dev.dest p).queue = r :: rest → s.dev.req r = some q → s.dev.sluiceStops = false →
      s.dev.domSleeps p = false → (s.dev.pan p).port = .opened → q.poison = false → (q.write = true → q.be ≠ 0) →
      s.dev.freeItag p = some tg →
      Takes (.endpointRequest p) s fun t =>
        t = { s.dev with sl := t.sl, tele := t.tele, out := s.dev.out ++
          [.rqi p tg q.loc (BitVec.ofNat 34 (slOff q.addr)) q.write q.lines (BitVec.ofNat 16 (s.dev.reqUnit q)) (s.dev.reqDev q) q.be q.data] } ∧
        t.dest p = { s.dev.dest p with queue := rest } ∧ t.req r = some { q with stage := .atModule p tg }) ∧
    (∀ (tg : Nat) (st : Byte) (data : List Line) (r : Nat) (q : SlIn), tg < 32 → data.length ≤ 8 →
      s.dev.live.find? (fun e => e.2.stage == .atModule p tg) = some (r, q) → s.dev.req r = some q → q.poison = false →
      s.dev.sluiceStops = false →
      Takes (.endpointResponse p tg st data) s fun t =>
        t = { s.dev with sl := t.sl, tele := t.tele } ∧
        t.dest p = { s.dev.dest p with granted := (s.dev.dest p).granted - 1 } ∧
        t.req r = some { q with stage := .responding } ∧
        let ls : List (Byte × Line) := if q.write then [(st, 0)] else (List.range q.lines).map fun i => (st, data.getD i 0)
        (t.ing q.ingress).resp = (s.dev.ing q.ingress).resp ++ [{ rid := r, lines := ls }])) ∧
  (∀ (s : State) (i p tid : Nat) (x : SlResp) (rest : List SlResp) (q : SlIn), i < 92 →
    (s.dev.ing i).resp = x :: rest → s.dev.req x.rid = some q → q.by_ = .pan p tid → q.poison = false →
    s.dev.sluiceStops = false → (i < 64 → s.dev.domSleeps i = false) →
    (s.dev.pan p).port = .opened → (s.dev.pan p).held = false →
    Takes (.responseDelivery i) s fun t =>
      t = { s.dev with sl := t.sl, tele := t.tele, out := t.out } ∧
      t.ing i = { s.dev.ing i with resp := rest } ∧ t.req x.rid = none ∧
      t.out = s.dev.out ++ (indexed x.lines).map fun y => Output.rsi p tid y.1 y.2.1 y.2.2 (y.1 + 1 == x.lines.length))

/-! ### Banks, pools and pages -/

/-- BANK_CTRL takes its RW fields, and a new strength starts the re-encode pass at page 0 (R313, R336); BANK_FLIP_CTRL
takes word and arm, and a 1 in APPLIED clears it (R320, R341); a write of BANK_LOG_SEL stores INDEX and KIND for its reader,
and each of its CLEAR bits empties one log and zeroes its counts (R339). -/
def Obligations.BankRegistersTakeTheirFields : Prop :=
  ∀ (s : State) (path : Path) (n : Nat) (v : Word), path.wf = true → n < 128 →
    let d := s.dev
    let b := d.bank n
    (d.canWrite path (.bank n) 0x00 →
      Takes (.bankCtrlWrite path n v) s fun t => t = ((d.entered path).setBank n { b with
        ctrl := (b.ctrl &&& ~~~0x1F) ||| (v &&& 0x1F)
        recode := if fld v 0 2 = fld b.ctrl 0 2 then b.recode else some 0 }).wrote path) ∧
    (d.canWrite path (.bank n) 0x1C →
      Takes (.flipArm path n v) s fun t => t = ((d.entered path).setBank n { b with
        flipWord := BitVec.ofNat 5 (fld v 0 5), flipArm := bit v 8, flipApplied := b.flipApplied && !bit v 9 }).wrote path) ∧
    (d.canWrite path (.bank n) 0x10 →
      let noCe : Bank := { b with ceLog := [], ce := 0, ceDropped := 0 }
      let noUe (x : Bank) : Bank := { x with ueLog := [], poisons := 0, ueDropped := 0, responses := 0 }
      let sel (x : Bank) : Dev := (((d.entered path).setSel path (0x100010 + 256 * n) (v &&& 0x3F)).setBank n x).wrote path
      Takes (.clearCe path n v) s (fun t => t = sel (if bit v 31 then noUe noCe else noCe)) ∧
      Takes (.clearUe path n v) s (fun t => t = sel (noUe (if bit v 30 then noCe else b))))

/-- A RUNNING bank serves a one-line read of a written page whose guard matches: the requester's ingress gets DONE with the
stored line, and nothing of the page changes (R307).
A RUNNING bank serves a full-line write into a written, sound page: the line stands with a fresh guard, the check
bytes of the page follow, every other line stays, and the answer is DONE (R299, R302, R307). -/
def Obligations.BankReadsAndWritesLines : Prop :=
  (∀ (s : State) (n r page line i : Nat) (rest : List Nat) (q : SlIn),
    let d := s.dev
    let b := d.bank n
    n < 128 → d.sluiceStops = false → d.pllDead 2 = false → d.domSleeps (64 + n / 8) = false → d.ust (uBank n) = .running →
    b.queue = r :: rest → d.req r = some q → q.stage = .bank i page line → q.write = false → q.lines = 1 → q.poison = false →
    (b.slot (b.slotOf page)).written = true → b.guardOk (b.slotOf page) line = true → b.borrow = none → d.waitingAt n = [] →
    Takes (.bankRequest n) s fun t =>
      t = { d with banks := t.banks, sl := t.sl, tele := t.tele, freeCtr := d.freeCtr + 2 } ∧
      t.bank n = { b with queue := rest } ∧ (∀ m, m ≠ n → t.bank m = d.bank m) ∧
      t.req r = some { q with stage := .responding } ∧
      (t.ing q.ingress).resp = (d.ing q.ingress).resp ++ [{ rid := r, lines := [(BitVec.ofNat 8 stDone, b.line (b.slotOf page) line)] }]) ∧
  (∀ (s : State) (n r page line i : Nat) (rest : List Nat) (q : SlIn) (l : Line),
    let d := s.dev
    let b := d.bank n
    let sl := b.slotOf page
    n < 128 → d.sluiceStops = false → d.pllDead 2 = false → d.domSleeps (64 + n / 8) = false → d.ust (uBank n) = .running →
    b.queue = r :: rest → d.req r = some q → q.stage = .bank i page line → q.write = true → q.lines = 1 → q.poison = false →
    q.be = BitVec.allOnes 64 → q.data = [l] → q.flip = none → b.flipArm = false → b.borrow = none →
    (b.slot sl).written = true → (b.slot sl).poisoned = false → b.guardOk sl line = true → d.waitingAt n = [] →
    Takes (.bankRequest n) s fun t =>
      t = { d with banks := t.banks, sl := t.sl, tele := t.tele, rake := t.rake, freeCtr := d.freeCtr + 2 } ∧
      (t.bank n).line sl line = l ∧ (t.bank n).guards.get 0 (64 * sl + line) = guardOf line l ∧
      (∀ k, k ≠ 64 * sl + line → (t.bank n).lines.get 0 k = b.lines.get 0 k ∧ (t.bank n).guards.get 0 k = b.guards.get 0 k) ∧
      (t.bank n).slot sl = { b.slot sl with check := (b.slot sl).check ^^^ lineCheck (b.slot sl).t line (b.line sl line ^^^ l) } ∧
      (∀ j, j ≠ sl → (t.bank n).slot j = b.slot j) ∧
      (t.ing q.ingress).resp = (d.ing q.ingress).resp ++ [{ rid := r, lines := [(BitVec.ofNat 8 stDone, 0)] }])

/-- Background work of a RUNNING bank, at a moment when it goes ahead of the bank's foreground requests (R311): zero-fill writes the next zero line and remembers the place (R306); scrub of a
sound page moves on to the next page (R314); self-test borrows the next slot with its lines, guards and spare area, and gives one without a defect
back (R329; two steps, assumption 14; the operations counted for it are a free value, assumption 15);
the re-encode pass takes a sound page to the strength in force (R313).
A RUNNING bank that loses parity faults with INTERNAL: it gives up a self-test's borrowed slot and every started move of a
page into or out of it (R328), and its epoch advances (R20, R333). -/
def Obligations.BanksWorkInTheBackground : Prop :=
  (∀ (s : State) (n : Nat),
    let d := s.dev
    let b := d.bank n
    n < 128 → d.bankBg n = true →
    (∀ p k, bit b.ctrl 2 = true → bit d.bgs.ctrl 6 = true → d.bankTurn n 6 = true → b.zfPage = some (p, k) → k < 63 →
      Takes (.zeroFillStep n) s fun t =>
        t = { d with banks := t.banks, sl := (d.bankGrant n 6).sl, tele := t.tele } ∧
        t.bank n = { (b.claim (b.slotOf p)).putLine (b.slotOf p) k 0 with zfPage := some (p, k + 1) } ∧ ∀ m, m ≠ n → t.bank m = d.bank m) ∧
    (∀ p, bit b.ctrl 2 = true → bit d.bgs.ctrl 6 = true → d.bankTurn n 6 = true → b.zfPage = some (p, 63) →
      Takes (.zeroFillStep n) s fun t =>
        t = { d with banks := t.banks, sl := (d.bankGrant n 6).sl, tele := t.tele } ∧ (t.bank n).zfPage = none ∧
        (t.bank n).slot (b.slotOf p) = { written := true, poisoned := false, t := BitVec.ofNat 2 (fld b.ctrl 0 2), fail := 0, check := 0 }) ∧
    (∀ p, bit b.ctrl 4 = true → bit d.bgs.ctrl 0 = true → d.bankTurn n 0 = true →
      nextPage b.scrubNext 128 (fun p => (b.slot (b.slotOf p)).written) = some p →
      let c := b.claim (b.slotOf p)
      c.failing (b.slotOf p) = [] → (c.slot (b.slotOf p)).poisoned = false →
      (strength (c.slot (b.slotOf p)).t = 0 ∨
        pageCheck (c.slot (b.slotOf p)).t (c.slotLines (b.slotOf p)) = (c.slot (b.slotOf p)).check) →
      Takes (.scrubStep n) s fun t =>
        t = { d with banks := d.banks.set {} n { c with scrubNext := (p + 1) % 128 }, sl := (d.bankGrant n 0).sl, tele := t.tele, freeCtr := d.freeCtr + 2 }) ∧
    (∀ k cells line bad, line < 64 → (∀ y ∈ bad, y < 64) → bit b.ctrl 3 = true → bit d.bgs.ctrl 4 = true →
      d.bankTurn n 4 = true → b.borrow = none → d.borrowNext n = some k →
      Takes (.bankSelftestStep n ⟨cells, line⟩ bad) s fun t => t = { (d.bankGrant n 4).setBank n (b.borrowSlot k) with tele := t.tele }) ∧
    (∀ w line, line < 64 → bit b.ctrl 3 = true → bit d.bgs.ctrl 4 = true → d.bankTurn n 4 = true → b.borrow = some w →
      d.bgs.bstRun ≠ some n →
      Takes (.bankSelftestStep n ⟨0, line⟩ []) s fun t =>
        t = { (d.bankGrant n 4).setBank n { b.abortBorrow with stNext := (w.slot + 1) % 136 } with tele := t.tele, freeCtr := d.freeCtr + 1 }) ∧
    (∀ p k p', b.recode = some k → d.bankTurn n 8 = true → b.recodeNext k = some p →
      let c := b.claim (b.slotOf p)
      let t := BitVec.ofNat 2 (fld b.ctrl 0 2)
      let b1 := { c.modSlot (b.slotOf p) fun x => { x with t := t, check := pageCheck t (c.slotLines (b.slotOf p)) } with recode := some (p + 1) }
      c.failing (b.slotOf p) = [] → b1.recodeNext (p + 1) = some p' →
      Takes (.recodeStep n) s fun u =>
        u = { d with banks := d.banks.set {} n b1, sl := (d.bankGrant n 8).sl, tele := u.tele, freeCtr := d.freeCtr + 2 })) ∧
  (∀ (s : State) (n : Nat), n < 128 →
    let d := s.dev
    Takes (.zeroFillStep n) s (fun t =>
      t = { d with banks := t.banks, sl := t.sl, tele := t.tele } ∧ ∀ m, m ≠ n → t.bank m = d.bank m) ∧
    Takes (.scrubStep n) s (fun t =>
      t = { d with banks := t.banks, sl := t.sl, tele := t.tele, freeCtr := t.freeCtr, hps := t.hps, out := t.out } ∧
      ∀ m, m ≠ n → t.bank m = d.bank m) ∧
    ∀ cells line bad, line < 64 → (∀ y ∈ bad, y < 64) →
      Takes (.bankSelftestStep n ⟨cells, line⟩ bad) s fun t =>
        t = { d with
          banks := t.banks, sl := t.sl, tele := t.tele, freeCtr := t.freeCtr, hps := t.hps, out := t.out, test := t.test
          bgs := { d.bgs with bstRun := t.bgs.bstRun, bstFail := t.bgs.bstFail } } ∧
        ∀ m, m ≠ n → t.bank m = d.bank m) ∧
  (∀ (s : State) (n : Nat), n < 128 → s.dev.ust (uBank n) = .running →
    Takes (.bankParityFault n) s fun t =>
      t.ust (uBank n) = .faulted ∧ (t.unit (uBank n)).epoch = nextEpoch (s.dev.unit (uBank n)).epoch ∧ (t.bank n).borrow = none ∧
      (∀ m ∈ t.rake.moves, m.runs = true → m.srcBank ≠ n ∧ m.dstBank ≠ n) ∧ t.glb.lastUnit = BitVec.ofNat 16 (uBank n) ∧
      t.glb.lastStatus = BitVec.ofNat 8 stInternal ∧ (∀ u, u ≠ uBank n → t.unit u = s.dev.unit u) ∧
      t = { s.dev with units := t.units, glb := t.glb, mblk := t.mblk, banks := t.banks, rake := t.rake, sl := t.sl, bgs := t.bgs
                       test := t.test, hps := t.hps, out := t.out })

/-- The page mover passes once more over the lines that became dirty while many are left, and otherwise closes the page and
invalidates its translation (R325), while both banks work and no foreground request goes ahead (R311, R332); a page mark of a moving page is taken once no request of its ingress is still queued
there (R325, R326); with every mark in, the pool page names the new place and the old page is free again (R325).
POOL_CREATE of a free handle with room in enough banks takes the pages, records the pool with its size, stripe, home and
owner, and answers DONE with the bank set (R243, R244, R404).
POOL_FREE of one's own pool that no module consumes unbinds the handle, sends its INVAL, and waits for the INVAL_ACK
before the pages are free (R229, R247, R405); BIND that passes its checks changes the tag map and waits in the same way
(R229, R230, R403). -/
def Obligations.PoolsTakeAndMovePages : Prop :=
  (∀ (s : State) (n : Nat) (m : PageMove),
    let d := s.dev
    n < 128 → d.sluiceStops = false →
    (∀ k, d.bankWorks n = true → d.bankTurn n 7 = true → d.bankWorks m.dstBank = true → (d.bankGrant n 7).bankTurn m.dstBank 7 = true →
      d.rake.moves.find? (fun m => m.srcBank == n && m.runs && m.phase != .close) = some m → m.phase = .copy (k + 1) →
      ((maskLines m.dirty).length ≤ 16 ∨ 8 ≤ k + 1 →
        Takes (.pageCopyPass n) s fun t => t = ((d.bankGrant n 7).putMove m { m with phase := .close }).sendInval (.page m.handle m.k) none) ∧
      (16 < (maskLines m.dirty).length → k + 1 < 8 →
        Takes (.pageCopyPass n) s fun t =>
          t = ((d.bankGrant n 7).putMove m { m with phase := .copy (k + 2), dirty := 0 }).copyLines m (maskLines m.dirty))) ∧
    (∀ i mk, i < 92 → d.sl.marks.find? (fun x => x.1 == i && x.2.1 == n) = some mk →
      (∀ y ∈ d.live, y.2.ingress = i → ∀ l, y.2.stage ≠ .bank n mk.2.2 l ∧ y.2.stage ≠ .atOutput n mk.2.2 l) →
      d.rake.moves.find? (fun m => m.phase == .close && m.srcBank == n && m.srcPage == mk.2.2) = some m →
      Takes (.pageMark i n) s fun t =>
        t = ({ d with sl := { d.sl with marks := d.sl.marks.erase mk } } : Dev).putMove m
          { m with marks := if m.marks.contains i then m.marks else i :: m.marks }) ∧
    (∀ p, d.rake.moves.find? (fun m => m.phase == .close && m.srcBank == n && m.marks.length == 92 && d.bankWorks n && d.bankWorks m.dstBank) = some m →
      d.rake.pools.get none m.handle = some p →
      Takes (.pageMoveFinish n) s fun t =>
        t.rake.pools.get none m.handle = some { p with pages := p.pages.set m.k (m.dstBank, m.dstPage) } ∧
        t.rake.moves = d.rake.moves.erase m ∧ m.srcPage ∉ (t.bank n).alloc ∧
        t = { d with
          rake := t.rake, sl := t.sl, banks := t.banks, tele := t.tele, hps := t.hps, out := t.out, freeCtr := t.freeCtr })) ∧
  (∀ (s : State) (iss : Issuer) (x : Desc) (set : List Nat),
    let d := s.dev
    let d0 := d.start iss x
    let h := fld (dword x 1) 0 16
    let w := dword x 2
    d.mayStart iss x 0x06 false false ([(1, 0xFFFF0000), (2, 0xF0000000)] ++ resFrom 3) → d.rakeOpen = true →
    0xF000 ≤ h → (d.part iss.reader).hasHandle h = true → fld w 0 16 ≠ 0 → fld w 0 16 ≤ 16384 → fld w 16 5 ∈ [1, 2, 4, 8, 16] →
    d.rake.pools.get none h = none → d.livePools.length < 4096 →
    d0.bankSet iss.reader (fld w 21 6) (fld w 16 5) (fld w 0 16) (fun _ => 0) = some set →
    Takes (.poolCreate iss x) s fun t =>
      let took := d0.takePages set (fld w 0 16) 0
      t.rake.pools.get none h = some { size := fld w 0 16, stripe := fld w 16 5, home := fld w 21 6, follow := bit w 27
                                       owner := iss.owner, set := set, pages := took.2 } ∧
      t.banks = took.1.banks ∧ t.rake = { d.rake with pools := t.rake.pools } ∧ (∀ k, k ≠ h → t.rake.pools.get none k = d.rake.pools.get none k) ∧
      d.Answered { d with banks := t.banks, rake := t.rake } t iss x stDone uRake (setInfo set)) ∧
  (∀ (s : State) (iss : Issuer) (x : Desc),
    let d := s.dev
    let d0 := d.start iss x
    (∀ p, d.mayStart iss x 0x07 false false ([(1, 0xFFFF0000)] ++ resFrom 2) → d.rakeOpen = true → 0xF000 ≤ fld (dword x 1) 0 16 →
      d.rake.pools.get none (fld (dword x 1) 0 16) = some p → p.owner = iss.owner →
      (d0.consumers (fld (dword x 1) 0 16)).isEmpty = true → (∀ m ∈ d.rake.moves, m.handle ≠ fld (dword x 1) 0 16) →
      Takes (.poolFree iss x) s fun t =>
        let d1 : Dev := { d0 with rake := { d0.rake with pools := d0.rake.pools.set none (fld (dword x 1) 0 16) none } }
        t = (d1.setKind d.nextExec (.inval uRake (BitVec.ofNat 64 p.size) p.pages)).sendInval
          (.tags [fld (dword x 1) 0 16]) (some d.nextExec)) ∧
    (∀ a tag loc mem, d.mayStart iss x 0x05 false false (bindMasks x) → d.rakeOpen = true → d.mapKnown = true →
      d.placedAt (Desc.module x) = some a → bindEntries x = [(tag, loc, mem, false)] → tag ≠ 0 → tag < 0xF000 →
      mem < (d.placedShape (Desc.module x) a).1 * (d.placedShape (Desc.module x) a).2 → (d.part iss.reader).hasTag tag = true → d.rake.tags.get none tag = none →
      tag ∉ d.pendingTags → (∀ p ∈ d.placedPans (Desc.module x) a, d.reserved p = false) → d.bound.length + d.pendingTags.length < 4096 →
      Takes (.bind iss x) s fun t =>
        let d1 := (d0.setKind d.nextExec (.waitRake x)).bindTags
          [(tag, { pan := memberPan a (d.placedShape (Desc.module x) a).1 mem, loc := loc, owner := iss.owner })]
        t = (d1.setKind d.nextExec (.inval (uPan a) 0 [])).sendInval (.tags [tag]) (some d.nextExec)))

/-! ### Descriptors -/

/-- NOP echoes words 2 and 3 (R397); a FENCE with nothing before it is DONE (R421); an opcode the table does not list is
BAD_DESCRIPTOR (R391, R392); a HINT of a library module that is neither placed nor pre-staged joins the hint queue of 8
(R233, R402). Each delivers its completion record and changes nothing else but the rings. -/
def Obligations.PlainDescriptorsAnswer : Prop :=
  ∀ (s : State) (iss : Issuer) (x : Desc),
    let d := s.dev
    (d.mayStart iss x 0x00 false false [] →
      Takes (.nop iss x) s fun t => d.Answered d t iss x stDone iss.unit (dqword x 2)) ∧
    (d.mayStart iss x 0x60 false false ([(1, 0xFFFFFFFF), (2, 0xFFFFFFFE)] ++ resFrom 3) →
      (∀ y ∈ d.running, match iss, y.2.iss with | .ring p _, .ring q _ => p ≠ q | _, _ => True) →
      Takes (.fence iss x) s fun t => d.Answered d t iss x stDone iss.unit 0) ∧
    (d.mayStart iss x (Desc.opcode x) false false [] → Desc.opcode x ∉ opcodes →
      Takes (.badOpcode iss x) s fun t => d.Answered d t iss x stBad iss.unit 0) ∧
    (d.mayStart iss x 0x04 false false ([(2, 0xFFFFFFFE)] ++ resFrom 3) → d.rakeOpen = true → d.mapKnown = true →
      bit (dword x 2) 0 = false → bit d.rake.ctrl 4 = true → d.preModule (Desc.module x) = true →
      Takes (.hint iss x) s fun t =>
        let q := d.rake.hints ++ [(Desc.module x, iss.reader)]
        d.Answered { d with rake := { d.rake with hints := q.drop (q.length - 8) } } t iss x stDone uRake 1)

/-- SCRUB of a range of a RUNNING bank visits the pages in order, logs and poisons what it finds, and answers how many it
scrubbed, corrected and poisoned (R315, R408).
RETIRE of a page that is not written and not moving puts a spare slot in the page's place and answers the slot and the
spares left (R322, R409).
SNAPSHOT writes its view to memory at the aligned address it names and answers the length: for a host the bytes go out
as posted writes (R411). -/
def Obligations.BankDescriptorsAnswer : Prop :=
  (∀ (s : State) (iss : Issuer) (x : Desc) (n : Nat),
    let d := s.dev
    let first := fld (dword x 2) 0 7
    let count := fld (dword x 2) 8 8
    d.mayStart iss x 0x20 false false ([(1, 0xFFFF0000), (2, 0xFFFF0080)] ++ resFrom 3) → descBank x = some n → count ≠ 0 →
    d.pllDead 2 = false → first + count ≤ 128 → d.inPart iss.reader (uBank n) = true → d.ust (uBank n) = .running →
    Takes (.scrub iss x) s fun t =>
      let r := (d.bank n).abortBorrow.scrubRange ((List.range count).map (first + ·))
      d.Answered { d.setBank n r.1 with tele := t.tele, freeCtr := d.freeCtr + 2 } t iss x stDone (uBank n)
        (pack64 [(r.2.1, 0, 16), (r.2.2.1, 16, 16), (r.2.2.2.1, 32, 16)])) ∧
  (∀ (s : State) (iss : Issuer) (x : Desc) (n k : Nat),
    let d := s.dev
    let page := fld (dword x 2) 0 7
    let b := (d.bank n).remapTo page k
    d.mayStart iss x 0x21 false false ([(1, 0xFFFF0000), (2, 0xFFFFFF80)] ++ resFrom 3) → descBank x = some n →
    d.pllDead 2 = false → d.inPart iss.reader (uBank n) = true → d.ust (uBank n) = .running → d.movingPage n page = false →
    (d.bank n).freeSpare = some k → (d.bank n).borrow = none → ((d.bank n).slot ((d.bank n).slotOf page)).written = false →
    Takes (.retire iss x) s fun t =>
      d.Answered (d.setBank n b) t iss x stDone (uBank n)
        (pack64 [(k, 0, 8), ((List.range 8).countP fun i => !b.spareUsed.contains (128 + i), 8, 4)])) ∧
  (∀ (s : State) (p q : Nat) (x : Desc),
    let d := s.dev
    let iss := Issuer.ring p q
    let d0 := d.start iss x
    let a := (dqword x 3).toNat
    let view := d0.unitsView p
    d.mayStart iss x 0x30 false false ([(1, 0xFFFFFFFF), (2, 0xFFFFFFFC)] ++ resFrom 6) → fld (dword x 2) 0 2 = 1 → a % 64 = 0 →
    badRange iss a (dword x 5).toNat = false → view.length ≤ (dword x 5).toNat →
    Takes (.snapshot iss x) s fun t =>
      d.Answered d t iss x stDone (uHost p) (BitVec.ofNat 64 view.length) ∧
      ∃ l, t.out = (d0.putHostData d.nextExec iss a view).out ++ l)

/-- FILL of a pool range forms its pattern for the line requests and executes until they are answered (R407); COPY from host
memory to the Sluice asks for the first piece of its source, no longer than the maximum read request size set and across no
4 KiB boundary, where fewer than 256 reads are outstanding (R347, R406, R644); FLIPTEST of an
aligned line of its own device waits to present its one-line write with the flip mask (R321, R410).
A transfer's lines that were answered BUSY are issued again once nothing is outstanding (R367); when the BUSY window has
expired, the lowest of them is where the transfer failed, and it ends with BUSY at that position once nothing is out (R367,
R368). -/
def Obligations.DataMovesLineByLine : Prop :=
  (∀ (s : State) (p q : Nat) (x : Desc),
    let d := s.dev
    let iss := Issuer.ring p q
    (d.mayStart iss x 0x11 false false ([(1, 0xFFFFFFFF), (2, 0xFFFFFFFF)] ++ resFrom 8) → 0 < (dword x 5).toNat →
      (dword x 5).toNat ≤ maxCopy →
      Takes (.fill iss x) s fun t => d.Executes d t iss x (.xfer
        { srcSl := false, dstSl := true, src := 0, dst := dqword x 3, len := (dword x 5).toNat, pattern := some (dqword x 6) })) ∧
    (d.mayStart iss x 0x10 false false ([(1, 0xFFFFFFFF), (2, 0xFFFFFFFC)] ++ resFrom 8) → fld (dword x 2) 0 2 = 2 →
      0 < (dword x 7).toNat → (dword x 7).toNat ≤ maxCopy → badRange iss (dqword x 3).toNat (dword x 7).toNat = false →
      Tab.get [] ((d.hp p).sq q).preread ((d.hp p).sq q).head = [] → (d.hp p).inFlight < 256 →
      Takes (.copy iss x) s fun t =>
        let n := min (min (d.hp p).maxRead (dword x 7).toNat) (4096 - (dqword x 3).toNat % 4096)
        t = { d with hps := t.hps, execs := t.execs, nextExec := d.nextExec + 1, out := d.out ++ [.hostRead p (d.hp p).nextRead (dqword x 3) n] } ∧
        (t.hp p).reads.get none (d.hp p).nextRead = some { why := .copySrc d.nextExec 0, addr := dqword x 3, len := n, sent := true } ∧
        (t.exec d.nextExec).map (fun y => y.kind) = some (.xfer
          { srcSl := false, dstSl := true, src := dqword x 3, dst := dqword x 5, len := (dword x 7).toNat, rcur := n, hostOut := true })) ∧
    (d.mayStart iss x 0x22 false false ([(1, 0xFFFFFFFF), (2, 0xFFFFFFE0)] ++ resFrom 7) → fld (dword x 2) 0 5 ≤ 16 →
      slOff (dqword x 3) % 64 = 0 → slDev (dqword x 3) = d.ownId → 0xF000 ≤ slTag (dqword x 3) →
      Takes (.fliptest iss x) s fun t => d.Executes d t iss x (.flip (dqword x 3) false
        (lineOf ((List.range 16).flatMap fun _ => leBytes 4 (dword x 5).toNat)) (fld (dword x 2) 0 5) (dword x 6)))) ∧
  (∀ (s : State) (iss : Issuer) (e : Nat) (y : Exec) (x : Xfer), iss.wf = true → s.dev.exec e = some y → y.iss = iss →
    y.kind = .xfer x →
    (x.busy ≠ [] → x.out = [] →
      Takes (.busyRetry iss e) s fun t => t = s.dev.setKind e (.xfer
        { x with busy := [], again := orderBy (fun a b => decide (a.pos < b.pos)) (x.busy ++ x.again), retry := true })) ∧
    (∀ c, x.busyWin = true → x.busy = [c] → x.again = [] → x.fail = none → c.pos ≤ x.wcur → c.pos ≤ x.len → x.out = [] →
      x.hostOut = false → x.dstSl = true → x.srcSl = true →
      Takes (.busyWindowExpiry iss e) s fun t =>
        t = s.dev.complete e stBusy iss.unit (BitVec.ofNat 64 c.pos)))

/-- PLACE of a library module without resources, not pinned, that the Rake admits takes the anchor of lowest cost, records
the decision, and queues one staging pass for each member of the gang, oldest first (R215, R218, R398).
EVICT of a module whose pans run raises QREQ to each of them and waits for their QACKs (R223, R254, R400).
MIGRATE without CARRY of a placed RUNNING library module, not pinned, takes the destination of lowest cost, reserves
source and destination, and queues one staging pass for each destination member; the source runs on (R248, R249, R401). -/
def Obligations.RakeDescriptorsStart : Prop :=
  (∀ (s : State) (iss : Issuer) (x : Desc) (c : CatEntry) (a n : Nat) (cost : Int),
    let d := s.dev
    let d0 := (d.start iss x).setKind d.nextExec (.waitRake x)
    let m := Desc.module x
    let o : Op := { kind := .place, iss := iss, desc := x, phase := .waitHeader, module := m, digest := digest64 c.digest, full := c.digest
                    shapeW := c.w, shapeH := c.h, keySlot := c.keySlot.toNat, secVersion := c.secVersion.toNat, img := c.img, res := [] }
    d.mayStart iss x 0x01 true true (placeMasks x) → d.rakeOpen = true → d.mapKnown = true → d.storeDead = false → m ≠ 0 →
    Desc.pinned x = false → Desc.epoch x = 0xFFFF → Desc.pan x = 0 → Desc.force x = false → fld (dword x 2) 24 4 = 0 →
    bit (dword x 2) 22 = false → d.catEntry m = some c → d.imgRes c.img = some [] → (d.part iss.reader).slot c.keySlot.toNat = true →
    d.ops = [] → d.placedAt m = none → d.bound.length ≤ 4096 →
    (d0.setOp d.nextExec (some o)).choose o true = .chosen a false false cost n →
    (d.newSeq (gangPans a c.w c.h)).isSome = true → d.bgs.pstRun = none →
    Takes (.place iss x) s fun t =>
      t = { d with rake := t.rake, cfg := t.cfg, hps := t.hps, execs := t.execs, nextExec := d.nextExec + 1, mgmt := t.mgmt } ∧
      (∃ o', t.op d.nextExec = some o' ∧ o'.kind = .place ∧ o'.phase = .staging ∧ o'.module = m ∧ o'.dst = a ∧
        o'.dsts = gangPans a c.w c.h ∧ o'.prior = (gangPans a c.w c.h).map fun p => (p, d.ust (uPan p))) ∧
      t.cfg.passes = d.cfg.passes ++ (indexed (gangPans a c.w c.h)).map (fun y =>
        { kind := .real, exec := some d.nextExec, pan := y.2, anchor := a, member := y.1, module := m, digest := digest64 c.digest
          full := c.digest, img := c.img, age := d.cfg.passCtr }) ∧
      fld t.rake.last 0 6 = a % 64) ∧
  (∀ (s : State) (iss : Issuer) (x : Desc) (a : Nat),
    let d := s.dev
    d.mayStart iss x 0x02 true false ([(2, 0xFFFF0000)] ++ resFrom 3) → d.rakeOpen = true → d.mapKnown = true →
    d.placedAt (Desc.module x) = some a → d.placedPans (Desc.module x) a = [a] → d.inPart iss.reader (uPan a) = true → d.ust (uPan a) = .running →
    d.busyPan a = false → Desc.epoch x = (d.unit (uPan a)).epoch → (d.newSeq [a]).isSome = true → (d.pan a).qreq = false →
    Takes (.evict iss x) s fun t =>
      (∃ o, t.op d.nextExec = some o ∧ o.kind = .evict ∧ o.phase = .quiesce ∧ o.dst = a ∧ o.srcs = [a] ∧ o.needAck = [a]) ∧
      (t.pan a).qreq = true ∧ t.out = d.out ++ [.qreq a true] ∧
      (∀ u, t.unit u = d.unit u) ∧
      t = { d with rake := t.rake, pans := t.pans, hps := t.hps, execs := t.execs, nextExec := d.nextExec + 1, mgmt := t.mgmt
                   out := t.out, freeCtr := t.freeCtr }) ∧
  (∀ (s : State) (iss : Issuer) (x : Desc) (c : CatEntry) (b a n : Nat) (cost : Int),
    let d := s.dev
    let d0 := (d.start iss x).setKind d.nextExec (.waitRake x)
    let m := Desc.module x
    let w := (d.placedShape m b).1
    let h := (d.placedShape m b).2
    let o : Op := { kind := .migrate, iss := iss, desc := x, phase := .staging, module := m, src := b, srcs := gangPans b w h, shapeW := w
                    shapeH := h, digest := digest64 c.digest, full := c.digest, keySlot := c.keySlot.toNat, secVersion := c.secVersion.toNat
                    img := c.img, res := [] }
    d.mayStart iss x 0x03 true true migrateMasks → d.rakeOpen = true → d.mapKnown = true → d.storeDead = false →
    Desc.pinned x = false → Desc.pan x = 0 → bit (dword x 2) 22 = false → d.placedAt m = some b → d.catEntry m = some c →
    digest64 c.digest = (d.pan b).digest → d.imgRes c.img = some [] → d.resourcesIn iss.reader c.keySlot.toNat (d.resOf b) = true → d.poolsOk (d.resOf b) = true →
    (∀ p ∈ gangPans b w h, d.inPart iss.reader (uPan p) = true ∧ d.ust (uPan p) = .running ∧ d.busyPan p = false) →
    Desc.epoch x = (d.unit (uPan b)).epoch → d0.choose o true = .chosen a false false cost n →
    (d.newSeq (gangPans a w h ++ gangPans b w h)).isSome = true → d.bgs.pstRun = none →
    Takes (.migrate iss x) s fun t =>
      t = { d with rake := t.rake, cfg := t.cfg, hps := t.hps, execs := t.execs, nextExec := d.nextExec + 1, mgmt := t.mgmt } ∧
      (∃ o', t.op d.nextExec = some o' ∧ o'.kind = .migrate ∧ o'.phase = .staging ∧ o'.module = m ∧ o'.src = b ∧ o'.dst = a ∧
        o'.srcs = gangPans b w h ∧ o'.dsts = gangPans a w h) ∧
      t.cfg.passes = d.cfg.passes ++ (indexed (gangPans a w h)).map fun y =>
        { kind := .real, exec := some d.nextExec, pan := y.2, anchor := a, member := y.1, module := m, digest := digest64 c.digest
          full := c.digest, img := c.img, force := bit (dword x 0) 12, age := d.cfg.passCtr })

/-! ### Start-up and configuration -/

/-- The release of the internal reset runs a cold start and PROG_N a start-up of its own cause: fuse sense loads the mirror
from every fuse, and a blank device waits for a stream (R12, R201, R202, R571, R612). The time unit runs through PROG_N (R500). A
brown-out holds the internal reset and keeps what needs no power; a record word in progress completes, and counts where it
begins the write of its slot, or does not (R143, R612). -/
def Obligations.StartUpsReadTheFuses : Prop :=
  ∀ (s : State) (st : Straps) (cells : StartCells), cells.wf = true →
    let d := s.dev
    (d.cfg.phase = .held →
      Takes (.powerOnResetRelease st cells) s fun t => t.fuses = d.fuses ∧ t.fuse.mirror = d.fuses ∧ t.fuse.sensed = true ∧
        t.cfg.cause = .cold ∧ t.cfg.mode = st.cfgMode ∧ t.cfg.smbAddr = st.smbAddr ∧ t.running = [] ∧
        (t.cfg.blank = true → t.cfg.phase = .waitStream)) ∧
    (d.cfg.phase ≠ .held →
      Takes (.progN st cells) s fun t => t.fuses = d.fuses ∧ t.fuse.mirror = d.fuses ∧ t.fuse.sensed = true ∧
        t.cfg.cause = .progN ∧ t.cfg.mode = st.cfgMode ∧ t.running = [] ∧ t.time = { d.time with cmd := none } ∧
        (st.cfgMode.getLsbD 2 = true → echoMode st.cfgMode = false → t.cfg.phase = .waitStream)) ∧
    (d.cfg.phase ≠ .held → Takes (.brownOut false []) s fun t => t = d.cleared ∧ t.cfg.phase = .held ∧
      t.nv = d.nv ∧ t.storeNv = d.storeNv ∧ t.fuses = d.fuses) ∧
    (∀ p e o j, d.cfg.phase ≠ .held → p < 65 → d.recordOp p = some (e, o, j) → (∀ u, u < 65 → u ≠ p → d.recordOp u = none) →
      Takes (.brownOut true []) s fun t => t = ((if j.startsRecord then d.countRecord j.unit else d).putRecWord j).cleared)

/-- DONE releases at readiness, at the PPS edge that PPS_ALIGN chooses, or when its wait expires, and the uptime starts
(R196, R199); a pin bank whose supply is in range is enabled (R197, R611).
Enabling I/O gives every powered unit that is OFF its initial state, the highest unit first, and then deasserts CONFIG GSR
in every pan at one edge (R17, R197); from then on the row brings the level of CFG_DONE, whose later low changes nothing (R198, R452;
that the row brings it is the model's choice, assumption 83). A power-fail warning that stands as DONE releases is acted on then (R613).
After DONE the save unit that is not erased is erased (R156), the start-count unit not in use is erased once the other has
passed 512 entries (R157), and the catalogue index is loaded from the valid half with the higher SEQ (R151). -/
def Obligations.DoneAndIoEnableStartTheUnits : Prop :=
  (∀ (s : State) (how : DoneHow) (b us : Nat), b < 16 →
    let d := s.dev
    (d.cfg.phase = .waitDone → (how = .ready ↔ bit d.cfg.opts 1 = false) →
      let e : Dev := { d with
        cfg := { d.cfg with phase := .waitIo, doneReleased := true, ppsMissed := how == .waitExpired }
        glb := { d.glb with doneSec := d.time.sec.setWidth 32, doneNs := d.time.ns.setWidth 32, uptime := 0, uptimeRun := true } }
      Takes (.doneRelease how) s fun t => t = if d.pfw.asserted then e.pfwSave else e) ∧
    (d.cfg.ioEnabled = true → d.pins.enabled.get false b = false → b ≠ 15 →
      Takes (.pinBankEnable b true us) s fun t => t = ({ d with pins := { d.pins with
        vccioOk := d.pins.vccioOk ||| BitVec.ofNat 16 (2 ^ b), enabled := d.pins.enabled.set false b true } } : Dev).refreshPins)) ∧
  (∀ (s : State) (wire : Bool),
    let d := s.dev
    let d0 : Dev := { d with cfg := { d.cfg with phase := .user, ioEnabled := true, wireHigh := wire } }
    d.cfg.phase = .waitIo → (bit d.cfg.opts 2 = true → wire = true) →
    Takes (.ioEnable wire) s fun t =>
      t = (foldS Dev.initUnit d0 allUnits.reverse).sourcesOf (List.range 64) (fun x => { x with srcConfig := false }) ∧
      (d.ust uRake = .off → t.ust uRake = .running) ∧ t.cfg = d0.cfg) ∧
  (∀ (s : State) (wire : Bool), s.dev.cfg.phase = .user → s.dev.cfg.ioEnabled = true →
    Takes (.ioEnable wire) s fun t => t = { s.dev with cfg := { s.dev.cfg with wireHigh := s.dev.cfg.wireHigh || wire } }) ∧
  (∀ s : State,
    let d := s.dev
    (d.cfg.doneReleased = true → d.storeWrites = true → d.storeNv.save0.isEmpty = false →
      Takes (.saveUnitErase 1984) s fun t => t = ({ d with storeNv := { d.storeNv with save0 := [] } } : Dev).countErase 1984) ∧
    (d.cfg.doneReleased = true → d.storeWrites = true → d.storeNv.startUnit = 1 → 512 < d.storeNv.start1.length → d.storeNv.start0 ≠ [] →
      Takes (.startCountUnitErase 1986) s fun t => t = ({ d with storeNv := { d.storeNv with start0 := [] } } : Dev).countErase 1986) ∧
    (d.cfg.doneReleased = true → d.store.ready = false → d.ust uStore ≠ .faulted → d.pllDead 0 = false → d.storeNv.half0.ok = true →
      d.storeNv.half1.ok = true → d.storeNv.half0.seq.toNat < d.storeNv.half1.seq.toNat →
      Takes (.catalogueLoaded none) s fun t => t = ({ d with store := { d.store with
        ready := true, half := 1, cat := d.storeNv.half1.entries, catSeq := d.storeNv.half1.seq } } : Dev).rebuildTags.startJobs))

/-- The records of a device stream in clear build up the load: sync (R171), NOP, REGW (R174), KEY (R183), TAG (R184), PANSET (R173),
and a record of another type, which is skipped by its length (R173). Each goes out on CFG_DOUT as well (R192). After a KEY record
one of another type must be encrypted and joins what the next tag covers (R176, R184). A sync ends CFG_ERR_N's error of the load
before wherever it is taken (R200).
A device takes its position from a CHAIN record and forwards the next one (R193); a record for another position goes on
unchanged and has no effect here (R194); a stream that stops for too long ends as TRUNCATED, and a blank device waits for a new
one (R189, R202). -/
def Obligations.StreamRecordsBuildTheLoad : Prop :=
  (∀ (s : State) (h : RecHdr) (bs : List Byte) (l : Load) (ty : Byte) (pad : Nat),
    let d := s.dev
    let fwd := fun (ty : Byte) => d.forward (8 + bs.length) (headerBytes ty h bs.length ++ bs)
    let after := fun (ty : Byte) (l : Load) => (fwd ty).putLoad l
    (d.portWaits = true → d.cfg.load = none → Takes (.syncSequence pad) s fun t =>
      t = { d with cfg := { d.cfg with synced := true, errLatched := false, load := some {} }, test := t.test, out := t.out }) ∧
    (d.portWaits = false → d.pllDead 0 = false → d.cfg.phase ≠ .held → echoMode d.cfg.mode = false → d.ust uCfgPort ≠ .faulted → d.cfg.load = none →
      Takes (.syncSequence pad) s fun t =>
        t = { d with cfg := { d.cfg with synced := true, errLatched := false }, test := t.test, out := t.out }) ∧
    (d.portWaits = true → d.cfg.load = some l → d.cfg.synced = true → d.targeted h = true →
      (l.keyed = false → recEnc h = false →
        Takes (.nopRecord h bs) s (fun t => t = after 0x02 { l with lastTag := false }) ∧
        (l.started = false → bs = leBytes 4 1 ++ leBytes 4 devType.toNat →
          Takes (.regwRecord h bs) s fun t => t = after 0x10 { l with lastTag := false, devtypeOk := true }) ∧
        (l.started = false → ∀ v, v < 2 ^ 32 → d.belowRollback v = false → bs = leBytes 4 2 ++ leBytes 4 v →
          Takes (.regwRecord h bs) s fun t => t = after 0x10 { l with lastTag := false, secverOk := true }) ∧
        (∀ v, v < 2 ^ 32 → bs = leBytes 4 3 ++ leBytes 4 v →
          Takes (.regwRecord h bs) s fun t => t = after 0x10 { l with lastTag := false, design := BitVec.ofNat 32 v }) ∧
        (∀ v, v < 2 ^ 32 → bs = leBytes 4 4 ++ leBytes 4 v →
          Takes (.regwRecord h bs) s fun t => t = after 0x10 { l with lastTag := false, start := BitVec.ofNat 32 v }) ∧
        (bs.length = 16 → l.started = false → d.deviceSlotOk (some (leAt bs 0 1)) = true →
          Takes (.keyRecord h bs) s fun t => t = after 0x11 { l with
            keyed := true, nonce := slice bs 4 12, key := kdf (d.slotKey (leAt bs 0 1)) (slice bs 4 12) 0, lastTag := false }) ∧
        (bs.length = 16 → Takes (.tagRecord h bs) s fun t => t = after 0x12 { l with lastTag := true }) ∧
        Takes (.unknownRecord ty h bs) s (fun t => t = after ty { l with lastTag := false }) ∧
        (bs.length = 24 → l.started = true → ((slice bs 1 1).any fun b => b.getLsbD 0) = true → leAt bs 0 1 < 64 →
          l.pansets.get none (leAt bs 0 1) = none →
          Takes (.pansetRecord h bs) s fun t => t = after 0x20 { l with
            lastTag := false, pansets := l.pansets.set none (leAt bs 0 1) (some (true, BitVec.ofNat 8 (leAt bs 2 1), wordAt bs 4, BitVec.ofNat 64 (leAt bs 8 8))) })) ∧
      (l.keyed = true → l.epochFrames ≠ 256 → l.short = false →
        (recEnc h = false → Takes (.unknownRecord ty h bs) s fun t => t = (fwd ty).loadFail stAuth 0xFFFFFE) ∧
        (recEnc h = true → Takes (.unknownRecord ty h bs) s fun t => t = after ty { l with
          lastTag := false, aad := l.aad ++ headerBytes ty h bs.length, ct := l.ct ++ bs })))) ∧
  (∀ (s : State) (h : RecHdr) (bs : List Byte) (ty : Byte) (l : Load),
    let d := s.dev
    (d.pllDead 0 = false → d.cfg.phase ≠ .held → d.cfg.synced = true → echoMode d.cfg.mode = false → d.ust uCfgPort ≠ .faulted → h.target = 0xFFFF →
      bs.length = 2 → leAt bs 0 2 ≤ 255 → (∀ l', d.portWaits = true → d.cfg.load = some l' → l'.keyed = false ∧ recEnc h = false) →
      Takes (.chainRecord h bs) s fun t => t = { d with
        cfg := { d.cfg with posSet := true, pos := BitVec.ofNat 8 (leAt bs 0 2)
                            load := if d.portWaits then d.cfg.load.map (fun l' => { l' with lastTag := false }) else d.cfg.load }
        test := { d.test with cfgCount := satAdd d.test.cfgCount 10 }
        out := d.out ++ [.cfgDout (headerBytes 0x01 h 2 ++ leBytes 2 (leAt bs 0 2 + 1))] }) ∧
    (d.pllDead 0 = false → d.cfg.phase ≠ .held → d.targeted h = false →
      Takes (.foreignRecord ty h bs) s fun t => t = { d with
        test := { d.test with cfgCount := satAdd d.test.cfgCount (8 + bs.length) }
        out := d.out ++ [.cfgDout (headerBytes ty h bs.length ++ bs)] }) ∧
    (d.portWaits = true → d.cfg.load = some l → d.cfg.err = false → d.cfg.blank = true →
      Takes .cfgTimeout s fun t => t = { d with cfg := { d.cfg with
        err := true, errStatus := BitVec.ofNat 8 stTrunc, errSource := 0xF, errAddr := BitVec.ofNat 24 l.frames, errPan := 0
        load := none, synced := false, errLatched := true, loadFailed := true } }))

/-- The next frame of a pan's plane, sound and in order, is written into its shadow and counted (R121, R176); END with the right
count writes the frames that the stream did not carry and commits the load, or fails where one of them does not read back (R121, R128,
R177, R186). -/
def Obligations.FramesAreWrittenAndCommitted : Prop :=
  ∀ (s : State) (h : RecHdr) (bs : List Byte) (l : Load) (p r : Nat) (v : Byte × Word × DWord) (f : FrameBits) (seq : Word),
    let d := s.dev
    let n := 6144 * p + r
    d.portWaits = true → d.cfg.load = some l → d.cfg.synced = true → d.targeted h = true → l.keyed = false → l.started = true →
    (p < 64 → 0 < r → r < 6144 → l.pansets.get none p = some (false, v) → l.last = some (n - 1) → recEnc h = false →
      bs = leBytes 4 (devAddr n) ++ leBytes 4 1 ++ frameBytes f ++ leBytes 4 (frameCheckAt p r f).toNat →
      censusBad (censusAdd 0 l.census (frameEnables r f)) = false →
      Takes (.framesRecord h bs [.first]) s fun t =>
        t = { d with cfg := t.cfg, nv := t.nv, test := t.test, out := t.out } ∧
        t.nvu p = { d.nvu p with frames := (d.nvu p).frames.set 0 (8192 * d.shadow p + r) f } ∧ (∀ q, q ≠ p → t.nvu q = d.nvu q) ∧
        t.cfg = { d.cfg with framesCount := satAdd d.cfg.framesCount 1, load := some { l with
          last := some n, frames := l.frames + 1, epochFrames := l.epochFrames + 1, lastTag := false
          census := censusAdd 0 l.census (frameEnables r f) } }) ∧
    (bs.length = 8 → leAt bs 0 4 = l.frames → d.encBarred h = false → d.newSeq planeUnits = some seq →
      let fwd := d.forward 16 (headerBytes 0x30 h 8 ++ bs)
      ∀ cs, Takes (.endRecord h ⟨bs, cs⟩) s fun t =>
        match (if l.last.any fun k => (devUnit k).1 == uGlobal then fwd else fwd.openShadow uGlobal).fillRest l cs with
        | .inl (e, _) => t = e.commitLoad l seq ∧ t.cfg.load = none ∧ t.cfg.loaded = true
        | .inr (e, a) => t = e.loadFail stFrame a ∧ t.cfg.load = none ∧ t.cfg.err = true)

/-- The oldest waiting real pass takes the lowest free lane: its tokens are drawn, its wear counted, the shadow's record slot
invalidated, and the lane RUNNING (R127, R143, R167, R239). One frame of it goes into the shadow (R121, R165, R182). Its end makes
the shadow valid and its pan STAGED, and the lane IDLE (R44, R166).
A pre-stage of the oldest hint that can start takes a lane (R235); a refill gives every bucket one token up to its size
(R239, R557). -/
def Obligations.StagingPassRunsOnALane : Prop :=
  (∀ (s : State) (x : Pass) (l e : Nat) (o : Op),
    let d := s.dev
    x.kind = .real → x.exec = some e → d.op e = some o → x.pan < 64 → l < 4 → x.carry = false → d.nvStopped = false →
    (d.cfg.passes.find? (fun y => y.lane.isNone && (y.kind == .pre) == false) = some x → d.freeLane = some l →
      d.pllDead 0 = false → d.prestaged x.pan = false → d.bgs.pstRun ≠ some x.pan → (x.force = true ∨ d.tokensOk x.pan = true) →
      (d.imgHdr x.img = none ∨ ∃ hd, d.imgHdr x.img = some hd ∧ d.imgChecks hd o.res = none) →
      Takes .passStart s fun t =>
        let k := d.shadow x.pan
        t = { d with cfg := { d.cfg with passes := d.cfg.passes.map fun y => if y = x then { x with lane := some l, plane := k } else y }
                     rake := (d.drawTokens x.pan 6144).rake, nv := ((d.countStage x.pan k).invalidate x.pan).nv
                     pans := t.pans, units := t.units, hps := t.hps, out := t.out } ∧
        t.pan x.pan = { d.pan x.pan with shadowValid := false, shadowWriting := true } ∧ (∀ p, p ≠ x.pan → t.pan p = d.pan p) ∧
        t.ust (uLane l) = .running ∧ ∀ u, u ≠ uLane l → t.unit u = d.unit u) ∧
    (∀ a hd addr f rest, d.pllDead 0 = false →
      (match x.img, a with
        | .host _, .hostFail => False
        | .store u n, .storeFail k => d.storeDead = false ∧ (k < u ∨ u + ceilDiv n 65536 ≤ k)
        | .store _ _, _ => d.storeDead = false
        | .host _, _ => True) → d.lanePass l = some x → d.imgHdr x.img = some hd →
      x.items = .lit addr f (frameCheckAt x.pan x.next f) :: rest → addrOk addr = true → addrIndex addr = x.next → x.lastAddr < x.next →
      censusBad (censusAdd 0 x.census (frameEnables x.next f)) = false →
      Takes (.stagingFrame l a .first) s fun t =>
        let y := { x with items := rest, lastAddr := x.next, recv := x.recv + 1, written := x.written + 1, next := x.next + 1
                          census := censusAdd 0 x.census (frameEnables x.next f) }
        t = { d with nv := t.nv, cfg := { d.cfg with
          framesCount := satAdd d.cfg.framesCount 1, passes := d.cfg.passes.map fun z => if z = x then y else z } } ∧
        t.nvu x.pan = { d.nvu x.pan with frames := (d.nvu x.pan).frames.set 0 (8192 * x.plane + x.next) f } ∧
        ∀ p, p ≠ x.pan → t.nvu p = d.nvu p) ∧
    (d.pllDead 0 = false → d.lanePass l = some x → d.passChecks x = some none → x.full ≠ [] → o.kind = .place → d.ust (uPan x.pan) = .idle →
      d.ust (uLane l) = .running → (∃ y ∈ d.cfg.passes, y.exec = some e ∧ y.pan ≠ x.pan) → (∀ y ∈ d.cfg.passes, y.pan = x.pan → y = x) →
      (d.cfg.passes.count x = 1) →
      Takes (.passEnd l) s fun t =>
        t = { d with cfg := t.cfg, pans := t.pans, units := t.units, rake := t.rake, hps := t.hps, out := t.out } ∧
        t.cfg.passes = d.cfg.passes.erase x ∧ t.ust (uLane l) = .idle ∧ t.ust (uPan x.pan) = .staged ∧
        t.pan x.pan = { d.pan x.pan with shadowWriting := false, shadowValid := true, stagedOp := some e } ∧
        t.op e = some { o with passed := o.passed ++ [x.pan] })) ∧
  (∀ s : State,
    let d := s.dev
    (∀ m rd rest d2, bit d.rake.ctrl 4 = true → d.freeLane.isSome = true → d.realWaits = false → d.preCount < 2 → d.rakeOpen = true →
      d.rake.mapReady = true → d.nvStopped = false → d.rake.hints = (m, rd) :: rest →
      ({ d with rake := { d.rake with hints := rest } } : Dev).startPre m rd = some d2 →
      Takes .prestageStart s fun t => t = opPassStart d2) ∧
    (fld d.bgs.wearRate 0 10 ≠ 0 → d.pllDead 0 = false → (d.pwr.phase = .asleep → d.pwr.modeIn.toNat < 3) →
      Takes .tokenRefill s fun t =>
        t = { d with rake := { d.rake with buckets := t.rake.buckets } } ∧ (∀ p, 64 ≤ p → t.tokens p = d.tokens p) ∧
        ∀ p, p < 64 → t.tokens p = max (min (-(d.bucketSize : Int)) (d.tokens p)) (min (d.bucketSize : Int) (d.tokens p + 1))))

/-- The acknowledge of a pan that an operation asked to quiesce, which follows the wire that the image chooses or else QREQ itself,
and comes at once from a FAULTED pan, takes it off the operation's list, and the last one holds the operation's pans (R223, R254); a drained port leaves the list of ports to drain (R284); when RAKE_QUIESCE.TIMEOUT has passed the
operation is undone and ends with TIMEOUT (R225).
A commit: the next record word of its unit is written (R127, R128); the source of a MIGRATE with CARRY is captured and its
carry passes wait (R250); at the commit point the operation is past its failure (R127); the plane switch makes the new plane
active (R127, R145), and the release opens borders and ports and completes the descriptor (R73, R111). -/
def Obligations.CommitFollowsQuiesce : Prop :=
  (∀ (s : State) (p e : Nat) (o : Op),
    let d := s.dev
    p < 64 →
    (d.qackHigh p = false → d.ust (uPan p) ≠ .faulted → Takes (.qack p) s fun t => t = d) ∧
    ((d.view p).cfg.qack = none → d.qackHigh p = (d.pan p).qreq) ∧
    ((d.pan p).qreq = true → (d.pan p).qack = false → d.pllDead 0 = false → (d.qackHigh p = true ∨ d.ust (uPan p) = .faulted) → d.findOp (fun o => o.needAck.contains p) = some (e, o) → d.op e = some o →
      o.needAck.erase p ≠ [] →
      Takes (.qack p) s fun t => t = (d.modPan p fun x => { x with qack := true }).setOp e (some { o with needAck := o.needAck.erase p })) ∧
    ((d.pan p).qreq = true → (d.pan p).qack = false → d.pllDead 0 = false → (d.qackHigh p = true ∨ d.ust (uPan p) = .faulted) → d.findOp (fun o => o.needAck.contains p) = some (e, o) → d.op e = some o →
      o.needAck = [p] →
      Takes (.qack p) s fun t =>
        t = ((d.modPan p fun x => { x with qack := true }).setOp e (some { o with needAck := [] })).holdAll e []) ∧
    (d.findOp (fun o => o.toDrain.contains p) = some (e, o) → d.op e = some o → d.portDrainedOk p = true →
      Takes (.portDrained p) s fun t => t = d.setOp e (some { o with toDrain := o.toDrain.erase p })) ∧
    (d.findOp (fun o => o.needAck.contains p) = some (e, o) → d.op e = some o → bit (dword o.desc 0) 12 = false →
      Takes (.quiesceTimeout p) s fun t => t = (d.undoOp e o).complete e stTimeout (uPan o.dst) 0)) ∧
  (∀ (s : State) (p e : Nat) (o : Op),
    let d := s.dev
    p < 64 → d.op e = some o →
    (∀ j rest, d.nvStopped = false → d.pllDead 0 = false → d.recordOp p = some (e, o, j) → o.phase = .records → o.jobs = j :: rest → j.word ≠ 0 → j.word ≠ 8 →
      Takes (.recordWordWritten p) s fun t => t = { d with
        nv := (d.modNv j.unit fun u => u.setSlot j.slot ((u.slot j.slot).putWord j.word j.value)).nv
        rake := (d.setOp e (some { o with jobs := rest })).rake }) ∧
    (∀ b, d.findOp (fun o => o.phase == .capture && o.srcs.contains p && o.toDrain.isEmpty) = some (e, o) → o.srcs = [p] → o.dsts = [b] →
      Takes (.captureDone p) s fun t =>
        t = { d with rake := t.rake, cfg := t.cfg } ∧
        t.op e = some { o with phase := .carry, capQ := o.capQ.set [] b (d.capturePan p).1, capRam := o.capRam.set [] b (d.capturePan p).2 } ∧
        ∃ x y, t.cfg.passes = d.cfg.passes ++ [x, y] ∧ x.kind = .carryLogic ∧ y.kind = .carryRam ∧ x.pan = b ∧ y.pan = b ∧
          x.exec = some e ∧ y.exec = some e) ∧
    (d.findOp (fun o => o.phase == .records && o.root == p && o.jobs.isEmpty && o.toDrain.isEmpty) = some (e, o) → o.kind = .place →
      Takes (.commitPoint p) s fun t =>
        t.op e = some { o with phase := .release, committed := true } ∧ (∀ u, t.unit u = d.unit u) ∧ t.nv = d.nv ∧
        ∀ q ∈ o.dsts, (t.pan q).softAssert = false ∧ (t.pan q).softHold = false ∧ (t.pan q).busCont = 0) ∧
    (d.findOp (fun o => o.committed && !o.switched && o.dsts.contains p) = some (e, o) → o.dsts = [p] →
      Takes (.planeSwitch p) s fun t =>
        t.ust (uPan p) = .running ∧ (t.pan p).active = d.shadow p ∧ (t.pan p).port = .held ∧ (t.pan p).handover = true ∧
        (t.pan p).module = (if ((d.nvu p).slot (d.shadow p)).empty then 0 else ((d.nvu p).slot (d.shadow p)).module) ∧
        t.op e = some { o with switched := true }) ∧
    (∀ x : Exec, d.findOp (fun o => o.switched && o.settle.isEmpty && o.invalDone && o.dsts.contains p) = some (e, o) → o.dsts = [p] →
      d.exec e = some x →
      Takes (.borderRelease p) s fun t =>
        (t.pan p).shut = false ∧ (t.pan p).handover = false ∧ (t.pan p).port = .opened ∧ (t.pan p).srcCommitHold = false ∧
        t.op e = none ∧ t.exec e = none))

/-! ### Time -/

/-- TIME_SET without its PPS bit steps the counter to the value at once, QUALITY FREERUN, and answers the step; with it the value
waits for the next edge (R416, R509). TIME_ADJ steps, or slews at its rate (R417, R503). A TIME_SET that sees no valid edge within
2 s ends with TIMEOUT (R416), and a slew that has applied its whole offset completes with the µs it took (R417).
Writes of TIME_ALARM_NS, TIME_INC_FRAC and TIME_CTRL take effect on the counter (R503, R516, R519; what a write of
TIME_CTRL does to INC_REF is read as assumption 31 says), and a read of
TIME_SEC_LO latches the other words of the same instant (R501). -/
def Obligations.TimeCommandsSetTheCounter : Prop :=
  (∀ (s : State) (iss : Issuer) (x : Desc),
    let d := s.dev
    let d0 := d.start iss x
    let v := timeOf ((dword x 3).toNat + fld (dword x 4) 0 16 * 2 ^ 32) (fld (dword x 5) 0 30) (fld (dword x 4) 16 16)
    let off : Int := (dqword x 3).toInt * 2 ^ 24
    (dword x 1 = 0x7000 → d.inPart iss.reader uTime = true → d.time.cmd = none → d.ust uTime ≠ .faulted →
      (d.mayStart iss x 0x40 false false ([(1, 0xFFFF0000), (2, 0xFFFFFFFE), (5, 0xC0000000)] ++ resFrom 6) → fld (dword x 5) 0 30 < 10 ^ 9 →
        (bit (dword x 2) 0 = false →
          Takes (.timeSet iss x) s fun t =>
            d.Answered (d0.timeSetTo v).1 t iss x stDone uTime (satS64 (nearNs (v - d.time.now))) ∧
            t.time.now = v ∧ t.time.quality = qFreerun ∧ t.time.steps = satInc d.time.steps) ∧
        (bit (dword x 2) 0 = true →
          Takes (.timeSet iss x) s fun t => d.Executes { d with time := { d.time with cmd := some (.setPps d.nextExec
            (BitVec.ofNat 48 ((dword x 3).toNat + fld (dword x 4) 0 16 * 2 ^ 32)) (BitVec.ofNat 30 (fld (dword x 5) 0 30))
            (BitVec.ofNat 16 (fld (dword x 4) 16 16))) } } t iss x .time)) ∧
      (d.mayStart iss x 0x41 false false ([(1, 0xFFFF0000), (2, 0xFFFFFFFE), (5, 0xFFFF0000)] ++ resFrom 6) →
        (bit (dword x 2) 0 = true →
          Takes (.timeAdj iss x) s fun t =>
            d.Answered ((d0.stepTime off).setQuality qFreerun) t iss x stDone uTime 0 ∧ t.time.quality = qFreerun) ∧
        (bit (dword x 2) 0 = false →
          let rate := if fld (dword x 5) 0 16 = 0 then d.time.rate else fld (dword x 5) 0 16
          Takes (.timeAdj iss x) s fun t => d.Executes
            { d with time := { d.time with cmd := some (.slew d.nextExec off rate 0), slewing := none, calBad := true } } t iss x .time))) ∧
    (∀ e a b c, d.time.cmd = some (.setPps e a b c) →
      Takes .timeSetPpsTimeout s fun t => t = ({ d with time := { d.time with cmd := none } } : Dev).complete e stTimeout uTime 0) ∧
    (∀ e left rate us, d.ust uTime ≠ .asleep → d.time.cmd = some (.slew e left rate us) →
      Takes .slewEnd s fun t => t = (({ d with time := { d.time.putNow (d.time.now + left) with cmd := none } } : Dev).fireAlarm).complete
        e stDone uTime (usOf (us + slewTakes left rate)))) ∧
  (∀ (s : State) (path : Path) (v : Word), path.wf = true →
    let d := s.dev
    let d0 := d.entered path
    (d.canWrite path .time 0x38 →
      Takes (.alarmArm path v) s fun t => t = ({ d0 with time := { d.time with
        alarmNs := pack [(fld v 0 30, 0, 30), (b2n (bit d.time.alarmNs 30 && !bit v 30), 30, 1), (b2n (bit v 31), 31, 1)], alarmOut := false } } : Dev).refreshPins.wrote path) ∧
    (d.canWrite path .time 0x1C → bit d.time.ctrl 8 = true → d.time.incPend = true →
      Takes (.timeIncFracWrite path v) s fun t => t = ({ d0 with time := { d.time with
        incInt := BitVec.ofNat 40 (d.time.incHold.toNat * 2 ^ 32 + v.toNat), incPend := false, incFresh := d.time.incFresh || d.time.srcInt } } : Dev).wrote path) ∧
    (d.canWrite path .time 0x00 → fld v 5 2 = fld d.time.ctrl 5 2 →
      Takes (.timeCtrlWrite path v) s fun t => t = ({ d0 with time := { d.time with
        ctrl := merge 0x1FF d.time.ctrl v, incRef := (nominalRef (fld v 5 2)).getD d.time.incRef, incCalRef := false } } : Dev).wrote path) ∧
    (d.canRead path .time 0x08 →
      Takes (.timeSecLoRead path) s fun t => t = ({ d0 with time := { d.time with
        snapHi := BitVec.ofNat 16 (d.time.sec.toNat / 2 ^ 32), snapNs := d.time.ns, snapFrac := BitVec.ofNat 16 (d.time.frac.toNat / 2 ^ 24)
        snapQ := d.time.quality } } : Dev).returns path 0x280008 (BitVec.ofNat 32 d.time.sec.toNat)))

/-- A valid PPS edge of a disciplined, locked counter records its phase error, slews it away and counts towards LOCKED; in UNSET,
or beyond STEP_LIMIT, it steps the counter by it (R506, R507, R509). A lost PPS takes LOCKED to HOLDOVER (R506, R509).
The counter's source follows REF_OK (R502;
that its return comes in two steps is the model's, assumption 85); the coarse period is measured over 64 s of discipline (R505); in HOLDOVER the
bound grows each second by the drift that TIME_SLEW states (R510, R518); PPS_OUT rises with a new second and falls after its width
(R515); an alarm that is due fires (R516). -/
def Obligations.PpsAndSourcesSteerTheCounter : Prop :=
  (∀ (s : State) (half : Nat),
    let d := s.dev
    let t0 := d.time
    let c := t0.now - half * 2 ^ 39
    let e := phaseErr c
    let lim : Int := max 1 (fld t0.stepLimit 0 30)
    d.ust uTime = .running → t0.cmd = none →
    (t0.edgeValid c = true → bit t0.ctrl 0 = true →
      (t0.quality = qLocked → e.natAbs ≤ lim.natAbs * 2 ^ 40 →
        Takes (.ppsEdge half) s fun t => t = { d with time := t.time, hps := t.hps, out := t.out } ∧
          t.time.now = t0.now ∧ t.time.ppsErr = satS32 (nearNs e) ∧ t.time.lastEdge = c ∧ t.time.ppsOk = true ∧
          t.time.firstEdge = false ∧ t.time.slewing = some (-e, t0.rate) ∧ t.time.lockCount = min 4 (t0.lockCount + 1) ∧
          t.time.quality = (if 4 ≤ t0.lockCount + 1 then qLocked else qAcquiring)) ∧
      (t0.quality = qUnset →
        Takes (.ppsEdge half) s fun t => (bit t0.alarmNs 31 = false → t = { d with time := t.time, hps := t.hps, out := t.out }) ∧
          t.time.ppsErr = satS32 (nearNs e) ∧ t.time.steps = satInc t0.steps ∧ t.time.slewing = none ∧
          t.time.now = (t0.now - e) % (secUnit * 2 ^ 48) ∧ t.time.lastEdge = c - e) ∧
      (t0.quality ≠ qUnset → lim.natAbs * 2 ^ 40 < e.natAbs →
        Takes (.ppsEdge half) s fun t => (bit t0.alarmNs 31 = false → t = { d with time := t.time, hps := t.hps, out := t.out }) ∧
          t.time.ppsErr = satS32 (nearNs e) ∧ t.time.steps = satInc t0.steps ∧ t.time.slewing = none ∧ t.time.lockCount = 0 ∧
          (t0.quality ≠ qFreerun → t.time.quality = qAcquiring) ∧ t.time.now = (t0.now - e) % (secUnit * 2 ^ 48) ∧ t.time.lastEdge = c - e)) ∧
    (t0.ppsOk = true → t0.quality = qLocked →
      Takes .ppsLost s fun t => t = { d with time := t.time, hps := t.hps, out := t.out } ∧
        t.time.quality = qHoldover ∧ t.time.ppsOk = false ∧ t.time.firstEdge = true ∧ t.time.lockCount = 0 ∧ t.time.now = t0.now)) ∧
  (∀ s : State,
    let d := s.dev
    let t0 := d.time
    d.ust uTime = .running →
    (t0.srcInt = false → t0.quality ≠ qUnset →
      Takes .refLost s fun t => t = { d with time := t.time, hps := t.hps, out := t.out } ∧ t.time.srcInt = true ∧ t.time.refOk = false ∧
        t.time.quality = qFreerun ∧ t.time.now = t0.now) ∧
    (fld t0.ctrl 5 2 ≠ 0 →
      (t0.refOk = false → Takes .refReturn s fun t => t = { d with time := { t0 with refOk := true } }) ∧
      (t0.refOk = true → bit t0.ctrl 7 = true → t0.srcInt = true →
        Takes .refReturn s fun t => t = { d with time := t.time, hps := t.hps, out := t.out } ∧ t.time.srcInt = false ∧ t.time.refOk = true)) ∧
    (∀ c0 f0, t0.calStart = some (c0, f0) → t0.quality = qLocked → t0.calBad = false →
      Takes .coarseCalibration s fun t => t = { d with time := { t0 with
        coarse := c0 + 0x200000, coarseAcc := 0, calStart := some (c0 + 0x200000, t0.now), calBad := t0.adjusting, calSlew := 0, cal := BitVec.ofInt 32 ((t0.now - f0 - t0.calSlew + 2 ^ 44) / 2 ^ 45), calValid := true } }) ∧
    (t0.quality = qHoldover →
      Takes .holdoverTick s fun t => t = { d with time := { t0 with
        holdover := BitVec.ofNat 32 (min (t0.holdover.toNat + fld t0.slewReg 16 16 * 10) 0xFFFFFFFE) } }) ∧
    (bit t0.ppsOut 0 = true → t0.quality ≠ qUnset → t0.ppsSecond ≠ t0.sec →
      Takes .ppsOutPulse s fun t => t = Dev.refreshPins { d with time := { t0 with ppsLevel := true, ppsSecond := t0.sec }, out := d.out ++ [.ppsOut true] }) ∧
    (t0.ppsLevel = true →
      Takes .ppsOutFall s fun t => t = Dev.refreshPins { d with time := { t0 with ppsLevel := false }, out := d.out ++ [.ppsOut false] }) ∧
    (t0.alarmDue = true →
      Takes .alarmFire s fun t => ∃ e, t = Dev.refreshPins e ∧
        ({ d with time := { t0 with alarmNs := setBit (setBit t0.alarmNs 31 false) 30 true, alarmOut := true, alarmRang := true } } : Dev).Events e))

/-- The time unit sleeps at a coarse edge, holding what it needs to come back, and returns at another with the fine time that the
coarse count gives (R511); a parity failure takes it to FAULTED on the internal oscillator (R20). -/
def Obligations.TimeAcrossSleepAndFault : Prop :=
  ∀ (s : State) (c : BitVec 48),
    let d := s.dev
    (d.isAsked uTime = true → 3 ≤ d.sleepMode → d.ust uTime = .running → (∃ u, u ≠ uTime ∧ u ∈ d.pwr.asked) →
      Takes (.deepEntryC0 c) s fun t => t.ust uTime = .asleep ∧ (t.unit uTime).prior = .running ∧ t.time.coarse = c ∧
        t.time.slept = some { c0 := c, f0 := d.time.now.toNat, cal := d.time.cal, slewReg := d.time.slewReg, holdover := d.time.holdover
                              quality := d.time.quality, alarmSec := d.time.alarmSec, alarmNs := d.time.alarmNs, alarmAt := d.time.alarmCount c, slew := d.time.cmd }) ∧
    (∀ r, d.time.slept = some r → d.pwr.phase = .waking → d.ust uTime = .asleep → (d.unit uTime).prior = .running →
      d.time.calValid = true → r.quality = qLocked → d.time.capPps = none →
      Takes (.wakeReloadC1 c) s fun t => t.ust uTime = .running ∧ t.time.slept = none ∧ t.time.quality = qHoldover ∧ t.time.coarse = c ∧
        t.time.now = ((r.f0 + (c - r.c0).toNat * r.cal.toNat * 2 ^ 24 : Nat) : Int) % (secUnit * 2 ^ 48)) ∧
    (d.ust uTime = .running → d.time.cmd = none →
      Takes .timeUnitParityFault s fun t =>
        t = { d with time := t.time, units := t.units, glb := t.glb, mblk := t.mblk, hps := t.hps, out := t.out } ∧
        t.ust uTime = .faulted ∧ t.time.srcInt = true ∧ t.time.incInt = 0x0500000000 ∧ t.time.slewing = none ∧
        t.glb.lastUnit = BitVec.ofNat 16 uTime)

/-! ### The Store -/

/-- STORE_IMAGE joins the queue of the Store's jobs, and one that removes an image goes on to erase the other catalogue half
(R152, R413); VAULT_WRITE and VAULT_READ wait for the index (R162); with it a deletion is ready to be programmed (R159), and a read
gives the current copy's data and header (R415).
The Store's work goes on as its erases and programs complete: a library unit is erased and counted (R149, R152), an image that
reads back stands in its units (R152), a vault record is appended at the head and its VAULT_WRITE completes, with NO_ROOM where the vault
is full by then (R158, R159, R161, R162), what waited for it goes on, the index
of the vault is there (R162), and a log unit whose records are all dead is erased (R160). -/
def Obligations.StoreDoesItsWork : Prop :=
  (∀ (s : State) (p q : Nat) (x : Desc),
    let d := s.dev
    let iss := Issuer.ring p q
    let e := d.nextExec
    let vmask := [(1, 0xFFFF0000), (2, 0xFFFF0000)] ++ resFrom 5
    let n := fld (dword x 2) 0 16
    d.storeDead = false → d.pllDead 0 = false →
    (d.mayStart iss x 0x31 false false ([(2, 0xFFFFFFFC), (3, 0xFFFFFFFF), (4, 0xFFFFFFFF), (5, 0xFFFFFFFF)] ++ resFrom 6) →
      fld (dword x 2) 0 2 = 2 → (d.part p).storeWrite = true →
      (∀ j r, d.store.jobs = j :: r → j.phase = .programming →
        Takes (.storeImage iss x) s fun t => d.Executes { d with store := { d.store with
          jobs := d.store.jobs ++ [{ exec := some e, iss := iss, desc := x, phase := .waiting }] } } t iss x .store) ∧
      (∀ c, d.store.jobs = [] → d.store.ready = true → d.catEntry (dword x 1) = some c → (d.part p).slot c.keySlot.toNat = true →
        Takes (.storeImage iss x) s fun t => d.Executes { d with store := { d.store with
          jobs := [{ exec := some e, iss := iss, desc := x, phase := .eraseHalf d.otherHalf }] } } t iss x .store)) ∧
    (d.mayStart iss x 0x32 false false vmask → vaultIdOk x = true → n ≤ 4032 → (n ≠ 0 → badRange iss (dqword x 3).toNat n = false) →
      (d.store.vaultReady = false →
        Takes (.vaultWrite iss x) s fun t => d.Executes { d with store := { d.store with
          vjobs := d.store.vjobs ++ [{ exec := e, iss := iss, desc := x, write := true, readOk := true, phase := .waiting }] } } t iss x .vault) ∧
      (d.store.vaultReady = true → n = 0 → d.store.vjobs = [] → (∀ r, d.storeNv.current (vaultId x) = some r → d.vaultOk iss r.2.owner = true) →
        d.vaultRoom (vaultId x) 0 = true →
        Takes (.vaultWrite iss x) s fun t => d.Executes { d with store := { d.store with
          vjobs := [{ exec := e, iss := iss, desc := x, write := true, readOk := true, phase := .ready }] } } t iss x .vault)) ∧
    (∀ u r, d.mayStart iss x 0x33 false false vmask → vaultIdOk x = true → badRange iss (dqword x 3).toNat n = false →
      d.store.vaultReady = true → d.store.vjobs = [] → d.storeNv.current (vaultId x) = some (u, r) → d.vaultOk iss r.owner = true →
      Takes (.vaultRead iss x true) s fun t =>
        d.Answered d t iss x stDone uStore (pack64 [(r.length.toNat, 0, 16), (r.owner.toNat, 16, 8), (r.seq.toNat, 32, 32)]) ∧
        ∃ l, t.out = ((d.start iss x).putHostData e iss (dqword x 3).toNat (r.data.take n)).out ++ l)) ∧
  (∀ s : State,
    let d := s.dev
    (∀ j rest u l, d.storeWrites = true → d.store.jobs = j :: rest → j.phase = .erasing l → u ∈ l.take 8 → l.erase u ≠ [] → u < 2048 →
      Takes (.storeEraseDone u) s fun t =>
        t = { d with
          storeNv := { d.storeNv with lib := d.storeNv.lib.keep fun k => k / 65536 != u }
          store := { d.store with
            work := { d.store.work with erases := d.store.work.erases.set 0 u (d.store.work.erases.get 0 u + 1) }
            jobs := { j with phase := .erasing (l.erase u) } :: rest }
          tele := { d.tele with erases := satInc d.tele.erases } }) ∧
    (∀ j rest, d.storeWrites = true → d.store.jobs = j :: rest → j.phase = .programming →
      Takes (.storeProgramDone true) s fun t =>
        t = { d with
          storeNv := { d.storeNv with lib := d.storeNv.lib.setList 0xFF (65536 * j.first) j.image }
          store := { d.store with jobs := { j with phase := .eraseHalf d.otherHalf } :: rest } }) ∧
    (∀ j d1, d.storeWrites = true → d.store.jobs = [] → d.store.vjobs.find? (fun j => j.phase == .ready) = some j →
      d.storeNv.current (vaultId j.desc) = none → d.vaultRoom (vaultId j.desc) (fld (dword j.desc 2) 0 16) = true →
      d.vaultAppend (mkVault (vaultId j.desc) (vaultOwner j.iss) 1 (j.data.take (fld (dword j.desc 2) 0 16))) = some d1 →
      Takes (.storeProgramDone true) s fun t => t = (d1.endVault j.exec stDone 1).resumeVault) ∧
    (∀ j, d.storeWrites = true → d.store.jobs = [] → d.store.vjobs.find? (fun j => j.phase == .ready) = some j →
      d.vaultRoom (vaultId j.desc) (fld (dword j.desc 2) 0 16) = false →
      Takes (.storeProgramDone true) s fun t => t = (d.endVault j.exec stNoRoom 0).resumeVault) ∧
    (d.cfg.doneReleased = true → d.store.vaultReady = false → d.ust uStore ≠ .faulted → d.pllDead 0 = false → (∀ j ∈ d.store.vjobs, j.phase ≠ .waiting) →
      Takes .vaultIndexBuilt s fun t => t = { d with store := { d.store with
        vaultReady := true, vjobs := d.granted uStore (fun j => j.iss) d.store.vjobs } }) ∧
    (∀ u, d.storeWrites = true → d.store.vaultReady = true → d.erasedLog < 2 → d.storeNv.keeps u = [] →
      argMin (fun u => ((((d.storeNv.liveRecords.filter fun e => e.1 == u).map fun e => e.2.size).sum : Nat) : Int))
        (((List.range 60).map fun i => 1988 + i).filter fun u =>
          u != d.storeNv.head && !(d.storeNv.log.get [] u).isEmpty && !d.store.work.worn.contains u) = some u →
      Takes .vaultCompaction s fun t =>
        t = ({ d with storeNv := { d.storeNv with log := d.storeNv.log.set [] u [] } } : Dev).countErase u) ∧
    (d.ust uStore = .running → d.store.jobs = [] → d.store.vjobs = [] →
      Takes .storeParityFault s fun t => t = (d.fault uStore stInternal 0).resumeRake))

/-! ### Power, clocks and background services -/

/-- WAIT with a mode samples it and asks background services first (R418, R525, R526); a unit that accepts leaves the list of those
asked, a bank restoring the slot that a self-test borrowed (R332, R526) and a host port whose LTR messages are enabled sending its one (R533),
one that refuses, or gives no answer in time, is noted with its reason (R526, R528, R546).
An enabled wake source
starts the wake and is recorded, or is kept for the drop while the device still enters (R529, R531); the
end of the wake brings the device back to AWAKE and answers the WAIT (R533). -/
def Obligations.SleepAndWakeStepByStep : Prop :=
  (∀ (s : State) (iss : Issuer) (x : Desc) (u : Nat),
    let d := s.dev
    let mode := fld d.pwr.mode 0 3
    d.pllDead 0 = false →
    (d.mayStart iss x 0x50 false false ([(1, 0xFFFF0000), (2, 0xFFFF0000)] ++ resFrom 3) → dword x 1 = 0 → 1 ≤ mode → mode ≤ 4 →
      (d.part iss.reader).power = true → fld (dword x 2) 0 16 = 0xFFFF → d.pwr.phase = .awake → d.ust 0 = .running → d.ust uBgs = .running →
      Takes (.wait iss x) s fun t => d.Executes { d with time := { d.time with alarmRang := false }, pwr := { d.pwr with
        phase := .entering, step := 1, modeIn := BitVec.ofNat 3 mode, keepIn := d.pwr.keep, resleepIn := BitVec.ofNat 16 (fld d.pwr.mode 8 16)
        waitExec := some d.nextExec, stopped := [], early := none, asked := [uBgs], refused := [] } } t iss x .wait) ∧
    (u < 65536 → d.isAsked u = true → (∃ v, v ∈ d.pwr.asked.erase u) →
      (d.stopOk u = true → (unitClass u = 0x8 → u = uCfgPort) → unitClass u ≠ 0x9 → unitClass u ≠ 0xC →
        Takes (.unitStopAccept u) s fun t =>
          let ltr := if unitClass u = 5 ∧ (d.sleepMode = 2 ∨ d.sleepMode = 3) ∧ d.ust u = .running ∧
            (d.hp (unitIdx u)).conf.devCtl2.getLsbD 10 = true then [Output.ltr (unitIdx u) (if d.sleepMode = 2 then 20 else 400)] else []
          t = { if unitClass u = 2 then d.modBank (unitIdx u) Bank.abortBorrow else d with out := d.out ++ ltr, pwr := { d.pwr with
            asked := d.pwr.asked.erase u, stopped := if d.gates u then d.pwr.stopped ++ [u] else d.pwr.stopped } }) ∧
      (d.mayRefuse u = true → u ≠ uStore →
        Takes (.unitStopRefuse u) s fun t => t = { d with pwr := { d.pwr with
          asked := d.pwr.asked.erase u, refused := d.pwr.refused ++ [(u, 0)] } })) ∧
    (d.pwr.phase = .entering → d.pwr.asked.filter mayTimeout ≠ [] → (d.pwr.asked.filter fun u => !mayTimeout u) ≠ [] →
      Takes .pwrStopTimeout s fun t => t = { d with pwr := { d.pwr with
        asked := d.pwr.asked.filter fun u => !mayTimeout u
        refused := d.pwr.refused ++ (d.pwr.asked.filter mayTimeout).map fun u => (u, 1) } })) ∧
  (∀ (s : State) (code : BitVec 4) (u unit us : Nat) (st : Straps) (cells : StartCells),
    let d := s.dev
    unit < 65536 → cells.wf = true →
    (bit d.pwr.wakeEn (code.toNat - 1) = true → d.wakeSource code.toNat unit = some u →
      (d.pwr.phase = .asleep → d.sleepMode ≤ 3 →
        Takes (.wakeEvent code unit st cells) s fun t => t = { d with pwr := { d.pwr with
          phase := .waking, wakeCause := pack [(code.toNat, 0, 8), (u, 16, 16)], wakeCode := BitVec.ofNat 8 code.toNat
          wakeUnit := BitVec.ofNat 16 u, early := none } }) ∧
      (d.pwr.phase = .entering → d.pwr.early = none →
        Takes (.wakeEvent code unit st cells) s fun t => t = { d with pwr := { d.pwr with early := some (code, u, st, cells) } })) ∧
    (∀ e x, d.pwr.phase = .waking → d.sleepMode = 1 → d.pwr.waitExec = some e → d.exec e = some x →
      (∀ y ∈ d.running, ∀ z, y.2.kind ≠ .waitRake z) →
      Takes (.wakeComplete us) s fun t => t.pwr.phase = .awake ∧ t.pwr.step = 0 ∧ t.pwr.modeIn = 0 ∧ t.pwr.stopped = [] ∧
        t.pwr.waitExec = none ∧ t.exec e = none ∧ ∀ v ∈ allUnits, v ≠ uTime → (d.unit v).prior ≠ .asleep → t.ust v ≠ .asleep))

/-- A sleeping pan domain wakes on its first access, its units return when it is ready, and an idle one sleeps again after RESLEEP
(R48, R536).
The power-fail warning saves the persistent elements of every pan and starts no further non-volatile write (R130, R615); its
return waits 1 ms (R616), after which a device that it stopped starts up again (R616). -/
def Obligations.DomainsAndPowerFail : Prop :=
  (∀ (s : State) (k : Nat),
    let d := s.dev
    k < 64 → d.pwr.phase = .asleep →
    (d.sleepMode ≤ 2 → d.domSleeps k = true → d.pwr.waking.contains k = false →
      Takes (.domainWakeOnAccess k) s fun t => t = { d with pwr := { d.pwr with waking := d.pwr.waking ++ [k] } }) ∧
    (d.sleepMode = 2 → d.pwr.waking.contains k = true → d.ust (uPan k) = .asleep → (d.unit (uPan k)).prior = .running →
      Takes (.domainReady k) s fun t => t.ust (uPan k) = .running ∧ (t.pan k).shut = false ∧
        t.pwr = { d.pwr with waking := d.pwr.waking.erase k, slept := d.pwr.slept.erase k, awoken := d.pwr.awoken ++ [k] }) ∧
    (d.sleepMode = 1 → d.pwr.resleepIn ≠ 0 → d.pwr.awoken.contains k = true → d.portDrainedOk k = true →
      (d.ust (uPan k) = .running → (d.pan k).qreq = true ∧ d.qackHigh k = true) →
      Takes (.resleepTimeout k) s fun t => t = { d with pwr := { d.pwr with awoken := d.pwr.awoken.erase k, slept := d.pwr.slept ++ [k] } })) ∧
  (∀ (s : State) (st : Straps) (cells : StartCells),
    let d := s.dev
    cells.wf = true →
    (d.pfw.asserted = false → d.pfw.returnWait = false → d.cfg.phase = .user → d.pwr.phase = .awake →
      Takes .pfwAssert s fun t => t = d.pfwFalls.pfwSave ∧ d.pfwFalls.pfw = { d.pfw with asserted := true, returnWait := false } ∧
        t.cfg.pfwStops = true ∧ t.pfw.asserted = true) ∧
    (d.pfw.asserted = true → Takes .pfwReturn s fun t => t = { d with pfw := { d.pfw with asserted := false, returnWait := true } }) ∧
    (d.pfw.returnWait = true → d.cfg.phase = .user → d.pwr.pfwNap = false → d.pwr.phase = .awake → d.cfg.pfwStops = true →
      Takes (.pfwReturnTimeout st cells) s fun t => t.cfg.cause = .cold ∧ t.fuse.mirror = d.fuses ∧ t.running = [] ∧
        t.time = { d.time with cmd := none }))

/-- A PLL that loses lock gates its outputs, counts and faults (R541); PLLs 0 to 2 restart at their relock, and what stood still goes on (R541); a quad's PLL and
the crystal note their loss (R538, R548); a measurement starts with its register and ends with its count (R550). -/
def Obligations.ClocksNoteTheirLosses : Prop :=
  ∀ (s : State) (path : Path) (k : Nat) (v : Word) (count : Nat),
    let d := s.dev
    (k < 16 → bit (d.pll k).cfg 0 = true → (d.pll k).stopped = false →
      ((d.pll k).locked = true → d.ust (uClk k) = .running →
        Takes (.pllLossOfLock k) s fun t =>
          t = { d with clk := t.clk, units := t.units, glb := t.glb, mblk := t.mblk, hps := t.hps, out := t.out } ∧
          t.pll k = { d.pll k with locked := false, gated := true, losses := satInc (d.pll k).losses } ∧ (∀ j, j ≠ k → t.pll j = d.pll j) ∧
          t.clk.err = d.clk.err ||| BitVec.ofNat 18 (2 ^ k) ∧ t.ust (uClk k) = .faulted ∧ t.glb.lastUnit = BitVec.ofNat 16 (uClk k)) ∧
      ((d.pll k).locked = false → k < 3 →
        Takes (.pllRelock k) s fun t => ∃ e, t = Dev.afterRelock e k ∧
          e = { d with clk := { d.clk with plls := e.clk.plls } } ∧ e.pll k = { d.pll k with locked := true, gated := false } ∧
          ∀ j, j ≠ k → e.pll j = d.pll j)) ∧
    (k < 24 → d.clk.qpll.getLsbD k = true →
      Takes (.quadPllLossOfLock k) s fun t => t = { d with clk := { d.clk with
        qpll := d.clk.qpll &&& ~~~(BitVec.ofNat 24 (2 ^ k)), err := d.clk.err ||| 0x20000 } }) ∧
    (d.clk.lfXtal = true →
      Takes .lfCrystalTimeout s fun t => t = { d with clk := { d.clk with lfXtal := false, lfFail := true, err := d.clk.err ||| 0x10000 } }) ∧
    (path.wf = true → d.canWrite path .clk 0x28 →
      Takes (.clkMeasStart path v) s fun t => t = ({ d.entered path with clk := { d.clk with
        measSel := v &&& 0x37F, measBusy := true, measCount := 0 } } : Dev).wrote path) ∧
    (d.clk.measBusy = true →
      Takes (.clkMeasDone count) s fun t => t = { d with clk := { d.clk with
        measBusy := false, measCount := pack [(min count 0x7FFFFFFF, 0, 31), (1, 31, 1)] } }) ∧
    (d.bgsRuns = true → bit d.bgs.ctrl 3 = true → bit d.clk.ctrl 0 = true → d.time.refOk = true →
      Takes .calibration s fun t => t = { d with clk := { d.clk with trimmed := true } })

/-- The margin scan reinforces a low-margin frame and goes on (R140, R554); the signature check of a committed pan and a deferred
verification show their result (R135, R137, R553); pan self-test holds its pan in GSR and leaves its result (R555, R567). -/
def Obligations.BackgroundServicesCheckPans : Prop :=
  ∀ (s : State) (p u rel : Nat),
    let d := s.dev
    d.bgsRuns = true →
    (bit d.bgs.ctrl 2 = true → d.nvStopped = false → devUnit d.bgs.refreshPos = (u, rel) → d.scansShadow u = false →
      d.bgs.refreshPos + 1 < scanFrames →
      Takes (.marginCheck true false) s fun t =>
        t = { d with nv := t.nv, pans := t.pans, bgs := { d.bgs with
          refreshCount := d.bgs.refreshCount + 1, refreshShadow := false, refreshPos := d.bgs.refreshPos + 1 } } ∧
        t.nvu u = { d.nvu u with refresh := satInc (d.nvu u).refresh } ∧ (t.pan u).lowMargin = true) ∧
    (bit d.bgs.ctrl 1 = true → d.bgs.deferTodo = [] → d.firstFree d.bgs.sigQueue = some p → d.checkable p = true → d.signed p = true →
      Takes (.signatureCheck none) s fun t => t = ({ d with bgs := { d.bgs with sigQueue := d.bgs.sigQueue.erase p } } : Dev).modPan p fun x => { x with verified := true }) ∧
    (d.firstFree d.bgs.deferTodo = some p → d.bgs.deferTodo.erase p ≠ [] → d.checkable p = true → d.signed p = true →
      Takes (.deferredVerify none) s fun t => t = ({ d with bgs := { d.bgs with
        deferTodo := d.bgs.deferTodo.erase p, deferCount := d.bgs.deferCount + 1 } } : Dev).modPan p fun x => { x with verified := true }) ∧
    (bit d.bgs.ctrl 5 = true → d.bgs.pstRun = none → (List.range 64).find? (fun q => decide (d.bgs.pstNext ≤ q) && d.mayTest q) = some p →
      Takes .panSelftestStart s fun t => t = { d with bgs := { d.bgs with pstNext := p + 1, pstRun := some p, pstDemand := false }, pans := t.pans, freeCtr := t.freeCtr } ∧
        (t.pan p).selfTest = true) ∧
    (bit d.bgs.ctrl 5 = true → d.bgs.pstRun = some p → d.bgs.pstDemand = false →
      Takes (.panSelftestDone none) s fun t => t = { d with bgs := { d.bgs with
        pstRun := none, pstLast := BitVec.ofNat 6 p, pstLastFail := false }, pans := t.pans, freeCtr := t.freeCtr } ∧
        (t.pan p).selfTest = false)

/-- A sample gives every sensor and monitor its value, and sets the conditions that fuse programming and the pin banks need (R560, R611,
R617). TELE_CTRL takes its field, and CLEAR resets the extremes and counts (R569). The end of an activity window makes its counts the last
ones (R561). BGS_WEAR_SIZE bounds every bucket (R558). TEST_PRBS_CTRL starts the checker, and a self-test that names no unit is REFUSED (R604,
R605). Averages, power estimates and held cycles are free values (assumption 15). -/
def Obligations.TelemetryAndTestRegistersAct : Prop :=
  ∀ (s : State) (temps volts : List (BitVec 16)) (ok : BitVec 16) (path : Path) (v : Word), path.wf = true →
    let d := s.dev
    let d0 := d.entered path
    let k := d.freeCtr
    (temps.length = 72 → volts.length = 12 →
      Takes (.telemetrySample temps volts ok) s fun t => ∃ e : Dev,
        e = { d with tele := e.tele, fuse := e.fuse, pins := { d.pins with vccioOk := ok }, freeCtr := e.freeCtr, hps := e.hps, out := e.out } ∧
        e.fuse = { d.fuse with condOk := e.fuse.condOk } ∧
        (∀ i, i < 72 → (e.tele.sensors.get {} i).cur = temps.getD i 0) ∧ (∀ i, i < 12 → (e.tele.sensors.get {} (72 + i)).cur = volts.getD i 0) ∧
        t = if ok = d.pins.vccioOk then e else e.refreshPins) ∧
    (d.canWrite path .tele 0x00 → Takes (.teleClear path v) s fun t =>
      t = ({ d0 with tele := { d0.tele with
        ctrl := merge 0x1FF d0.tele.ctrl v
        sensors := if bit v 9 then d0.tele.sensors.map fun e => (e.1, { e.2 with max := 0, min := 0, n := 0, exc := 0 }) else d0.tele.sensors } } : Dev).wrote path) ∧
    Takes .activityWindowEnd s (fun t => t = { d with
      freeCtr := k + 1 + 256
      tele := { d.tele with
        panLast := d.tele.panNow.map fun e => (e.1, { e.2 with w1 := satU32 (e.2.cycles / 1024), cycles := 0, w2 := Config.freeWord (k + e.1) &&& 0xFFFF })
        panNow := [], bankLast := d.tele.bankNow, bankNow := [] } }) ∧
    (d.canWrite path .bgs 0x20 → Takes (.wearSizeWrite path v) s fun t => ∃ e, t = Dev.wrote e path ∧
      e = { d0 with bgs := { d0.bgs with wearSize := v &&& 0x7FFFFFFF }, rake := { d0.rake with buckets := e.rake.buckets } } ∧
      ∀ p, p < 64 → e.tokens p = max (min (-(e.bucketSize : Int)) (d.tokens p)) (min e.bucketSize (d.tokens p))) ∧
    (d.canWrite path .test 0x0C → d.testClosed = false → bit v 2 = true → bit d.test.prbsCtrl 2 = false →
      Takes (.prbsEnable path v) s fun t =>
        t = Dev.wrote { d0 with test := { d0.test with
          prbsCtrl := v &&& 0xFF07, prbsErr := 0
          prbsLock := if (d0.hp (fld v 0 2)).loop.isSome then BitVec.ofNat 32 (fld v 8 8) else 0 } } path) ∧
    (d.canWrite path .test 0x04 → d.testClosed = false → bit v 31 = true → d.test.bistBusy = false →
      (unitExists (fld v 0 16) = false → Takes (.bistStart path v) s fun t =>
        t = ({ d0 with test := { d0.test with bistSel := v &&& 0xFFFF, bistResult := bistWord false stRefused 0 } } : Dev).wrote path) ∧
      (unitExists (fld v 0 16) = true → d.inPart 4 (fld v 0 16) = true → unitClass (fld v 0 16) = 2 → d.ust (fld v 0 16) = .running →
        Takes (.bistStart path v) s fun t => ∃ e, t = Dev.wrote e path ∧
          e = { d0.modBank (unitIdx (fld v 0 16)) (fun b => { b.abortBorrow with stNext := 0 }) with
            bgs := { d0.bgs with bstRun := some (unitIdx (fld v 0 16)), bstFail := none }
            test := { d0.test with bistSel := v &&& 0xFFFF, bistBusy := true, bistResult := 0 } }))

/-! ### Host ports -/

/-- A trained link takes an IDLE host port to RUNNING, and a RUNNING one reports what its link has trained to anew (R346, R350); none
trains while PERST_N is low (R346). DL_Down, the fall of PERST_N, Hot Reset and FLR take the port back to IDLE and, with nothing of
it executing, its block to reset, the link itself staying at an FLR (R350, R351); a port that sleeps from RUNNING is lost at its
wake, so that it first returns to the state it slept from (R21, R351). The block of a lost port resets once its last orphan has
ended (R351); a parity failure is FAULTED (R20). What a lost port resets beyond the HOST block is the model's (assumption 81). -/
def Obligations.HostPortsComeAndGo : Prop :=
  ∀ (s : State) (p : Nat) (speed : BitVec 3) (w : BitVec 4) (rev : Bool) (pol : Byte), p < 4 →
    let d := s.dev
    let u := uHost p
    let lost := fun (t : Dev) (h : HostPort) =>
      t = { d with units := t.units, hps := t.hps } ∧ t.ust u = .idle ∧ (t.unit u).epoch = nextEpoch (d.unit u).epoch ∧
        t.hp p = h ∧ (∀ q, q ≠ p → t.hp q = d.hp q) ∧ ∀ v, v ≠ u → t.unit v = d.unit v
    let trained := d.modHp p fun h => { h with linkUp := true, speed := speed, width := w, reversed := rev, polarity := pol }
    let fresh := { (d.hp p).cleared with
      table := [], conf := {}, pendBits := [], lostCpl := satAdd (d.hp p).lostCpl ((d.hp p).evHeld.length + (d.hp p).posted.length) }
    (1 ≤ speed.toNat → speed.toNat ≤ 5 → w ∈ [1, 2, 4, 8] → d.mblk.jtagOver = none →
      ((d.hp p).perst = true → Takes (.hostLinkUp p speed w rev pol) s fun t => t = d) ∧
      ((d.hp p).perst = false → d.ust u = .idle → d.cfg.doneReleased = true → (d.hp p).loop = none →
        Takes (.hostLinkUp p speed w rev pol) s fun t => t = trained.putUnit u .running) ∧
      ((d.hp p).perst = false → d.ust u = .running → (d.hp p).linkUp = true →
        Takes (.hostLinkUp p speed w rev pol) s fun t => t = trained)) ∧
    (d.ust u = .running → (d.hp p).linkUp = true → d.executing p = 0 → (d.hp p).reads = [] →
      Takes (.hostLinkDown p) s (fun t => lost t fresh.unlinked) ∧
      ((d.hp p).perst = false → Takes (.perstN ⟨p, false⟩) s fun t => lost t { fresh.unlinked with perst := true }) ∧
      Takes (.hotReset p) s (fun t => lost t fresh.unlinked) ∧
      Takes (.functionLevelReset p) s (fun t => lost t fresh)) ∧
    Takes (.perstN ⟨p, true⟩) s (fun t => t = d.modHp p fun h => { h with perst := false }) ∧
    (d.ust u = .asleep → (d.unit u).prior = .running → (d.hp p).linkUp = true →
      Takes (.hostLinkDown p) s fun t => t = (d.modHp p fun h => { h with lost := true }).modHp p HostPort.unlinked) ∧
    ((d.hp p).orphans = true → d.hasOrphans p = false →
      Takes (.orphansCleared p) s fun t => t = d.modHp p HostPort.cleared) ∧
    (d.ust u = .idle →
      Takes (.hostPortParityFault p) s fun t => t.ust u = .faulted ∧ ((d.noteFault u stInternal).putUnit u .faulted).Events t)

/-- A doorbell of a RUNNING port, whose function takes accesses of its BARs (R343), moves TAIL of its submission ring and restarts a STOPPED one (R359, R364); its CANCEL form discards the
run-ahead and asks for the descriptors it is to complete, where HOST_CTRL.ENABLE lets the port fetch (R356, R363); HEAD of a completion ring or of the event ring moves to what the
host has consumed (R359, R373, R374).
The vector of a ring whose requests were held is sent, with the address and data of its table entry, when HOLDOFF has passed, and
the holdoff runs again; a masked vector, or any vector of a function that is masked or has MSI-X disabled, pends instead, and is
sent when it is unmasked (R343, R344, R376). A port that does not run sends none (R350). -/
def Obligations.DoorbellsAndVectorsMove : Prop :=
  (∀ (s : State) (p q k : Nat) (v : Word), p < 4 → q < 16 → k < 4 →
    let d := s.dev
    let r := (d.hp p).sq q
    d.ust (uHost p) = .running → (d.hp p).conf.serves = true →
    (fld v 16 15 = 0 → (r.st = .running ∨ r.st = .stopped) → r.cancel = 0 →
      (bit v 31 = false → fld v 0 16 < ringSize r.cfg →
        Takes (.sqDoorbell p q v) s fun t => t = d.modSq p q fun s => { s with tail := fld v 0 16, st := .running }) ∧
      (let n := (r.tail + ringSize r.cfg - r.head) % ringSize r.cfg
       let m := min (min (d.hp p).fetchSize n) (min (64 - r.head % 64) (ringSize r.cfg - r.head))
       let a := BitVec.ofNat 64 (ringBase r.baseLo r.baseHi + 64 * r.head)
       n ≠ 0 → (d.hp p).mayFetch = true → (d.hp p).mayAsk = true →
       Takes (.cancelDoorbell p q v) s fun t =>
         t = { d with hps := t.hps, out := d.out ++ [.hostRead p (d.hp p).nextRead a (64 * m)] } ∧
         (t.hp p).sq q = { r.discard with cancel := n, fetching := m } ∧
         (t.hp p).reads.get none (d.hp p).nextRead = some { why := .cancelFetch q r.head m r.discard.gen, addr := a, len := 64 * m, sent := true })) ∧
    (((d.hp p).cq k).headOk v = true → (∀ q, ((d.hp p).sq q).cancel = 0) →
      Takes (.cqDoorbell p k v) s fun t => t = d.modCq p k fun c => { c with head := fld v 0 16 }) ∧
    ((d.hp p).eq.headOk v = true → (d.hp p).eqLost = 0 →
      Takes (.eqDoorbell p v) s fun t => t = d.modHp p fun h => { h with eq := { h.eq with head := fld v 0 16 } }) ∧
    ((d.hp p).eq.headOk v = false → (d.hp p).err ≠ 0 →
      Takes (.eqDoorbell p v) s fun t => t = (d.modHp p fun h => { h with err := h.err ||| 1 }).modHp p fun h => { h with dropBad := satInc h.dropBad })) ∧
  (∀ (s : State) (p k v : Nat), p < 4 → k < 4 → v < 64 →
    let d := s.dev
    let c := (d.hp p).cq k
    let entry := fun n => (d.hp p).table.get {} n
    let i := fld c.cfg 16 6
    let expired := d.modCq p k fun c => { c with holding := true, owed := false }
    let message := fun (e : Dev) => (e.modHp p fun h => { h with pendBits := h.pendBits.set false v false }).emit (.msix p v (entry v).addr (entry v).data)
    (d.hostRuns p = false → Takes (.msixHoldoffExpiry p (16 + k)) s fun t => t = d) ∧
    (d.hostRuns p = true → c.holding = true → c.owed = true →
      ((entry i).masked = false → (d.hp p).conf.sends = true →
        Takes (.msixHoldoffExpiry p (16 + k)) s fun t => t = expired.emit (.msix p i (entry i).addr (entry i).data)) ∧
      ((entry i).masked = true ∨ (d.hp p).conf.sends = false →
        Takes (.msixHoldoffExpiry p (16 + k)) s fun t => t = expired.modHp p fun h => { h with pendBits := h.pendBits.set false i true })) ∧
    (d.hostRuns p = true → (d.hp p).pendBits.get false v = true →
      let unmasked := d.modHp p fun h => { h with table := h.table.modify {} v fun m => { m with masked := false } }
      ((d.hp p).conf.sends = true → Takes (.msixUnmask p v) s fun t => t = message unmasked) ∧
      ((d.hp p).conf.sends = false → Takes (.msixUnmask p v) s fun t => t = unmasked) ∧
      ((entry v).masked = false → (d.hp p).conf.msixOn = true → (∀ j, j < 64 → j ≠ v → (d.hp p).pendBits.get false j = false) →
        Takes (.msixUnmask p 64) s fun t => t = message (d.modConf p fun c => { c with fmask := false }))))

/-- A ring is enabled at its start with the fields written, and disabled once nothing of it executes; its registers follow only while
it is DISABLED: a write of its BASE, or of another field of its CFG than ENABLE, in any other state leaves it and sets HOST_ERR.CFG (R354,
R356); HOST_CTRL takes its fields (R379). -/
def Obligations.RingsAreEnabledAndDisabled : Prop :=
  ∀ (s : State) (p : Nat) (v : Word),
    let d := s.dev
    d.pathOpen (.host p) →
    (∀ q, q < 16 → (d.hp p).orphans = false → ((d.hp p).sq q).st = .disabled → sizeOk v = true → ((d.hp p).cq (fld v 16 2)).enabled = true →
      Takes (.ringEnable p q v) s fun t => t = d.modSq p q fun r =>
        { r with cfg := setBit (merge 0x00031F00 r.cfg (setBit v 0 true)) 0 true, head := 0, tail := 0, st := .running, stopOn := none }) ∧
    (∀ k, k < 4 → (d.hp p).orphans = false → ((d.hp p).cq k).enabled = false → sizeOk v = true →
      Takes (.ringEnable p (16 + k) v) s fun t => t = d.modCq p k fun c =>
        { c with cfg := setBit (merge 0xFF3F1F02 c.cfg (setBit v 0 true)) 0 true, head := 0, tail := 0, phase := true, enabled := true, reserved := 0 }) ∧
    (∀ q, q < 16 → (d.hp p).orphans = false → ((d.hp p).sq q).st = .running → (((d.hp p).sq q).cfg ^^^ setBit v 0 false) &&& 0x00031F00 = 0 →
      (∀ y ∈ d.running, y.2.onRing p q = false) →
      Takes (.ringDisable p q v) s fun t => t = d.modSq p q fun r =>
        { r.discard with cfg := setBit r.cfg 0 false, cancel := 0, after := [], st := .disabled }) ∧
    (let ignored := fun (ring : Nat) => d.modHp p fun h =>
        { h with err := h.err ||| 2, errDesc := if h.err = 0 then pack [(ring, 0, 5), (1, 8, 3), (0, 16, 16)] else h.errDesc }
      let bases := fun (ring lo hi : Nat) => d.writeHost p lo v = ignored ring ∧ d.writeHost p hi v = ignored ring
      (∀ q, q < 16 → ((d.hp p).sq q).st ≠ .disabled → bases q (0x100 + 4 * q) (0x140 + 4 * q) ∧
        ((((d.hp p).sq q).cfg ^^^ v) &&& 0x00031F00 ≠ 0 →
          Takes (.ringEnable p q v) s (fun t => t = ignored q) ∧ Takes (.ringDisable p q v) s fun t => t = ignored q)) ∧
      (∀ k, k < 4 → ((d.hp p).cq k).enabled = true → bases (16 + k) (0x200 + 4 * k) (0x210 + 4 * k) ∧
        ((((d.hp p).cq k).cfg ^^^ v) &&& 0xFF3F1F02 ≠ 0 →
          Takes (.ringEnable p (16 + k) v) s (fun t => t = ignored (16 + k)) ∧
          Takes (.ringDisable p (16 + k) v) s fun t => t = ignored (16 + k))) ∧
      ((d.hp p).eq.enabled = true → bases 20 0x240 0x244)) ∧
    ((bit (d.hp p).ctrl 0 = false ∨ bit v 0 = true) →
      Takes (.hostCtrlEnable p v) s fun t => t = d.modHp p fun h => { h with ctrl := merge 0xFFFF000F h.ctrl v })

/-- A RUNNING ring with new descriptors reads them, up to 8 at once, as the maximum read request size allows, and not across its end
(R347, R360); the data of the read joins the
run-ahead (R644); a held COPY whose source a window allows is read ahead (R365). Each read is one memory read of the host, of which 256 may be outstanding
(R644); one that came while they were leaves the port as another completes. With orphans no ring fetches or reads ahead (R351). -/
def Obligations.DescriptorsAreFetchedAhead : Prop :=
  ∀ (s : State) (p q : Nat), p < 4 → q < 16 →
    let d := s.dev
    let h := d.hp p
    let r := h.sq q
    let size := ringSize r.cfg
    (h.orphans = true → Takes (.descriptorFetch p q) s (fun t => t = d) ∧ Takes (.preread p q) s fun t => t = d) ∧
    (d.hostRuns p = true → h.mayFetch = true → r.st = .running → r.cancel = 0 →
    (d.gated (uHost p) = false → bit h.ctrl 1 = true → r.fetching = 0 → r.held.length < 32 →
      let i := (r.head + r.held.length) % size
      let left := (r.tail + size - i) % size
      let n := min (min h.fetchSize left) (min (32 - r.held.length) (min (size - i) (64 - i % 64)))
      let a := ringBase r.baseLo r.baseHi + 64 * i
      left ≠ 0 → h.inFlight < 256 →
      Takes (.descriptorFetch p q) s fun t =>
        t = { d with hps := t.hps, out := d.out ++ [.hostRead p h.nextRead (BitVec.ofNat 64 a) (64 * n)] } ∧
        (t.hp p).sq q = { r with fetching := n } ∧ (t.hp p).nextRead = h.nextRead + 1 ∧
        (t.hp p).reads.get none h.nextRead = some { why := .fetch q i n r.gen, addr := BitVec.ofNat 64 a, len := 64 * n, sent := true }) ∧
    (∀ rd i n a bs, h.reads.get none rd = some { why := .fetch q i n r.gen, addr := a, len := 64 * n, sent := true } → bs.length = 64 * n →
      (∀ y ∈ h.reads, ∀ x, y.2 = some x → x.sent = true) →
      Takes (.hostReadCompletion p rd (.data bs)) s fun t =>
        t = { d with hps := t.hps } ∧ (t.hp p).sq q = { r with held := r.held ++ descsOf bs n, fetching := 0 } ∧
        (t.hp p).reads.get none rd = none) ∧
    (∀ rd i n a bs r2 x2, h.reads.get none rd = some { why := .fetch q i n r.gen, addr := a, len := 64 * n, sent := true } → bs.length = 64 * n →
      ({ h with reads := h.reads.set none rd none } : HostPort).inFlight < 256 →
      ((h.reads.set none rd none).findSome? fun y => (y.2.filter fun x => !x.sent).map fun x => (y.1, x)) = some (r2, x2) →
      Takes (.hostReadCompletion p rd (.data bs)) s fun t =>
        t = { d with hps := t.hps, out := d.out ++ [.hostRead p r2 x2.addr x2.len] } ∧ (t.hp p).sq q = { r with held := r.held ++ descsOf bs n, fetching := 0 } ∧
        (t.hp p).reads.get none rd = none ∧ (t.hp p).reads.get none r2 = some { x2 with sent := true }) ∧
    (∀ i x, bit h.ctrl 2 = true →
      (indexed r.held).find? (fun y => h.mayPreread q r ((r.head + y.1) % size) y.2) = some (i, x) → h.preHeld < 65536 →
      Takes (.preread p q) s fun t =>
        let idx := (r.head + i) % size
        let done := (Tab.get [] r.preread idx).length
        let a := (dqword x 3).toNat + done
        let n := min (h.readSpan a ((dword x 7).toNat - done)) (65536 - h.preHeld)
        t = d.askHost p (.preread q idx r.gen) a n))

/-- Each of these reads returns its register and clears what it read, and changes nothing else (R378 for host ports, and the same
access code elsewhere, R10).
A read of the low word of the uptime latches the high word for its reader (R638), and one of the first word of a telemetry record latches
the other three (R561); nothing else changes. -/
def Obligations.ReadsThatClearOrLatch : Prop :=
  (∀ (s : State) (path : Path) (p : Nat), path.wf = true →
    let d := s.dev
    let d0 := d.entered path
    (p < 4 →
      (d.canRead path (.host p) 0x18 → Takes (.hostDropCountRead path p) s fun t =>
        t = (d0.modHp p fun h => { h with dropBad := 0, dropFiltered := 0 }).returns path (hostOff p 0x18) ((d.hp p).dropBad ++ (d.hp p).dropFiltered)) ∧
      (d.canRead path (.host p) 0x1C → Takes (.hostEqLostRead path p) s fun t =>
        t = (d0.modHp p fun h => { h with eqDisabled := 0, eqFull := 0 }).returns path (hostOff p 0x1C) ((d.hp p).eqDisabled ++ (d.hp p).eqFull)) ∧
      (d.canRead path (.host p) 0x24 → Takes (.hostLostCplRead path p) s fun t =>
        t = (d0.modHp p fun h => { h with lostCpl := 0 }).returns path (hostOff p 0x24) (d.hp p).lostCpl)) ∧
    (p < 96 →
      (d.canRead path (.link p) 0x14 → Takes (.linkFecCeRead path p) s fun t =>
        t = (d0.modLink p fun l => { l with fecCe := 0 }).returns path (linkOff p 0x14) (d.link p).fecCe) ∧
      (d.canRead path (.link p) 0x18 → Takes (.linkFecUeRead path p) s fun t =>
        t = (d0.modLink p fun l => { l with fecUe := 0 }).returns path (linkOff p 0x18) (d.link p).fecUe) ∧
      (d.canRead path (.link p) 0x2C → Takes (.linkReplayRead path p) s fun t =>
        t = (d0.modLink p fun l => { l with crcErrs := 0, replays := 0 }).returns path (linkOff p 0x2C) ((d.link p).crcErrs ++ (d.link p).replays)) ∧
      (d.canRead path (.link p) 0x3C → Takes (.linkDropRead path p) s fun t =>
        t = (d0.modLink p fun l => { l with dropLate := 0, dropRx := 0 }).returns path (linkOff p 0x3C) ((d.link p).dropLate ++ (d.link p).dropRx))) ∧
    (p < 24 → d.canRead path (.fport p) 0x34 → Takes (.fportCountRead path p) s fun t =>
      t = (d0.modFport p fun x => { x with txCount := 0, rxCount := 0 }).returns path (fportOff p 0x34) ((d.fport p).rxCount ++ (d.fport p).txCount)) ∧
    (d.canRead path .cfg 0x18 → Takes (.cfgPassCountRead path) s fun t =>
      t = ({ d0 with cfg := { d0.cfg with passCount := 0 } } : Dev).returns path 0x40018 d.cfg.passCount) ∧
    (d.canRead path .cfg 0x1C → Takes (.cfgFramesRead path) s fun t =>
      t = ({ d0 with cfg := { d0.cfg with framesCount := 0 } } : Dev).returns path 0x4001C d.cfg.framesCount) ∧
    (d.canRead path .mgmt 0x10 → Takes (.mgmtCountRead path) s fun t =>
      t = ((d0.modMg .smbus fun m => { m with count := 0 }).modMg .jtag fun m => { m with count := 0 }).returns path 0x2D0010
        ((d0.mg .jtag).count ++ (d0.mg .smbus).count)) ∧
    (d.canRead path .test 0x18 → d.testClosed = false → Takes (.testCfgCountRead path) s fun t =>
      t = ({ d0 with test := { d0.test with cfgCount := 0 } } : Dev).returns path 0x2E0018 d.test.cfgCount)) ∧
  (∀ (s : State) (path : Path), path.wf = true →
    let d := s.dev
    let d0 := d.entered path
    (d.canRead path .glb 0x14 → Takes (.glbUptimeLoRead path) s fun t =>
      t = ({ d0 with glb := { d0.glb with uptimeHi := BitVec.ofNat 32 (d.glb.micros / 2 ^ 32) } } : Dev).returns
        path 0x14 (BitVec.ofNat 32 d.glb.micros)) ∧
    (d.canRead path .tele 0x0C → Takes (.teleRec0Read path) s fun t =>
      let r := d0.teleRecord path.reader (d.tele.sel.get 0 path.reader)
      t = ({ d0 with tele := { d0.tele with latch := d0.tele.latch.setList 0 (4 * path.reader + 1) (r.drop 1) } } : Dev).returns
        path 0x2C000C (r.getD 0 0)))

/-! ### Link ports -/

/-- An enabled IDLE link port whose rate is its quad's samples LINK_CTRL and LINK_EQ and trains (R425, R427, R622); with another rate it sets its error
flag and does not (R425); the abilities it advertises go out (R428). An 802.3 port that has every condition of R429 runs and raises
LINK_UP, whose record says its MODE (R458). A Brera port sends its HELLO (R441), counts those it receives, sets a flag for each check that one fails (R442), and runs with
the peer's credits at the third identical one (R439, R441), LINK_UP naming lanes, rate and peer (R458); a timeout starts the training again, where ENABLE still is 1 (R427, R441). -/
def Obligations.LinksTrainAndComeUp : Prop :=
  ∀ (s : State) (n : Nat) (signal : BitVec 4) (partner : Word) (h : Hello), n < 96 →
    let d := s.dev
    let u := uLink n
    let l := d.link n
    (d.ust u = .idle → d.gated u = false → l.training = false → bit l.ctrl 12 = true → lineRate l.ctrl ≠ 0 → d.leadOf n = n →
      d.mblk.jtagOver = none →
      (lineRate l.ctrl = d.quadRate (n / 4) →
        Takes (.linkTrainStart n signal) s fun t =>
          t = { d.modLink n (fun l => { l.down with inForce := l.ctrl, eqInForce := eqActs l.eq, training := true, signal := signal, peer := none }) with
            clk := { d.clk with qrate := d.clk.qrate.set 0 (n / 4) (lineRate l.ctrl), qpll := d.clk.qpll ||| BitVec.ofNat 24 (2 ^ (n / 4)) }
            out := d.out ++ if bit l.ctrl 9 && fld l.ctrl 0 3 != 5 then [.linkAn n (advertised l.ctrl l.an)] else [] }) ∧
      (lineRate l.ctrl ≠ d.quadRate (n / 4) →
        Takes (.linkTrainStart n signal) s fun t => t = d.modLink n fun l => { l with err := l.err ||| 1 })) ∧
    (d.ust u = .idle → l.training = true → l.stream = true → d.fitsQuad n = true → d.mblk.jtagOver = none →
      Takes (.pcsLinkUp n partner) s fun t => t.ust u = .running ∧ d.Records t u 0x01 0 (pack64 [(fld l.inForce 0 3, 0, 3)]) ∧
        (((d.setQuadRate n).modLink n fun l => { l with
          training := false, signal := allSignals l.inForce, lock := true, hiBer := false, anDone := bit l.inForce 9
          fecLock := fecOn l.inForce l.an partner, anPartner := if bit l.inForce 9 then partner &&& 0x7FF else l.anPartner }).putUnit u .running).Events t) ∧
    (l.brera? = true → d.leadOf n = n →
      (l.training = true ∨ d.ust u = .running →
        Takes (.helloSend n) s fun t => t = { d with out := d.out ++ [.linkHello n (d.ownHello n)] }) ∧
      (d.ust u = .idle → l.training = true → d.farLoop n = false →
        (let e := (d.modLink n fun l => { l with err := l.err ||| 2 }).modLink n LinkPort.down
         (bit l.ctrl 12 = false → Takes (.trainTimeout n) s fun t => t = e) ∧
         (bit l.ctrl 12 = true → Takes (.trainTimeout n) s fun t => t = opLinkTrainStart n l.signal e)) ∧
        (d.mblk.jtagOver = none →
        let d0 := d.modLink n fun l => { l with signal := allSignals l.inForce, lock := true, aligned := decide (0 < lanesOf l.inForce) }
        (d.helloFlags n h ≠ [] →
          Takes (.hello n h) s fun t =>
            t = ((d.helloFlags n h).foldl (fun (e : Dev) f => e.modLink n fun l => { l with err := l.err ||| BitVec.ofNat 14 (2 ^ f) }) d0).modLink n
              fun l => { l with helloRun := 0, lastHello := none }) ∧
        (d.helloFlags n h = [] →
          let k := if h.seen = false then 0 else if l.lastHello = some h then l.helloRun + 1 else 1
          (k < 3 → Takes (.hello n h) s fun t => t = d0.modLink n fun l => { l with ownSeen := true, lastHello := some h, helloRun := k }) ∧
          (k = 3 → bit l.inForce 10 = false → l.sendQ = [] → d.fitsQuad n = true →
            Takes (.hello n h) s fun t =>
              t = { d with units := t.units, links := t.links, hps := t.hps, out := t.out, clk := { d.clk with qrate := t.clk.qrate } } ∧ t.ust u = .running ∧ (t.link n).peer = some h ∧
              d.Records t u 0x01 0 (pack64 [(5, 0, 3), (lanesOf l.inForce, 3, 2), (rateOf l.inForce, 5, 2), (h.device.toNat, 16, 14), (h.port.toNat, 32, 7)]) ∧
              (t.link n).credRsp = h.rspCells.toNat + 1 ∧ (t.link n).credReq = h.reqCells.toNat + 1 ∧ (t.link n).txSeq = 0 ∧
              (t.link n).rxSeq = 0 ∧ (t.link n).training = false ∧ ∀ m, m ≠ n → t.link m = d.link m)))))

/-- A link that runs is lost: its ports go IDLE with the next epoch and LINK_LOST is raised with its cause and how many requests
were answered LINK_DOWN, here none (R443, R458); the cause of replay or credit
sets its flag (R439, R440), a dark lane its bit of SIGNAL (R461). A parity failure takes the ports to FAULTED (R426). A Brera link loses
what it queued and held for replay (R443, R448). -/
def Obligations.LinksAreLost : Prop :=
  ∀ (s : State) (n : Nat) (cause : LinkCause), n < 96 → s.dev.ust (uLink n) = .running →
    let d := s.dev
    let u := uLink n
    let l := d.link n
    let gone := fun (t : Dev) (st : UState) =>
      t.ust u = st ∧ (t.unit u).epoch = nextEpoch (d.unit u).epoch ∧ (∀ m ∈ d.members n, d.ust (uLink m) = .running → t.ust (uLink m) = st) ∧
        (t.link n).unacked = [] ∧ (t.link n).sendQ = [] ∧ (t.link n).rxReq = [] ∧ t.dest (64 + n) = {} ∧ ∀ m, m ≠ n → t.link m = d.link m
    let raised := fun (t : Dev) (why : LinkCause) => d.Records t u 0x02 stLinkDown (pack64 [(LinkCause.code why, 0, 4), (0, 16, 16)])
    let lost := fun (t : Dev) (why : LinkCause) =>
      t = { d with units := t.units, links := t.links, sl := t.sl, hps := t.hps, out := t.out } ∧ gone t .idle ∧ raised t why
    (l.stream = true →
      (cause = .pcsLoss → Takes (.pcsLinkLost n cause) s fun t => t.ust u = .idle ∧ raised t cause ∧
        (((d.putUnit u .idle).modLink n LinkPort.down).modLink n fun l =>
          if 3 ≤ fld (d.link n).inForce 0 3 then { l with hiBer := true } else l).Events t) ∧
      (cause ≠ .pcsLoss → Takes (.pcsLinkLost n cause) s fun t => t.ust u = .idle ∧ raised t cause ∧
        ((d.putUnit u .idle).modLink n LinkPort.down).Events t)) ∧
    (l.brera? = true → d.leadOf n = n → d.pairOf n = none → (∀ i, i < 512 → ∀ r, l.xids.get .free i ≠ .used r) →
      (∀ e ∈ d.live, e.2.stage ≠ .wantSlot (64 + n)) →
      Takes (.breraLinkLost n cause) s (fun t => lost t cause ∧
        (t.link n).err = (match cause with | .replayLimit => l.err ||| 0x20 | .creditError => l.err ||| 0x800 | _ => l.err)) ∧
      (l.peerAsleep = false →
        Takes (.helloMissing n) s (fun t => lost t .helloMissing ∧ (t.link n).err = l.err) ∧
        (l.loop = none → Takes (.signalLost n) s fun t => lost t .signalLost ∧ (t.link n).signal = l.signal &&& ~~~1)) ∧
      Takes (.linkParityFault n) s fun t =>
        t = { d with units := t.units, links := t.links, sl := t.sl, hps := t.hps, out := t.out, glb := t.glb, mblk := t.mblk } ∧
        gone t .faulted ∧ t.mblk.err = d.mblk.err ||| 0x20)

/-- A packet with a good CRC and the expected SEQ is accepted: the acknowledgement it carries empties the replay buffer, its credits
come back, a request waits for its admission (R437, R439, R440, R447), and an IDLE block acknowledges it and returns the credits owed
(R437; when it goes out is the model's, assumption 83). One with a bad CRC is counted and answered by one NAK (R440).
An idle block returns credits and acknowledges (R437). A NAK, or an acknowledgement that does not come, replays the packets from the
one named, each of them counted (R440). A request without a response is answered LINK_DOWN and its entry quarantined until the
quarantine ends (R448). -/
def Obligations.PacketsAcknowledgeAndReplay : Prop :=
  (∀ (s : State) (n : Nat) (p : Packet), n < 96 → p.wf = true → s.dev.breraRuns n = true → s.dev.pairOf n = none → s.dev.farLoop n = false →
    let d := s.dev
    let l := d.link n
    (Packet.crcOk p = true → p.seq = l.rxSeq → p.rsp = false → l.sendQ = [] → l.peerAsleep = false →
      (∀ g, l.peer = some g → l.credRsp + p.rspCredits.toNat ≤ g.rspCells.toNat + 1 ∧ l.credReq + p.reqCredits.toNat ≤ g.reqCells.toNat + 1) →
      l.peer.isSome = true →
      Takes (.breraPacket n p) s fun t => (∀ m, m ≠ n → t.link m = d.link m) ∧
        t = { d with
          links := t.links
          out := d.out ++ [.linkIdle n l.rxSeq true (BitVec.ofNat 8 (min 255 l.retRsp)) (BitVec.ofNat 8 (min 255 l.retReq))] } ∧
        t.link n = { l.takeAck p.ack p.ackValid with
          credRsp := l.credRsp + p.rspCredits.toNat, credReq := l.credReq + p.reqCredits.toNat, rxSeq := l.rxSeq + 1, rxAny := true
          nakSent := false, gap := false, rxReq := l.rxReq ++ [p], ackDue := false
          retRsp := l.retRsp - min 255 l.retRsp, retReq := l.retReq - min 255 l.retReq }) ∧
    (Packet.crcOk p = false → l.nakSent = false →
      Takes (.breraPacket n p) s fun t => t = { d with links := t.links, out := d.out ++ [.linkNak n l.rxSeq] } ∧ (∀ m, m ≠ n → t.link m = d.link m) ∧
        t.link n = { l with err := l.err ||| 0x10, crcErrs := satInc l.crcErrs, gap := true, nakSent := true })) ∧
  (∀ (s : State) (n : Nat) (ack seq : BitVec 12) (valid : Bool) (rsp req : Byte) (x : Nat), n < 96 → x < 512 →
    let d := s.dev
    let l := d.link n
    let again := fun (t : Dev) (i : Nat) =>
      t = { d with links := t.links, out := d.out ++ (l.unacked.drop i).map fun u => .linkPacket n u.pkt } ∧ (∀ m, m ≠ n → t.link m = d.link m) ∧
        t.link n = { l with unacked := l.unacked.take i ++ (l.unacked.drop i).map (fun u => { u with replays := u.replays + 1 }), replays := satAdd l.replays (l.unacked.drop i).length }
    (d.breraRuns n = true → d.pairOf n = none → d.farLoop n = false →
      (l.sendQ = [] → l.peer.isSome = true →
        (∀ g, l.peer = some g → l.credRsp + rsp.toNat ≤ g.rspCells.toNat + 1 ∧ l.credReq + req.toNat ≤ g.reqCells.toNat + 1) →
        Takes (.linkIdleBlock n ack valid rsp req) s fun t => t = { d with links := t.links } ∧ (∀ m, m ≠ n → t.link m = d.link m) ∧
          t.link n = { l.takeAck ack valid with credRsp := l.credRsp + rsp.toNat, credReq := l.credReq + req.toNat }) ∧
      ((∀ u ∈ l.unacked, u.replays < 15) →
        (∀ i, l.unacked.findIdx? (fun u => u.pkt.seq == seq) = some i → Takes (.nak n seq) s fun t => again t i) ∧
        (l.unacked ≠ [] → Takes (.ackTimeout n) s fun t => again t 0))) ∧
    (∀ r, l.xids.get .free x = .used r →
      Takes (.xidTimeout n x) s fun t => t = (d.modLink n fun l => { l with xids := l.xids.set .free x .quarantine }).answer r stLinkDown) ∧
    (l.xids.get .free x = .quarantine →
      Takes (.xidQuarantineEnd n x) s fun t => t = d.modLink n fun l => { l with xids := l.xids.set .free x .free }))

/-- STATE of a running relay link follows its RELAY blocks, and with START.DONE_RELAY each relay link is sent the AND of the device's own wire and of the
other links (R175, R452; what the bit does without links is the model's reading, assumption 79); SYS_START rises once every one is 1, at once or at a PPS edge as PPS_ALIGN says (R453).
A SLEEP REQUEST is accepted when nothing is queued or reserved for the link, and refused otherwise; the answer, or its absence,
goes to the port that asked (R455, R528). -/
def Obligations.RelayAndSleepBlocks : Prop :=
  (∀ (s : State) (n : Nat) (st atPps : Bool), n < 96 →
    let d := s.dev
    let relays := fun m => d.breraRuns m && bit (d.link m).inForce 11 && (d.link m).peer.any fun h => h.relay
    (relays n = true → d.farLoop n = false → Takes (.relayBlock n st) s fun t => t = d.modLink n fun l => { l with relayIn := st }) ∧
    (bit d.cfg.opts 3 = false → Takes .relaySend s fun t => t = d) ∧
    (bit d.cfg.opts 3 = true → Takes .relaySend s fun t => t = { d with links := t.links, out := t.out } ∧
      ∀ m, m < 96 → (relays m = false → t.link m = d.link m) ∧
        (relays m = true →
          let v := d.relayLocal && (d.relayPorts.filter fun k => k ≠ m && d.relayLink k).all d.relayState
          t.link m = { d.link m with relayOut := v } ∧ Output.linkRelay m v ∈ t.out)) ∧
    (d.glb.sysStart = false → d.sys = true → bit d.cfg.opts 1 = atPps →
      Takes (.sysStart atPps) s fun t => ∃ e, ({ d with glb := { d.glb with sysStart := true } } : Dev).Events e ∧ t = e.refreshPins)) ∧
  (∀ (s : State) (n : Nat), n < 96 →
    let d := s.dev
    let answered := fun (t : Dev) (ok : Bool) =>
      let e := d.modLink n fun l => { l with sleepAsked := false, sleepOk := ok }
      t = if d.isAsked (uLink n) then (if ok then e.acceptUnit (uLink n) else e.refuseUnit (uLink n) 0) else e
    (d.breraRuns n = true → d.farLoop n = false →
      (d.linkIdle (d.lhome n) = true → Takes (.sleepBlock n .request) s fun t =>
        t = { d.modLink n (fun l => { l with peerAsleep := true }) with out := d.out ++ [.linkSleep n .accept] }) ∧
      (d.linkIdle (d.lhome n) = false → Takes (.sleepBlock n .request) s fun t => t = { d with out := d.out ++ [.linkSleep n .refuse] }) ∧
      ((d.link n).sleepAsked = true →
        Takes (.sleepBlock n .accept) s (fun t => answered t true) ∧ Takes (.sleepBlock n .refuse) s (fun t => answered t false))) ∧
    ((d.link n).sleepAsked = true → Takes (.sleepAnswerTimeout n) s fun t => answered t false))

/-- A line that an 802.3 port receives waits for its module, stamped with the fine counter and marked where a frame starts, or is dropped
and counted where no module is bound; the FEC codewords are counted (R430, R432, R433, R459, R513). Lines are pulled from the module one READ each, 16 at most (R430). A frame whose next line is missing ends in an
error character, and the rest of it is discarded (R432). -/
def Obligations.StreamPortsMoveLines : Prop :=
  ∀ (s : State) (n : Nat) (words : List DWord) (ctrl : List Byte) (fec : FecCount) (age : Word), n < 96 →
    ctrl.length = words.length → words.length ≤ 6 → (s.dev.link n).stream = true → s.dev.ust (uLink n) = .running →
    (s.dev.link n).loop = none →
    let d := s.dev
    let l := (d.countFec n fec).link n
    (l.fecCe = (if (d.link n).fecLock then satAdd (d.link n).fecCe fec.corrected.toNat else (d.link n).fecCe) ∧
      l.fecUe = if (d.link n).fecLock then satAdd (d.link n).fecUe fec.uncorrectable.toNat else (d.link n).fecUe) ∧
    (l.bound = none → Takes (.rxLine n words ctrl fec age) s fun t => t = { d with links := t.links } ∧ (∀ m, m ≠ n → t.link m = d.link m) ∧
      t.link n = { l with err := l.err ||| 0x400, dropRx := satAdd l.dropRx words.length }) ∧
    (l.bound.isSome = true → l.rxBusy = true → l.rxWords + words.length ≤ 4096 →
      Takes (.rxLine n words ctrl fec age) s fun t => t = { d with links := t.links } ∧ (∀ m, m ≠ n → t.link m = d.link m) ∧
        t.link n = { l with rxLost := false, rxBuf := l.rxBuf ++ [{
          words := words, ctrl := ctrl, startWord := if bit l.ptp 0 then startWordOf words ctrl else none
          stamp := d.time.stampAgo age.toNat, lost := l.rxLost }] }) ∧
    (∀ b p loc, l.bound = some (b, p, loc) → l.txOut < 16 → d.takes (streamReq n (.tx n) false []) = true →
      Takes (.txLinePull n) s fun t =>
        t = (d.modLink n fun l => { l with txOut := l.txOut + 1 }).enterDirect (streamReq n (.tx n) false []) p loc) ∧
    (l.txMid = true → l.txLines = [] →
      let bad := streamLine [BitVec.ofNat 64 (ofLe (chError :: List.replicate 7 chIdle))] [0xFF] 1 0 0
      Takes (.txUnderrun n) s fun t => t = { d with links := t.links, out := d.out ++ [.txLine n bad] } ∧ (∀ m, m ≠ n → t.link m = d.link m) ∧
        t.link n = { l with txMid := false, txDiscard := true, err := l.err ||| 0x200 })

/-- A route entry is written where the writer's LINK_RT_INDEX points (R446, R459). LOOPBACK closes the loop of an IDLE or RUNNING link
port, or field port, at its depth, which goes to QUIESCED, and opens it again to IDLE (R422, R456, R491). At D4 a link port sends back
on the line whatever it receives there, and nothing else of it changes (R8, R456). -/
def Obligations.RoutesAndLoops : Prop :=
  (∀ (s : State) (path : Path) (v : Word) (iss : Issuer) (x : Desc),
    let d := s.dev
    let dp := d.entered path
    (∀ n, n < 96 → d.canWrite path (.link n) 0x44 → path.wf = true → dp.routeOk path.reader v = true →
      Takes (.routeTableWrite path n v) s fun t =>
        t = ({ dp with routes := dp.routes.set 0 (fld (d.selAt path (linkOff 0 0x40)) 0 14) (v &&& 0xFFFF) } : Dev).wrote path) ∧
    (d.mayStart iss x 0x70 false false ([(1, 0xFFFF0000), (2, 0xFFF00000)] ++ resFrom 3) →
      let d0 := d.start iss x
      let u := fld (dword x 1) 0 16
      let k := unitIdx u
      let depth := fld (dword x 2) 16 3
      let done := fun (e t : Dev) => t = e.complete d.nextExec stDone u (e.epochInfo u)
      unitExists u = true → d.inPart iss.reader u = true → d.pwr.phase = .awake → d0.epochCheck u (BitVec.ofNat 16 (fld (dword x 2) 0 16)) false true = none →
      (unitClass u = 3 → (depth ≤ 3 ∨ (depth = 4 ∧ (d.link k).signal.getLsbD 0 = true)) → d.leadOf k = k →
        (bit (dword x 2) 19 = true → (d.ust u = .idle ∨ d.ust u = .running) →
          Takes (.loopback iss x) s fun t => done (d0.linkLoop k depth iss.cause) t ∧ ((d0.linkLoop k depth iss.cause).link k).loop = some depth) ∧
        (bit (dword x 2) 19 = false → d.ust u = .quiesced → (d.link k).loop.isSome = true →
          Takes (.loopback iss x) s fun t => done (d0.linkUnloop k iss.cause) t ∧ ((d0.linkUnloop k iss.cause).link k).loop = none)) ∧
      (unitClass u = 4 → (depth = 0 ∨ (depth = 3 ∧ d.carried k = true)) →
        (bit (dword x 2) 19 = true → (d.ust u = .idle ∨ d.ust u = .running) →
          Takes (.loopback iss x) s fun t => done (d0.fportLoop k depth iss.cause) t) ∧
        (bit (dword x 2) 19 = false → d.ust u = .quiesced → (d.fport k).loop.isSome = true →
          Takes (.loopback iss x) s fun t => done (d0.fportUnloop k iss.cause) t)))) ∧
  (∀ (s : State) (n : Nat) (h : Hello) (p : Packet) (ack seq : BitVec 12) (valid st : Bool) (rsp req : Byte) (k : SleepKind)
      (words : List DWord) (ctrl : List Byte) (fec : FecCount) (age : Word),
    n < 96 → p.wf = true → ctrl.length = words.length → words.length ≤ 6 → (s.dev.link n).loop = some 4 →
    let echo := fun (c : Instr) (o : Output) => Takes c s fun t => t = s.dev.emit o
    echo (.hello n h) (.linkHello n h) ∧ echo (.breraPacket n p) (.linkPacket n p) ∧ echo (.nak n seq) (.linkNak n seq) ∧
    echo (.linkIdleBlock n ack valid rsp req) (.linkIdle n ack valid rsp req) ∧ echo (.relayBlock n st) (.linkRelay n st) ∧
    echo (.sleepBlock n k) (.linkSleep n k) ∧
    echo (.rxLine n words ctrl fec age) (.txLine n (streamLine words ctrl (BitVec.ofNat 8 words.length) 0 0)))

/-! ### Field ports, pins and pans -/

/-- An enabled IDLE field port whose lines read what its kind needs takes its format registers and runs (R480); a CAN FD port that woke, or left
bus-off in a loop, ends its bus integration (R488, R490; which row brings that is the model's, assumption 84). A UART whose RXD a pin feeds stores the character it
receives with its flags, and sends the oldest entry with its start, parity and stop bits, which it receives itself where its looped bank leads TXD to
RXD (R470, R485, R492). A parity failure takes the port to FAULTED (R481). An entry that a module delivers, or that software writes, joins
the TX FIFO, but up to the next STOP where an abandoned I²C transfer discards it (R475, R483, R487); one that software reads leaves the RX FIFO (R482). -/
def Obligations.FieldPortsRunAndQueue : Prop :=
  ∀ (s : State) (f : Nat) (ch : BitVec 9) (parityBit : Bool) (path : Path) (v : Word), f < 24 → path.wf = true →
    let d := s.dev
    let d0 := d.entered path
    let u := uFport f
    let x := d.fport f
    (d.ust u = .idle → d.gated u = false → bit x.ctrl 4 = true → d.fportReady f = true → x.bound = none →
      Takes (.fportStart f) s fun t =>
        t = ((d.modFport f fun x => { x.load with bus := 0, tecErr := 0, recErr := 0 }).putUnit u .running).refreshPins) ∧
    (d.fportRuns f 3 = true → d.fportSink f 0 = true ∨ x.loop.isSome = true →
      (x.integrating = true → x.bus ≠ 2 → Takes (.fportStart f) s fun t => t = d.modFport f fun x => { x with integrating := false }) ∧
      (x.bus = 2 → Takes (.fportStart f) s fun t =>
        t = d.modFport f fun x => { x with integrating := false, bus := 0, tecErr := 0, recErr := 0 })) ∧
    (d.fportHears f 0 = true → x.loop = none → d.fed f 0 = true → d.uartDe f = false → x.bound = none →
      uartParity x.fmtUse ch = none ∨ uartParity x.fmtUse ch = some parityBit →
      (fld x.fifo 0 9 = 0 → x.rx.length < 256 →
        (Takes (.uartRxCharacter f ch parityBit true true) s fun t =>
          t = ((d.countRx f).modFport f fun x => { x with rx := x.rx ++ [uartEntry x.fmtUse ch false false false] }).refreshPins) ∧
        (uartData x.fmtUse ch ≠ [] → (∀ b ∈ uartData x.fmtUse ch, b = false) →
          Takes (.uartRxCharacter f ch parityBit false false) s fun t =>
            t = (((d.modFport f fun x => { x with err := x.err ||| 0x10 }).countRx f).modFport f fun x =>
              { x with rx := x.rx ++ [uartEntry x.fmtUse ch false true true] }).refreshPins)) ∧
      (256 ≤ x.rx.length → x.protoSeen = true →
        Takes (.uartRxCharacter f ch parityBit true true) s fun t =>
          t = ((d.countRx f).modFport f fun x => { x with err := x.err ||| 1 }).refreshPins)) ∧
    (∀ e rest, x.tx = e :: rest → d.fportRuns f 0 = true → bit x.fmtUse 7 = false → x.loop = none →
      let ch : BitVec 9 := BitVec.ofNat 9 (fld e 0 9)
      let sent := ((d.modFport f fun x => { x with tx := rest }).countTx f).emit (.uartChar f (uartFrame x.fmtUse ch) (bit x.fmtUse 8))
      (d.ownLoop f 0 0 = false → Takes (.uartTxCharacter f) s fun t => t = sent.refreshPins) ∧
      (d.ownLoop f 0 0 = true → d.sinkInvert (0x100 + 8 * f) = false → bit x.fmtUse 8 = false →
        Takes (.uartTxCharacter f) s fun t => t = sent.uartTake f ch ((uartParity x.fmtUse ch).getD false) true true)) ∧
    ((d.ust u = .idle ∨ d.ust u = .running) →
      Takes (.fportParityFault f) s fun t => ∃ e, ((d.noteFault u stInternal).putUnit u .faulted).Events e ∧ t = e.refreshPins) ∧
    (∀ p c, p < 64 → c < 4 → d.channelOpen p = true →
      (firstBelow 24 fun g => (d.fport g).bound.any fun b => b.2.1 == p && b.2.2 == c) = some f → x.tx.length < 256 →
      Takes (.fieldChannelTx p c v) s fun t => t = (d.modFport f fun x => x.queueTx v).refreshPins) ∧
    (x.i2cDrop = false → x.queueTx v = { x with tx := x.tx ++ [v] }) ∧ (x.i2cDrop = true → x.queueTx v = { x with i2cDrop := !bit v 9 }) ∧
    (d.canWrite path (.fport f) 0x14 → x.bound = none → x.tx.length < 256 →
      Takes (.fportTxdataWrite path f v) s fun t => t = (d0.modFport f fun x => x.queueTx v).refreshPins.wrote path) ∧
    (d.canRead path (.fport f) 0x18 → x.bound = none →
      Takes (.fportRxdataRead path f) s fun t => t = ((d0.modFport f FPort.popRx).refreshPins).returns path (fportOff f 0x18) (x.rx.headD 0))

/-- An SPI controller drives the oldest entry on its lanes in the order of the format and keeps the chip select that the entry asks for;
what it reads enters the RX FIFO where the entry asks for it; what it would read from lanes that it drives itself is a free value
(assumption 84). A target that a pin selects drives its own oldest entry and holds what it received until the next byte or the end of the
chip select, which marks it CS_END (R486). The RX FIFO here has room and no threshold, and no module is bound.
An I²C controller sends the oldest entry, or reads a byte for it; an acknowledged one keeps the bus unless it carries STOP, and a NACK, or
a clock stretched too long, sets its flag, discards the entries up to the next STOP, those still to come among them, and sends a stop. No byte ends while a target
holds SCL. A target that is addressed stores what
it receives with its place in the transfer (R487). PROTOCOL has been raised here, so that no event is raised again (R489). -/
def Obligations.SpiAndI2cMoveBytes : Prop :=
  (∀ (s : State) (f : Nat) (b : Byte), f < 24 →
    let d := s.dev
    let x := d.fport f
    let stores := fun (e : Dev) (w : Word) => e.modFport f fun x => { x with rx := x.rx ++ [w] }
    let byte := fun (line : Byte) (cs : BitVec 2) =>
      Output.spiByte f line cs (BitVec.ofNat 2 (fld x.fmtUse 9 2)) (2 ^ spiWidth x.fmtUse)
    x.bound = none → fld x.fifo 0 9 = 0 → x.rx.length < 256 →
    (∀ e rest, x.tx = e :: rest → d.fportRuns f 1 = true → bit x.fmtUse 14 = false → x.loop = none →
      let cs := fld e 8 2
      let wide := spiWidth x.fmtUse != 0
      let drives := !wide || !bit e 12
      let keep := bit e 10 && cs != 3
      let line := spiLine x.fmtUse (BitVec.ofNat 8 (fld e 0 8))
      let got := if wide && drives then Config.freeByte d.freeCtr else d.spiRead f b line
      let sent := (({ d with freeCtr := d.freeCtr + 1 } : Dev).modFport f fun x =>
        FPort.driveLanes { x with tx := rest, csLow := if keep then some cs else none } line (drives && keep)).countTx f
      let out := if drives then sent.emit (byte line (BitVec.ofNat 2 cs)) else sent
      (bit e 11 = false → Takes (.spiByte f b) s fun t => t = out.refreshPins) ∧
      (bit e 11 = true → Takes (.spiByte f b) s fun t => t = (stores (out.countRx f) (got.setWidth 32)).refreshPins)) ∧
    (d.fportHears f 1 = true → bit x.fmtUse 14 = true →
      (∀ e rest, x.tx = e :: rest → x.heldRx = none → d.fed f 0 = true → d.fed f 5 = true →
        (spiWidth x.fmtUse = 0 ∨ bit e 12 = false) →
        let line := spiLine x.fmtUse (BitVec.ofNat 8 (fld e 0 8))
        Takes (.spiByte f b) s fun t =>
          t = ((((d.countTx f).modFport f fun x =>
              FPort.driveLanes { x with tx := x.tx.drop 1, heldRx := some ((d.spiRead f b line).setWidth 32), selected := true } line true).emit
            (byte line 3)).countRx f).refreshPins) ∧
      (∀ w, x.heldRx = some w →
        Takes (.spiCsEnd f) s fun t =>
          t = (stores (d.modFport f fun x => { x with heldRx := none, selected := false, laneOe := 0 }) (w ||| 0x100)).refreshPins))) ∧
  (∀ (s : State) (f : Nat) (b : Byte) (first stopped : Bool) (ended : I2cEnd), f < 24 →
    let d := s.dev
    let x := d.fport f
    (∀ e rest, x.tx = e :: rest → d.fportRuns f 2 = true → bit x.fmtUse 14 = false → x.loop = none → d.fed f 0 = true → d.fed f 1 = true →
      let sent := fun (w : Option Byte) =>
        ((d.modFport f fun x => { x with tx := rest }).countTx f).emit (.i2cByte f (bit e 8) w (w.isNone && bit e 11))
      let goesOn := fun (t u : Dev) =>
        let h := u.modFport f fun x => { x with i2cHold := !bit e 9 }
        t = (if bit e 9 then h.emit (.i2cStop f) else h).refreshPins
      (bit e 10 = false →
        let put := sent (some (BitVec.ofNat 8 (fld e 0 8)))
        Takes (.i2cByte f b .ack first false stopped) s (fun t => goesOn t put) ∧
        (x.protoSeen = true → Takes (.i2cByte f b .nack first false stopped) s fun t =>
          t = (((put.modFport f fun x => { x with
            tx := if bit e 9 then rest else afterStop rest, i2cDrop := !bit e 9 && rest.all fun e => !bit e 9, i2cHold := false }).modFport f fun x =>
            { x with err := x.err ||| 0x20 }).emit (.i2cStop f)).refreshPins)) ∧
      (bit e 10 = true → x.bound = none → fld x.fifo 0 9 = 0 → x.rx.length < 256 →
        Takes (.i2cByte f b .ack first false stopped) s fun t =>
          goesOn t (((sent none).countRx f).modFport f fun x => { x with rx := x.rx ++ [b.setWidth 32] }))) ∧
    (d.fportHears f 2 = true → bit x.fmtUse 14 = false → x.tx ≠ [] → x.protoSeen = true →
      Takes (.i2cStretchTimeout f) s fun t =>
        t = (((d.modFport f fun x => { x with
          tx := afterStop x.tx, i2cDrop := x.tx.all fun e => !bit e 9, i2cHold := false }).modFport f fun x => { x with err := x.err ||| 0x80 }).emit (.i2cStop f)).refreshPins) ∧
    (d.fportHears f 2 = true → bit x.fmtUse 14 = true → x.stretches = true → Takes (.i2cByte f b ended first false stopped) s fun t => t = d) ∧
    (d.fportHears f 2 = true → bit x.fmtUse 14 = true → d.fed f 0 = true → d.fed f 1 = true → x.stretches = false →
      (d.i2cAddressed f ended first false = true → x.bound = none → fld x.fifo 0 9 = 0 → x.rx.length < 256 →
        Takes (.i2cByte f b ended first false stopped) s fun t =>
          t = (((d.modFport f fun x => { x with selected := !stopped, reading := false }).countRx f).modFport f fun x =>
            { x with rx := x.rx ++ [pack [(b.toNat, 0, 8), (b2n first, 8, 1), (b2n stopped, 9, 1), (0, 10, 1)]] }).refreshPins) ∧
      (d.i2cAddressed f ended true false = false →
        Takes (.i2cByte f b ended true false stopped) s fun t =>
          t = (d.modFport f fun x => { x with selected := false, reading := false }).refreshPins)))

/-- A CAN FD port whose RXD a pin feeds stores the frame that its filter accepts, with the time of its start, and lowers its receive error
count; a frame that ends in error raises it by 1, and by 8 more where a dominant bit follows the error flag, and shows the kind (R488; its
number, and the counts of the standard, are assumptions 84 and 47). The
frame at the head of the TX FIFO leaves it when it is sent, and lowers the transmit error count; an error raises that by 8, but not an
error-passive port's for a missing acknowledge, and keeps the frame for another try. Bus-off is raised (R489) and takes a RUNNING port
to IDLE with its FIFOs empty, and leaves one in a loop QUIESCED (R481, R488, R489). To a port that takes classical frames only an FD frame
has a recessive res bit, and one that its looped bank lets hear itself alone gets no acknowledge (R492, R497; assumption 84). -/
def Obligations.CanMovesFrames : Prop :=
  ∀ (s : State) (f : Nat) (ws : List Word) (age : DWord) (kind : CanErr) (dom : Bool), f < 24 → ws.length ≤ 18 →
    let d := s.dev
    let x := d.fport f
    let w0 := ws.getD 0 0
    let w1 := ws.getD 1 0
    let frame := [w0, setFld (if bit w0 30 then w1 &&& 0x2F else w1 &&& 0x1F) 16 16 (d.time.nsAgo age)] ++
      (List.range (canWords w0 w1)).map fun i => ws.getD (2 + i) 0
    (d.fportHears f 3 = true → x.bus ≠ 2 →
      let takes := d.fed f 0 = true ∧ (bit x.fmtUse 19 = false ∨ bit w0 30 = false)
      (d.fed f 0 = true → bit x.fmtUse 19 = true → bit w0 30 = true → Takes (.canRxFrame f ws (.sent age)) s fun t => t = d.canPex f false) ∧
      (takes → x.accepts w0 = true → x.bound = none → fld x.fifo 0 9 = 0 → x.rx.length + frame.length ≤ 256 →
        Takes (.canRxFrame f ws (.sent age)) s fun t =>
          t = ((d.countRx f).modFport f fun x =>
            FPort.busNow { x with lec := 0, recErr := if 127 < x.recErr then 127 else x.recErr - 1 }).modFport f fun x => { x with rx := x.rx ++ frame }) ∧
      (takes → Takes (.canRxFrame f ws (.error kind dom)) s fun t =>
        t = { d with fports := t.fports } ∧ (∀ g, g ≠ f → t.fport g = d.fport g) ∧
          (t.fport f).recErr = min 128 (x.recErr + 1 + if dom then 8 else 0) ∧ (t.fport f).lec = lecOf kind ∧
          (t.fport f).tecErr = x.tecErr ∧ (t.fport f).rx = x.rx ∧ (t.fport f).err = x.err ||| 0x100) ∧
      (256 ≤ x.tecErr → Takes (.canBusOff f) s fun t =>
        ∃ e, ((d.modFport f fun x => { x with bus := 2 }).modFport f fun x => { x with err := x.err ||| 0x200 }).Events e ∧
          d.Records e (uFport f) 0x02 0 0xFF ∧
          (d.ust (uFport f) = .running → t = (e.fportToIdle f .device).refreshPins ∧ t.ust (uFport f) = .idle ∧ (t.fport f).tx = [] ∧ (t.fport f).rx = []) ∧
          (d.ust (uFport f) = .quiesced → t = (e.modFport f fun x => { x with tx := [] }).refreshPins ∧ t.ust (uFport f) = .quiesced ∧ (t.fport f).tx = []))) ∧
    (∀ a b rest, x.tx = a :: b :: rest → d.fportRuns f 3 = true → bit x.fmtUse 16 = false → canWords a b ≤ rest.length →
      bit x.fmtUse 19 = false → x.loop = none → x.integrating = false → x.bus ≠ 2 →
      (d.ownLoop f 0 0 = true → bit x.fmtUse 18 = false → Takes (.canTxFrame f (.sent age)) s fun t => t = d.canError f true .ack false) ∧
      (d.ownLoop f 0 0 = false → Takes (.canTxFrame f (.sent age)) s (fun t =>
        t = (((d.modFport f fun x => { x with tx := rest.drop (canWords a b) }).countTx f).modFport f fun x =>
          FPort.busNow { x with lec := 0, tecErr := x.tecErr - 1 }).emit (.canFrame f ([a, b] ++ rest.take (canWords a b))))) ∧
      (bit x.fmtUse 18 = false → d.ownLoop f 0 0 = false → Takes (.canTxFrame f (.error kind dom)) s fun t =>
        t = { d with fports := t.fports } ∧ (∀ g, g ≠ f → t.fport g = d.fport g) ∧
          (t.fport f).tecErr = (if kind = .ack ∧ x.bus = 1 ∧ dom = false then x.tecErr else min 256 (x.tecErr + 8)) ∧
          (t.fport f).lec = lecOf kind ∧ (t.fport f).tx = x.tx ∧ (t.fport f).err = x.err ||| 0x100))

/-- A pin select entry takes the value written, and every pin and sink follows (R469, R472). A level at a pad that the device does not drive, once it
has passed the pin's filter (R477), sets the pending bit that the pin's configuration selects and raises PIN_EVENT (R478, R479), and reaches
the sinks (R469). A parity failure
in a bank's slice is FAULTED (R493). -/
def Obligations.PinsFollowTheirEntries : Prop :=
  ∀ (s : State) (path : Path) (n : Nat) (v : Word) (l : PinLevel), n < 768 → path.wf = true →
    let d := s.dev
    let d0 := d.entered path
    let p := d.pin n
    (d.canWrite path .pin (0x1000 + 4 * n) → d0.pinSelOk path.reader v = true →
      (d0.modPin n fun p => { p with sel := v }).conflicts = [] →
      Takes (.pinSelWrite path n v) s fun t => t = ((d0.modPin n fun p => { p with sel := v }).refreshPins).wrote path) ∧
    (p.oe = false → d.bankOn (pinBank n) = true →
      let seen := d.passesFilter n l.held
      let e := d.modPin n fun p => { p with level := l.level, filtered := if seen then l.level else p.filtered }
      let edge := if l.level then p.evCfg.getLsbD 0 else p.evCfg.getLsbD 1
      (seen = false ∨ p.filtered = l.level ∨ edge = false ∨ p.pend = true →
        Takes (.pinEdge n l) s fun t => t = e.refreshPins) ∧
      (seen = true → p.filtered ≠ l.level → edge = true → p.pend = false →
        Takes (.pinEdge n l) s fun t => ∃ e', (e.modPin n fun p => { p with pend := true }).Events e' ∧ t = e'.refreshPins ∧
          (bit d.pins.ctrl 0 = true → d.Records e' (uPinBank (pinBank n)) 0x01 0
            (pack64 [(n, 0, 10), (b2n l.level, 16, 1), (b2n l.level, 17, 1)])))) ∧
    (d.ust (uPinBank (pinBank n)) = .running →
      Takes (.pinBankParityFault (pinBank n)) s fun t =>
        ∃ e, ((d.noteFault (uPinBank (pinBank n)) stInternal).putUnit (uPinBank (pinBank n)) .faulted).Events e ∧ t = e.refreshPins)

/-- What an active clock edge makes of a storage element: GSR sets it to its initial value, hold keeps it, an asynchronous set-reset acts
whatever the clock does, a synchronous one at the edge, and the enabled element takes S, or S exclusive-or Q, or J-K of S and the control
term, by its mode (R61, R65, R66, R70). -/
def Obligations.StorageElementsFollowTheirOrder : Prop :=
  ∀ (v : View) (ev : Src → Bool) (m : Nat),
    let c := v.cfg.cell m
    let q := v.p.fab.q.get false m
    let sr := v.srOn ev m
    (v.cellGsr m = true → v.edgeQ ev m = v.initial m ∧ v.levelQ ev m = v.initial m) ∧
    (v.cellGsr m = false → c.mode < 3 →
      (v.cellHold m = true → v.edgeQ ev m = q ∧ v.levelQ ev m = q) ∧
      (v.cellHold m = false →
        (c.srKind = 1 → sr = true → v.edgeQ ev m = false ∧ v.levelQ ev m = false) ∧
        (c.srKind = 2 → sr = true → v.edgeQ ev m = true ∧ v.levelQ ev m = true) ∧
        (c.srKind = 3 → sr = true → v.edgeQ ev m = false ∧ v.levelQ ev m = q) ∧
        (c.srKind = 4 → sr = true → v.edgeQ ev m = true ∧ v.levelQ ev m = q) ∧
        ((sr = false ∨ c.srKind = 0) → v.levelQ ev m = q ∧
          (v.ceOn ev m = false → v.edgeQ ev m = q) ∧
          (v.ceOn ev m = true →
            (c.mode = 0 → v.edgeQ ev m = v.s ev m) ∧
            (c.mode = 1 → v.edgeQ ev m = (q ^^ v.s ev m)) ∧
            (c.mode = 2 → v.edgeQ ev m = ((v.s ev m && !q) || (!v.control ev m && q)))))))

/-- A product term is the AND of the array columns connected to it, 0 with none, and 0 with both columns of one input (R54). A
multiply-add unit adds its product as its operation says, PCIN of unit 0 being 0 and that of the next unit the P of the one before it (R85,
R87); the result wraps, or with SAT stops at the ends of the range, and OVF tells a result outside 48 bits (R88). -/
def Obligations.ProductTermsAndMultiplyAdds : Prop :=
  (∀ (v : View) (ev : Src → Bool) (blk t : Nat),
    let cols := (v.cfg.blocks.get {} blk).terms.get [] t
    let column := fun (c : Nat) => if c % 2 = 0 then v.input ev blk (c / 2) else !v.input ev blk (c / 2)
    (cols = [] → v.term ev blk t = false) ∧
    (∀ i, 2 * i ∈ cols → 2 * i + 1 ∈ cols → v.term ev blk t = false) ∧
    (cols ≠ [] → (v.term ev blk t = true ↔ ∀ c ∈ cols, column c = true))) ∧
  (∀ (v : View) (ev : Src → Bool) (g i : Nat), i < 8 →
    let u := 8 * g + i
    let k := v.cfg.macs.get {} u
    let m := v.macMid ev u
    let p := (v.p.fab.mac.get {} u).p.toInt
    let pcin := if i = 0 then 0 else (v.mac ev g (i - 1)).2.p.toInt
    let y := (v.mac ev g i).1
    let x : Int := if m.2.2 = 0 then m.1.toInt else if m.2.2 = 1 then p + m.1.toInt else if m.2.2 = 2 then p - m.1.toInt
      else if m.2.2 = 3 then m.2.1.toInt + m.1.toInt else if m.2.2 = 4 then m.2.1.toInt - m.1.toInt
      else if m.2.2 = 5 then pcin + m.1.toInt else if m.2.2 = 6 then pcin / (2 ^ k.shift : Nat) + m.1.toInt else m.2.1.toInt
    (y.ovf = true ↔ 2 ^ 47 - 1 < x ∨ x < -(2 ^ 47)) ∧
    (k.sat = false → y.p = BitVec.ofInt 48 x) ∧
    (k.sat = true → 2 ^ 47 - 1 < x → y.p = 0x7FFFFFFFFFFF) ∧
    (k.sat = true → x < -(2 ^ 47) → y.p = 0x800000000000) ∧
    (k.sat = true → x ≤ 2 ^ 47 - 1 → -(2 ^ 47) ≤ x → y.p.toInt = x))

/-- The edges of a command that the pan's clocks give clock a RUNNING pan once and count as its cycles (R541, R561), the module takes the
entries it is ready for (R475), and the pins follow where a slot changed (R475); a pan that holds no module does nothing. PAN_GSR and the user GSR wire change the pan's GSR and hold sources, and its elements follow at once
(R70, R72, R76). -/
def Obligations.PansFollowClocksAndGsr : Prop :=
  ∀ (s : State) (p : Nat) (edges : List (Nat × Bool)) (path : Path) (v : Word) (level : Bool), p < 64 → path.wf = true →
    let d := s.dev
    let d0 := d.entered path
    let outs := fun (e : Dev) => (e.gangWith p).map fun q => (e.pan q).fab.pinOut
    let live := edges.filter fun x => !d.clockDead p x.1
    let e := (d.channelTakes p live).foldl (fun (e : Dev) x => (e.modFport x.1 FPort.popRx).emit (.channelRx x.2.1 x.2.2.1 x.2.2.2))
      ((d.clockPan p live).panCycles p (live.countP fun x => x.2))
    ((∀ x ∈ edges, x.1 < 16) →
      ((d.pan p).occupied = false ∨ live = [] → Takes (.userClockEdge p edges) s fun t => t = d) ∧
      ((d.pan p).occupied = true → (d.ust (uPan p) = .running ∨ d.ust (uPan p) = .quiesced) → d.panGated p = false → live ≠ [] →
        Takes (.userClockEdge p edges) s fun t => t = if outs e = outs d ∧ d.channelTakes p live = [] then e else e.refreshPins)) ∧
    (d.canWrite path (.pan p) 0x30 →
      Takes (.panGsrWrite path p v) s fun t => t = (d0.panSources p fun x =>
        { x with softAssert := bit v 0, softHold := bit v 1, userEn := bit v 2, userSeen := x.userSeen && !bit v 16 }).wrote path) ∧
    let l := match (d.view p).cfg.userGsr with
      | none => level
      | some src => (d.views p).ev d.freeCtr (d.view p) src
    Takes (.userGsrWire p level) s fun t => t = d.panSources p fun x =>
      { x with userSeen := x.userSeen || l, fab := { x.fab with userGsr := l } }

/-! ### Fuses and the management path -/

/-- FUSE_NARROW writes the narrowed partition, or sets NARROW_ERR where it names what may not be removed (R584, R589). A fuse command of an open
interface that is not refused starts with the fuses it is to program, and a refused one answers at once (R575, R577, R578, R599); each fuse
that verifies reads 1 in the array and in its mirror, one that does not ends the command, and the last one answers DONE (R571, R599). The fuse in progress as the power-fail warning came is
the last of its command, and none starts while it stands or until the start-up after it: TIMEOUT (R599, R613, R615). No fuse is
programmed while the device unit is FAULTED (R20). The interface waits for the response (R592). -/
def Obligations.FuseCommandsProgramBits : Prop :=
  ∀ (s : State) (path : Path) (v : Word) (via : MgmtIf),
    let d := s.dev
    let dp := d.entered path
    let d0 := d.countMgmt via
    let job := fun (op w arg : Nat) => ({ via := via, op := op, word := w, arg := arg, left := [], started := false } : FuseJob)
    let taken := fun (c : Instr) (j : FuseJob) =>
      let waits := d0.modMg via fun m => { m with wait := some .fuse }
      (waits.fuseTargets j = none → Takes c s fun t => t = ({ waits with fuse := { d0.fuse with jobs := [] } } : Dev).fuseResponse j stRefused) ∧
      (∀ l, waits.fuseTargets j = some l → l ≠ [] →
        (d.pfw.asserted = false → d.cfg.pfwStops = false →
          Takes c s fun t => t = { waits with fuse := { d0.fuse with jobs := [{ j with left := l, started := true }] } }) ∧
        (d.pfw.asserted = true ∨ d.cfg.pfwStops = true →
          Takes c s fun t => t = ({ waits with fuse := { d0.fuse with jobs := [] } } : Dev).fuseResponse j stTimeout))
    (d.canWrite path .fuse 0x2C → path.wf = true →
      (∀ k q, dp.narrow path.reader v = some (k, q) →
        Takes (.fuseNarrow path v) s fun t =>
          t = ({ dp with fuse := { dp.fuse with parts := dp.fuse.parts.set openPartition k q } } : Dev).wrote path) ∧
      (dp.narrow path.reader v = none →
        Takes (.fuseNarrow path v) s fun t => t = ({ dp with fuse := { dp.fuse with narrowErr := true } } : Dev).wrote path)) ∧
    (d.viaOpen via → d.fuse.jobs = [] →
      (∀ (w : BitVec 16) (m : Word), taken (.fuseProgram via w m) (job 0 w.toNat m.toNat)) ∧
      (∀ k : Byte, taken (.fuseLock via k) (job 1 0 k.toNat)) ∧
      (∀ n : BitVec 16, taken (.fuseRollback via n) (job 2 0 n.toNat))) ∧
    (∀ j f fs b, d.fuse.jobs = [j] → j.started = true → j.via = via → j.left = f :: fs → d.ust 0 = .faulted →
      Takes (.fuseBitVerified via b) s fun t => t = ({ d with fuse := { d.fuse with jobs := [] } } : Dev).fuseResponse j stRefused) ∧
    (∀ j f fs, d.fuse.jobs = [j] → j.started = true → j.via = via → j.left = f :: fs → d.ust 0 ≠ .faulted →
      Takes (.fuseBitVerified via false) s (fun t => t = ({ d with fuse := { d.fuse with jobs := [] } } : Dev).fuseResponse j stUncorr) ∧
      let e := (d.setFuse f).lockActs via f
      bit (e.fuses.get 0 (f / 32)) (f % 32) = true ∧ bit (e.fuse.mirror.get 0 (f / 32)) (f % 32) = true ∧
      (fs = [] → j.cut = false →
        Takes (.fuseBitVerified via true) s fun t => t = ({ e with fuse := { e.fuse with jobs := [] } } : Dev).fuseResponse j stDone) ∧
      (j.cut = true →
        Takes (.fuseBitVerified via true) s fun t => t = ({ e with fuse := { e.fuse with jobs := [] } } : Dev).fuseResponse j stTimeout) ∧
      (fs ≠ [] → j.cut = false →
        Takes (.fuseBitVerified via true) s fun t => t = { e with fuse := { e.fuse with jobs := [{ j with left := fs }] } }))

/-- The status mirror answers the state and epoch of any unit, and 0 for one that does not exist (R26, R593). The descriptor slot takes one
descriptor while it is empty and otherwise sets MGMT_ERR.SLOT, a command that is not performed and not counted (R606); its completion empties it (R598). The buffer holds 4096 bytes (R592).
An SMBus command with a wrong PEC, or without one where PEC_REQ asks for it, or of an unknown code, sets its flag and is not acknowledged, and none comes
while the clock is held low for a response; a
clock held low abandons the transaction with its response (R590, R592). -/
def Obligations.MirrorSlotAndBufferAnswer : Prop :=
  (∀ (s : State) (via : MgmtIf) (u off : BitVec 16) (x : Desc) (bs : List Byte) (len : Byte), s.dev.viaOpen via → bs ≠ [] → bs.length ≤ 238 →
    let d := s.dev
    let d0 := d.countMgmt via
    let m := d.mg via
    Takes (.mirrorRead via u) s (fun t => t = d0.emit (.mgmtResponse via
      (leBytes 4 (if unitExists u.toNat then (d.statusWord u.toNat).toNat else 0)))) ∧
    (m.slot = 0 → Takes (.descSubmit via x) s fun t => t = d0.modMg via fun m => { m with slot := 1, desc := some x }) ∧
    (m.slot ≠ 0 → Takes (.descSubmit via x) s fun t => t = { d with mblk := { d.mblk with err := d.mblk.err ||| 0x10 } }) ∧
    (m.slot = 2 → Takes (.descResult via) s fun t =>
      t = (d0.modMg via fun m => { m with slot := 0, cpl := [] }).emit (.mgmtResponse via ((2 : Byte) :: m.cpl))) ∧
    (m.slot ≠ 2 → Takes (.descResult via) s fun t => t = d0.emit (.mgmtResponse via [BitVec.ofNat 8 m.slot])) ∧
    Takes (.bufWrite via off bs) s (fun t => t = d0.modMg via fun m => { m with buf := m.buf.setList 0 off.toNat (bs.take (4096 - off.toNat)) }) ∧
    Takes (.bufRead via off len) s fun t => t = d0.emit (.mgmtResponse via (m.buf.getList 0 off.toNat (min 240 len.toNat)))) ∧
  (∀ (s : State) (code : Byte) (pec : Pec), s.dev.viaDead .smbus = false → s.dev.locked 7 = false → s.dev.sleeps = false →
    let d := s.dev
    let noted := fun (m : BitVec 6) => ({ d with mblk := { d.mblk with err := d.mblk.err ||| m } } : Dev)
    ((d.mg .smbus).wait ≠ none → Takes (.smbusBadCommand code pec) s fun t => t = d) ∧
    ((d.mg .smbus).wait = none → pec = .wrong ∨ (pec = .missing ∧ bit d.mblk.ctrl 2 = true) →
      Takes (.smbusBadCommand code pec) s fun t => t = (noted 1).emit (.mgmtNack .smbus)) ∧
    ((d.mg .smbus).wait = none → pec = .right ∨ (pec = .missing ∧ bit d.mblk.ctrl 2 = false) →
      (code.toNat ∉ smbusCodes → d.locked 6 = false →
        Takes (.smbusBadCommand code pec) s fun t => t = (noted 2).emit (.mgmtNack .smbus)) ∧
      (code.toNat ∈ smbusCodes → code ≠ 1 → d.locked 6 = true →
        Takes (.smbusBadCommand code pec) s fun t => t = (noted 4).emit (.mgmtNack .smbus))) ∧
    Takes .smbusSclTimeout s fun t =>
      t = ({ noted 8 with fuse := { d.fuse with jobs := d.fuse.jobs.map fun j => { j with silent := j.silent || j.via == .smbus } } } : Dev).modMg
        .smbus fun m => { m with wait := none })

/-- The checks of R594 pass for a unit of template 4 that is not busy while the device is awake: STOP raises a pan's QREQ and waits (R595),
and takes background services and an idle Rake to QUIESCED; START takes each back to RUNNING (R595); RECOVER returns a FAULTED unit to its
class's state (R594); RETIRE and RETURN write the retirement map (R596); LOOP closes and opens a loop (R597). Each answers DONE
with the unit's epoch and state (R592, R606).
A unit command that names no unit is REFUSED, one outside template 4 is answered PERMISSION, one whose expected epoch is neither
0xFFFF nor the unit's is answered EPOCH_STALE, and one that comes while the device is not awake BUSY: the response carries the unit's
epoch and state, and the command has no other effect (R28, R29, R594). One that comes over SMBus while its unit is ASLEEP waits for the
wake and is then compared with the epoch that the unit held while ASLEEP (R31); over JTAG, which wakes nothing, it is not carried (R531). -/
def Obligations.UnitCommandsAct : Prop :=
  (∀ (s : State) (via : MgmtIf) (unit epoch : BitVec 16) (param : Byte), s.dev.viaOpen via →
    let d := s.dev
    let d0 := (d.countMgmt via).modMg via fun m => { m with late := none }
    let u := unit.toNat
    let k := unitIdx u
    unitExists u = true → d.inPart 4 u = true → d.pwr.phase = .awake → (d.mg via).late = none → d.epochCheck u epoch false true = none →
    (d.unitBusy u = false →
      (d.ust u = .running →
        (unitClass u = 1 → Takes (.unitCmdStop via unit epoch param) s fun t =>
          t = ((d0.modPan k fun x => { x with stopPend := some (mgNum via) }).modMg via fun m => { m with wait := some (.stop k) }).setQreq k true) ∧
        (u = uBgs → Takes (.unitCmdStop via unit epoch param) s fun t =>
          t = (d0.stopBgs.setUnit uBgs .quiesced (.mgmt via)).unitResponse via u 1 stDone ∧ t.ust uBgs = .quiesced) ∧
        (u = uRake → d.rakeIdle = true → Takes (.unitCmdStop via unit epoch param) s fun t =>
          t = (d0.abandonPre.setUnit uRake .quiesced (.mgmt via)).unitResponse via u 1 stDone)) ∧
      (d.recoverLegal via u = true → Takes (.unitCmdRecover via unit epoch param) s fun t => t = (d0.recover u (.mgmt via)).unitResponse via u 3 stDone) ∧
      (d.recoverLegal via u = true → unitClass u = 5 → Takes (.unitCmdRecover via unit epoch param) s fun t => t.ust u = .idle) ∧
      (d.retireLegal u = true → unitClass u = 3 → Takes (.unitCmdRetire via unit epoch param) s fun t =>
        t.ust u = .retired ∧ t = ((d0.setUnit u .retired (.mgmt via)).retireMap u insertNat).unitResponse via u 4 stDone) ∧
      (d.retireLegal u = true → unitClass u = 1 → Takes (.unitCmdRetire via unit epoch param) s fun t =>
        t = ((((d0.endPst k).discardPre k).setUnit u .retired (.mgmt via)).retireMap u insertNat).unitResponse via u 4 stDone) ∧
      (d.returnLegal u = true → Takes (.unitCmdReturn via unit epoch param) s fun t =>
        t = ((d0.comeBack u (.mgmt via)).retireMap u fun n l => l.filter (· ≠ n)).unitResponse via u 5 stDone) ∧
      (unitClass u = 5 → d.ust u = .idle → param.toNat % 8 ∈ [0, 2, 3] → Takes (.unitCmdLoop via unit epoch param) s fun t =>
        t = ((d0.modHp k fun h => { h with loop := if param.getLsbD 3 then some (param.toNat % 8) else none }).checkPrbs).unitResponse via u 6 stDone)) ∧
    (unitClass u = 6 → d.ust u = .running → (param.toNat % 8 = 0 ∨ param.toNat % 8 = 3) → Takes (.unitCmdLoop via unit epoch param) s fun t =>
      let code : BitVec 2 := if !param.getLsbD 3 then 0 else if param.toNat % 8 = 0 then 1 else 2
      t = (({ d0 with pins := { d.pins with loop := d.pins.loop.set 0 k code } } : Dev).refreshPins).unitResponse via u 6 stDone) ∧
    (d.ust u = .quiesced →
      (u = uBgs → Takes (.unitCmdStart via unit epoch param) s fun t =>
        t = (d0.setUnit uBgs .running (.mgmt via)).unitResponse via u 2 stDone ∧ t.ust uBgs = .running) ∧
      (u = uRake → Takes (.unitCmdStart via unit epoch param) s fun t =>
        t = ((d0.setUnit uRake .running (.mgmt via)).resumeRake).unitResponse via u 2 stDone) ∧
      (unitClass u = 1 → d.opOf k = none → (d.pan k).stopPend = none → Takes (.unitCmdStart via unit epoch param) s fun t =>
        t = (d0.startPan k via).unitResponse via u 2 stDone))) ∧
  (∀ (s : State) (via : MgmtIf) (unit epoch : BitVec 16) (param : Byte) (c : Instr) (action : Nat), s.dev.viaOpen via →
    (c, action) ∈ [(.unitCmdStop via unit epoch param, 1), (.unitCmdStart via unit epoch param, 2), (.unitCmdRecover via unit epoch param, 3),
      (.unitCmdRetire via unit epoch param, 4), (.unitCmdReturn via unit epoch param, 5), (.unitCmdLoop via unit epoch param, 6)] →
    let d := s.dev
    let u := unit.toNat
    let answers := fun (st : Nat) (t : Dev) => t = ((d.countMgmt via).modMg via fun m => { m with late := none }).unitResponse via u action st
    (unitExists u = false → Takes c s (answers stRefused)) ∧
    (unitExists u = true → d.inPart 4 u = false → Takes c s (answers stPerm)) ∧
    (unitExists u = true → d.inPart 4 u = true → (action = 6 → loopBad u (param.toNat % 8) = false) →
      let waited := fun (l : LateCmd) => l.unit = u ∧ l.action = action ∧ l.expected = epoch ∧ l.woken = some (d.unit u).epoch
      (∀ held, (∀ l, (d.mg via).late = some l → ¬waited l) ∧ held = (d.unit u).epoch ∨
          (∃ l, (d.mg via).late = some l ∧ waited l ∧ held = l.held) →
        (epoch ≠ 0xFFFF → epoch ≠ held → Takes c s (answers stStale)) ∧
        ((epoch = 0xFFFF ∨ epoch = held) → d.pwr.phase ≠ .awake → Takes c s (answers stBusy))))) ∧
  (∀ (s : State) (via : MgmtIf) (unit epoch : BitVec 16) (param : Byte) (c : Instr) (action : Nat),
    (c, action) ∈ [(.unitCmdStop via unit epoch param, 1), (.unitCmdStart via unit epoch param, 2), (.unitCmdRecover via unit epoch param, 3),
      (.unitCmdRetire via unit epoch param, 4), (.unitCmdReturn via unit epoch param, 5), (.unitCmdLoop via unit epoch param, 6)] →
    let d := s.dev
    d.sleeps = true →
    (via = .smbus → d.hears .smbus = true → d.ust unit.toNat = .asleep →
      Takes c s fun t => t = d.modMg .smbus fun m =>
        { m with late := some { unit := unit.toNat, action := action, expected := epoch, held := (d.unit unit.toNat).epoch } }) ∧
    (via = .jtag → Takes c s fun t => t = d))

/-- A readback that is allowed keeps its bytes, a capture its pan, and answers its length (R600, R601); which bits of a frame read at tightened
margin read otherwise is a free value (assumption 68); RDBK_DATA gives up to 240 of them, and
RDBK_STREAM the next bits, 0 where none are left (R592, R602). -/
def Obligations.ReadbackGivesItsBytes : Prop :=
  ∀ (s : State) (via : MgmtIf) (kind plane : Byte) (target : Word) (bits : Nat),
    let d := s.dev
    let d0 := d.countMgmt via
    let d1 := d0.modMg via fun m => { m with rdbk := none }
    (d.viaOpen via →
      (∀ g, rdbkTarget kind plane target = some g →
        (d1.rdbkStatus plane g = stDone → Takes (.rdbkStart via kind plane target) s fun t =>
          let n := if bit d.test.ctrl 0 then (match g with | .frame _ _ => (d1.rdbkBytes kind plane g).length | .pan _ => 0) else 0
          t = (({ d1 with freeCtr := d1.freeCtr + n } : Dev).modMg via fun m => { m with rdbk := some { bytes := d1.rdbkBytes kind plane g, pan := match g with | .pan p => some p | .frame _ _ => none } }).emit
            (.mgmtResponse via ([0, 0, 0, 0] ++ leBytes 4 (d1.rdbkBytes kind plane g).length))) ∧
        (d1.rdbkStatus plane g ≠ stDone → Takes (.rdbkStart via kind plane target) s fun t =>
          t = d1.emit (.mgmtResponse via ([BitVec.ofNat 8 (d1.rdbkStatus plane g), 0, 0, 0] ++ leBytes 4 0)))) ∧
      (∀ r, (d.mg via).rdbk = some r → r.bit = 0 → Takes (.rdbkData via) s fun t =>
        t = (d0.modMg via fun m => { m with rdbk := r.after (8 * (r.bytes.take 240).length) }).emit (.mgmtResponse via (r.bytes.take 240))) ∧
      ((d.mg via).rdbk = none → Takes (.rdbkData via) s fun t => t = d0.emit (.mgmtResponse via []))) ∧
    (d.privateOff = false → d.sleeps = false → d.tapOff = false → d.mblk.jtagOver = none →
      let ir := d.emit (.tdo (shiftOut 8 1))
      ((d.mg .jtag).rdbk = none → Takes (.jtagRdbkStream bits) s fun t => t = ir.emit (.tdo (List.replicate bits false))) ∧
      (∀ r, (d.mg .jtag).rdbk = some r → Takes (.jtagRdbkStream bits) s fun t =>
        t = (ir.modMg .jtag fun m => { m with rdbk := r.after (r.bit + bits) }).emit
          (.tdo (shiftOut bits (ofLe (r.bytes.take (bits / 8 + 2)) >>> r.bit)))))

/-- A register write through a path writes the register that it reaches; one outside the writer's grants is dropped and counted, or answered
PERMISSION; one of an unsupported form is counted, and a read of such a form reads 0 and is counted (R10, R349, R352, R593). A write at
offset 0 of a ring's page of BAR2 is its doorbell, any other of BAR2 a bad doorbell; BAR4 is the MSI-X table, taken a DW or a QW at a
time (R348, R349, R357). A read of BAR2 gives 0, a read of BAR4 the table, and one of the configuration space its register (R343, R348, R349, R357). Device Control, the function mask and the
power state D3hot lie in the configuration space, as its standard has them (R343; assumptions 10 and 81). REG_READ and REG_WRITE are such accesses of a
management interface (R593).
An offset that no table lists reads 0, and a write to it is ignored: no error flag is set and nothing is counted (R630). -/
def Obligations.RegisterAccessesReachBlocks : Prop :=
  (∀ (s : State) (path : Path) (off v : Word) (via : MgmtIf) (b : Blk) (o : Nat), path.wf = true → off.toNat % 4 = 0 →
    regBlock off.toNat = some (b, o) → regListed b o = true →
    let d := s.dev
    let d0 := d.entered path
    let dm := d.countMgmt via
    (d.pathOpen path →
      (d0.opens path.reader b o true = true → d0.valueOk path.reader b o v = true →
        Takes (.registerWrite path .bar0 off v) s fun t => t = (d0.writeBlk path off.toNat b o v).wrote path) ∧
      (d0.opens path.reader b o true = false →
        Takes (.registerWrite path .bar0 off v) s fun t => t = d0.dropWrite path) ∧
      (∀ p, path = .host p → Takes (.registerWrite (.hostPart p) .bar0 off v) s fun t => t = d.badAccess path) ∧
      (b = .glb → o = 0x38 → d0.opens path.reader b o true = true →
        Takes (.registerWrite path .bar0 off v) s fun t => t = ({ d0 with glb := { d.glb with scratch := v } } : Dev).wrote path)) ∧
    (d.viaOpen via →
      (dm.opens (mgPath via).reader b o true = true → dm.valueOk (mgPath via).reader b o v = true →
        Takes (.regWrite via off v) s fun t => t = (dm.writeBlk (mgPath via) off.toNat b o v).wrote (mgPath via)) ∧
      (dm.opens (mgPath via).reader b o false = true →
        Takes (.regRead (.mgmt via) off) s fun t =>
          let r := dm.readBlk (mgPath via) off.toNat b o
          t = r.2.returns (mgPath via) off.toNat r.1) ∧
      (dm.opens (mgPath via).reader b o false = false →
        Takes (.regRead (.mgmt via) off) s fun t => t = dm.returns (mgPath via) off.toNat 0))) ∧
  (∀ (s : State) (path : Path) (off v : Word) (via : MgmtIf), path.wf = true → off.toNat % 4 = 0 →
    (∀ b o, regBlock off.toNat = some (b, o) → regListed b o = false) →
    let d := s.dev
    (path.whole = true → d.readReg path off = (0, d)) ∧
    (d.pathOpen path → Takes (.registerWrite path .bar0 off v) s fun t => t = (d.entered path).wrote path) ∧
    (d.viaOpen via →
      Takes (.regWrite via off v) s (fun t => t = (d.countMgmt via).wrote (mgPath via)) ∧
      Takes (.regRead (.mgmt via) off) s fun t => t = (d.countMgmt via).returns (mgPath via) off.toNat 0)) ∧
  (∀ (s : State) (p : Nat) (off v : Word) (hi : Option Word) (x : Word), s.dev.pathOpen (.host p) →
    let d := s.dev
    let write := fun (sp : Space) (t : Dev) => Takes (.registerWrite (.host p) sp off v) s fun u => u = t
    let page := off.toNat / 4096 % 256
    let read := fun (sp : Space) (t : Dev) => Takes (.regRead (.host (.host p) sp) off) s fun u => u = t
    let value := fun (t : Dev) (o : Nat) (w : Word) => t.returns (.host p) o w
    let entry := (d.hp p).table.get {} (off.toNat / 16)
    Takes (.regRead (.host (.hostPart p) .bar0) x) s (fun t => t = value (d.badAccess (.host p)) x.toNat 0) ∧
    (off.toNat % 4096 = 0 → d.ust (uHost p) = .running →
      (page < 16 → write .bar2 (d.sqBell p page v)) ∧ (16 ≤ page → page < 20 → write .bar2 (opCqDoorbell p (page - 16) v d)) ∧
      (page = 20 → write .bar2 (opEqDoorbell p v d)) ∧ (21 ≤ page → write .bar2 (d.badDoorbell p 0x1F v))) ∧
    (off.toNat % 4 = 0 → off.toNat % 4096 ≠ 0 → write .bar2 (d.badDoorbell p 0x1F v)) ∧
    (off.toNat % 4 ≠ 0 → write .bar2 (d.badAccess (.host p))) ∧
    Takes (.registerWrite (.hostPart p) .bar2 off v) s (fun t => t = d.badAccess (.host p)) ∧
    (let i := off.toNat / 16
     let w := off.toNat % 16 / 4
     let put := fun (f : MsixEntry → MsixEntry) => (d.modHp p fun h => { h with table := h.table.modify {} i f }).sendPending p i
     off.toNat < 1024 → off.toNat % (if hi.isSome then 8 else 4) = 0 →
       (hi = none → w = 0 → write (.bar4 hi) (put fun m => { m with addr := (m.addr >>> 32).setWidth 32 ++ (v &&& 0xFFFFFFFC) })) ∧
       (hi = none → w = 1 → write (.bar4 hi) (put fun m => { m with addr := v ++ m.addr.setWidth 32 })) ∧
       (hi = none → w = 2 → write (.bar4 hi) (put fun m => { m with data := v })) ∧
       (hi = none → w = 3 → write (.bar4 hi) (put fun m => { m with masked := bit v 0 })) ∧
       (∀ u, hi = some u → w = 0 → write (.bar4 hi) (put fun m => { m with addr := u ++ (v &&& 0xFFFFFFFC) })) ∧
       (∀ u, hi = some u → w = 2 → write (.bar4 hi) (put fun m => { m with data := v, masked := bit u 0 }))) ∧
    (1024 ≤ off.toNat → write (.bar4 hi) d) ∧
    write (.config .deviceControl) (d.modConf p fun c => { c with devCtl := v.setWidth 16 &&& 0x70F0 }) ∧
    (bit v 14 = true → write (.config .msixControl) (d.modConf p fun c => { c with msixOn := bit v 15, fmask := true })) ∧
    (fld v 0 2 = 3 → bit v 15 = false →
      write (.config .powerControl) (d.modConf p fun c => { c with pmcsr := merge 0x0103 c.pmcsr (v.setWidth 16) })) ∧
    (off.toNat % 4 = 0 → read .bar2 (value d off.toNat 0)) ∧ (off.toNat % 4 ≠ 0 → read .bar2 (value (d.badAccess (.host p)) off.toNat 0)) ∧
    (1024 ≤ off.toNat → off.toNat ≠ 0x1000 → off.toNat ≠ 0x1004 → read (.bar4 none) (value d off.toNat 0)) ∧
    (off.toNat < 1024 → off.toNat % 16 = 8 → read (.bar4 none) (value d off.toNat entry.data)) ∧
    (off.toNat < 1024 → off.toNat % 16 = 0 → read (.bar4 (some v))
      (value (value d off.toNat (entry.addr.setWidth 32)) (off.toNat + 4) ((entry.addr >>> 32).setWidth 32))) ∧
    read (.config .deviceControl) (value d off.toNat ((d.hp p).conf.devCtl.setWidth 32)))

/-- With the test port open, an instruction that is shifted in shifts out 0b00000001 (R602); IDCODE then shifts out 0x14D161AB and
SAMPLE_PRELOAD what the cells capture; EXTEST, CLAMP, HIGHZ and the two EXTEST forms take the pins, a scan under EXTEST and its forms
drives them with what it latches (R602, R603; which row brings that scan is the model's, assumption 87), and any other instruction gives them
back; BYPASS shifts out a 0. MGMT_ACCESS carries a command of the management path, and its response with command code and count is
captured (R592, R602). -/
def Obligations.JtagInstructionsAct : Prop :=
  ∀ (s : State) (pre : Option (BitVec 2624)) (pads : BitVec 2624) (ir : Byte) (u : BitVec 16), s.dev.tapOff = false →
    let d := s.dev
    let shifted := d.emit (.tdo (shiftOut 8 1))
    let scanned := fun (e : Dev) => ({ e with mblk := { e.mblk with boundary := pre.getD e.mblk.boundary } } : Dev).emit (.tdo (shiftOut 2624 pads.toNat))
    let driven := fun (i : BitVec 8) => ({ shifted with mblk := { d.mblk with jtagOver := some i } } : Dev).refreshPins
    (d.mblk.jtagOver = none →
      Takes .jtagIdcode s (fun t => t = shifted.emit (.tdo (shiftOut 32 0x14D161AB))) ∧
      Takes (.jtagSamplePreload { update := pre, extest := false } pads) s (fun t => t = scanned shifted) ∧
      (d.privateOff = false → d.viaOpen .jtag →
        let r := leBytes 4 (if unitExists u.toNat then (d.statusWord u.toNat).toNat else 0)
        Takes (.jtagMgmtAccess { code := 1, data := leBytes 2 u.toNat }) s fun t =>
          t = ((shifted.countMgmt .jtag).emit (.mgmtResponse .jtag r)).emit (.tdo (shiftOut 2048 (ofLe ([1, 4] ++ r)))))) ∧
    ((∀ p, p < 4 → (d.hp p).linkUp = false) → (∀ n, n < 96 → d.ust (uLink n) ≠ .running ∧ (d.link n).training = false) →
      Takes .jtagExtest s (fun t => t = driven 3) ∧ Takes .jtagClamp s (fun t => t = driven 4) ∧ Takes .jtagHighz s (fun t => t = driven 5) ∧
      Takes .jtagExtestPulse s (fun t => t = driven 6) ∧ Takes .jtagExtestTrain s (fun t => t = driven 7)) ∧
    (∀ i, d.mblk.jtagOver = some i →
      Takes .jtagInstructionExit s (fun t => t = ({ d with mblk := { d.mblk with jtagOver := none } } : Dev).refreshPins) ∧
      (i = 3 ∨ i = 6 ∨ i = 7 →
        Takes (.jtagSamplePreload { update := pre, extest := true } pads) s fun t => t = (scanned d).refreshPins) ∧
      (0x22 ≤ ir.toNat → Takes (.jtagBypass ir) s fun t =>
        t = (({ shifted with mblk := { d.mblk with jtagOver := none } } : Dev).refreshPins).emit (.tdo [false])))

/-- A parity failure in the device unit, a management interface, a staging lane, the Rake or the port controller takes it to FAULTED with the
next epoch; the Rake then lets go what waits for it, and nothing else changes but what a fault notes (R20, R593, R639). The address that
a lane's failure would log is a free value. -/
def Obligations.ParityFaultsEnterFaulted : Prop :=
  ∀ (s : State) (via : MgmtIf) (l : Nat), l < 4 →
    let d := s.dev
    let hit := fun (d : Dev) (u : Nat) (t : Dev) => t.ust u = .faulted ∧ ((d.noteFault u stInternal).putUnit u .faulted).Events t
    (d.ust 0 = .running → Takes .deviceParityFault s fun t => hit d 0 t) ∧
    (d.ust (uMgmt via) = .running → Takes (.managementParityFault via) s fun t => hit d (uMgmt via) t) ∧
    ((d.ust (uLane l) = .idle ∨ d.ust (uLane l) = .running) → d.lanePass l = none →
      Takes (.laneParityFault l) s fun t => hit { d with freeCtr := d.freeCtr + 1 } (uLane l) t) ∧
    (d.ust uRake = .running → d.ops = [] → Takes .rakeParityFault s fun t => ∃ e, hit d uRake e ∧ t = e.resumeRake) ∧
    (d.cfg.phase ≠ .held → d.ust uCfgPort ≠ .faulted → d.cfg.load = none →
      Takes .portControllerParityFault s fun t => hit d uCfgPort t)
end

