-- ==== Sys2Proof/Laws/Tab.lean ====
section
/-! SUPPORT. The laws of sparse tables: a read after a write, the entries a write leaves alone, and the canonical form
that every table operation keeps. -/

namespace Sys2Proof.Machine

variable {α : Type}

/-! ### Reading -/

@[simp] theorem Tab.get_nil (d : α) (i : Nat) : Tab.get d [] i = d := rfl

theorem Tab.get_cons (d : α) (k : Nat) (v : α) (t : Tab α) (i : Nat) :
    Tab.get d ((k, v) :: t) i = if i = k then v else Tab.get d t i := rfl

theorem Tab.get_put_same (d : α) (t : Tab α) (i : Nat) (v : α) : (t.put i v).get d i = v := by
  induction t with
  | nil => simp [Tab.put, Tab.get]
  | cons e t ih =>
    obtain ⟨k, w⟩ := e
    unfold Tab.put
    split_ifs with h1 h2
    · simp [Tab.get]
    · simp [Tab.get]
    · rw [Tab.get_cons, if_neg h1, ih]

theorem Tab.get_put_other (d : α) (t : Tab α) (i j : Nat) (v : α) (h : j ≠ i) : (t.put i v).get d j = t.get d j := by
  induction t with
  | nil => simp [Tab.put, Tab.get, h]
  | cons e t ih =>
    obtain ⟨k, w⟩ := e
    unfold Tab.put
    split_ifs with h1 h2
    · subst h1; simp [Tab.get, h]
    · simp [Tab.get, h]
    · simp [Tab.get, ih]

theorem Tab.get_del_same (d : α) (t : Tab α) (i : Nat) : (t.del i).get d i = d := by
  induction t with
  | nil => rfl
  | cons e t ih =>
    obtain ⟨k, w⟩ := e
    by_cases h : k = i
    · simpa [Tab.del, h] using ih
    · simpa [Tab.del, h, Tab.get, Ne.symm h] using ih

theorem Tab.get_del_other (d : α) (t : Tab α) (i j : Nat) (hj : j ≠ i) : (t.del i).get d j = t.get d j := by
  induction t with
  | nil => rfl
  | cons e t ih =>
    obtain ⟨k, w⟩ := e
    by_cases h : k = i
    · subst h; simpa [Tab.del, Tab.get, hj] using ih
    · have : Tab.del ((k, w) :: t) i = (k, w) :: Tab.del t i := by simp [Tab.del, h]
      rw [this, Tab.get_cons, Tab.get_cons, ih]

/-- A read after a write to the same key gives the value written. -/
@[simp] theorem Tab.get_set_same [DecidableEq α] (d : α) (t : Tab α) (i : Nat) (v : α) : (t.set d i v).get d i = v := by
  unfold Tab.set
  split_ifs with h
  · rw [Tab.get_del_same, h]
  · exact Tab.get_put_same d t i v

/-- A write leaves every other key alone. -/
theorem Tab.get_set_other [DecidableEq α] (d : α) (t : Tab α) (i j : Nat) (v : α) (h : j ≠ i) :
    (t.set d i v).get d j = t.get d j := by
  unfold Tab.set
  split_ifs
  · exact Tab.get_del_other d t i j h
  · exact Tab.get_put_other d t i j v h

/-- Both at once. -/
theorem Tab.get_set [DecidableEq α] (d : α) (t : Tab α) (i j : Nat) (v : α) :
    (t.set d i v).get d j = if j = i then v else t.get d j := by
  split_ifs with h
  · subst h; simp
  · exact Tab.get_set_other d t i j v h

@[simp] theorem Tab.get_modify_same [DecidableEq α] (d : α) (t : Tab α) (i : Nat) (f : α → α) :
    (t.modify d i f).get d i = f (t.get d i) := Tab.get_set_same ..

theorem Tab.get_modify_other [DecidableEq α] (d : α) (t : Tab α) (i j : Nat) (f : α → α) (h : j ≠ i) :
    (t.modify d i f).get d j = t.get d j := Tab.get_set_other _ _ _ _ _ h

theorem Tab.get_modify [DecidableEq α] (d : α) (t : Tab α) (i j : Nat) (f : α → α) :
    (t.modify d i f).get d j = if j = i then f (t.get d i) else t.get d j := Tab.get_set ..

/-- Writing a run of keys leaves every key outside it alone. -/
theorem Tab.get_setList_other [DecidableEq α] (d : α) (vs : List α) (t : Tab α) (i j : Nat)
    (h : j < i ∨ i + vs.length ≤ j) : (t.setList d i vs).get d j = t.get d j := by
  induction vs generalizing t i with
  | nil => rfl
  | cons v vs ih =>
    simp only [List.length_cons] at h
    rw [Tab.setList, ih _ _ (by omega), Tab.get_set_other _ _ _ _ _ (by omega)]

/-- A run of keys reads as it was written. -/
theorem Tab.get_setList [DecidableEq α] (d : α) (vs : List α) (t : Tab α) (i k : Nat) (h : k < vs.length) :
    (t.setList d i vs).get d (i + k) = vs[k] := by
  induction vs generalizing t i k with
  | nil => simp at h
  | cons v vs ih =>
    cases k with
    | zero => rw [Tab.setList, Nat.add_zero, Tab.get_setList_other _ _ _ _ _ (by omega)]; simp
    | succ k =>
      have := ih (t.set d i v) (i + 1) k (by simpa using h)
      simpa [Tab.setList, Nat.add_assoc, Nat.add_comm 1] using this

/-! ### The canonical form -/

theorem Tab.above_iff (t : Tab α) (k : Nat) : t.above k = true ↔ ∀ e ∈ t, k < e.1 := by
  induction t generalizing k with
  | nil => simp [Tab.above]
  | cons e t ih =>
    obtain ⟨j, w⟩ := e
    simp only [Tab.above, Bool.and_eq_true, decide_eq_true_eq, ih, List.forall_mem_cons]

/-- The canonical form in words: keys strictly rising, no entry equal to the default. -/
theorem Tab.wf_iff [DecidableEq α] (d : α) (t : Tab α) :
    t.wf d = true ↔ t.Pairwise (fun a b => a.1 < b.1) ∧ ∀ e ∈ t, e.2 ≠ d := by
  induction t with
  | nil => simp [Tab.wf]
  | cons e t ih =>
    obtain ⟨k, v⟩ := e
    simp only [Tab.wf, Bool.and_eq_true, decide_eq_true_eq, ih, Tab.above_iff, List.pairwise_cons, List.forall_mem_cons]
    tauto

theorem Tab.mem_put (t : Tab α) (i : Nat) (v : α) (e : Nat × α) (h : e ∈ t.put i v) : e = (i, v) ∨ e ∈ t := by
  induction t with
  | nil => simpa [Tab.put] using h
  | cons a t ih =>
    obtain ⟨k, w⟩ := a
    unfold Tab.put at h
    split_ifs at h
    · simp only [List.mem_cons] at h ⊢; tauto
    · simp only [List.mem_cons] at h ⊢; tauto
    · simp only [List.mem_cons] at h ⊢
      rcases h with h | h
      · tauto
      · rcases ih h with h | h <;> tauto

theorem Tab.pairwise_put (t : Tab α) (i : Nat) (v : α) (h : t.Pairwise fun a b => a.1 < b.1) :
    (t.put i v).Pairwise fun a b => a.1 < b.1 := by
  induction t with
  | nil => simp [Tab.put]
  | cons a t ih =>
    obtain ⟨k, w⟩ := a
    rw [List.pairwise_cons] at h
    unfold Tab.put
    split_ifs with h1 h2
    · subst h1; exact List.pairwise_cons.2 ⟨h.1, h.2⟩
    · refine List.pairwise_cons.2 ⟨?_, List.pairwise_cons.2 h⟩
      intro b hb
      rcases List.mem_cons.1 hb with rfl | hb
      · exact h2
      · exact lt_trans h2 (h.1 b hb)
    · refine List.pairwise_cons.2 ⟨?_, ih h.2⟩
      intro b hb
      rcases Tab.mem_put t i v b hb with rfl | hb
      · show k < i; omega
      · exact h.1 b hb

/-- A write keeps the canonical form. -/
theorem Tab.wf_set [DecidableEq α] (d : α) (t : Tab α) (i : Nat) (v : α) (h : t.wf d = true) : (t.set d i v).wf d = true := by
  rw [Tab.wf_iff] at h ⊢
  unfold Tab.set
  split_ifs with hv
  · exact ⟨h.1.filter _, fun e he => h.2 e (List.mem_of_mem_filter he)⟩
  · refine ⟨Tab.pairwise_put t i v h.1, fun e he => ?_⟩
    rcases Tab.mem_put t i v e he with rfl | he
    · exact hv
    · exact h.2 e he

theorem Tab.wf_modify [DecidableEq α] (d : α) (t : Tab α) (i : Nat) (f : α → α) (h : t.wf d = true) :
    (t.modify d i f).wf d = true := Tab.wf_set d t i _ h

theorem Tab.wf_setList [DecidableEq α] (d : α) (vs : List α) (t : Tab α) (i : Nat) (h : t.wf d = true) :
    (t.setList d i vs).wf d = true := by
  induction vs generalizing t i with
  | nil => exact h
  | cons v vs ih => exact ih _ _ (Tab.wf_set d t i v h)

theorem Tab.wf_keep [DecidableEq α] (d : α) (p : Nat → Bool) (t : Tab α) (h : t.wf d = true) : (t.keep p).wf d = true := by
  rw [Tab.wf_iff] at h ⊢
  exact ⟨h.1.filter _, fun e he => h.2 e (List.mem_of_mem_filter he)⟩

/-- In the canonical form equal reads are equal tables. -/
theorem Tab.ext_of_wf [DecidableEq α] (d : α) (t u : Tab α) (ht : t.wf d = true) (hu : u.wf d = true)
    (h : ∀ i, t.get d i = u.get d i) : t = u := by
  induction t generalizing u with
  | nil =>
    cases u with
    | nil => rfl
    | cons e u =>
      obtain ⟨k, v⟩ := e
      have := h k
      simp [Tab.get] at this
      simp [Tab.wf, ← this] at hu
  | cons a t ih =>
    obtain ⟨k, v⟩ := a
    cases u with
    | nil =>
      have := h k
      simp [Tab.get] at this
      simp [Tab.wf, this] at ht
    | cons b u =>
      obtain ⟨j, w⟩ := b
      simp only [Tab.wf, Bool.and_eq_true, decide_eq_true_eq] at ht hu
      have ha : ∀ (s : Tab α) (m i : Nat), s.above m = true → i ≤ m → s.get d i = d := by
        intro s m i hs hi
        rw [Tab.above_iff] at hs
        induction s with
        | nil => rfl
        | cons e s ihs =>
          obtain ⟨x, y⟩ := e
          have hx : m < x := hs (x, y) List.mem_cons_self
          rw [Tab.get_cons, if_neg (by omega), ihs fun e he => hs e (List.mem_cons_of_mem _ he)]
      have hkj : k = j := by
        rcases lt_trichotomy k j with hk | hk | hk
        · have h1 := h k
          rw [Tab.get_cons, if_pos rfl, Tab.get_cons, if_neg (by omega), ha u j k hu.1.2 (by omega)] at h1
          exact absurd h1 ht.1.1
        · exact hk
        · have h1 := h j
          rw [Tab.get_cons, if_neg (by omega), ha t k j ht.1.2 (by omega), Tab.get_cons, if_pos rfl] at h1
          exact absurd h1.symm hu.1.1
      subst hkj
      have hvw : v = w := by simpa [Tab.get] using h k
      subst hvw
      congr 1
      refine ih u ht.2 hu.2 fun i => ?_
      by_cases hi : i = k
      · subst hi; rw [ha t i i ht.1.2 le_rfl, ha u i i hu.1.2 le_rfl]
      · simpa [Tab.get, hi] using h i

end Sys2Proof.Machine
end

