-- ==== Sys2Proof/Laws/Access.lean ====
section
/-! SUPPORT. What each accessor of the device reads after each update: the value put there, and elsewhere the value of
before. The equations where the update touches another part of the device are true by definition. -/

namespace Sys2Proof.Machine

@[simp] theorem Dev.pan_setPan_same (d : Dev) (p : Nat) (v : Pan) :
    (d.setPan p v).pan p = v := by
  simp [Dev.pan, Dev.setPan]

theorem Dev.pan_setPan_other (d : Dev) (p : Nat) (v : Pan) (x : Nat) (h : x ≠ p) :
    (d.setPan p v).pan x = d.pan x :=
  Tab.get_set_other _ _ _ _ _ h

@[simp] theorem Dev.pan_modPan_same (d : Dev) (p : Nat) (f : Pan → Pan) :
    (d.modPan p f).pan p = f (d.pan p) := by
  simp [Dev.pan, Dev.modPan, Dev.setPan]

theorem Dev.pan_modPan_other (d : Dev) (p : Nat) (f : Pan → Pan) (x : Nat) (h : x ≠ p) :
    (d.modPan p f).pan x = d.pan x :=
  Tab.get_set_other _ _ _ _ _ h

@[simp] theorem Dev.nvu_modNv_same (d : Dev) (p : Nat) (f : NvUnit → NvUnit) :
    (d.modNv p f).nvu p = f (d.nvu p) := by
  simp [Dev.nvu, Dev.modNv]

theorem Dev.nvu_modNv_other (d : Dev) (p : Nat) (f : NvUnit → NvUnit) (x : Nat) (h : x ≠ p) :
    (d.modNv p f).nvu x = d.nvu x :=
  Tab.get_modify_other _ _ _ _ _ h

@[simp] theorem Dev.bank_setBank_same (d : Dev) (p : Nat) (v : Bank) :
    (d.setBank p v).bank p = v := by
  simp [Dev.bank, Dev.setBank]

theorem Dev.bank_setBank_other (d : Dev) (p : Nat) (v : Bank) (x : Nat) (h : x ≠ p) :
    (d.setBank p v).bank x = d.bank x :=
  Tab.get_set_other _ _ _ _ _ h

@[simp] theorem Dev.bank_modBank_same (d : Dev) (p : Nat) (f : Bank → Bank) :
    (d.modBank p f).bank p = f (d.bank p) := by
  simp [Dev.bank, Dev.modBank, Dev.setBank]

theorem Dev.bank_modBank_other (d : Dev) (p : Nat) (f : Bank → Bank) (x : Nat) (h : x ≠ p) :
    (d.modBank p f).bank x = d.bank x :=
  Tab.get_set_other _ _ _ _ _ h

@[simp] theorem Dev.hp_modHp_same (d : Dev) (p : Nat) (f : HostPort → HostPort) :
    (d.modHp p f).hp p = f (d.hp p) := by
  simp [Dev.hp, Dev.modHp]

theorem Dev.hp_modHp_other (d : Dev) (p : Nat) (f : HostPort → HostPort) (x : Nat) (h : x ≠ p) :
    (d.modHp p f).hp x = d.hp x :=
  Tab.get_modify_other _ _ _ _ _ h

@[simp] theorem Dev.link_modLink_same (d : Dev) (p : Nat) (f : LinkPort → LinkPort) :
    (d.modLink p f).link p = f (d.link p) := by
  simp [Dev.link, Dev.modLink]

theorem Dev.link_modLink_other (d : Dev) (p : Nat) (f : LinkPort → LinkPort) (x : Nat) (h : x ≠ p) :
    (d.modLink p f).link x = d.link x :=
  Tab.get_modify_other _ _ _ _ _ h

@[simp] theorem Dev.fport_modFport_same (d : Dev) (p : Nat) (f : FPort → FPort) :
    (d.modFport p f).fport p = f (d.fport p) := by
  simp [Dev.fport, Dev.modFport]

theorem Dev.fport_modFport_other (d : Dev) (p : Nat) (f : FPort → FPort) (x : Nat) (h : x ≠ p) :
    (d.modFport p f).fport x = d.fport x :=
  Tab.get_modify_other _ _ _ _ _ h

@[simp] theorem Dev.pin_modPin_same (d : Dev) (p : Nat) (f : Pin → Pin) :
    (d.modPin p f).pin p = f (d.pin p) := by
  simp [Dev.pin, Dev.modPin]

theorem Dev.pin_modPin_other (d : Dev) (p : Nat) (f : Pin → Pin) (x : Nat) (h : x ≠ p) :
    (d.modPin p f).pin x = d.pin x :=
  Tab.get_modify_other _ _ _ _ _ h

@[simp] theorem Dev.op_setOp_same (d : Dev) (p : Nat) (v : Option Op) :
    (d.setOp p v).op p = v := by
  simp [Dev.op, Dev.setOp]

theorem Dev.op_setOp_other (d : Dev) (p : Nat) (v : Option Op) (x : Nat) (h : x ≠ p) :
    (d.setOp p v).op x = d.op x :=
  Tab.get_set_other _ _ _ _ _ h

@[simp] theorem Dev.ing_modIng_same (d : Dev) (p : Nat) (f : Ingress → Ingress) :
    (d.modIng p f).ing p = f (d.ing p) := by
  simp [Dev.ing, Dev.modIng]

theorem Dev.ing_modIng_other (d : Dev) (p : Nat) (f : Ingress → Ingress) (x : Nat) (h : x ≠ p) :
    (d.modIng p f).ing x = d.ing x :=
  Tab.get_modify_other _ _ _ _ _ h

@[simp] theorem Dev.dest_modDest_same (d : Dev) (p : Nat) (f : SlDest → SlDest) :
    (d.modDest p f).dest p = f (d.dest p) := by
  simp [Dev.dest, Dev.modDest]

theorem Dev.dest_modDest_other (d : Dev) (p : Nat) (f : SlDest → SlDest) (x : Nat) (h : x ≠ p) :
    (d.modDest p f).dest x = d.dest x :=
  Tab.get_modify_other _ _ _ _ _ h

@[simp] theorem Dev.req_modReq_same (d : Dev) (p : Nat) (f : SlIn → SlIn) :
    (d.modReq p f).req p = (d.req p).map f := by
  simp [Dev.req, Dev.modReq]

theorem Dev.req_modReq_other (d : Dev) (p : Nat) (f : SlIn → SlIn) (x : Nat) (h : x ≠ p) :
    (d.modReq p f).req x = d.req x :=
  Tab.get_modify_other _ _ _ _ _ h

@[simp] theorem Dev.exec_setKind_same (d : Dev) (p : Nat) (k : ExecKind) :
    (d.setKind p k).exec p = (d.exec p).map fun x => { x with kind := k } := by
  simp [Dev.exec, Dev.setKind]

theorem Dev.exec_setKind_other (d : Dev) (p : Nat) (k : ExecKind) (x : Nat) (h : x ≠ p) :
    (d.setKind p k).exec x = d.exec x :=
  Tab.get_modify_other _ _ _ _ _ h

@[simp] theorem Dev.unit_putUnit_same (d : Dev) (p : Nat) (n : UState) :
    (d.putUnit p n).unit p = { st := n, epoch := nextEpoch (d.unit p).epoch, prior := if n == .asleep then (d.unit p).st else .off } := by
  simp [Dev.unit, Dev.putUnit]

theorem Dev.unit_putUnit_other (d : Dev) (p : Nat) (n : UState) (x : Nat) (h : x ≠ p) :
    (d.putUnit p n).unit x = d.unit x :=
  Tab.get_set_other _ _ _ _ _ h

@[simp] theorem Dev.ust_putUnit_same (d : Dev) (p : Nat) (n : UState) : (d.putUnit p n).ust p = n := by
  simp [Dev.ust]

theorem Dev.ust_putUnit_other (d : Dev) (p : Nat) (n : UState) (x : Nat) (h : x ≠ p) : (d.putUnit p n).ust x = d.ust x := by
  unfold Dev.ust
  rw [Dev.unit_putUnit_other d p n x h]

@[simp] theorem Dev.unit_setPan (d : Dev) (p : Nat) (v : Pan) (x : Nat) : (d.setPan p v).unit x = d.unit x := rfl
@[simp] theorem Dev.ust_setPan (d : Dev) (p : Nat) (v : Pan) (x : Nat) : (d.setPan p v).ust x = d.ust x := rfl
@[simp] theorem Dev.nvu_setPan (d : Dev) (p : Nat) (v : Pan) (x : Nat) : (d.setPan p v).nvu x = d.nvu x := rfl
@[simp] theorem Dev.bank_setPan (d : Dev) (p : Nat) (v : Pan) (x : Nat) : (d.setPan p v).bank x = d.bank x := rfl
@[simp] theorem Dev.hp_setPan (d : Dev) (p : Nat) (v : Pan) (x : Nat) : (d.setPan p v).hp x = d.hp x := rfl
@[simp] theorem Dev.link_setPan (d : Dev) (p : Nat) (v : Pan) (x : Nat) : (d.setPan p v).link x = d.link x := rfl
@[simp] theorem Dev.fport_setPan (d : Dev) (p : Nat) (v : Pan) (x : Nat) : (d.setPan p v).fport x = d.fport x := rfl
@[simp] theorem Dev.pin_setPan (d : Dev) (p : Nat) (v : Pan) (x : Nat) : (d.setPan p v).pin x = d.pin x := rfl
@[simp] theorem Dev.exec_setPan (d : Dev) (p : Nat) (v : Pan) (x : Nat) : (d.setPan p v).exec x = d.exec x := rfl
@[simp] theorem Dev.op_setPan (d : Dev) (p : Nat) (v : Pan) (x : Nat) : (d.setPan p v).op x = d.op x := rfl
@[simp] theorem Dev.mg_setPan (d : Dev) (p : Nat) (v : Pan) (w : MgmtIf) : (d.setPan p v).mg w = d.mg w := rfl
@[simp] theorem Dev.ing_setPan (d : Dev) (p : Nat) (v : Pan) (x : Nat) : (d.setPan p v).ing x = d.ing x := rfl
@[simp] theorem Dev.dest_setPan (d : Dev) (p : Nat) (v : Pan) (x : Nat) : (d.setPan p v).dest x = d.dest x := rfl
@[simp] theorem Dev.req_setPan (d : Dev) (p : Nat) (v : Pan) (x : Nat) : (d.setPan p v).req x = d.req x := rfl
@[simp] theorem Dev.part_setPan (d : Dev) (p : Nat) (v : Pan) (x : Nat) : (d.setPan p v).part x = d.part x := rfl

@[simp] theorem Dev.unit_modPan (d : Dev) (p : Nat) (f : Pan → Pan) (x : Nat) : (d.modPan p f).unit x = d.unit x := rfl
@[simp] theorem Dev.ust_modPan (d : Dev) (p : Nat) (f : Pan → Pan) (x : Nat) : (d.modPan p f).ust x = d.ust x := rfl
@[simp] theorem Dev.nvu_modPan (d : Dev) (p : Nat) (f : Pan → Pan) (x : Nat) : (d.modPan p f).nvu x = d.nvu x := rfl
@[simp] theorem Dev.bank_modPan (d : Dev) (p : Nat) (f : Pan → Pan) (x : Nat) : (d.modPan p f).bank x = d.bank x := rfl
@[simp] theorem Dev.hp_modPan (d : Dev) (p : Nat) (f : Pan → Pan) (x : Nat) : (d.modPan p f).hp x = d.hp x := rfl
@[simp] theorem Dev.link_modPan (d : Dev) (p : Nat) (f : Pan → Pan) (x : Nat) : (d.modPan p f).link x = d.link x := rfl
@[simp] theorem Dev.fport_modPan (d : Dev) (p : Nat) (f : Pan → Pan) (x : Nat) : (d.modPan p f).fport x = d.fport x := rfl
@[simp] theorem Dev.pin_modPan (d : Dev) (p : Nat) (f : Pan → Pan) (x : Nat) : (d.modPan p f).pin x = d.pin x := rfl
@[simp] theorem Dev.exec_modPan (d : Dev) (p : Nat) (f : Pan → Pan) (x : Nat) : (d.modPan p f).exec x = d.exec x := rfl
@[simp] theorem Dev.op_modPan (d : Dev) (p : Nat) (f : Pan → Pan) (x : Nat) : (d.modPan p f).op x = d.op x := rfl
@[simp] theorem Dev.mg_modPan (d : Dev) (p : Nat) (f : Pan → Pan) (w : MgmtIf) : (d.modPan p f).mg w = d.mg w := rfl
@[simp] theorem Dev.ing_modPan (d : Dev) (p : Nat) (f : Pan → Pan) (x : Nat) : (d.modPan p f).ing x = d.ing x := rfl
@[simp] theorem Dev.dest_modPan (d : Dev) (p : Nat) (f : Pan → Pan) (x : Nat) : (d.modPan p f).dest x = d.dest x := rfl
@[simp] theorem Dev.req_modPan (d : Dev) (p : Nat) (f : Pan → Pan) (x : Nat) : (d.modPan p f).req x = d.req x := rfl
@[simp] theorem Dev.part_modPan (d : Dev) (p : Nat) (f : Pan → Pan) (x : Nat) : (d.modPan p f).part x = d.part x := rfl

@[simp] theorem Dev.unit_modNv (d : Dev) (u : Nat) (f : NvUnit → NvUnit) (x : Nat) : (d.modNv u f).unit x = d.unit x := rfl
@[simp] theorem Dev.ust_modNv (d : Dev) (u : Nat) (f : NvUnit → NvUnit) (x : Nat) : (d.modNv u f).ust x = d.ust x := rfl
@[simp] theorem Dev.pan_modNv (d : Dev) (u : Nat) (f : NvUnit → NvUnit) (x : Nat) : (d.modNv u f).pan x = d.pan x := rfl
@[simp] theorem Dev.bank_modNv (d : Dev) (u : Nat) (f : NvUnit → NvUnit) (x : Nat) : (d.modNv u f).bank x = d.bank x := rfl
@[simp] theorem Dev.hp_modNv (d : Dev) (u : Nat) (f : NvUnit → NvUnit) (x : Nat) : (d.modNv u f).hp x = d.hp x := rfl
@[simp] theorem Dev.link_modNv (d : Dev) (u : Nat) (f : NvUnit → NvUnit) (x : Nat) : (d.modNv u f).link x = d.link x := rfl
@[simp] theorem Dev.fport_modNv (d : Dev) (u : Nat) (f : NvUnit → NvUnit) (x : Nat) : (d.modNv u f).fport x = d.fport x := rfl
@[simp] theorem Dev.pin_modNv (d : Dev) (u : Nat) (f : NvUnit → NvUnit) (x : Nat) : (d.modNv u f).pin x = d.pin x := rfl
@[simp] theorem Dev.exec_modNv (d : Dev) (u : Nat) (f : NvUnit → NvUnit) (x : Nat) : (d.modNv u f).exec x = d.exec x := rfl
@[simp] theorem Dev.op_modNv (d : Dev) (u : Nat) (f : NvUnit → NvUnit) (x : Nat) : (d.modNv u f).op x = d.op x := rfl
@[simp] theorem Dev.mg_modNv (d : Dev) (u : Nat) (f : NvUnit → NvUnit) (w : MgmtIf) : (d.modNv u f).mg w = d.mg w := rfl
@[simp] theorem Dev.ing_modNv (d : Dev) (u : Nat) (f : NvUnit → NvUnit) (x : Nat) : (d.modNv u f).ing x = d.ing x := rfl
@[simp] theorem Dev.dest_modNv (d : Dev) (u : Nat) (f : NvUnit → NvUnit) (x : Nat) : (d.modNv u f).dest x = d.dest x := rfl
@[simp] theorem Dev.req_modNv (d : Dev) (u : Nat) (f : NvUnit → NvUnit) (x : Nat) : (d.modNv u f).req x = d.req x := rfl
@[simp] theorem Dev.part_modNv (d : Dev) (u : Nat) (f : NvUnit → NvUnit) (x : Nat) : (d.modNv u f).part x = d.part x := rfl

@[simp] theorem Dev.unit_setBank (d : Dev) (n : Nat) (v : Bank) (x : Nat) : (d.setBank n v).unit x = d.unit x := rfl
@[simp] theorem Dev.ust_setBank (d : Dev) (n : Nat) (v : Bank) (x : Nat) : (d.setBank n v).ust x = d.ust x := rfl
@[simp] theorem Dev.pan_setBank (d : Dev) (n : Nat) (v : Bank) (x : Nat) : (d.setBank n v).pan x = d.pan x := rfl
@[simp] theorem Dev.nvu_setBank (d : Dev) (n : Nat) (v : Bank) (x : Nat) : (d.setBank n v).nvu x = d.nvu x := rfl
@[simp] theorem Dev.hp_setBank (d : Dev) (n : Nat) (v : Bank) (x : Nat) : (d.setBank n v).hp x = d.hp x := rfl
@[simp] theorem Dev.link_setBank (d : Dev) (n : Nat) (v : Bank) (x : Nat) : (d.setBank n v).link x = d.link x := rfl
@[simp] theorem Dev.fport_setBank (d : Dev) (n : Nat) (v : Bank) (x : Nat) : (d.setBank n v).fport x = d.fport x := rfl
@[simp] theorem Dev.pin_setBank (d : Dev) (n : Nat) (v : Bank) (x : Nat) : (d.setBank n v).pin x = d.pin x := rfl
@[simp] theorem Dev.exec_setBank (d : Dev) (n : Nat) (v : Bank) (x : Nat) : (d.setBank n v).exec x = d.exec x := rfl
@[simp] theorem Dev.op_setBank (d : Dev) (n : Nat) (v : Bank) (x : Nat) : (d.setBank n v).op x = d.op x := rfl
@[simp] theorem Dev.mg_setBank (d : Dev) (n : Nat) (v : Bank) (w : MgmtIf) : (d.setBank n v).mg w = d.mg w := rfl
@[simp] theorem Dev.ing_setBank (d : Dev) (n : Nat) (v : Bank) (x : Nat) : (d.setBank n v).ing x = d.ing x := rfl
@[simp] theorem Dev.dest_setBank (d : Dev) (n : Nat) (v : Bank) (x : Nat) : (d.setBank n v).dest x = d.dest x := rfl
@[simp] theorem Dev.req_setBank (d : Dev) (n : Nat) (v : Bank) (x : Nat) : (d.setBank n v).req x = d.req x := rfl
@[simp] theorem Dev.part_setBank (d : Dev) (n : Nat) (v : Bank) (x : Nat) : (d.setBank n v).part x = d.part x := rfl

@[simp] theorem Dev.unit_modBank (d : Dev) (n : Nat) (f : Bank → Bank) (x : Nat) : (d.modBank n f).unit x = d.unit x := rfl
@[simp] theorem Dev.ust_modBank (d : Dev) (n : Nat) (f : Bank → Bank) (x : Nat) : (d.modBank n f).ust x = d.ust x := rfl
@[simp] theorem Dev.pan_modBank (d : Dev) (n : Nat) (f : Bank → Bank) (x : Nat) : (d.modBank n f).pan x = d.pan x := rfl
@[simp] theorem Dev.nvu_modBank (d : Dev) (n : Nat) (f : Bank → Bank) (x : Nat) : (d.modBank n f).nvu x = d.nvu x := rfl
@[simp] theorem Dev.hp_modBank (d : Dev) (n : Nat) (f : Bank → Bank) (x : Nat) : (d.modBank n f).hp x = d.hp x := rfl
@[simp] theorem Dev.link_modBank (d : Dev) (n : Nat) (f : Bank → Bank) (x : Nat) : (d.modBank n f).link x = d.link x := rfl
@[simp] theorem Dev.fport_modBank (d : Dev) (n : Nat) (f : Bank → Bank) (x : Nat) : (d.modBank n f).fport x = d.fport x := rfl
@[simp] theorem Dev.pin_modBank (d : Dev) (n : Nat) (f : Bank → Bank) (x : Nat) : (d.modBank n f).pin x = d.pin x := rfl
@[simp] theorem Dev.exec_modBank (d : Dev) (n : Nat) (f : Bank → Bank) (x : Nat) : (d.modBank n f).exec x = d.exec x := rfl
@[simp] theorem Dev.op_modBank (d : Dev) (n : Nat) (f : Bank → Bank) (x : Nat) : (d.modBank n f).op x = d.op x := rfl
@[simp] theorem Dev.mg_modBank (d : Dev) (n : Nat) (f : Bank → Bank) (w : MgmtIf) : (d.modBank n f).mg w = d.mg w := rfl
@[simp] theorem Dev.ing_modBank (d : Dev) (n : Nat) (f : Bank → Bank) (x : Nat) : (d.modBank n f).ing x = d.ing x := rfl
@[simp] theorem Dev.dest_modBank (d : Dev) (n : Nat) (f : Bank → Bank) (x : Nat) : (d.modBank n f).dest x = d.dest x := rfl
@[simp] theorem Dev.req_modBank (d : Dev) (n : Nat) (f : Bank → Bank) (x : Nat) : (d.modBank n f).req x = d.req x := rfl
@[simp] theorem Dev.part_modBank (d : Dev) (n : Nat) (f : Bank → Bank) (x : Nat) : (d.modBank n f).part x = d.part x := rfl

@[simp] theorem Dev.unit_modHp (d : Dev) (p : Nat) (f : HostPort → HostPort) (x : Nat) : (d.modHp p f).unit x = d.unit x := rfl
@[simp] theorem Dev.ust_modHp (d : Dev) (p : Nat) (f : HostPort → HostPort) (x : Nat) : (d.modHp p f).ust x = d.ust x := rfl
@[simp] theorem Dev.pan_modHp (d : Dev) (p : Nat) (f : HostPort → HostPort) (x : Nat) : (d.modHp p f).pan x = d.pan x := rfl
@[simp] theorem Dev.nvu_modHp (d : Dev) (p : Nat) (f : HostPort → HostPort) (x : Nat) : (d.modHp p f).nvu x = d.nvu x := rfl
@[simp] theorem Dev.bank_modHp (d : Dev) (p : Nat) (f : HostPort → HostPort) (x : Nat) : (d.modHp p f).bank x = d.bank x := rfl
@[simp] theorem Dev.link_modHp (d : Dev) (p : Nat) (f : HostPort → HostPort) (x : Nat) : (d.modHp p f).link x = d.link x := rfl
@[simp] theorem Dev.fport_modHp (d : Dev) (p : Nat) (f : HostPort → HostPort) (x : Nat) : (d.modHp p f).fport x = d.fport x := rfl
@[simp] theorem Dev.pin_modHp (d : Dev) (p : Nat) (f : HostPort → HostPort) (x : Nat) : (d.modHp p f).pin x = d.pin x := rfl
@[simp] theorem Dev.exec_modHp (d : Dev) (p : Nat) (f : HostPort → HostPort) (x : Nat) : (d.modHp p f).exec x = d.exec x := rfl
@[simp] theorem Dev.op_modHp (d : Dev) (p : Nat) (f : HostPort → HostPort) (x : Nat) : (d.modHp p f).op x = d.op x := rfl
@[simp] theorem Dev.mg_modHp (d : Dev) (p : Nat) (f : HostPort → HostPort) (w : MgmtIf) : (d.modHp p f).mg w = d.mg w := rfl
@[simp] theorem Dev.ing_modHp (d : Dev) (p : Nat) (f : HostPort → HostPort) (x : Nat) : (d.modHp p f).ing x = d.ing x := rfl
@[simp] theorem Dev.dest_modHp (d : Dev) (p : Nat) (f : HostPort → HostPort) (x : Nat) : (d.modHp p f).dest x = d.dest x := rfl
@[simp] theorem Dev.req_modHp (d : Dev) (p : Nat) (f : HostPort → HostPort) (x : Nat) : (d.modHp p f).req x = d.req x := rfl
@[simp] theorem Dev.part_modHp (d : Dev) (p : Nat) (f : HostPort → HostPort) (x : Nat) : (d.modHp p f).part x = d.part x := rfl

@[simp] theorem Dev.unit_modSq (d : Dev) (p q : Nat) (f : Sq → Sq) (x : Nat) : (d.modSq p q f).unit x = d.unit x := rfl
@[simp] theorem Dev.ust_modSq (d : Dev) (p q : Nat) (f : Sq → Sq) (x : Nat) : (d.modSq p q f).ust x = d.ust x := rfl
@[simp] theorem Dev.pan_modSq (d : Dev) (p q : Nat) (f : Sq → Sq) (x : Nat) : (d.modSq p q f).pan x = d.pan x := rfl
@[simp] theorem Dev.nvu_modSq (d : Dev) (p q : Nat) (f : Sq → Sq) (x : Nat) : (d.modSq p q f).nvu x = d.nvu x := rfl
@[simp] theorem Dev.bank_modSq (d : Dev) (p q : Nat) (f : Sq → Sq) (x : Nat) : (d.modSq p q f).bank x = d.bank x := rfl
@[simp] theorem Dev.link_modSq (d : Dev) (p q : Nat) (f : Sq → Sq) (x : Nat) : (d.modSq p q f).link x = d.link x := rfl
@[simp] theorem Dev.fport_modSq (d : Dev) (p q : Nat) (f : Sq → Sq) (x : Nat) : (d.modSq p q f).fport x = d.fport x := rfl
@[simp] theorem Dev.pin_modSq (d : Dev) (p q : Nat) (f : Sq → Sq) (x : Nat) : (d.modSq p q f).pin x = d.pin x := rfl
@[simp] theorem Dev.exec_modSq (d : Dev) (p q : Nat) (f : Sq → Sq) (x : Nat) : (d.modSq p q f).exec x = d.exec x := rfl
@[simp] theorem Dev.op_modSq (d : Dev) (p q : Nat) (f : Sq → Sq) (x : Nat) : (d.modSq p q f).op x = d.op x := rfl
@[simp] theorem Dev.mg_modSq (d : Dev) (p q : Nat) (f : Sq → Sq) (w : MgmtIf) : (d.modSq p q f).mg w = d.mg w := rfl
@[simp] theorem Dev.ing_modSq (d : Dev) (p q : Nat) (f : Sq → Sq) (x : Nat) : (d.modSq p q f).ing x = d.ing x := rfl
@[simp] theorem Dev.dest_modSq (d : Dev) (p q : Nat) (f : Sq → Sq) (x : Nat) : (d.modSq p q f).dest x = d.dest x := rfl
@[simp] theorem Dev.req_modSq (d : Dev) (p q : Nat) (f : Sq → Sq) (x : Nat) : (d.modSq p q f).req x = d.req x := rfl
@[simp] theorem Dev.part_modSq (d : Dev) (p q : Nat) (f : Sq → Sq) (x : Nat) : (d.modSq p q f).part x = d.part x := rfl

@[simp] theorem Dev.unit_modCq (d : Dev) (p q : Nat) (f : Cq → Cq) (x : Nat) : (d.modCq p q f).unit x = d.unit x := rfl
@[simp] theorem Dev.ust_modCq (d : Dev) (p q : Nat) (f : Cq → Cq) (x : Nat) : (d.modCq p q f).ust x = d.ust x := rfl
@[simp] theorem Dev.pan_modCq (d : Dev) (p q : Nat) (f : Cq → Cq) (x : Nat) : (d.modCq p q f).pan x = d.pan x := rfl
@[simp] theorem Dev.nvu_modCq (d : Dev) (p q : Nat) (f : Cq → Cq) (x : Nat) : (d.modCq p q f).nvu x = d.nvu x := rfl
@[simp] theorem Dev.bank_modCq (d : Dev) (p q : Nat) (f : Cq → Cq) (x : Nat) : (d.modCq p q f).bank x = d.bank x := rfl
@[simp] theorem Dev.link_modCq (d : Dev) (p q : Nat) (f : Cq → Cq) (x : Nat) : (d.modCq p q f).link x = d.link x := rfl
@[simp] theorem Dev.fport_modCq (d : Dev) (p q : Nat) (f : Cq → Cq) (x : Nat) : (d.modCq p q f).fport x = d.fport x := rfl
@[simp] theorem Dev.pin_modCq (d : Dev) (p q : Nat) (f : Cq → Cq) (x : Nat) : (d.modCq p q f).pin x = d.pin x := rfl
@[simp] theorem Dev.exec_modCq (d : Dev) (p q : Nat) (f : Cq → Cq) (x : Nat) : (d.modCq p q f).exec x = d.exec x := rfl
@[simp] theorem Dev.op_modCq (d : Dev) (p q : Nat) (f : Cq → Cq) (x : Nat) : (d.modCq p q f).op x = d.op x := rfl
@[simp] theorem Dev.mg_modCq (d : Dev) (p q : Nat) (f : Cq → Cq) (w : MgmtIf) : (d.modCq p q f).mg w = d.mg w := rfl
@[simp] theorem Dev.ing_modCq (d : Dev) (p q : Nat) (f : Cq → Cq) (x : Nat) : (d.modCq p q f).ing x = d.ing x := rfl
@[simp] theorem Dev.dest_modCq (d : Dev) (p q : Nat) (f : Cq → Cq) (x : Nat) : (d.modCq p q f).dest x = d.dest x := rfl
@[simp] theorem Dev.req_modCq (d : Dev) (p q : Nat) (f : Cq → Cq) (x : Nat) : (d.modCq p q f).req x = d.req x := rfl
@[simp] theorem Dev.part_modCq (d : Dev) (p q : Nat) (f : Cq → Cq) (x : Nat) : (d.modCq p q f).part x = d.part x := rfl

@[simp] theorem Dev.unit_modLink (d : Dev) (n : Nat) (f : LinkPort → LinkPort) (x : Nat) : (d.modLink n f).unit x = d.unit x := rfl
@[simp] theorem Dev.ust_modLink (d : Dev) (n : Nat) (f : LinkPort → LinkPort) (x : Nat) : (d.modLink n f).ust x = d.ust x := rfl
@[simp] theorem Dev.pan_modLink (d : Dev) (n : Nat) (f : LinkPort → LinkPort) (x : Nat) : (d.modLink n f).pan x = d.pan x := rfl
@[simp] theorem Dev.nvu_modLink (d : Dev) (n : Nat) (f : LinkPort → LinkPort) (x : Nat) : (d.modLink n f).nvu x = d.nvu x := rfl
@[simp] theorem Dev.bank_modLink (d : Dev) (n : Nat) (f : LinkPort → LinkPort) (x : Nat) : (d.modLink n f).bank x = d.bank x := rfl
@[simp] theorem Dev.hp_modLink (d : Dev) (n : Nat) (f : LinkPort → LinkPort) (x : Nat) : (d.modLink n f).hp x = d.hp x := rfl
@[simp] theorem Dev.fport_modLink (d : Dev) (n : Nat) (f : LinkPort → LinkPort) (x : Nat) : (d.modLink n f).fport x = d.fport x := rfl
@[simp] theorem Dev.pin_modLink (d : Dev) (n : Nat) (f : LinkPort → LinkPort) (x : Nat) : (d.modLink n f).pin x = d.pin x := rfl
@[simp] theorem Dev.exec_modLink (d : Dev) (n : Nat) (f : LinkPort → LinkPort) (x : Nat) : (d.modLink n f).exec x = d.exec x := rfl
@[simp] theorem Dev.op_modLink (d : Dev) (n : Nat) (f : LinkPort → LinkPort) (x : Nat) : (d.modLink n f).op x = d.op x := rfl
@[simp] theorem Dev.mg_modLink (d : Dev) (n : Nat) (f : LinkPort → LinkPort) (w : MgmtIf) : (d.modLink n f).mg w = d.mg w := rfl
@[simp] theorem Dev.ing_modLink (d : Dev) (n : Nat) (f : LinkPort → LinkPort) (x : Nat) : (d.modLink n f).ing x = d.ing x := rfl
@[simp] theorem Dev.dest_modLink (d : Dev) (n : Nat) (f : LinkPort → LinkPort) (x : Nat) : (d.modLink n f).dest x = d.dest x := rfl
@[simp] theorem Dev.req_modLink (d : Dev) (n : Nat) (f : LinkPort → LinkPort) (x : Nat) : (d.modLink n f).req x = d.req x := rfl
@[simp] theorem Dev.part_modLink (d : Dev) (n : Nat) (f : LinkPort → LinkPort) (x : Nat) : (d.modLink n f).part x = d.part x := rfl

@[simp] theorem Dev.unit_modFport (d : Dev) (n : Nat) (f : FPort → FPort) (x : Nat) : (d.modFport n f).unit x = d.unit x := rfl
@[simp] theorem Dev.ust_modFport (d : Dev) (n : Nat) (f : FPort → FPort) (x : Nat) : (d.modFport n f).ust x = d.ust x := rfl
@[simp] theorem Dev.pan_modFport (d : Dev) (n : Nat) (f : FPort → FPort) (x : Nat) : (d.modFport n f).pan x = d.pan x := rfl
@[simp] theorem Dev.nvu_modFport (d : Dev) (n : Nat) (f : FPort → FPort) (x : Nat) : (d.modFport n f).nvu x = d.nvu x := rfl
@[simp] theorem Dev.bank_modFport (d : Dev) (n : Nat) (f : FPort → FPort) (x : Nat) : (d.modFport n f).bank x = d.bank x := rfl
@[simp] theorem Dev.hp_modFport (d : Dev) (n : Nat) (f : FPort → FPort) (x : Nat) : (d.modFport n f).hp x = d.hp x := rfl
@[simp] theorem Dev.link_modFport (d : Dev) (n : Nat) (f : FPort → FPort) (x : Nat) : (d.modFport n f).link x = d.link x := rfl
@[simp] theorem Dev.pin_modFport (d : Dev) (n : Nat) (f : FPort → FPort) (x : Nat) : (d.modFport n f).pin x = d.pin x := rfl
@[simp] theorem Dev.exec_modFport (d : Dev) (n : Nat) (f : FPort → FPort) (x : Nat) : (d.modFport n f).exec x = d.exec x := rfl
@[simp] theorem Dev.op_modFport (d : Dev) (n : Nat) (f : FPort → FPort) (x : Nat) : (d.modFport n f).op x = d.op x := rfl
@[simp] theorem Dev.mg_modFport (d : Dev) (n : Nat) (f : FPort → FPort) (w : MgmtIf) : (d.modFport n f).mg w = d.mg w := rfl
@[simp] theorem Dev.ing_modFport (d : Dev) (n : Nat) (f : FPort → FPort) (x : Nat) : (d.modFport n f).ing x = d.ing x := rfl
@[simp] theorem Dev.dest_modFport (d : Dev) (n : Nat) (f : FPort → FPort) (x : Nat) : (d.modFport n f).dest x = d.dest x := rfl
@[simp] theorem Dev.req_modFport (d : Dev) (n : Nat) (f : FPort → FPort) (x : Nat) : (d.modFport n f).req x = d.req x := rfl
@[simp] theorem Dev.part_modFport (d : Dev) (n : Nat) (f : FPort → FPort) (x : Nat) : (d.modFport n f).part x = d.part x := rfl

@[simp] theorem Dev.unit_modPin (d : Dev) (n : Nat) (f : Pin → Pin) (x : Nat) : (d.modPin n f).unit x = d.unit x := rfl
@[simp] theorem Dev.ust_modPin (d : Dev) (n : Nat) (f : Pin → Pin) (x : Nat) : (d.modPin n f).ust x = d.ust x := rfl
@[simp] theorem Dev.pan_modPin (d : Dev) (n : Nat) (f : Pin → Pin) (x : Nat) : (d.modPin n f).pan x = d.pan x := rfl
@[simp] theorem Dev.nvu_modPin (d : Dev) (n : Nat) (f : Pin → Pin) (x : Nat) : (d.modPin n f).nvu x = d.nvu x := rfl
@[simp] theorem Dev.bank_modPin (d : Dev) (n : Nat) (f : Pin → Pin) (x : Nat) : (d.modPin n f).bank x = d.bank x := rfl
@[simp] theorem Dev.hp_modPin (d : Dev) (n : Nat) (f : Pin → Pin) (x : Nat) : (d.modPin n f).hp x = d.hp x := rfl
@[simp] theorem Dev.link_modPin (d : Dev) (n : Nat) (f : Pin → Pin) (x : Nat) : (d.modPin n f).link x = d.link x := rfl
@[simp] theorem Dev.fport_modPin (d : Dev) (n : Nat) (f : Pin → Pin) (x : Nat) : (d.modPin n f).fport x = d.fport x := rfl
@[simp] theorem Dev.exec_modPin (d : Dev) (n : Nat) (f : Pin → Pin) (x : Nat) : (d.modPin n f).exec x = d.exec x := rfl
@[simp] theorem Dev.op_modPin (d : Dev) (n : Nat) (f : Pin → Pin) (x : Nat) : (d.modPin n f).op x = d.op x := rfl
@[simp] theorem Dev.mg_modPin (d : Dev) (n : Nat) (f : Pin → Pin) (w : MgmtIf) : (d.modPin n f).mg w = d.mg w := rfl
@[simp] theorem Dev.ing_modPin (d : Dev) (n : Nat) (f : Pin → Pin) (x : Nat) : (d.modPin n f).ing x = d.ing x := rfl
@[simp] theorem Dev.dest_modPin (d : Dev) (n : Nat) (f : Pin → Pin) (x : Nat) : (d.modPin n f).dest x = d.dest x := rfl
@[simp] theorem Dev.req_modPin (d : Dev) (n : Nat) (f : Pin → Pin) (x : Nat) : (d.modPin n f).req x = d.req x := rfl
@[simp] theorem Dev.part_modPin (d : Dev) (n : Nat) (f : Pin → Pin) (x : Nat) : (d.modPin n f).part x = d.part x := rfl

@[simp] theorem Dev.unit_setKind (d : Dev) (e : Nat) (k : ExecKind) (x : Nat) : (d.setKind e k).unit x = d.unit x := rfl
@[simp] theorem Dev.ust_setKind (d : Dev) (e : Nat) (k : ExecKind) (x : Nat) : (d.setKind e k).ust x = d.ust x := rfl
@[simp] theorem Dev.pan_setKind (d : Dev) (e : Nat) (k : ExecKind) (x : Nat) : (d.setKind e k).pan x = d.pan x := rfl
@[simp] theorem Dev.nvu_setKind (d : Dev) (e : Nat) (k : ExecKind) (x : Nat) : (d.setKind e k).nvu x = d.nvu x := rfl
@[simp] theorem Dev.bank_setKind (d : Dev) (e : Nat) (k : ExecKind) (x : Nat) : (d.setKind e k).bank x = d.bank x := rfl
@[simp] theorem Dev.hp_setKind (d : Dev) (e : Nat) (k : ExecKind) (x : Nat) : (d.setKind e k).hp x = d.hp x := rfl
@[simp] theorem Dev.link_setKind (d : Dev) (e : Nat) (k : ExecKind) (x : Nat) : (d.setKind e k).link x = d.link x := rfl
@[simp] theorem Dev.fport_setKind (d : Dev) (e : Nat) (k : ExecKind) (x : Nat) : (d.setKind e k).fport x = d.fport x := rfl
@[simp] theorem Dev.pin_setKind (d : Dev) (e : Nat) (k : ExecKind) (x : Nat) : (d.setKind e k).pin x = d.pin x := rfl
@[simp] theorem Dev.op_setKind (d : Dev) (e : Nat) (k : ExecKind) (x : Nat) : (d.setKind e k).op x = d.op x := rfl
@[simp] theorem Dev.mg_setKind (d : Dev) (e : Nat) (k : ExecKind) (w : MgmtIf) : (d.setKind e k).mg w = d.mg w := rfl
@[simp] theorem Dev.ing_setKind (d : Dev) (e : Nat) (k : ExecKind) (x : Nat) : (d.setKind e k).ing x = d.ing x := rfl
@[simp] theorem Dev.dest_setKind (d : Dev) (e : Nat) (k : ExecKind) (x : Nat) : (d.setKind e k).dest x = d.dest x := rfl
@[simp] theorem Dev.req_setKind (d : Dev) (e : Nat) (k : ExecKind) (x : Nat) : (d.setKind e k).req x = d.req x := rfl
@[simp] theorem Dev.part_setKind (d : Dev) (e : Nat) (k : ExecKind) (x : Nat) : (d.setKind e k).part x = d.part x := rfl

@[simp] theorem Dev.unit_setOp (d : Dev) (e : Nat) (o : Option Op) (x : Nat) : (d.setOp e o).unit x = d.unit x := rfl
@[simp] theorem Dev.ust_setOp (d : Dev) (e : Nat) (o : Option Op) (x : Nat) : (d.setOp e o).ust x = d.ust x := rfl
@[simp] theorem Dev.pan_setOp (d : Dev) (e : Nat) (o : Option Op) (x : Nat) : (d.setOp e o).pan x = d.pan x := rfl
@[simp] theorem Dev.nvu_setOp (d : Dev) (e : Nat) (o : Option Op) (x : Nat) : (d.setOp e o).nvu x = d.nvu x := rfl
@[simp] theorem Dev.bank_setOp (d : Dev) (e : Nat) (o : Option Op) (x : Nat) : (d.setOp e o).bank x = d.bank x := rfl
@[simp] theorem Dev.hp_setOp (d : Dev) (e : Nat) (o : Option Op) (x : Nat) : (d.setOp e o).hp x = d.hp x := rfl
@[simp] theorem Dev.link_setOp (d : Dev) (e : Nat) (o : Option Op) (x : Nat) : (d.setOp e o).link x = d.link x := rfl
@[simp] theorem Dev.fport_setOp (d : Dev) (e : Nat) (o : Option Op) (x : Nat) : (d.setOp e o).fport x = d.fport x := rfl
@[simp] theorem Dev.pin_setOp (d : Dev) (e : Nat) (o : Option Op) (x : Nat) : (d.setOp e o).pin x = d.pin x := rfl
@[simp] theorem Dev.exec_setOp (d : Dev) (e : Nat) (o : Option Op) (x : Nat) : (d.setOp e o).exec x = d.exec x := rfl
@[simp] theorem Dev.mg_setOp (d : Dev) (e : Nat) (o : Option Op) (w : MgmtIf) : (d.setOp e o).mg w = d.mg w := rfl
@[simp] theorem Dev.ing_setOp (d : Dev) (e : Nat) (o : Option Op) (x : Nat) : (d.setOp e o).ing x = d.ing x := rfl
@[simp] theorem Dev.dest_setOp (d : Dev) (e : Nat) (o : Option Op) (x : Nat) : (d.setOp e o).dest x = d.dest x := rfl
@[simp] theorem Dev.req_setOp (d : Dev) (e : Nat) (o : Option Op) (x : Nat) : (d.setOp e o).req x = d.req x := rfl
@[simp] theorem Dev.part_setOp (d : Dev) (e : Nat) (o : Option Op) (x : Nat) : (d.setOp e o).part x = d.part x := rfl

@[simp] theorem Dev.unit_modMg (d : Dev) (v : MgmtIf) (f : Mgmt → Mgmt) (x : Nat) : (d.modMg v f).unit x = d.unit x := rfl
@[simp] theorem Dev.ust_modMg (d : Dev) (v : MgmtIf) (f : Mgmt → Mgmt) (x : Nat) : (d.modMg v f).ust x = d.ust x := rfl
@[simp] theorem Dev.pan_modMg (d : Dev) (v : MgmtIf) (f : Mgmt → Mgmt) (x : Nat) : (d.modMg v f).pan x = d.pan x := rfl
@[simp] theorem Dev.nvu_modMg (d : Dev) (v : MgmtIf) (f : Mgmt → Mgmt) (x : Nat) : (d.modMg v f).nvu x = d.nvu x := rfl
@[simp] theorem Dev.bank_modMg (d : Dev) (v : MgmtIf) (f : Mgmt → Mgmt) (x : Nat) : (d.modMg v f).bank x = d.bank x := rfl
@[simp] theorem Dev.hp_modMg (d : Dev) (v : MgmtIf) (f : Mgmt → Mgmt) (x : Nat) : (d.modMg v f).hp x = d.hp x := rfl
@[simp] theorem Dev.link_modMg (d : Dev) (v : MgmtIf) (f : Mgmt → Mgmt) (x : Nat) : (d.modMg v f).link x = d.link x := rfl
@[simp] theorem Dev.fport_modMg (d : Dev) (v : MgmtIf) (f : Mgmt → Mgmt) (x : Nat) : (d.modMg v f).fport x = d.fport x := rfl
@[simp] theorem Dev.pin_modMg (d : Dev) (v : MgmtIf) (f : Mgmt → Mgmt) (x : Nat) : (d.modMg v f).pin x = d.pin x := rfl
@[simp] theorem Dev.exec_modMg (d : Dev) (v : MgmtIf) (f : Mgmt → Mgmt) (x : Nat) : (d.modMg v f).exec x = d.exec x := rfl
@[simp] theorem Dev.op_modMg (d : Dev) (v : MgmtIf) (f : Mgmt → Mgmt) (x : Nat) : (d.modMg v f).op x = d.op x := rfl
@[simp] theorem Dev.ing_modMg (d : Dev) (v : MgmtIf) (f : Mgmt → Mgmt) (x : Nat) : (d.modMg v f).ing x = d.ing x := rfl
@[simp] theorem Dev.dest_modMg (d : Dev) (v : MgmtIf) (f : Mgmt → Mgmt) (x : Nat) : (d.modMg v f).dest x = d.dest x := rfl
@[simp] theorem Dev.req_modMg (d : Dev) (v : MgmtIf) (f : Mgmt → Mgmt) (x : Nat) : (d.modMg v f).req x = d.req x := rfl
@[simp] theorem Dev.part_modMg (d : Dev) (v : MgmtIf) (f : Mgmt → Mgmt) (x : Nat) : (d.modMg v f).part x = d.part x := rfl

@[simp] theorem Dev.unit_emit (d : Dev) (o : Output) (x : Nat) : (d.emit o).unit x = d.unit x := rfl
@[simp] theorem Dev.ust_emit (d : Dev) (o : Output) (x : Nat) : (d.emit o).ust x = d.ust x := rfl
@[simp] theorem Dev.pan_emit (d : Dev) (o : Output) (x : Nat) : (d.emit o).pan x = d.pan x := rfl
@[simp] theorem Dev.nvu_emit (d : Dev) (o : Output) (x : Nat) : (d.emit o).nvu x = d.nvu x := rfl
@[simp] theorem Dev.bank_emit (d : Dev) (o : Output) (x : Nat) : (d.emit o).bank x = d.bank x := rfl
@[simp] theorem Dev.hp_emit (d : Dev) (o : Output) (x : Nat) : (d.emit o).hp x = d.hp x := rfl
@[simp] theorem Dev.link_emit (d : Dev) (o : Output) (x : Nat) : (d.emit o).link x = d.link x := rfl
@[simp] theorem Dev.fport_emit (d : Dev) (o : Output) (x : Nat) : (d.emit o).fport x = d.fport x := rfl
@[simp] theorem Dev.pin_emit (d : Dev) (o : Output) (x : Nat) : (d.emit o).pin x = d.pin x := rfl
@[simp] theorem Dev.exec_emit (d : Dev) (o : Output) (x : Nat) : (d.emit o).exec x = d.exec x := rfl
@[simp] theorem Dev.op_emit (d : Dev) (o : Output) (x : Nat) : (d.emit o).op x = d.op x := rfl
@[simp] theorem Dev.mg_emit (d : Dev) (o : Output) (w : MgmtIf) : (d.emit o).mg w = d.mg w := rfl
@[simp] theorem Dev.ing_emit (d : Dev) (o : Output) (x : Nat) : (d.emit o).ing x = d.ing x := rfl
@[simp] theorem Dev.dest_emit (d : Dev) (o : Output) (x : Nat) : (d.emit o).dest x = d.dest x := rfl
@[simp] theorem Dev.req_emit (d : Dev) (o : Output) (x : Nat) : (d.emit o).req x = d.req x := rfl
@[simp] theorem Dev.part_emit (d : Dev) (o : Output) (x : Nat) : (d.emit o).part x = d.part x := rfl

@[simp] theorem Dev.pan_putUnit (d : Dev) (u : Nat) (n : UState) (x : Nat) : (d.putUnit u n).pan x = d.pan x := rfl
@[simp] theorem Dev.nvu_putUnit (d : Dev) (u : Nat) (n : UState) (x : Nat) : (d.putUnit u n).nvu x = d.nvu x := rfl
@[simp] theorem Dev.bank_putUnit (d : Dev) (u : Nat) (n : UState) (x : Nat) : (d.putUnit u n).bank x = d.bank x := rfl
@[simp] theorem Dev.hp_putUnit (d : Dev) (u : Nat) (n : UState) (x : Nat) : (d.putUnit u n).hp x = d.hp x := rfl
@[simp] theorem Dev.link_putUnit (d : Dev) (u : Nat) (n : UState) (x : Nat) : (d.putUnit u n).link x = d.link x := rfl
@[simp] theorem Dev.fport_putUnit (d : Dev) (u : Nat) (n : UState) (x : Nat) : (d.putUnit u n).fport x = d.fport x := rfl
@[simp] theorem Dev.pin_putUnit (d : Dev) (u : Nat) (n : UState) (x : Nat) : (d.putUnit u n).pin x = d.pin x := rfl
@[simp] theorem Dev.exec_putUnit (d : Dev) (u : Nat) (n : UState) (x : Nat) : (d.putUnit u n).exec x = d.exec x := rfl
@[simp] theorem Dev.op_putUnit (d : Dev) (u : Nat) (n : UState) (x : Nat) : (d.putUnit u n).op x = d.op x := rfl
@[simp] theorem Dev.mg_putUnit (d : Dev) (u : Nat) (n : UState) (w : MgmtIf) : (d.putUnit u n).mg w = d.mg w := rfl
@[simp] theorem Dev.ing_putUnit (d : Dev) (u : Nat) (n : UState) (x : Nat) : (d.putUnit u n).ing x = d.ing x := rfl
@[simp] theorem Dev.dest_putUnit (d : Dev) (u : Nat) (n : UState) (x : Nat) : (d.putUnit u n).dest x = d.dest x := rfl
@[simp] theorem Dev.req_putUnit (d : Dev) (u : Nat) (n : UState) (x : Nat) : (d.putUnit u n).req x = d.req x := rfl
@[simp] theorem Dev.part_putUnit (d : Dev) (u : Nat) (n : UState) (x : Nat) : (d.putUnit u n).part x = d.part x := rfl

@[simp] theorem Dev.unit_noteFault (d : Dev) (u st : Nat) (x : Nat) : (d.noteFault u st).unit x = d.unit x := rfl
@[simp] theorem Dev.ust_noteFault (d : Dev) (u st : Nat) (x : Nat) : (d.noteFault u st).ust x = d.ust x := rfl
@[simp] theorem Dev.pan_noteFault (d : Dev) (u st : Nat) (x : Nat) : (d.noteFault u st).pan x = d.pan x := rfl
@[simp] theorem Dev.nvu_noteFault (d : Dev) (u st : Nat) (x : Nat) : (d.noteFault u st).nvu x = d.nvu x := rfl
@[simp] theorem Dev.bank_noteFault (d : Dev) (u st : Nat) (x : Nat) : (d.noteFault u st).bank x = d.bank x := rfl
@[simp] theorem Dev.hp_noteFault (d : Dev) (u st : Nat) (x : Nat) : (d.noteFault u st).hp x = d.hp x := rfl
@[simp] theorem Dev.link_noteFault (d : Dev) (u st : Nat) (x : Nat) : (d.noteFault u st).link x = d.link x := rfl
@[simp] theorem Dev.fport_noteFault (d : Dev) (u st : Nat) (x : Nat) : (d.noteFault u st).fport x = d.fport x := rfl
@[simp] theorem Dev.pin_noteFault (d : Dev) (u st : Nat) (x : Nat) : (d.noteFault u st).pin x = d.pin x := rfl
@[simp] theorem Dev.exec_noteFault (d : Dev) (u st : Nat) (x : Nat) : (d.noteFault u st).exec x = d.exec x := rfl
@[simp] theorem Dev.op_noteFault (d : Dev) (u st : Nat) (x : Nat) : (d.noteFault u st).op x = d.op x := rfl
@[simp] theorem Dev.mg_noteFault (d : Dev) (u st : Nat) (w : MgmtIf) : (d.noteFault u st).mg w = d.mg w := rfl
@[simp] theorem Dev.ing_noteFault (d : Dev) (u st : Nat) (x : Nat) : (d.noteFault u st).ing x = d.ing x := rfl
@[simp] theorem Dev.dest_noteFault (d : Dev) (u st : Nat) (x : Nat) : (d.noteFault u st).dest x = d.dest x := rfl
@[simp] theorem Dev.req_noteFault (d : Dev) (u st : Nat) (x : Nat) : (d.noteFault u st).req x = d.req x := rfl
@[simp] theorem Dev.part_noteFault (d : Dev) (u st : Nat) (x : Nat) : (d.noteFault u st).part x = d.part x := rfl

@[simp] theorem Dev.unit_modIng (d : Dev) (i : Nat) (f : Ingress → Ingress) (x : Nat) : (d.modIng i f).unit x = d.unit x := rfl
@[simp] theorem Dev.ust_modIng (d : Dev) (i : Nat) (f : Ingress → Ingress) (x : Nat) : (d.modIng i f).ust x = d.ust x := rfl
@[simp] theorem Dev.pan_modIng (d : Dev) (i : Nat) (f : Ingress → Ingress) (x : Nat) : (d.modIng i f).pan x = d.pan x := rfl
@[simp] theorem Dev.nvu_modIng (d : Dev) (i : Nat) (f : Ingress → Ingress) (x : Nat) : (d.modIng i f).nvu x = d.nvu x := rfl
@[simp] theorem Dev.bank_modIng (d : Dev) (i : Nat) (f : Ingress → Ingress) (x : Nat) : (d.modIng i f).bank x = d.bank x := rfl
@[simp] theorem Dev.hp_modIng (d : Dev) (i : Nat) (f : Ingress → Ingress) (x : Nat) : (d.modIng i f).hp x = d.hp x := rfl
@[simp] theorem Dev.link_modIng (d : Dev) (i : Nat) (f : Ingress → Ingress) (x : Nat) : (d.modIng i f).link x = d.link x := rfl
@[simp] theorem Dev.fport_modIng (d : Dev) (i : Nat) (f : Ingress → Ingress) (x : Nat) : (d.modIng i f).fport x = d.fport x := rfl
@[simp] theorem Dev.pin_modIng (d : Dev) (i : Nat) (f : Ingress → Ingress) (x : Nat) : (d.modIng i f).pin x = d.pin x := rfl
@[simp] theorem Dev.exec_modIng (d : Dev) (i : Nat) (f : Ingress → Ingress) (x : Nat) : (d.modIng i f).exec x = d.exec x := rfl
@[simp] theorem Dev.op_modIng (d : Dev) (i : Nat) (f : Ingress → Ingress) (x : Nat) : (d.modIng i f).op x = d.op x := rfl
@[simp] theorem Dev.mg_modIng (d : Dev) (i : Nat) (f : Ingress → Ingress) (w : MgmtIf) : (d.modIng i f).mg w = d.mg w := rfl
@[simp] theorem Dev.dest_modIng (d : Dev) (i : Nat) (f : Ingress → Ingress) (x : Nat) : (d.modIng i f).dest x = d.dest x := rfl
@[simp] theorem Dev.req_modIng (d : Dev) (i : Nat) (f : Ingress → Ingress) (x : Nat) : (d.modIng i f).req x = d.req x := rfl
@[simp] theorem Dev.part_modIng (d : Dev) (i : Nat) (f : Ingress → Ingress) (x : Nat) : (d.modIng i f).part x = d.part x := rfl

@[simp] theorem Dev.unit_modDest (d : Dev) (k : Nat) (f : SlDest → SlDest) (x : Nat) : (d.modDest k f).unit x = d.unit x := rfl
@[simp] theorem Dev.ust_modDest (d : Dev) (k : Nat) (f : SlDest → SlDest) (x : Nat) : (d.modDest k f).ust x = d.ust x := rfl
@[simp] theorem Dev.pan_modDest (d : Dev) (k : Nat) (f : SlDest → SlDest) (x : Nat) : (d.modDest k f).pan x = d.pan x := rfl
@[simp] theorem Dev.nvu_modDest (d : Dev) (k : Nat) (f : SlDest → SlDest) (x : Nat) : (d.modDest k f).nvu x = d.nvu x := rfl
@[simp] theorem Dev.bank_modDest (d : Dev) (k : Nat) (f : SlDest → SlDest) (x : Nat) : (d.modDest k f).bank x = d.bank x := rfl
@[simp] theorem Dev.hp_modDest (d : Dev) (k : Nat) (f : SlDest → SlDest) (x : Nat) : (d.modDest k f).hp x = d.hp x := rfl
@[simp] theorem Dev.link_modDest (d : Dev) (k : Nat) (f : SlDest → SlDest) (x : Nat) : (d.modDest k f).link x = d.link x := rfl
@[simp] theorem Dev.fport_modDest (d : Dev) (k : Nat) (f : SlDest → SlDest) (x : Nat) : (d.modDest k f).fport x = d.fport x := rfl
@[simp] theorem Dev.pin_modDest (d : Dev) (k : Nat) (f : SlDest → SlDest) (x : Nat) : (d.modDest k f).pin x = d.pin x := rfl
@[simp] theorem Dev.exec_modDest (d : Dev) (k : Nat) (f : SlDest → SlDest) (x : Nat) : (d.modDest k f).exec x = d.exec x := rfl
@[simp] theorem Dev.op_modDest (d : Dev) (k : Nat) (f : SlDest → SlDest) (x : Nat) : (d.modDest k f).op x = d.op x := rfl
@[simp] theorem Dev.mg_modDest (d : Dev) (k : Nat) (f : SlDest → SlDest) (w : MgmtIf) : (d.modDest k f).mg w = d.mg w := rfl
@[simp] theorem Dev.ing_modDest (d : Dev) (k : Nat) (f : SlDest → SlDest) (x : Nat) : (d.modDest k f).ing x = d.ing x := rfl
@[simp] theorem Dev.req_modDest (d : Dev) (k : Nat) (f : SlDest → SlDest) (x : Nat) : (d.modDest k f).req x = d.req x := rfl
@[simp] theorem Dev.part_modDest (d : Dev) (k : Nat) (f : SlDest → SlDest) (x : Nat) : (d.modDest k f).part x = d.part x := rfl

@[simp] theorem Dev.unit_modReq (d : Dev) (r : Nat) (f : SlIn → SlIn) (x : Nat) : (d.modReq r f).unit x = d.unit x := rfl
@[simp] theorem Dev.ust_modReq (d : Dev) (r : Nat) (f : SlIn → SlIn) (x : Nat) : (d.modReq r f).ust x = d.ust x := rfl
@[simp] theorem Dev.pan_modReq (d : Dev) (r : Nat) (f : SlIn → SlIn) (x : Nat) : (d.modReq r f).pan x = d.pan x := rfl
@[simp] theorem Dev.nvu_modReq (d : Dev) (r : Nat) (f : SlIn → SlIn) (x : Nat) : (d.modReq r f).nvu x = d.nvu x := rfl
@[simp] theorem Dev.bank_modReq (d : Dev) (r : Nat) (f : SlIn → SlIn) (x : Nat) : (d.modReq r f).bank x = d.bank x := rfl
@[simp] theorem Dev.hp_modReq (d : Dev) (r : Nat) (f : SlIn → SlIn) (x : Nat) : (d.modReq r f).hp x = d.hp x := rfl
@[simp] theorem Dev.link_modReq (d : Dev) (r : Nat) (f : SlIn → SlIn) (x : Nat) : (d.modReq r f).link x = d.link x := rfl
@[simp] theorem Dev.fport_modReq (d : Dev) (r : Nat) (f : SlIn → SlIn) (x : Nat) : (d.modReq r f).fport x = d.fport x := rfl
@[simp] theorem Dev.pin_modReq (d : Dev) (r : Nat) (f : SlIn → SlIn) (x : Nat) : (d.modReq r f).pin x = d.pin x := rfl
@[simp] theorem Dev.exec_modReq (d : Dev) (r : Nat) (f : SlIn → SlIn) (x : Nat) : (d.modReq r f).exec x = d.exec x := rfl
@[simp] theorem Dev.op_modReq (d : Dev) (r : Nat) (f : SlIn → SlIn) (x : Nat) : (d.modReq r f).op x = d.op x := rfl
@[simp] theorem Dev.mg_modReq (d : Dev) (r : Nat) (f : SlIn → SlIn) (w : MgmtIf) : (d.modReq r f).mg w = d.mg w := rfl
@[simp] theorem Dev.ing_modReq (d : Dev) (r : Nat) (f : SlIn → SlIn) (x : Nat) : (d.modReq r f).ing x = d.ing x := rfl
@[simp] theorem Dev.dest_modReq (d : Dev) (r : Nat) (f : SlIn → SlIn) (x : Nat) : (d.modReq r f).dest x = d.dest x := rfl
@[simp] theorem Dev.part_modReq (d : Dev) (r : Nat) (f : SlIn → SlIn) (x : Nat) : (d.modReq r f).part x = d.part x := rfl

@[simp] theorem Dev.unit_bankAct (d : Dev) (n a b c : Nat) (x : Nat) : (d.bankAct n a b c).unit x = d.unit x := rfl
@[simp] theorem Dev.ust_bankAct (d : Dev) (n a b c : Nat) (x : Nat) : (d.bankAct n a b c).ust x = d.ust x := rfl
@[simp] theorem Dev.pan_bankAct (d : Dev) (n a b c : Nat) (x : Nat) : (d.bankAct n a b c).pan x = d.pan x := rfl
@[simp] theorem Dev.nvu_bankAct (d : Dev) (n a b c : Nat) (x : Nat) : (d.bankAct n a b c).nvu x = d.nvu x := rfl
@[simp] theorem Dev.bank_bankAct (d : Dev) (n a b c : Nat) (x : Nat) : (d.bankAct n a b c).bank x = d.bank x := rfl
@[simp] theorem Dev.hp_bankAct (d : Dev) (n a b c : Nat) (x : Nat) : (d.bankAct n a b c).hp x = d.hp x := rfl
@[simp] theorem Dev.link_bankAct (d : Dev) (n a b c : Nat) (x : Nat) : (d.bankAct n a b c).link x = d.link x := rfl
@[simp] theorem Dev.fport_bankAct (d : Dev) (n a b c : Nat) (x : Nat) : (d.bankAct n a b c).fport x = d.fport x := rfl
@[simp] theorem Dev.pin_bankAct (d : Dev) (n a b c : Nat) (x : Nat) : (d.bankAct n a b c).pin x = d.pin x := rfl
@[simp] theorem Dev.exec_bankAct (d : Dev) (n a b c : Nat) (x : Nat) : (d.bankAct n a b c).exec x = d.exec x := rfl
@[simp] theorem Dev.op_bankAct (d : Dev) (n a b c : Nat) (x : Nat) : (d.bankAct n a b c).op x = d.op x := rfl
@[simp] theorem Dev.mg_bankAct (d : Dev) (n a b c : Nat) (w : MgmtIf) : (d.bankAct n a b c).mg w = d.mg w := rfl
@[simp] theorem Dev.ing_bankAct (d : Dev) (n a b c : Nat) (x : Nat) : (d.bankAct n a b c).ing x = d.ing x := rfl
@[simp] theorem Dev.dest_bankAct (d : Dev) (n a b c : Nat) (x : Nat) : (d.bankAct n a b c).dest x = d.dest x := rfl
@[simp] theorem Dev.req_bankAct (d : Dev) (n a b c : Nat) (x : Nat) : (d.bankAct n a b c).req x = d.req x := rfl
@[simp] theorem Dev.part_bankAct (d : Dev) (n a b c : Nat) (x : Nat) : (d.bankAct n a b c).part x = d.part x := rfl

@[simp] theorem Dev.unit_panBeats (d : Dev) (n a : Nat) (x : Nat) : (d.panBeats n a).unit x = d.unit x := rfl
@[simp] theorem Dev.ust_panBeats (d : Dev) (n a : Nat) (x : Nat) : (d.panBeats n a).ust x = d.ust x := rfl
@[simp] theorem Dev.pan_panBeats (d : Dev) (n a : Nat) (x : Nat) : (d.panBeats n a).pan x = d.pan x := rfl
@[simp] theorem Dev.nvu_panBeats (d : Dev) (n a : Nat) (x : Nat) : (d.panBeats n a).nvu x = d.nvu x := rfl
@[simp] theorem Dev.bank_panBeats (d : Dev) (n a : Nat) (x : Nat) : (d.panBeats n a).bank x = d.bank x := rfl
@[simp] theorem Dev.hp_panBeats (d : Dev) (n a : Nat) (x : Nat) : (d.panBeats n a).hp x = d.hp x := rfl
@[simp] theorem Dev.link_panBeats (d : Dev) (n a : Nat) (x : Nat) : (d.panBeats n a).link x = d.link x := rfl
@[simp] theorem Dev.fport_panBeats (d : Dev) (n a : Nat) (x : Nat) : (d.panBeats n a).fport x = d.fport x := rfl
@[simp] theorem Dev.pin_panBeats (d : Dev) (n a : Nat) (x : Nat) : (d.panBeats n a).pin x = d.pin x := rfl
@[simp] theorem Dev.exec_panBeats (d : Dev) (n a : Nat) (x : Nat) : (d.panBeats n a).exec x = d.exec x := rfl
@[simp] theorem Dev.op_panBeats (d : Dev) (n a : Nat) (x : Nat) : (d.panBeats n a).op x = d.op x := rfl
@[simp] theorem Dev.mg_panBeats (d : Dev) (n a : Nat) (w : MgmtIf) : (d.panBeats n a).mg w = d.mg w := rfl
@[simp] theorem Dev.ing_panBeats (d : Dev) (n a : Nat) (x : Nat) : (d.panBeats n a).ing x = d.ing x := rfl
@[simp] theorem Dev.dest_panBeats (d : Dev) (n a : Nat) (x : Nat) : (d.panBeats n a).dest x = d.dest x := rfl
@[simp] theorem Dev.req_panBeats (d : Dev) (n a : Nat) (x : Nat) : (d.panBeats n a).req x = d.req x := rfl
@[simp] theorem Dev.part_panBeats (d : Dev) (n a : Nat) (x : Nat) : (d.panBeats n a).part x = d.part x := rfl

end Sys2Proof.Machine
end

