-- ==== Sys2Proof/Laws/State.lean ====
section
/-! SUPPORT. What each named update of the device leaves as it was: one lemma per update and field, so that no proof
unfolds a record update. -/

namespace Sys2Proof.Machine

/-! ### emit -/

@[simp] theorem Dev.emit_fuses (d : Dev) (o : Output) : (d.emit o).fuses = d.fuses := rfl
@[simp] theorem Dev.emit_nv (d : Dev) (o : Output) : (d.emit o).nv = d.nv := rfl
@[simp] theorem Dev.emit_storeNv (d : Dev) (o : Output) : (d.emit o).storeNv = d.storeNv := rfl
@[simp] theorem Dev.emit_units (d : Dev) (o : Output) : (d.emit o).units = d.units := rfl
@[simp] theorem Dev.emit_glb (d : Dev) (o : Output) : (d.emit o).glb = d.glb := rfl
@[simp] theorem Dev.emit_pans (d : Dev) (o : Output) : (d.emit o).pans = d.pans := rfl
@[simp] theorem Dev.emit_cfg (d : Dev) (o : Output) : (d.emit o).cfg = d.cfg := rfl
@[simp] theorem Dev.emit_store (d : Dev) (o : Output) : (d.emit o).store = d.store := rfl
@[simp] theorem Dev.emit_rake (d : Dev) (o : Output) : (d.emit o).rake = d.rake := rfl
@[simp] theorem Dev.emit_sl (d : Dev) (o : Output) : (d.emit o).sl = d.sl := rfl
@[simp] theorem Dev.emit_routes (d : Dev) (o : Output) : (d.emit o).routes = d.routes := rfl
@[simp] theorem Dev.emit_banks (d : Dev) (o : Output) : (d.emit o).banks = d.banks := rfl
@[simp] theorem Dev.emit_hps (d : Dev) (o : Output) : (d.emit o).hps = d.hps := rfl
@[simp] theorem Dev.emit_execs (d : Dev) (o : Output) : (d.emit o).execs = d.execs := rfl
@[simp] theorem Dev.emit_nextExec (d : Dev) (o : Output) : (d.emit o).nextExec = d.nextExec := rfl
@[simp] theorem Dev.emit_links (d : Dev) (o : Output) : (d.emit o).links = d.links := rfl
@[simp] theorem Dev.emit_fports (d : Dev) (o : Output) : (d.emit o).fports = d.fports := rfl
@[simp] theorem Dev.emit_pins (d : Dev) (o : Output) : (d.emit o).pins = d.pins := rfl
@[simp] theorem Dev.emit_time (d : Dev) (o : Output) : (d.emit o).time = d.time := rfl
@[simp] theorem Dev.emit_pwr (d : Dev) (o : Output) : (d.emit o).pwr = d.pwr := rfl
@[simp] theorem Dev.emit_clk (d : Dev) (o : Output) : (d.emit o).clk = d.clk := rfl
@[simp] theorem Dev.emit_bgs (d : Dev) (o : Output) : (d.emit o).bgs = d.bgs := rfl
@[simp] theorem Dev.emit_tele (d : Dev) (o : Output) : (d.emit o).tele = d.tele := rfl
@[simp] theorem Dev.emit_fuse (d : Dev) (o : Output) : (d.emit o).fuse = d.fuse := rfl
@[simp] theorem Dev.emit_mgmt (d : Dev) (o : Output) : (d.emit o).mgmt = d.mgmt := rfl
@[simp] theorem Dev.emit_mblk (d : Dev) (o : Output) : (d.emit o).mblk = d.mblk := rfl
@[simp] theorem Dev.emit_test (d : Dev) (o : Output) : (d.emit o).test = d.test := rfl
@[simp] theorem Dev.emit_pfw (d : Dev) (o : Output) : (d.emit o).pfw = d.pfw := rfl
@[simp] theorem Dev.emit_freeCtr (d : Dev) (o : Output) : (d.emit o).freeCtr = d.freeCtr := rfl

/-! ### setPan -/

@[simp] theorem Dev.setPan_fuses (d : Dev) (p : Nat) (v : Pan) : (d.setPan p v).fuses = d.fuses := rfl
@[simp] theorem Dev.setPan_nv (d : Dev) (p : Nat) (v : Pan) : (d.setPan p v).nv = d.nv := rfl
@[simp] theorem Dev.setPan_storeNv (d : Dev) (p : Nat) (v : Pan) : (d.setPan p v).storeNv = d.storeNv := rfl
@[simp] theorem Dev.setPan_units (d : Dev) (p : Nat) (v : Pan) : (d.setPan p v).units = d.units := rfl
@[simp] theorem Dev.setPan_glb (d : Dev) (p : Nat) (v : Pan) : (d.setPan p v).glb = d.glb := rfl
@[simp] theorem Dev.setPan_cfg (d : Dev) (p : Nat) (v : Pan) : (d.setPan p v).cfg = d.cfg := rfl
@[simp] theorem Dev.setPan_store (d : Dev) (p : Nat) (v : Pan) : (d.setPan p v).store = d.store := rfl
@[simp] theorem Dev.setPan_rake (d : Dev) (p : Nat) (v : Pan) : (d.setPan p v).rake = d.rake := rfl
@[simp] theorem Dev.setPan_sl (d : Dev) (p : Nat) (v : Pan) : (d.setPan p v).sl = d.sl := rfl
@[simp] theorem Dev.setPan_routes (d : Dev) (p : Nat) (v : Pan) : (d.setPan p v).routes = d.routes := rfl
@[simp] theorem Dev.setPan_banks (d : Dev) (p : Nat) (v : Pan) : (d.setPan p v).banks = d.banks := rfl
@[simp] theorem Dev.setPan_hps (d : Dev) (p : Nat) (v : Pan) : (d.setPan p v).hps = d.hps := rfl
@[simp] theorem Dev.setPan_execs (d : Dev) (p : Nat) (v : Pan) : (d.setPan p v).execs = d.execs := rfl
@[simp] theorem Dev.setPan_nextExec (d : Dev) (p : Nat) (v : Pan) : (d.setPan p v).nextExec = d.nextExec := rfl
@[simp] theorem Dev.setPan_links (d : Dev) (p : Nat) (v : Pan) : (d.setPan p v).links = d.links := rfl
@[simp] theorem Dev.setPan_fports (d : Dev) (p : Nat) (v : Pan) : (d.setPan p v).fports = d.fports := rfl
@[simp] theorem Dev.setPan_pins (d : Dev) (p : Nat) (v : Pan) : (d.setPan p v).pins = d.pins := rfl
@[simp] theorem Dev.setPan_time (d : Dev) (p : Nat) (v : Pan) : (d.setPan p v).time = d.time := rfl
@[simp] theorem Dev.setPan_pwr (d : Dev) (p : Nat) (v : Pan) : (d.setPan p v).pwr = d.pwr := rfl
@[simp] theorem Dev.setPan_clk (d : Dev) (p : Nat) (v : Pan) : (d.setPan p v).clk = d.clk := rfl
@[simp] theorem Dev.setPan_bgs (d : Dev) (p : Nat) (v : Pan) : (d.setPan p v).bgs = d.bgs := rfl
@[simp] theorem Dev.setPan_tele (d : Dev) (p : Nat) (v : Pan) : (d.setPan p v).tele = d.tele := rfl
@[simp] theorem Dev.setPan_fuse (d : Dev) (p : Nat) (v : Pan) : (d.setPan p v).fuse = d.fuse := rfl
@[simp] theorem Dev.setPan_mgmt (d : Dev) (p : Nat) (v : Pan) : (d.setPan p v).mgmt = d.mgmt := rfl
@[simp] theorem Dev.setPan_mblk (d : Dev) (p : Nat) (v : Pan) : (d.setPan p v).mblk = d.mblk := rfl
@[simp] theorem Dev.setPan_test (d : Dev) (p : Nat) (v : Pan) : (d.setPan p v).test = d.test := rfl
@[simp] theorem Dev.setPan_pfw (d : Dev) (p : Nat) (v : Pan) : (d.setPan p v).pfw = d.pfw := rfl
@[simp] theorem Dev.setPan_freeCtr (d : Dev) (p : Nat) (v : Pan) : (d.setPan p v).freeCtr = d.freeCtr := rfl
@[simp] theorem Dev.setPan_out (d : Dev) (p : Nat) (v : Pan) : (d.setPan p v).out = d.out := rfl

/-! ### modPan -/

@[simp] theorem Dev.modPan_fuses (d : Dev) (p : Nat) (f : Pan → Pan) : (d.modPan p f).fuses = d.fuses := rfl
@[simp] theorem Dev.modPan_nv (d : Dev) (p : Nat) (f : Pan → Pan) : (d.modPan p f).nv = d.nv := rfl
@[simp] theorem Dev.modPan_storeNv (d : Dev) (p : Nat) (f : Pan → Pan) : (d.modPan p f).storeNv = d.storeNv := rfl
@[simp] theorem Dev.modPan_units (d : Dev) (p : Nat) (f : Pan → Pan) : (d.modPan p f).units = d.units := rfl
@[simp] theorem Dev.modPan_glb (d : Dev) (p : Nat) (f : Pan → Pan) : (d.modPan p f).glb = d.glb := rfl
@[simp] theorem Dev.modPan_cfg (d : Dev) (p : Nat) (f : Pan → Pan) : (d.modPan p f).cfg = d.cfg := rfl
@[simp] theorem Dev.modPan_store (d : Dev) (p : Nat) (f : Pan → Pan) : (d.modPan p f).store = d.store := rfl
@[simp] theorem Dev.modPan_rake (d : Dev) (p : Nat) (f : Pan → Pan) : (d.modPan p f).rake = d.rake := rfl
@[simp] theorem Dev.modPan_sl (d : Dev) (p : Nat) (f : Pan → Pan) : (d.modPan p f).sl = d.sl := rfl
@[simp] theorem Dev.modPan_routes (d : Dev) (p : Nat) (f : Pan → Pan) : (d.modPan p f).routes = d.routes := rfl
@[simp] theorem Dev.modPan_banks (d : Dev) (p : Nat) (f : Pan → Pan) : (d.modPan p f).banks = d.banks := rfl
@[simp] theorem Dev.modPan_hps (d : Dev) (p : Nat) (f : Pan → Pan) : (d.modPan p f).hps = d.hps := rfl
@[simp] theorem Dev.modPan_execs (d : Dev) (p : Nat) (f : Pan → Pan) : (d.modPan p f).execs = d.execs := rfl
@[simp] theorem Dev.modPan_nextExec (d : Dev) (p : Nat) (f : Pan → Pan) : (d.modPan p f).nextExec = d.nextExec := rfl
@[simp] theorem Dev.modPan_links (d : Dev) (p : Nat) (f : Pan → Pan) : (d.modPan p f).links = d.links := rfl
@[simp] theorem Dev.modPan_fports (d : Dev) (p : Nat) (f : Pan → Pan) : (d.modPan p f).fports = d.fports := rfl
@[simp] theorem Dev.modPan_pins (d : Dev) (p : Nat) (f : Pan → Pan) : (d.modPan p f).pins = d.pins := rfl
@[simp] theorem Dev.modPan_time (d : Dev) (p : Nat) (f : Pan → Pan) : (d.modPan p f).time = d.time := rfl
@[simp] theorem Dev.modPan_pwr (d : Dev) (p : Nat) (f : Pan → Pan) : (d.modPan p f).pwr = d.pwr := rfl
@[simp] theorem Dev.modPan_clk (d : Dev) (p : Nat) (f : Pan → Pan) : (d.modPan p f).clk = d.clk := rfl
@[simp] theorem Dev.modPan_bgs (d : Dev) (p : Nat) (f : Pan → Pan) : (d.modPan p f).bgs = d.bgs := rfl
@[simp] theorem Dev.modPan_tele (d : Dev) (p : Nat) (f : Pan → Pan) : (d.modPan p f).tele = d.tele := rfl
@[simp] theorem Dev.modPan_fuse (d : Dev) (p : Nat) (f : Pan → Pan) : (d.modPan p f).fuse = d.fuse := rfl
@[simp] theorem Dev.modPan_mgmt (d : Dev) (p : Nat) (f : Pan → Pan) : (d.modPan p f).mgmt = d.mgmt := rfl
@[simp] theorem Dev.modPan_mblk (d : Dev) (p : Nat) (f : Pan → Pan) : (d.modPan p f).mblk = d.mblk := rfl
@[simp] theorem Dev.modPan_test (d : Dev) (p : Nat) (f : Pan → Pan) : (d.modPan p f).test = d.test := rfl
@[simp] theorem Dev.modPan_pfw (d : Dev) (p : Nat) (f : Pan → Pan) : (d.modPan p f).pfw = d.pfw := rfl
@[simp] theorem Dev.modPan_freeCtr (d : Dev) (p : Nat) (f : Pan → Pan) : (d.modPan p f).freeCtr = d.freeCtr := rfl
@[simp] theorem Dev.modPan_out (d : Dev) (p : Nat) (f : Pan → Pan) : (d.modPan p f).out = d.out := rfl

/-! ### modNv -/

@[simp] theorem Dev.modNv_fuses (d : Dev) (u : Nat) (f : NvUnit → NvUnit) : (d.modNv u f).fuses = d.fuses := rfl
@[simp] theorem Dev.modNv_storeNv (d : Dev) (u : Nat) (f : NvUnit → NvUnit) : (d.modNv u f).storeNv = d.storeNv := rfl
@[simp] theorem Dev.modNv_units (d : Dev) (u : Nat) (f : NvUnit → NvUnit) : (d.modNv u f).units = d.units := rfl
@[simp] theorem Dev.modNv_glb (d : Dev) (u : Nat) (f : NvUnit → NvUnit) : (d.modNv u f).glb = d.glb := rfl
@[simp] theorem Dev.modNv_pans (d : Dev) (u : Nat) (f : NvUnit → NvUnit) : (d.modNv u f).pans = d.pans := rfl
@[simp] theorem Dev.modNv_cfg (d : Dev) (u : Nat) (f : NvUnit → NvUnit) : (d.modNv u f).cfg = d.cfg := rfl
@[simp] theorem Dev.modNv_store (d : Dev) (u : Nat) (f : NvUnit → NvUnit) : (d.modNv u f).store = d.store := rfl
@[simp] theorem Dev.modNv_rake (d : Dev) (u : Nat) (f : NvUnit → NvUnit) : (d.modNv u f).rake = d.rake := rfl
@[simp] theorem Dev.modNv_sl (d : Dev) (u : Nat) (f : NvUnit → NvUnit) : (d.modNv u f).sl = d.sl := rfl
@[simp] theorem Dev.modNv_routes (d : Dev) (u : Nat) (f : NvUnit → NvUnit) : (d.modNv u f).routes = d.routes := rfl
@[simp] theorem Dev.modNv_banks (d : Dev) (u : Nat) (f : NvUnit → NvUnit) : (d.modNv u f).banks = d.banks := rfl
@[simp] theorem Dev.modNv_hps (d : Dev) (u : Nat) (f : NvUnit → NvUnit) : (d.modNv u f).hps = d.hps := rfl
@[simp] theorem Dev.modNv_execs (d : Dev) (u : Nat) (f : NvUnit → NvUnit) : (d.modNv u f).execs = d.execs := rfl
@[simp] theorem Dev.modNv_nextExec (d : Dev) (u : Nat) (f : NvUnit → NvUnit) : (d.modNv u f).nextExec = d.nextExec := rfl
@[simp] theorem Dev.modNv_links (d : Dev) (u : Nat) (f : NvUnit → NvUnit) : (d.modNv u f).links = d.links := rfl
@[simp] theorem Dev.modNv_fports (d : Dev) (u : Nat) (f : NvUnit → NvUnit) : (d.modNv u f).fports = d.fports := rfl
@[simp] theorem Dev.modNv_pins (d : Dev) (u : Nat) (f : NvUnit → NvUnit) : (d.modNv u f).pins = d.pins := rfl
@[simp] theorem Dev.modNv_time (d : Dev) (u : Nat) (f : NvUnit → NvUnit) : (d.modNv u f).time = d.time := rfl
@[simp] theorem Dev.modNv_pwr (d : Dev) (u : Nat) (f : NvUnit → NvUnit) : (d.modNv u f).pwr = d.pwr := rfl
@[simp] theorem Dev.modNv_clk (d : Dev) (u : Nat) (f : NvUnit → NvUnit) : (d.modNv u f).clk = d.clk := rfl
@[simp] theorem Dev.modNv_bgs (d : Dev) (u : Nat) (f : NvUnit → NvUnit) : (d.modNv u f).bgs = d.bgs := rfl
@[simp] theorem Dev.modNv_tele (d : Dev) (u : Nat) (f : NvUnit → NvUnit) : (d.modNv u f).tele = d.tele := rfl
@[simp] theorem Dev.modNv_fuse (d : Dev) (u : Nat) (f : NvUnit → NvUnit) : (d.modNv u f).fuse = d.fuse := rfl
@[simp] theorem Dev.modNv_mgmt (d : Dev) (u : Nat) (f : NvUnit → NvUnit) : (d.modNv u f).mgmt = d.mgmt := rfl
@[simp] theorem Dev.modNv_mblk (d : Dev) (u : Nat) (f : NvUnit → NvUnit) : (d.modNv u f).mblk = d.mblk := rfl
@[simp] theorem Dev.modNv_test (d : Dev) (u : Nat) (f : NvUnit → NvUnit) : (d.modNv u f).test = d.test := rfl
@[simp] theorem Dev.modNv_pfw (d : Dev) (u : Nat) (f : NvUnit → NvUnit) : (d.modNv u f).pfw = d.pfw := rfl
@[simp] theorem Dev.modNv_freeCtr (d : Dev) (u : Nat) (f : NvUnit → NvUnit) : (d.modNv u f).freeCtr = d.freeCtr := rfl
@[simp] theorem Dev.modNv_out (d : Dev) (u : Nat) (f : NvUnit → NvUnit) : (d.modNv u f).out = d.out := rfl

/-! ### setBank -/

@[simp] theorem Dev.setBank_fuses (d : Dev) (n : Nat) (v : Bank) : (d.setBank n v).fuses = d.fuses := rfl
@[simp] theorem Dev.setBank_nv (d : Dev) (n : Nat) (v : Bank) : (d.setBank n v).nv = d.nv := rfl
@[simp] theorem Dev.setBank_storeNv (d : Dev) (n : Nat) (v : Bank) : (d.setBank n v).storeNv = d.storeNv := rfl
@[simp] theorem Dev.setBank_units (d : Dev) (n : Nat) (v : Bank) : (d.setBank n v).units = d.units := rfl
@[simp] theorem Dev.setBank_glb (d : Dev) (n : Nat) (v : Bank) : (d.setBank n v).glb = d.glb := rfl
@[simp] theorem Dev.setBank_pans (d : Dev) (n : Nat) (v : Bank) : (d.setBank n v).pans = d.pans := rfl
@[simp] theorem Dev.setBank_cfg (d : Dev) (n : Nat) (v : Bank) : (d.setBank n v).cfg = d.cfg := rfl
@[simp] theorem Dev.setBank_store (d : Dev) (n : Nat) (v : Bank) : (d.setBank n v).store = d.store := rfl
@[simp] theorem Dev.setBank_rake (d : Dev) (n : Nat) (v : Bank) : (d.setBank n v).rake = d.rake := rfl
@[simp] theorem Dev.setBank_sl (d : Dev) (n : Nat) (v : Bank) : (d.setBank n v).sl = d.sl := rfl
@[simp] theorem Dev.setBank_routes (d : Dev) (n : Nat) (v : Bank) : (d.setBank n v).routes = d.routes := rfl
@[simp] theorem Dev.setBank_hps (d : Dev) (n : Nat) (v : Bank) : (d.setBank n v).hps = d.hps := rfl
@[simp] theorem Dev.setBank_execs (d : Dev) (n : Nat) (v : Bank) : (d.setBank n v).execs = d.execs := rfl
@[simp] theorem Dev.setBank_nextExec (d : Dev) (n : Nat) (v : Bank) : (d.setBank n v).nextExec = d.nextExec := rfl
@[simp] theorem Dev.setBank_links (d : Dev) (n : Nat) (v : Bank) : (d.setBank n v).links = d.links := rfl
@[simp] theorem Dev.setBank_fports (d : Dev) (n : Nat) (v : Bank) : (d.setBank n v).fports = d.fports := rfl
@[simp] theorem Dev.setBank_pins (d : Dev) (n : Nat) (v : Bank) : (d.setBank n v).pins = d.pins := rfl
@[simp] theorem Dev.setBank_time (d : Dev) (n : Nat) (v : Bank) : (d.setBank n v).time = d.time := rfl
@[simp] theorem Dev.setBank_pwr (d : Dev) (n : Nat) (v : Bank) : (d.setBank n v).pwr = d.pwr := rfl
@[simp] theorem Dev.setBank_clk (d : Dev) (n : Nat) (v : Bank) : (d.setBank n v).clk = d.clk := rfl
@[simp] theorem Dev.setBank_bgs (d : Dev) (n : Nat) (v : Bank) : (d.setBank n v).bgs = d.bgs := rfl
@[simp] theorem Dev.setBank_tele (d : Dev) (n : Nat) (v : Bank) : (d.setBank n v).tele = d.tele := rfl
@[simp] theorem Dev.setBank_fuse (d : Dev) (n : Nat) (v : Bank) : (d.setBank n v).fuse = d.fuse := rfl
@[simp] theorem Dev.setBank_mgmt (d : Dev) (n : Nat) (v : Bank) : (d.setBank n v).mgmt = d.mgmt := rfl
@[simp] theorem Dev.setBank_mblk (d : Dev) (n : Nat) (v : Bank) : (d.setBank n v).mblk = d.mblk := rfl
@[simp] theorem Dev.setBank_test (d : Dev) (n : Nat) (v : Bank) : (d.setBank n v).test = d.test := rfl
@[simp] theorem Dev.setBank_pfw (d : Dev) (n : Nat) (v : Bank) : (d.setBank n v).pfw = d.pfw := rfl
@[simp] theorem Dev.setBank_freeCtr (d : Dev) (n : Nat) (v : Bank) : (d.setBank n v).freeCtr = d.freeCtr := rfl
@[simp] theorem Dev.setBank_out (d : Dev) (n : Nat) (v : Bank) : (d.setBank n v).out = d.out := rfl

/-! ### modBank -/

@[simp] theorem Dev.modBank_fuses (d : Dev) (n : Nat) (f : Bank → Bank) : (d.modBank n f).fuses = d.fuses := rfl
@[simp] theorem Dev.modBank_nv (d : Dev) (n : Nat) (f : Bank → Bank) : (d.modBank n f).nv = d.nv := rfl
@[simp] theorem Dev.modBank_storeNv (d : Dev) (n : Nat) (f : Bank → Bank) : (d.modBank n f).storeNv = d.storeNv := rfl
@[simp] theorem Dev.modBank_units (d : Dev) (n : Nat) (f : Bank → Bank) : (d.modBank n f).units = d.units := rfl
@[simp] theorem Dev.modBank_glb (d : Dev) (n : Nat) (f : Bank → Bank) : (d.modBank n f).glb = d.glb := rfl
@[simp] theorem Dev.modBank_pans (d : Dev) (n : Nat) (f : Bank → Bank) : (d.modBank n f).pans = d.pans := rfl
@[simp] theorem Dev.modBank_cfg (d : Dev) (n : Nat) (f : Bank → Bank) : (d.modBank n f).cfg = d.cfg := rfl
@[simp] theorem Dev.modBank_store (d : Dev) (n : Nat) (f : Bank → Bank) : (d.modBank n f).store = d.store := rfl
@[simp] theorem Dev.modBank_rake (d : Dev) (n : Nat) (f : Bank → Bank) : (d.modBank n f).rake = d.rake := rfl
@[simp] theorem Dev.modBank_sl (d : Dev) (n : Nat) (f : Bank → Bank) : (d.modBank n f).sl = d.sl := rfl
@[simp] theorem Dev.modBank_routes (d : Dev) (n : Nat) (f : Bank → Bank) : (d.modBank n f).routes = d.routes := rfl
@[simp] theorem Dev.modBank_hps (d : Dev) (n : Nat) (f : Bank → Bank) : (d.modBank n f).hps = d.hps := rfl
@[simp] theorem Dev.modBank_execs (d : Dev) (n : Nat) (f : Bank → Bank) : (d.modBank n f).execs = d.execs := rfl
@[simp] theorem Dev.modBank_nextExec (d : Dev) (n : Nat) (f : Bank → Bank) : (d.modBank n f).nextExec = d.nextExec := rfl
@[simp] theorem Dev.modBank_links (d : Dev) (n : Nat) (f : Bank → Bank) : (d.modBank n f).links = d.links := rfl
@[simp] theorem Dev.modBank_fports (d : Dev) (n : Nat) (f : Bank → Bank) : (d.modBank n f).fports = d.fports := rfl
@[simp] theorem Dev.modBank_pins (d : Dev) (n : Nat) (f : Bank → Bank) : (d.modBank n f).pins = d.pins := rfl
@[simp] theorem Dev.modBank_time (d : Dev) (n : Nat) (f : Bank → Bank) : (d.modBank n f).time = d.time := rfl
@[simp] theorem Dev.modBank_pwr (d : Dev) (n : Nat) (f : Bank → Bank) : (d.modBank n f).pwr = d.pwr := rfl
@[simp] theorem Dev.modBank_clk (d : Dev) (n : Nat) (f : Bank → Bank) : (d.modBank n f).clk = d.clk := rfl
@[simp] theorem Dev.modBank_bgs (d : Dev) (n : Nat) (f : Bank → Bank) : (d.modBank n f).bgs = d.bgs := rfl
@[simp] theorem Dev.modBank_tele (d : Dev) (n : Nat) (f : Bank → Bank) : (d.modBank n f).tele = d.tele := rfl
@[simp] theorem Dev.modBank_fuse (d : Dev) (n : Nat) (f : Bank → Bank) : (d.modBank n f).fuse = d.fuse := rfl
@[simp] theorem Dev.modBank_mgmt (d : Dev) (n : Nat) (f : Bank → Bank) : (d.modBank n f).mgmt = d.mgmt := rfl
@[simp] theorem Dev.modBank_mblk (d : Dev) (n : Nat) (f : Bank → Bank) : (d.modBank n f).mblk = d.mblk := rfl
@[simp] theorem Dev.modBank_test (d : Dev) (n : Nat) (f : Bank → Bank) : (d.modBank n f).test = d.test := rfl
@[simp] theorem Dev.modBank_pfw (d : Dev) (n : Nat) (f : Bank → Bank) : (d.modBank n f).pfw = d.pfw := rfl
@[simp] theorem Dev.modBank_freeCtr (d : Dev) (n : Nat) (f : Bank → Bank) : (d.modBank n f).freeCtr = d.freeCtr := rfl
@[simp] theorem Dev.modBank_out (d : Dev) (n : Nat) (f : Bank → Bank) : (d.modBank n f).out = d.out := rfl

/-! ### modHp -/

@[simp] theorem Dev.modHp_fuses (d : Dev) (p : Nat) (f : HostPort → HostPort) : (d.modHp p f).fuses = d.fuses := rfl
@[simp] theorem Dev.modHp_nv (d : Dev) (p : Nat) (f : HostPort → HostPort) : (d.modHp p f).nv = d.nv := rfl
@[simp] theorem Dev.modHp_storeNv (d : Dev) (p : Nat) (f : HostPort → HostPort) : (d.modHp p f).storeNv = d.storeNv := rfl
@[simp] theorem Dev.modHp_units (d : Dev) (p : Nat) (f : HostPort → HostPort) : (d.modHp p f).units = d.units := rfl
@[simp] theorem Dev.modHp_glb (d : Dev) (p : Nat) (f : HostPort → HostPort) : (d.modHp p f).glb = d.glb := rfl
@[simp] theorem Dev.modHp_pans (d : Dev) (p : Nat) (f : HostPort → HostPort) : (d.modHp p f).pans = d.pans := rfl
@[simp] theorem Dev.modHp_cfg (d : Dev) (p : Nat) (f : HostPort → HostPort) : (d.modHp p f).cfg = d.cfg := rfl
@[simp] theorem Dev.modHp_store (d : Dev) (p : Nat) (f : HostPort → HostPort) : (d.modHp p f).store = d.store := rfl
@[simp] theorem Dev.modHp_rake (d : Dev) (p : Nat) (f : HostPort → HostPort) : (d.modHp p f).rake = d.rake := rfl
@[simp] theorem Dev.modHp_sl (d : Dev) (p : Nat) (f : HostPort → HostPort) : (d.modHp p f).sl = d.sl := rfl
@[simp] theorem Dev.modHp_routes (d : Dev) (p : Nat) (f : HostPort → HostPort) : (d.modHp p f).routes = d.routes := rfl
@[simp] theorem Dev.modHp_banks (d : Dev) (p : Nat) (f : HostPort → HostPort) : (d.modHp p f).banks = d.banks := rfl
@[simp] theorem Dev.modHp_execs (d : Dev) (p : Nat) (f : HostPort → HostPort) : (d.modHp p f).execs = d.execs := rfl
@[simp] theorem Dev.modHp_nextExec (d : Dev) (p : Nat) (f : HostPort → HostPort) : (d.modHp p f).nextExec = d.nextExec := rfl
@[simp] theorem Dev.modHp_links (d : Dev) (p : Nat) (f : HostPort → HostPort) : (d.modHp p f).links = d.links := rfl
@[simp] theorem Dev.modHp_fports (d : Dev) (p : Nat) (f : HostPort → HostPort) : (d.modHp p f).fports = d.fports := rfl
@[simp] theorem Dev.modHp_pins (d : Dev) (p : Nat) (f : HostPort → HostPort) : (d.modHp p f).pins = d.pins := rfl
@[simp] theorem Dev.modHp_time (d : Dev) (p : Nat) (f : HostPort → HostPort) : (d.modHp p f).time = d.time := rfl
@[simp] theorem Dev.modHp_pwr (d : Dev) (p : Nat) (f : HostPort → HostPort) : (d.modHp p f).pwr = d.pwr := rfl
@[simp] theorem Dev.modHp_clk (d : Dev) (p : Nat) (f : HostPort → HostPort) : (d.modHp p f).clk = d.clk := rfl
@[simp] theorem Dev.modHp_bgs (d : Dev) (p : Nat) (f : HostPort → HostPort) : (d.modHp p f).bgs = d.bgs := rfl
@[simp] theorem Dev.modHp_tele (d : Dev) (p : Nat) (f : HostPort → HostPort) : (d.modHp p f).tele = d.tele := rfl
@[simp] theorem Dev.modHp_fuse (d : Dev) (p : Nat) (f : HostPort → HostPort) : (d.modHp p f).fuse = d.fuse := rfl
@[simp] theorem Dev.modHp_mgmt (d : Dev) (p : Nat) (f : HostPort → HostPort) : (d.modHp p f).mgmt = d.mgmt := rfl
@[simp] theorem Dev.modHp_mblk (d : Dev) (p : Nat) (f : HostPort → HostPort) : (d.modHp p f).mblk = d.mblk := rfl
@[simp] theorem Dev.modHp_test (d : Dev) (p : Nat) (f : HostPort → HostPort) : (d.modHp p f).test = d.test := rfl
@[simp] theorem Dev.modHp_pfw (d : Dev) (p : Nat) (f : HostPort → HostPort) : (d.modHp p f).pfw = d.pfw := rfl
@[simp] theorem Dev.modHp_freeCtr (d : Dev) (p : Nat) (f : HostPort → HostPort) : (d.modHp p f).freeCtr = d.freeCtr := rfl
@[simp] theorem Dev.modHp_out (d : Dev) (p : Nat) (f : HostPort → HostPort) : (d.modHp p f).out = d.out := rfl

/-! ### modSq -/

@[simp] theorem Dev.modSq_fuses (d : Dev) (p q : Nat) (f : Sq → Sq) : (d.modSq p q f).fuses = d.fuses := rfl
@[simp] theorem Dev.modSq_nv (d : Dev) (p q : Nat) (f : Sq → Sq) : (d.modSq p q f).nv = d.nv := rfl
@[simp] theorem Dev.modSq_storeNv (d : Dev) (p q : Nat) (f : Sq → Sq) : (d.modSq p q f).storeNv = d.storeNv := rfl
@[simp] theorem Dev.modSq_units (d : Dev) (p q : Nat) (f : Sq → Sq) : (d.modSq p q f).units = d.units := rfl
@[simp] theorem Dev.modSq_glb (d : Dev) (p q : Nat) (f : Sq → Sq) : (d.modSq p q f).glb = d.glb := rfl
@[simp] theorem Dev.modSq_pans (d : Dev) (p q : Nat) (f : Sq → Sq) : (d.modSq p q f).pans = d.pans := rfl
@[simp] theorem Dev.modSq_cfg (d : Dev) (p q : Nat) (f : Sq → Sq) : (d.modSq p q f).cfg = d.cfg := rfl
@[simp] theorem Dev.modSq_store (d : Dev) (p q : Nat) (f : Sq → Sq) : (d.modSq p q f).store = d.store := rfl
@[simp] theorem Dev.modSq_rake (d : Dev) (p q : Nat) (f : Sq → Sq) : (d.modSq p q f).rake = d.rake := rfl
@[simp] theorem Dev.modSq_sl (d : Dev) (p q : Nat) (f : Sq → Sq) : (d.modSq p q f).sl = d.sl := rfl
@[simp] theorem Dev.modSq_routes (d : Dev) (p q : Nat) (f : Sq → Sq) : (d.modSq p q f).routes = d.routes := rfl
@[simp] theorem Dev.modSq_banks (d : Dev) (p q : Nat) (f : Sq → Sq) : (d.modSq p q f).banks = d.banks := rfl
@[simp] theorem Dev.modSq_execs (d : Dev) (p q : Nat) (f : Sq → Sq) : (d.modSq p q f).execs = d.execs := rfl
@[simp] theorem Dev.modSq_nextExec (d : Dev) (p q : Nat) (f : Sq → Sq) : (d.modSq p q f).nextExec = d.nextExec := rfl
@[simp] theorem Dev.modSq_links (d : Dev) (p q : Nat) (f : Sq → Sq) : (d.modSq p q f).links = d.links := rfl
@[simp] theorem Dev.modSq_fports (d : Dev) (p q : Nat) (f : Sq → Sq) : (d.modSq p q f).fports = d.fports := rfl
@[simp] theorem Dev.modSq_pins (d : Dev) (p q : Nat) (f : Sq → Sq) : (d.modSq p q f).pins = d.pins := rfl
@[simp] theorem Dev.modSq_time (d : Dev) (p q : Nat) (f : Sq → Sq) : (d.modSq p q f).time = d.time := rfl
@[simp] theorem Dev.modSq_pwr (d : Dev) (p q : Nat) (f : Sq → Sq) : (d.modSq p q f).pwr = d.pwr := rfl
@[simp] theorem Dev.modSq_clk (d : Dev) (p q : Nat) (f : Sq → Sq) : (d.modSq p q f).clk = d.clk := rfl
@[simp] theorem Dev.modSq_bgs (d : Dev) (p q : Nat) (f : Sq → Sq) : (d.modSq p q f).bgs = d.bgs := rfl
@[simp] theorem Dev.modSq_tele (d : Dev) (p q : Nat) (f : Sq → Sq) : (d.modSq p q f).tele = d.tele := rfl
@[simp] theorem Dev.modSq_fuse (d : Dev) (p q : Nat) (f : Sq → Sq) : (d.modSq p q f).fuse = d.fuse := rfl
@[simp] theorem Dev.modSq_mgmt (d : Dev) (p q : Nat) (f : Sq → Sq) : (d.modSq p q f).mgmt = d.mgmt := rfl
@[simp] theorem Dev.modSq_mblk (d : Dev) (p q : Nat) (f : Sq → Sq) : (d.modSq p q f).mblk = d.mblk := rfl
@[simp] theorem Dev.modSq_test (d : Dev) (p q : Nat) (f : Sq → Sq) : (d.modSq p q f).test = d.test := rfl
@[simp] theorem Dev.modSq_pfw (d : Dev) (p q : Nat) (f : Sq → Sq) : (d.modSq p q f).pfw = d.pfw := rfl
@[simp] theorem Dev.modSq_freeCtr (d : Dev) (p q : Nat) (f : Sq → Sq) : (d.modSq p q f).freeCtr = d.freeCtr := rfl
@[simp] theorem Dev.modSq_out (d : Dev) (p q : Nat) (f : Sq → Sq) : (d.modSq p q f).out = d.out := rfl

/-! ### modCq -/

@[simp] theorem Dev.modCq_fuses (d : Dev) (p q : Nat) (f : Cq → Cq) : (d.modCq p q f).fuses = d.fuses := rfl
@[simp] theorem Dev.modCq_nv (d : Dev) (p q : Nat) (f : Cq → Cq) : (d.modCq p q f).nv = d.nv := rfl
@[simp] theorem Dev.modCq_storeNv (d : Dev) (p q : Nat) (f : Cq → Cq) : (d.modCq p q f).storeNv = d.storeNv := rfl
@[simp] theorem Dev.modCq_units (d : Dev) (p q : Nat) (f : Cq → Cq) : (d.modCq p q f).units = d.units := rfl
@[simp] theorem Dev.modCq_glb (d : Dev) (p q : Nat) (f : Cq → Cq) : (d.modCq p q f).glb = d.glb := rfl
@[simp] theorem Dev.modCq_pans (d : Dev) (p q : Nat) (f : Cq → Cq) : (d.modCq p q f).pans = d.pans := rfl
@[simp] theorem Dev.modCq_cfg (d : Dev) (p q : Nat) (f : Cq → Cq) : (d.modCq p q f).cfg = d.cfg := rfl
@[simp] theorem Dev.modCq_store (d : Dev) (p q : Nat) (f : Cq → Cq) : (d.modCq p q f).store = d.store := rfl
@[simp] theorem Dev.modCq_rake (d : Dev) (p q : Nat) (f : Cq → Cq) : (d.modCq p q f).rake = d.rake := rfl
@[simp] theorem Dev.modCq_sl (d : Dev) (p q : Nat) (f : Cq → Cq) : (d.modCq p q f).sl = d.sl := rfl
@[simp] theorem Dev.modCq_routes (d : Dev) (p q : Nat) (f : Cq → Cq) : (d.modCq p q f).routes = d.routes := rfl
@[simp] theorem Dev.modCq_banks (d : Dev) (p q : Nat) (f : Cq → Cq) : (d.modCq p q f).banks = d.banks := rfl
@[simp] theorem Dev.modCq_execs (d : Dev) (p q : Nat) (f : Cq → Cq) : (d.modCq p q f).execs = d.execs := rfl
@[simp] theorem Dev.modCq_nextExec (d : Dev) (p q : Nat) (f : Cq → Cq) : (d.modCq p q f).nextExec = d.nextExec := rfl
@[simp] theorem Dev.modCq_links (d : Dev) (p q : Nat) (f : Cq → Cq) : (d.modCq p q f).links = d.links := rfl
@[simp] theorem Dev.modCq_fports (d : Dev) (p q : Nat) (f : Cq → Cq) : (d.modCq p q f).fports = d.fports := rfl
@[simp] theorem Dev.modCq_pins (d : Dev) (p q : Nat) (f : Cq → Cq) : (d.modCq p q f).pins = d.pins := rfl
@[simp] theorem Dev.modCq_time (d : Dev) (p q : Nat) (f : Cq → Cq) : (d.modCq p q f).time = d.time := rfl
@[simp] theorem Dev.modCq_pwr (d : Dev) (p q : Nat) (f : Cq → Cq) : (d.modCq p q f).pwr = d.pwr := rfl
@[simp] theorem Dev.modCq_clk (d : Dev) (p q : Nat) (f : Cq → Cq) : (d.modCq p q f).clk = d.clk := rfl
@[simp] theorem Dev.modCq_bgs (d : Dev) (p q : Nat) (f : Cq → Cq) : (d.modCq p q f).bgs = d.bgs := rfl
@[simp] theorem Dev.modCq_tele (d : Dev) (p q : Nat) (f : Cq → Cq) : (d.modCq p q f).tele = d.tele := rfl
@[simp] theorem Dev.modCq_fuse (d : Dev) (p q : Nat) (f : Cq → Cq) : (d.modCq p q f).fuse = d.fuse := rfl
@[simp] theorem Dev.modCq_mgmt (d : Dev) (p q : Nat) (f : Cq → Cq) : (d.modCq p q f).mgmt = d.mgmt := rfl
@[simp] theorem Dev.modCq_mblk (d : Dev) (p q : Nat) (f : Cq → Cq) : (d.modCq p q f).mblk = d.mblk := rfl
@[simp] theorem Dev.modCq_test (d : Dev) (p q : Nat) (f : Cq → Cq) : (d.modCq p q f).test = d.test := rfl
@[simp] theorem Dev.modCq_pfw (d : Dev) (p q : Nat) (f : Cq → Cq) : (d.modCq p q f).pfw = d.pfw := rfl
@[simp] theorem Dev.modCq_freeCtr (d : Dev) (p q : Nat) (f : Cq → Cq) : (d.modCq p q f).freeCtr = d.freeCtr := rfl
@[simp] theorem Dev.modCq_out (d : Dev) (p q : Nat) (f : Cq → Cq) : (d.modCq p q f).out = d.out := rfl

/-! ### modLink -/

@[simp] theorem Dev.modLink_fuses (d : Dev) (n : Nat) (f : LinkPort → LinkPort) : (d.modLink n f).fuses = d.fuses := rfl
@[simp] theorem Dev.modLink_nv (d : Dev) (n : Nat) (f : LinkPort → LinkPort) : (d.modLink n f).nv = d.nv := rfl
@[simp] theorem Dev.modLink_storeNv (d : Dev) (n : Nat) (f : LinkPort → LinkPort) : (d.modLink n f).storeNv = d.storeNv := rfl
@[simp] theorem Dev.modLink_units (d : Dev) (n : Nat) (f : LinkPort → LinkPort) : (d.modLink n f).units = d.units := rfl
@[simp] theorem Dev.modLink_glb (d : Dev) (n : Nat) (f : LinkPort → LinkPort) : (d.modLink n f).glb = d.glb := rfl
@[simp] theorem Dev.modLink_pans (d : Dev) (n : Nat) (f : LinkPort → LinkPort) : (d.modLink n f).pans = d.pans := rfl
@[simp] theorem Dev.modLink_cfg (d : Dev) (n : Nat) (f : LinkPort → LinkPort) : (d.modLink n f).cfg = d.cfg := rfl
@[simp] theorem Dev.modLink_store (d : Dev) (n : Nat) (f : LinkPort → LinkPort) : (d.modLink n f).store = d.store := rfl
@[simp] theorem Dev.modLink_rake (d : Dev) (n : Nat) (f : LinkPort → LinkPort) : (d.modLink n f).rake = d.rake := rfl
@[simp] theorem Dev.modLink_sl (d : Dev) (n : Nat) (f : LinkPort → LinkPort) : (d.modLink n f).sl = d.sl := rfl
@[simp] theorem Dev.modLink_routes (d : Dev) (n : Nat) (f : LinkPort → LinkPort) : (d.modLink n f).routes = d.routes := rfl
@[simp] theorem Dev.modLink_banks (d : Dev) (n : Nat) (f : LinkPort → LinkPort) : (d.modLink n f).banks = d.banks := rfl
@[simp] theorem Dev.modLink_hps (d : Dev) (n : Nat) (f : LinkPort → LinkPort) : (d.modLink n f).hps = d.hps := rfl
@[simp] theorem Dev.modLink_execs (d : Dev) (n : Nat) (f : LinkPort → LinkPort) : (d.modLink n f).execs = d.execs := rfl
@[simp] theorem Dev.modLink_nextExec (d : Dev) (n : Nat) (f : LinkPort → LinkPort) : (d.modLink n f).nextExec = d.nextExec := rfl
@[simp] theorem Dev.modLink_fports (d : Dev) (n : Nat) (f : LinkPort → LinkPort) : (d.modLink n f).fports = d.fports := rfl
@[simp] theorem Dev.modLink_pins (d : Dev) (n : Nat) (f : LinkPort → LinkPort) : (d.modLink n f).pins = d.pins := rfl
@[simp] theorem Dev.modLink_time (d : Dev) (n : Nat) (f : LinkPort → LinkPort) : (d.modLink n f).time = d.time := rfl
@[simp] theorem Dev.modLink_pwr (d : Dev) (n : Nat) (f : LinkPort → LinkPort) : (d.modLink n f).pwr = d.pwr := rfl
@[simp] theorem Dev.modLink_clk (d : Dev) (n : Nat) (f : LinkPort → LinkPort) : (d.modLink n f).clk = d.clk := rfl
@[simp] theorem Dev.modLink_bgs (d : Dev) (n : Nat) (f : LinkPort → LinkPort) : (d.modLink n f).bgs = d.bgs := rfl
@[simp] theorem Dev.modLink_tele (d : Dev) (n : Nat) (f : LinkPort → LinkPort) : (d.modLink n f).tele = d.tele := rfl
@[simp] theorem Dev.modLink_fuse (d : Dev) (n : Nat) (f : LinkPort → LinkPort) : (d.modLink n f).fuse = d.fuse := rfl
@[simp] theorem Dev.modLink_mgmt (d : Dev) (n : Nat) (f : LinkPort → LinkPort) : (d.modLink n f).mgmt = d.mgmt := rfl
@[simp] theorem Dev.modLink_mblk (d : Dev) (n : Nat) (f : LinkPort → LinkPort) : (d.modLink n f).mblk = d.mblk := rfl
@[simp] theorem Dev.modLink_test (d : Dev) (n : Nat) (f : LinkPort → LinkPort) : (d.modLink n f).test = d.test := rfl
@[simp] theorem Dev.modLink_pfw (d : Dev) (n : Nat) (f : LinkPort → LinkPort) : (d.modLink n f).pfw = d.pfw := rfl
@[simp] theorem Dev.modLink_freeCtr (d : Dev) (n : Nat) (f : LinkPort → LinkPort) : (d.modLink n f).freeCtr = d.freeCtr := rfl
@[simp] theorem Dev.modLink_out (d : Dev) (n : Nat) (f : LinkPort → LinkPort) : (d.modLink n f).out = d.out := rfl

/-! ### modFport -/

@[simp] theorem Dev.modFport_fuses (d : Dev) (n : Nat) (f : FPort → FPort) : (d.modFport n f).fuses = d.fuses := rfl
@[simp] theorem Dev.modFport_nv (d : Dev) (n : Nat) (f : FPort → FPort) : (d.modFport n f).nv = d.nv := rfl
@[simp] theorem Dev.modFport_storeNv (d : Dev) (n : Nat) (f : FPort → FPort) : (d.modFport n f).storeNv = d.storeNv := rfl
@[simp] theorem Dev.modFport_units (d : Dev) (n : Nat) (f : FPort → FPort) : (d.modFport n f).units = d.units := rfl
@[simp] theorem Dev.modFport_glb (d : Dev) (n : Nat) (f : FPort → FPort) : (d.modFport n f).glb = d.glb := rfl
@[simp] theorem Dev.modFport_pans (d : Dev) (n : Nat) (f : FPort → FPort) : (d.modFport n f).pans = d.pans := rfl
@[simp] theorem Dev.modFport_cfg (d : Dev) (n : Nat) (f : FPort → FPort) : (d.modFport n f).cfg = d.cfg := rfl
@[simp] theorem Dev.modFport_store (d : Dev) (n : Nat) (f : FPort → FPort) : (d.modFport n f).store = d.store := rfl
@[simp] theorem Dev.modFport_rake (d : Dev) (n : Nat) (f : FPort → FPort) : (d.modFport n f).rake = d.rake := rfl
@[simp] theorem Dev.modFport_sl (d : Dev) (n : Nat) (f : FPort → FPort) : (d.modFport n f).sl = d.sl := rfl
@[simp] theorem Dev.modFport_routes (d : Dev) (n : Nat) (f : FPort → FPort) : (d.modFport n f).routes = d.routes := rfl
@[simp] theorem Dev.modFport_banks (d : Dev) (n : Nat) (f : FPort → FPort) : (d.modFport n f).banks = d.banks := rfl
@[simp] theorem Dev.modFport_hps (d : Dev) (n : Nat) (f : FPort → FPort) : (d.modFport n f).hps = d.hps := rfl
@[simp] theorem Dev.modFport_execs (d : Dev) (n : Nat) (f : FPort → FPort) : (d.modFport n f).execs = d.execs := rfl
@[simp] theorem Dev.modFport_nextExec (d : Dev) (n : Nat) (f : FPort → FPort) : (d.modFport n f).nextExec = d.nextExec := rfl
@[simp] theorem Dev.modFport_links (d : Dev) (n : Nat) (f : FPort → FPort) : (d.modFport n f).links = d.links := rfl
@[simp] theorem Dev.modFport_pins (d : Dev) (n : Nat) (f : FPort → FPort) : (d.modFport n f).pins = d.pins := rfl
@[simp] theorem Dev.modFport_time (d : Dev) (n : Nat) (f : FPort → FPort) : (d.modFport n f).time = d.time := rfl
@[simp] theorem Dev.modFport_pwr (d : Dev) (n : Nat) (f : FPort → FPort) : (d.modFport n f).pwr = d.pwr := rfl
@[simp] theorem Dev.modFport_clk (d : Dev) (n : Nat) (f : FPort → FPort) : (d.modFport n f).clk = d.clk := rfl
@[simp] theorem Dev.modFport_bgs (d : Dev) (n : Nat) (f : FPort → FPort) : (d.modFport n f).bgs = d.bgs := rfl
@[simp] theorem Dev.modFport_tele (d : Dev) (n : Nat) (f : FPort → FPort) : (d.modFport n f).tele = d.tele := rfl
@[simp] theorem Dev.modFport_fuse (d : Dev) (n : Nat) (f : FPort → FPort) : (d.modFport n f).fuse = d.fuse := rfl
@[simp] theorem Dev.modFport_mgmt (d : Dev) (n : Nat) (f : FPort → FPort) : (d.modFport n f).mgmt = d.mgmt := rfl
@[simp] theorem Dev.modFport_mblk (d : Dev) (n : Nat) (f : FPort → FPort) : (d.modFport n f).mblk = d.mblk := rfl
@[simp] theorem Dev.modFport_test (d : Dev) (n : Nat) (f : FPort → FPort) : (d.modFport n f).test = d.test := rfl
@[simp] theorem Dev.modFport_pfw (d : Dev) (n : Nat) (f : FPort → FPort) : (d.modFport n f).pfw = d.pfw := rfl
@[simp] theorem Dev.modFport_freeCtr (d : Dev) (n : Nat) (f : FPort → FPort) : (d.modFport n f).freeCtr = d.freeCtr := rfl
@[simp] theorem Dev.modFport_out (d : Dev) (n : Nat) (f : FPort → FPort) : (d.modFport n f).out = d.out := rfl

/-! ### modPin -/

@[simp] theorem Dev.modPin_fuses (d : Dev) (n : Nat) (f : Pin → Pin) : (d.modPin n f).fuses = d.fuses := rfl
@[simp] theorem Dev.modPin_nv (d : Dev) (n : Nat) (f : Pin → Pin) : (d.modPin n f).nv = d.nv := rfl
@[simp] theorem Dev.modPin_storeNv (d : Dev) (n : Nat) (f : Pin → Pin) : (d.modPin n f).storeNv = d.storeNv := rfl
@[simp] theorem Dev.modPin_units (d : Dev) (n : Nat) (f : Pin → Pin) : (d.modPin n f).units = d.units := rfl
@[simp] theorem Dev.modPin_glb (d : Dev) (n : Nat) (f : Pin → Pin) : (d.modPin n f).glb = d.glb := rfl
@[simp] theorem Dev.modPin_pans (d : Dev) (n : Nat) (f : Pin → Pin) : (d.modPin n f).pans = d.pans := rfl
@[simp] theorem Dev.modPin_cfg (d : Dev) (n : Nat) (f : Pin → Pin) : (d.modPin n f).cfg = d.cfg := rfl
@[simp] theorem Dev.modPin_store (d : Dev) (n : Nat) (f : Pin → Pin) : (d.modPin n f).store = d.store := rfl
@[simp] theorem Dev.modPin_rake (d : Dev) (n : Nat) (f : Pin → Pin) : (d.modPin n f).rake = d.rake := rfl
@[simp] theorem Dev.modPin_sl (d : Dev) (n : Nat) (f : Pin → Pin) : (d.modPin n f).sl = d.sl := rfl
@[simp] theorem Dev.modPin_routes (d : Dev) (n : Nat) (f : Pin → Pin) : (d.modPin n f).routes = d.routes := rfl
@[simp] theorem Dev.modPin_banks (d : Dev) (n : Nat) (f : Pin → Pin) : (d.modPin n f).banks = d.banks := rfl
@[simp] theorem Dev.modPin_hps (d : Dev) (n : Nat) (f : Pin → Pin) : (d.modPin n f).hps = d.hps := rfl
@[simp] theorem Dev.modPin_execs (d : Dev) (n : Nat) (f : Pin → Pin) : (d.modPin n f).execs = d.execs := rfl
@[simp] theorem Dev.modPin_nextExec (d : Dev) (n : Nat) (f : Pin → Pin) : (d.modPin n f).nextExec = d.nextExec := rfl
@[simp] theorem Dev.modPin_links (d : Dev) (n : Nat) (f : Pin → Pin) : (d.modPin n f).links = d.links := rfl
@[simp] theorem Dev.modPin_fports (d : Dev) (n : Nat) (f : Pin → Pin) : (d.modPin n f).fports = d.fports := rfl
@[simp] theorem Dev.modPin_time (d : Dev) (n : Nat) (f : Pin → Pin) : (d.modPin n f).time = d.time := rfl
@[simp] theorem Dev.modPin_pwr (d : Dev) (n : Nat) (f : Pin → Pin) : (d.modPin n f).pwr = d.pwr := rfl
@[simp] theorem Dev.modPin_clk (d : Dev) (n : Nat) (f : Pin → Pin) : (d.modPin n f).clk = d.clk := rfl
@[simp] theorem Dev.modPin_bgs (d : Dev) (n : Nat) (f : Pin → Pin) : (d.modPin n f).bgs = d.bgs := rfl
@[simp] theorem Dev.modPin_tele (d : Dev) (n : Nat) (f : Pin → Pin) : (d.modPin n f).tele = d.tele := rfl
@[simp] theorem Dev.modPin_fuse (d : Dev) (n : Nat) (f : Pin → Pin) : (d.modPin n f).fuse = d.fuse := rfl
@[simp] theorem Dev.modPin_mgmt (d : Dev) (n : Nat) (f : Pin → Pin) : (d.modPin n f).mgmt = d.mgmt := rfl
@[simp] theorem Dev.modPin_mblk (d : Dev) (n : Nat) (f : Pin → Pin) : (d.modPin n f).mblk = d.mblk := rfl
@[simp] theorem Dev.modPin_test (d : Dev) (n : Nat) (f : Pin → Pin) : (d.modPin n f).test = d.test := rfl
@[simp] theorem Dev.modPin_pfw (d : Dev) (n : Nat) (f : Pin → Pin) : (d.modPin n f).pfw = d.pfw := rfl
@[simp] theorem Dev.modPin_freeCtr (d : Dev) (n : Nat) (f : Pin → Pin) : (d.modPin n f).freeCtr = d.freeCtr := rfl
@[simp] theorem Dev.modPin_out (d : Dev) (n : Nat) (f : Pin → Pin) : (d.modPin n f).out = d.out := rfl

/-! ### setKind -/

@[simp] theorem Dev.setKind_fuses (d : Dev) (e : Nat) (k : ExecKind) : (d.setKind e k).fuses = d.fuses := rfl
@[simp] theorem Dev.setKind_nv (d : Dev) (e : Nat) (k : ExecKind) : (d.setKind e k).nv = d.nv := rfl
@[simp] theorem Dev.setKind_storeNv (d : Dev) (e : Nat) (k : ExecKind) : (d.setKind e k).storeNv = d.storeNv := rfl
@[simp] theorem Dev.setKind_units (d : Dev) (e : Nat) (k : ExecKind) : (d.setKind e k).units = d.units := rfl
@[simp] theorem Dev.setKind_glb (d : Dev) (e : Nat) (k : ExecKind) : (d.setKind e k).glb = d.glb := rfl
@[simp] theorem Dev.setKind_pans (d : Dev) (e : Nat) (k : ExecKind) : (d.setKind e k).pans = d.pans := rfl
@[simp] theorem Dev.setKind_cfg (d : Dev) (e : Nat) (k : ExecKind) : (d.setKind e k).cfg = d.cfg := rfl
@[simp] theorem Dev.setKind_store (d : Dev) (e : Nat) (k : ExecKind) : (d.setKind e k).store = d.store := rfl
@[simp] theorem Dev.setKind_rake (d : Dev) (e : Nat) (k : ExecKind) : (d.setKind e k).rake = d.rake := rfl
@[simp] theorem Dev.setKind_sl (d : Dev) (e : Nat) (k : ExecKind) : (d.setKind e k).sl = d.sl := rfl
@[simp] theorem Dev.setKind_routes (d : Dev) (e : Nat) (k : ExecKind) : (d.setKind e k).routes = d.routes := rfl
@[simp] theorem Dev.setKind_banks (d : Dev) (e : Nat) (k : ExecKind) : (d.setKind e k).banks = d.banks := rfl
@[simp] theorem Dev.setKind_hps (d : Dev) (e : Nat) (k : ExecKind) : (d.setKind e k).hps = d.hps := rfl
@[simp] theorem Dev.setKind_nextExec (d : Dev) (e : Nat) (k : ExecKind) : (d.setKind e k).nextExec = d.nextExec := rfl
@[simp] theorem Dev.setKind_links (d : Dev) (e : Nat) (k : ExecKind) : (d.setKind e k).links = d.links := rfl
@[simp] theorem Dev.setKind_fports (d : Dev) (e : Nat) (k : ExecKind) : (d.setKind e k).fports = d.fports := rfl
@[simp] theorem Dev.setKind_pins (d : Dev) (e : Nat) (k : ExecKind) : (d.setKind e k).pins = d.pins := rfl
@[simp] theorem Dev.setKind_time (d : Dev) (e : Nat) (k : ExecKind) : (d.setKind e k).time = d.time := rfl
@[simp] theorem Dev.setKind_pwr (d : Dev) (e : Nat) (k : ExecKind) : (d.setKind e k).pwr = d.pwr := rfl
@[simp] theorem Dev.setKind_clk (d : Dev) (e : Nat) (k : ExecKind) : (d.setKind e k).clk = d.clk := rfl
@[simp] theorem Dev.setKind_bgs (d : Dev) (e : Nat) (k : ExecKind) : (d.setKind e k).bgs = d.bgs := rfl
@[simp] theorem Dev.setKind_tele (d : Dev) (e : Nat) (k : ExecKind) : (d.setKind e k).tele = d.tele := rfl
@[simp] theorem Dev.setKind_fuse (d : Dev) (e : Nat) (k : ExecKind) : (d.setKind e k).fuse = d.fuse := rfl
@[simp] theorem Dev.setKind_mgmt (d : Dev) (e : Nat) (k : ExecKind) : (d.setKind e k).mgmt = d.mgmt := rfl
@[simp] theorem Dev.setKind_mblk (d : Dev) (e : Nat) (k : ExecKind) : (d.setKind e k).mblk = d.mblk := rfl
@[simp] theorem Dev.setKind_test (d : Dev) (e : Nat) (k : ExecKind) : (d.setKind e k).test = d.test := rfl
@[simp] theorem Dev.setKind_pfw (d : Dev) (e : Nat) (k : ExecKind) : (d.setKind e k).pfw = d.pfw := rfl
@[simp] theorem Dev.setKind_freeCtr (d : Dev) (e : Nat) (k : ExecKind) : (d.setKind e k).freeCtr = d.freeCtr := rfl
@[simp] theorem Dev.setKind_out (d : Dev) (e : Nat) (k : ExecKind) : (d.setKind e k).out = d.out := rfl

/-! ### setOp -/

@[simp] theorem Dev.setOp_fuses (d : Dev) (e : Nat) (o : Option Op) : (d.setOp e o).fuses = d.fuses := rfl
@[simp] theorem Dev.setOp_nv (d : Dev) (e : Nat) (o : Option Op) : (d.setOp e o).nv = d.nv := rfl
@[simp] theorem Dev.setOp_storeNv (d : Dev) (e : Nat) (o : Option Op) : (d.setOp e o).storeNv = d.storeNv := rfl
@[simp] theorem Dev.setOp_units (d : Dev) (e : Nat) (o : Option Op) : (d.setOp e o).units = d.units := rfl
@[simp] theorem Dev.setOp_glb (d : Dev) (e : Nat) (o : Option Op) : (d.setOp e o).glb = d.glb := rfl
@[simp] theorem Dev.setOp_pans (d : Dev) (e : Nat) (o : Option Op) : (d.setOp e o).pans = d.pans := rfl
@[simp] theorem Dev.setOp_cfg (d : Dev) (e : Nat) (o : Option Op) : (d.setOp e o).cfg = d.cfg := rfl
@[simp] theorem Dev.setOp_store (d : Dev) (e : Nat) (o : Option Op) : (d.setOp e o).store = d.store := rfl
@[simp] theorem Dev.setOp_sl (d : Dev) (e : Nat) (o : Option Op) : (d.setOp e o).sl = d.sl := rfl
@[simp] theorem Dev.setOp_routes (d : Dev) (e : Nat) (o : Option Op) : (d.setOp e o).routes = d.routes := rfl
@[simp] theorem Dev.setOp_banks (d : Dev) (e : Nat) (o : Option Op) : (d.setOp e o).banks = d.banks := rfl
@[simp] theorem Dev.setOp_hps (d : Dev) (e : Nat) (o : Option Op) : (d.setOp e o).hps = d.hps := rfl
@[simp] theorem Dev.setOp_execs (d : Dev) (e : Nat) (o : Option Op) : (d.setOp e o).execs = d.execs := rfl
@[simp] theorem Dev.setOp_nextExec (d : Dev) (e : Nat) (o : Option Op) : (d.setOp e o).nextExec = d.nextExec := rfl
@[simp] theorem Dev.setOp_links (d : Dev) (e : Nat) (o : Option Op) : (d.setOp e o).links = d.links := rfl
@[simp] theorem Dev.setOp_fports (d : Dev) (e : Nat) (o : Option Op) : (d.setOp e o).fports = d.fports := rfl
@[simp] theorem Dev.setOp_pins (d : Dev) (e : Nat) (o : Option Op) : (d.setOp e o).pins = d.pins := rfl
@[simp] theorem Dev.setOp_time (d : Dev) (e : Nat) (o : Option Op) : (d.setOp e o).time = d.time := rfl
@[simp] theorem Dev.setOp_pwr (d : Dev) (e : Nat) (o : Option Op) : (d.setOp e o).pwr = d.pwr := rfl
@[simp] theorem Dev.setOp_clk (d : Dev) (e : Nat) (o : Option Op) : (d.setOp e o).clk = d.clk := rfl
@[simp] theorem Dev.setOp_bgs (d : Dev) (e : Nat) (o : Option Op) : (d.setOp e o).bgs = d.bgs := rfl
@[simp] theorem Dev.setOp_tele (d : Dev) (e : Nat) (o : Option Op) : (d.setOp e o).tele = d.tele := rfl
@[simp] theorem Dev.setOp_fuse (d : Dev) (e : Nat) (o : Option Op) : (d.setOp e o).fuse = d.fuse := rfl
@[simp] theorem Dev.setOp_mgmt (d : Dev) (e : Nat) (o : Option Op) : (d.setOp e o).mgmt = d.mgmt := rfl
@[simp] theorem Dev.setOp_mblk (d : Dev) (e : Nat) (o : Option Op) : (d.setOp e o).mblk = d.mblk := rfl
@[simp] theorem Dev.setOp_test (d : Dev) (e : Nat) (o : Option Op) : (d.setOp e o).test = d.test := rfl
@[simp] theorem Dev.setOp_pfw (d : Dev) (e : Nat) (o : Option Op) : (d.setOp e o).pfw = d.pfw := rfl
@[simp] theorem Dev.setOp_freeCtr (d : Dev) (e : Nat) (o : Option Op) : (d.setOp e o).freeCtr = d.freeCtr := rfl
@[simp] theorem Dev.setOp_out (d : Dev) (e : Nat) (o : Option Op) : (d.setOp e o).out = d.out := rfl

/-! ### modMg -/

@[simp] theorem Dev.modMg_fuses (d : Dev) (v : MgmtIf) (f : Mgmt → Mgmt) : (d.modMg v f).fuses = d.fuses := rfl
@[simp] theorem Dev.modMg_nv (d : Dev) (v : MgmtIf) (f : Mgmt → Mgmt) : (d.modMg v f).nv = d.nv := rfl
@[simp] theorem Dev.modMg_storeNv (d : Dev) (v : MgmtIf) (f : Mgmt → Mgmt) : (d.modMg v f).storeNv = d.storeNv := rfl
@[simp] theorem Dev.modMg_units (d : Dev) (v : MgmtIf) (f : Mgmt → Mgmt) : (d.modMg v f).units = d.units := rfl
@[simp] theorem Dev.modMg_glb (d : Dev) (v : MgmtIf) (f : Mgmt → Mgmt) : (d.modMg v f).glb = d.glb := rfl
@[simp] theorem Dev.modMg_pans (d : Dev) (v : MgmtIf) (f : Mgmt → Mgmt) : (d.modMg v f).pans = d.pans := rfl
@[simp] theorem Dev.modMg_cfg (d : Dev) (v : MgmtIf) (f : Mgmt → Mgmt) : (d.modMg v f).cfg = d.cfg := rfl
@[simp] theorem Dev.modMg_store (d : Dev) (v : MgmtIf) (f : Mgmt → Mgmt) : (d.modMg v f).store = d.store := rfl
@[simp] theorem Dev.modMg_rake (d : Dev) (v : MgmtIf) (f : Mgmt → Mgmt) : (d.modMg v f).rake = d.rake := rfl
@[simp] theorem Dev.modMg_sl (d : Dev) (v : MgmtIf) (f : Mgmt → Mgmt) : (d.modMg v f).sl = d.sl := rfl
@[simp] theorem Dev.modMg_routes (d : Dev) (v : MgmtIf) (f : Mgmt → Mgmt) : (d.modMg v f).routes = d.routes := rfl
@[simp] theorem Dev.modMg_banks (d : Dev) (v : MgmtIf) (f : Mgmt → Mgmt) : (d.modMg v f).banks = d.banks := rfl
@[simp] theorem Dev.modMg_hps (d : Dev) (v : MgmtIf) (f : Mgmt → Mgmt) : (d.modMg v f).hps = d.hps := rfl
@[simp] theorem Dev.modMg_execs (d : Dev) (v : MgmtIf) (f : Mgmt → Mgmt) : (d.modMg v f).execs = d.execs := rfl
@[simp] theorem Dev.modMg_nextExec (d : Dev) (v : MgmtIf) (f : Mgmt → Mgmt) : (d.modMg v f).nextExec = d.nextExec := rfl
@[simp] theorem Dev.modMg_links (d : Dev) (v : MgmtIf) (f : Mgmt → Mgmt) : (d.modMg v f).links = d.links := rfl
@[simp] theorem Dev.modMg_fports (d : Dev) (v : MgmtIf) (f : Mgmt → Mgmt) : (d.modMg v f).fports = d.fports := rfl
@[simp] theorem Dev.modMg_pins (d : Dev) (v : MgmtIf) (f : Mgmt → Mgmt) : (d.modMg v f).pins = d.pins := rfl
@[simp] theorem Dev.modMg_time (d : Dev) (v : MgmtIf) (f : Mgmt → Mgmt) : (d.modMg v f).time = d.time := rfl
@[simp] theorem Dev.modMg_pwr (d : Dev) (v : MgmtIf) (f : Mgmt → Mgmt) : (d.modMg v f).pwr = d.pwr := rfl
@[simp] theorem Dev.modMg_clk (d : Dev) (v : MgmtIf) (f : Mgmt → Mgmt) : (d.modMg v f).clk = d.clk := rfl
@[simp] theorem Dev.modMg_bgs (d : Dev) (v : MgmtIf) (f : Mgmt → Mgmt) : (d.modMg v f).bgs = d.bgs := rfl
@[simp] theorem Dev.modMg_tele (d : Dev) (v : MgmtIf) (f : Mgmt → Mgmt) : (d.modMg v f).tele = d.tele := rfl
@[simp] theorem Dev.modMg_fuse (d : Dev) (v : MgmtIf) (f : Mgmt → Mgmt) : (d.modMg v f).fuse = d.fuse := rfl
@[simp] theorem Dev.modMg_mblk (d : Dev) (v : MgmtIf) (f : Mgmt → Mgmt) : (d.modMg v f).mblk = d.mblk := rfl
@[simp] theorem Dev.modMg_test (d : Dev) (v : MgmtIf) (f : Mgmt → Mgmt) : (d.modMg v f).test = d.test := rfl
@[simp] theorem Dev.modMg_pfw (d : Dev) (v : MgmtIf) (f : Mgmt → Mgmt) : (d.modMg v f).pfw = d.pfw := rfl
@[simp] theorem Dev.modMg_freeCtr (d : Dev) (v : MgmtIf) (f : Mgmt → Mgmt) : (d.modMg v f).freeCtr = d.freeCtr := rfl
@[simp] theorem Dev.modMg_out (d : Dev) (v : MgmtIf) (f : Mgmt → Mgmt) : (d.modMg v f).out = d.out := rfl

/-! ### putUnit -/

@[simp] theorem Dev.putUnit_fuses (d : Dev) (u : Nat) (n : UState) : (d.putUnit u n).fuses = d.fuses := rfl
@[simp] theorem Dev.putUnit_nv (d : Dev) (u : Nat) (n : UState) : (d.putUnit u n).nv = d.nv := rfl
@[simp] theorem Dev.putUnit_storeNv (d : Dev) (u : Nat) (n : UState) : (d.putUnit u n).storeNv = d.storeNv := rfl
@[simp] theorem Dev.putUnit_glb (d : Dev) (u : Nat) (n : UState) : (d.putUnit u n).glb = d.glb := rfl
@[simp] theorem Dev.putUnit_pans (d : Dev) (u : Nat) (n : UState) : (d.putUnit u n).pans = d.pans := rfl
@[simp] theorem Dev.putUnit_cfg (d : Dev) (u : Nat) (n : UState) : (d.putUnit u n).cfg = d.cfg := rfl
@[simp] theorem Dev.putUnit_store (d : Dev) (u : Nat) (n : UState) : (d.putUnit u n).store = d.store := rfl
@[simp] theorem Dev.putUnit_rake (d : Dev) (u : Nat) (n : UState) : (d.putUnit u n).rake = d.rake := rfl
@[simp] theorem Dev.putUnit_sl (d : Dev) (u : Nat) (n : UState) : (d.putUnit u n).sl = d.sl := rfl
@[simp] theorem Dev.putUnit_routes (d : Dev) (u : Nat) (n : UState) : (d.putUnit u n).routes = d.routes := rfl
@[simp] theorem Dev.putUnit_banks (d : Dev) (u : Nat) (n : UState) : (d.putUnit u n).banks = d.banks := rfl
@[simp] theorem Dev.putUnit_hps (d : Dev) (u : Nat) (n : UState) : (d.putUnit u n).hps = d.hps := rfl
@[simp] theorem Dev.putUnit_execs (d : Dev) (u : Nat) (n : UState) : (d.putUnit u n).execs = d.execs := rfl
@[simp] theorem Dev.putUnit_nextExec (d : Dev) (u : Nat) (n : UState) : (d.putUnit u n).nextExec = d.nextExec := rfl
@[simp] theorem Dev.putUnit_links (d : Dev) (u : Nat) (n : UState) : (d.putUnit u n).links = d.links := rfl
@[simp] theorem Dev.putUnit_fports (d : Dev) (u : Nat) (n : UState) : (d.putUnit u n).fports = d.fports := rfl
@[simp] theorem Dev.putUnit_pins (d : Dev) (u : Nat) (n : UState) : (d.putUnit u n).pins = d.pins := rfl
@[simp] theorem Dev.putUnit_time (d : Dev) (u : Nat) (n : UState) : (d.putUnit u n).time = d.time := rfl
@[simp] theorem Dev.putUnit_pwr (d : Dev) (u : Nat) (n : UState) : (d.putUnit u n).pwr = d.pwr := rfl
@[simp] theorem Dev.putUnit_clk (d : Dev) (u : Nat) (n : UState) : (d.putUnit u n).clk = d.clk := rfl
@[simp] theorem Dev.putUnit_bgs (d : Dev) (u : Nat) (n : UState) : (d.putUnit u n).bgs = d.bgs := rfl
@[simp] theorem Dev.putUnit_tele (d : Dev) (u : Nat) (n : UState) : (d.putUnit u n).tele = d.tele := rfl
@[simp] theorem Dev.putUnit_fuse (d : Dev) (u : Nat) (n : UState) : (d.putUnit u n).fuse = d.fuse := rfl
@[simp] theorem Dev.putUnit_mgmt (d : Dev) (u : Nat) (n : UState) : (d.putUnit u n).mgmt = d.mgmt := rfl
@[simp] theorem Dev.putUnit_mblk (d : Dev) (u : Nat) (n : UState) : (d.putUnit u n).mblk = d.mblk := rfl
@[simp] theorem Dev.putUnit_test (d : Dev) (u : Nat) (n : UState) : (d.putUnit u n).test = d.test := rfl
@[simp] theorem Dev.putUnit_pfw (d : Dev) (u : Nat) (n : UState) : (d.putUnit u n).pfw = d.pfw := rfl
@[simp] theorem Dev.putUnit_freeCtr (d : Dev) (u : Nat) (n : UState) : (d.putUnit u n).freeCtr = d.freeCtr := rfl
@[simp] theorem Dev.putUnit_out (d : Dev) (u : Nat) (n : UState) : (d.putUnit u n).out = d.out := rfl

/-! ### noteFault -/

@[simp] theorem Dev.noteFault_fuses (d : Dev) (u st : Nat) : (d.noteFault u st).fuses = d.fuses := rfl
@[simp] theorem Dev.noteFault_nv (d : Dev) (u st : Nat) : (d.noteFault u st).nv = d.nv := rfl
@[simp] theorem Dev.noteFault_storeNv (d : Dev) (u st : Nat) : (d.noteFault u st).storeNv = d.storeNv := rfl
@[simp] theorem Dev.noteFault_units (d : Dev) (u st : Nat) : (d.noteFault u st).units = d.units := rfl
@[simp] theorem Dev.noteFault_pans (d : Dev) (u st : Nat) : (d.noteFault u st).pans = d.pans := rfl
@[simp] theorem Dev.noteFault_cfg (d : Dev) (u st : Nat) : (d.noteFault u st).cfg = d.cfg := rfl
@[simp] theorem Dev.noteFault_store (d : Dev) (u st : Nat) : (d.noteFault u st).store = d.store := rfl
@[simp] theorem Dev.noteFault_rake (d : Dev) (u st : Nat) : (d.noteFault u st).rake = d.rake := rfl
@[simp] theorem Dev.noteFault_sl (d : Dev) (u st : Nat) : (d.noteFault u st).sl = d.sl := rfl
@[simp] theorem Dev.noteFault_routes (d : Dev) (u st : Nat) : (d.noteFault u st).routes = d.routes := rfl
@[simp] theorem Dev.noteFault_banks (d : Dev) (u st : Nat) : (d.noteFault u st).banks = d.banks := rfl
@[simp] theorem Dev.noteFault_hps (d : Dev) (u st : Nat) : (d.noteFault u st).hps = d.hps := rfl
@[simp] theorem Dev.noteFault_execs (d : Dev) (u st : Nat) : (d.noteFault u st).execs = d.execs := rfl
@[simp] theorem Dev.noteFault_nextExec (d : Dev) (u st : Nat) : (d.noteFault u st).nextExec = d.nextExec := rfl
@[simp] theorem Dev.noteFault_links (d : Dev) (u st : Nat) : (d.noteFault u st).links = d.links := rfl
@[simp] theorem Dev.noteFault_fports (d : Dev) (u st : Nat) : (d.noteFault u st).fports = d.fports := rfl
@[simp] theorem Dev.noteFault_pins (d : Dev) (u st : Nat) : (d.noteFault u st).pins = d.pins := rfl
@[simp] theorem Dev.noteFault_time (d : Dev) (u st : Nat) : (d.noteFault u st).time = d.time := rfl
@[simp] theorem Dev.noteFault_pwr (d : Dev) (u st : Nat) : (d.noteFault u st).pwr = d.pwr := rfl
@[simp] theorem Dev.noteFault_clk (d : Dev) (u st : Nat) : (d.noteFault u st).clk = d.clk := rfl
@[simp] theorem Dev.noteFault_bgs (d : Dev) (u st : Nat) : (d.noteFault u st).bgs = d.bgs := rfl
@[simp] theorem Dev.noteFault_tele (d : Dev) (u st : Nat) : (d.noteFault u st).tele = d.tele := rfl
@[simp] theorem Dev.noteFault_fuse (d : Dev) (u st : Nat) : (d.noteFault u st).fuse = d.fuse := rfl
@[simp] theorem Dev.noteFault_mgmt (d : Dev) (u st : Nat) : (d.noteFault u st).mgmt = d.mgmt := rfl
@[simp] theorem Dev.noteFault_test (d : Dev) (u st : Nat) : (d.noteFault u st).test = d.test := rfl
@[simp] theorem Dev.noteFault_pfw (d : Dev) (u st : Nat) : (d.noteFault u st).pfw = d.pfw := rfl
@[simp] theorem Dev.noteFault_freeCtr (d : Dev) (u st : Nat) : (d.noteFault u st).freeCtr = d.freeCtr := rfl
@[simp] theorem Dev.noteFault_out (d : Dev) (u st : Nat) : (d.noteFault u st).out = d.out := rfl

end Sys2Proof.Machine
end

