-- ==== Sys2Proof/Laws/Frames.lean ====
section
/-! SUPPORT. What the shared operations of Machine/Ops.lean and Machine/Flags.lean can do, said once: which fields they
leave, and that raising an event changes nothing but the event rings. -/

namespace Sys2Proof.Machine

/-! ### Running a command -/

theorem runCmd_next {c : Instr} {f : Dev → Dev} {s : State} (h : c.wf = true) :
    runCmd c f s = .next { s with dev := f s.dev } := by
  simp [runCmd, h]

theorem runCmd_fault {c : Instr} {f : Dev → Dev} {s : State} (h : c.wf = false) : runCmd c f s = .fault .noSuchUnit := by
  simp [runCmd, h]

/-- A command takes effect where its operation does. -/
theorem takes_of_runCmd {c : Instr} {f : Dev → Dev} {s : State} {P : Dev → Prop} (he : exec c s = runCmd c f s)
    (h : c.wf = true) (hp : P (f s.dev)) : Takes c s P :=
  ⟨{ s with dev := f s.dev }, he.trans (runCmd_next h), rfl, hp⟩

/-! ### Events -/

theorem HostPort.EvSame.refl (h : HostPort) : h.EvSame h := rfl

theorem HostPort.EvSame.trans {a b c : HostPort} (h1 : a.EvSame b) (h2 : b.EvSame c) : a.EvSame c := by
  unfold EvSame at *
  rw [h2, h1]

theorem Dev.Events.refl (d : Dev) : d.Events d :=
  ⟨rfl, fun _ => HostPort.EvSame.refl _, [], by simp, by simp⟩

theorem Dev.Events.trans {a b c : Dev} (h1 : a.Events b) (h2 : b.Events c) : a.Events c := by
  obtain ⟨e1, p1, l1, o1, q1⟩ := h1
  obtain ⟨e2, p2, l2, o2, q2⟩ := h2
  refine ⟨?_, fun p => (p1 p).trans (p2 p), l1 ++ l2, ?_, ?_⟩
  · rw [e2, e1]
  · rw [o2, o1, List.append_assoc]
  · intro o ho
    rcases List.mem_append.1 ho with ho | ho
    · exact q1 o ho
    · exact q2 o ho

/-- What emits an event's record or vector is within `Events`. -/
theorem Dev.Events.emit (d : Dev) {o : Output} (ho : o.isEvent = true) : d.Events (d.emit o) :=
  ⟨rfl, fun _ => rfl, [o], rfl, by simpa using ho⟩

/-- A change of one host port within the event bookkeeping is within `Events`. -/
theorem Dev.Events.modHp (d : Dev) (p : Nat) (f : HostPort → HostPort) (hf : (d.hp p).EvSame (f (d.hp p))) :
    d.Events (d.modHp p f) := by
  refine ⟨rfl, fun q => ?_, [], by simp [Dev.modHp], by simp⟩
  show (d.hp q).EvSame ((d.hps.modify {} p f).get {} q)
  rw [Tab.get_modify]
  split
  · next h => subst h; exact hf
  · rfl

theorem Dev.sendMsix_events (d : Dev) (p v : Nat) : d.Events (d.sendMsix p v) := by
  unfold Dev.sendMsix
  dsimp only
  split
  · exact Dev.Events.refl d
  · split
    · exact Dev.Events.modHp d p _ rfl
    · exact Dev.Events.emit d rfl

theorem Cq.request_same (c : Cq) :
    c.request.1 = { c with holding := c.request.1.holding, owed := c.request.1.owed } := by
  unfold Cq.request
  split
  · rfl
  · split <;> rfl

theorem Cq.advance_same (c : Cq) : c.advance = { c with tail := c.advance.tail, phase := c.advance.phase } := by
  unfold Cq.advance
  split <;> rfl

theorem Dev.writeEvent_events (d : Dev) (p : Nat) (e : HeldEv) : d.Events (d.writeEvent p e) := by
  unfold Dev.writeEvent
  dsimp only
  have h1 : d.Events (d.emit (.hostWrite p (BitVec.ofNat 64 (ringBase (d.hp p).eq.baseLo (d.hp p).eq.baseHi + 32 * (d.hp p).eq.tail))
      (eventBytes (d.hp p).eq.phase e) false)) := Dev.Events.emit d rfl
  have h2 : ∀ d1 : Dev, d1.hp p = d.hp p → d1.Events (d1.modHp p fun h => { h with eq := ((d.hp p).eq.advance.request).1 }) := by
    intro d1 hd
    refine Dev.Events.modHp d1 p _ ?_
    have := Cq.request_same (d.hp p).eq.advance
    have h' := Cq.advance_same (d.hp p).eq
    rw [hd]
    unfold HostPort.EvSame
    dsimp only
    rw [this, h']
  split
  · exact h1.trans ((h2 (d.emit _) rfl).trans (Dev.sendMsix_events _ _ _))
  · exact h1.trans (h2 (d.emit _) rfl)

theorem Dev.flushLost_events (d : Dev) (p : Nat) : d.Events (d.flushLost p) := by
  unfold Dev.flushLost
  dsimp only
  split
  · exact (Dev.Events.modHp d p (fun h => { h with eqLost := 0 }) rfl).trans (Dev.writeEvent_events _ _ _)
  · exact Dev.Events.refl d

theorem Dev.deliverEvent_events (d : Dev) (p : Nat) (e : HeldEv) : d.Events (d.deliverEvent p e) := by
  unfold Dev.deliverEvent
  dsimp only
  split
  · exact Dev.Events.modHp d p _ rfl
  · split
    · exact (Dev.flushLost_events d p).trans (Dev.Events.modHp _ p _ rfl)
    · exact (Dev.flushLost_events d p).trans (Dev.writeEvent_events _ _ _)

theorem Dev.holdForD0_events (d : Dev) (p : Nat) (e : HeldEv) : d.Events (d.holdForD0 p e) := by
  unfold Dev.holdForD0
  dsimp only
  split
  · exact (Dev.Events.modHp d p (fun h => { h with
      evHeld := h.evHeld ++ [e]
      conf := { h.conf with pmcsr := h.conf.pmcsr ||| if h.conf.d3 then 0x8000 else 0 } }) rfl).trans (Dev.Events.emit _ rfl)
  · exact Dev.Events.modHp d p _ rfl

theorem Dev.eventAt_events (d : Dev) (p u code status : Nat) (data : DWord) : d.Events (d.eventAt p u code status data) := by
  unfold Dev.eventAt
  dsimp only
  split
  · split
    · exact Dev.Events.modHp d p _ rfl
    · split
      · exact Dev.holdForD0_events _ _ _
      · exact Dev.deliverEvent_events _ _ _
  · split <;> exact Dev.Events.modHp d p _ rfl
  · split <;> exact Dev.Events.modHp d p _ rfl

/-- A fold of operations within `Events` is within `Events`. -/
theorem Dev.Events.foldS {α : Type} (f : Dev → α → Dev) (l : List α) (d : Dev) (hf : ∀ d a, Dev.Events d (f d a)) :
    d.Events (Machine.foldS f d l) := by
  unfold Machine.foldS
  induction l generalizing d with
  | nil => exact Dev.Events.refl d
  | cons a l ih => exact (hf d a).trans (ih _)

/-- Raising an event changes nothing but the event rings. -/
theorem Dev.event_events (d : Dev) (u code status : Nat) (data : DWord) : d.Events (d.event u code status data) := by
  unfold Dev.event Dev.eventFor
  refine Dev.Events.foldS _ _ _ fun d p => ?_
  split
  · exact Dev.eventAt_events _ _ _ _ _ _
  · exact Dev.Events.refl d

/-- An event about a unit, raised by another. -/
theorem Dev.eventFor_events (d : Dev) (a u code status : Nat) (data : DWord) : d.Events (d.eventFor a u code status data) := by
  unfold Dev.eventFor
  refine Dev.Events.foldS _ _ _ fun d p => ?_
  split
  · exact Dev.eventAt_events _ _ _ _ _ _
  · exact Dev.Events.refl d

/-- A transition writes the unit's register and raises its events (R23, R33). -/
theorem Dev.setUnit_events (d : Dev) (u : Nat) (new : UState) (c : Cause) (h : d.ust u ≠ new) :
    (d.putUnit u new).Events (d.setUnit u new c) := by
  have h' : ¬((d.unit u).st = new) := h
  unfold Dev.setUnit
  simp only [if_neg h']
  refine Dev.Events.foldS _ _ _ fun d p => ?_
  split
  · exact Dev.eventAt_events _ _ _ _ _ _
  · exact Dev.Events.refl d

/-- A transition to the state a unit has does nothing. -/
theorem Dev.setUnit_same (d : Dev) (u : Nat) (new : UState) (c : Cause) (h : d.ust u = new) : d.setUnit u new c = d := by
  have h' : (d.unit u).st = new := h
  unfold Dev.setUnit
  simp only [if_pos h']

theorem Dev.Events.noteFault {a b : Dev} (u st : Nat) (h : a.Events b) : (a.noteFault u st).Events (b.noteFault u st) := by
  obtain ⟨e, p, l, o, q⟩ := h
  refine ⟨?_, p, l, o, q⟩
  unfold Dev.noteFault
  rw [e]

theorem Dev.Events.putUnit {a b : Dev} (u : Nat) (n : UState) (h : a.Events b) : (a.putUnit u n).Events (b.putUnit u n) := by
  obtain ⟨e, p, l, o, q⟩ := h
  refine ⟨?_, p, l, o, q⟩
  rw [e]
  rfl

theorem Dev.Events.ust {a b : Dev} (h : a.Events b) (u : Nat) : b.ust u = a.ust u := by
  rw [h.1]
  rfl

/-- A fault notes itself, writes the unit's register and raises its events (R20, R593, R639). -/
theorem Dev.fault_events (d : Dev) (u status : Nat) (data : DWord) (h : d.ust u ≠ .faulted) :
    ((d.noteFault u status).putUnit u .faulted).Events (d.fault u status data) := by
  unfold Dev.fault
  have h1 := (Dev.event_events d u 0x81 status data).noteFault u status
  exact (h1.putUnit u .faulted).trans (Dev.setUnit_events _ _ _ _ (by rw [h1.ust]; exact h))

/-! ### The slots of the management interfaces -/

@[simp] theorem Dev.mg_modMg_same (d : Dev) (v : MgmtIf) (f : Mgmt → Mgmt) : (d.modMg v f).mg v = f (d.mg v) := by
  cases v <;> simp [Dev.modMg, Dev.mg]

theorem Dev.mg_modMg_other (d : Dev) (i v : MgmtIf) (f : Mgmt → Mgmt) (h : i ≠ v) : (d.modMg v f).mg i = d.mg i := by
  cases i <;> cases v <;> simp [Dev.modMg, Dev.mg, Tab.get_modify] at h ⊢

/-! ### Completions -/

theorem HostPort.CplSame.refl (h : HostPort) : h.CplSame h := ⟨rfl, fun _ => rfl⟩

theorem HostPort.CplSame.trans {a b c : HostPort} (h1 : a.CplSame b) (h2 : b.CplSame c) : a.CplSame c := by
  obtain ⟨e1, r1⟩ := h1
  obtain ⟨e2, r2⟩ := h2
  exact ⟨by rw [e2, e1], fun r => (r2 r).trans (r1 r)⟩

theorem HostPort.EvSame.cpl {a b : HostPort} (h : a.EvSame b) : a.CplSame b := by
  unfold EvSame at h
  exact ⟨by rw [h], fun r => by rw [h]⟩

theorem Dev.Replied.refl (d : Dev) : d.Replied d := ⟨rfl, fun _ => HostPort.CplSame.refl _, [], by simp⟩

theorem Dev.Replied.trans {a b c : Dev} (h1 : a.Replied b) (h2 : b.Replied c) : a.Replied c := by
  obtain ⟨e1, p1, l1, o1⟩ := h1
  obtain ⟨e2, p2, l2, o2⟩ := h2
  exact ⟨by rw [e2, e1], fun p => (p1 p).trans (p2 p), l1 ++ l2, by rw [o2, o1, List.append_assoc]⟩

theorem Dev.Events.replied {a b : Dev} (h : a.Events b) : a.Replied b := by
  obtain ⟨e, p, l, o, _⟩ := h
  exact ⟨by rw [e], fun q => (p q).cpl, l, o⟩

theorem Dev.Replied.emit (d : Dev) (o : Output) : d.Replied (d.emit o) := ⟨rfl, fun _ => .refl _, [o], rfl⟩

theorem Dev.Replied.modHp (d : Dev) (p : Nat) (f : HostPort → HostPort) (hf : (d.hp p).CplSame (f (d.hp p))) :
    d.Replied (d.modHp p f) := by
  refine ⟨rfl, fun q => ?_, [], by simp [Dev.modHp]⟩
  show (d.hp q).CplSame ((d.hps.modify {} p f).get {} q)
  rw [Tab.get_modify]
  split
  · next h => subst h; exact hf
  · exact .refl _

theorem Dev.Replied.modSq (d : Dev) (p q : Nat) (f : Sq → Sq) : d.Replied (d.modSq p q f) :=
  Dev.Replied.modHp d p _ ⟨rfl, fun _ => rfl⟩

theorem Dev.Replied.modCq (d : Dev) (p q : Nat) (f : Cq → Cq) : d.Replied (d.modCq p q f) :=
  Dev.Replied.modHp d p _ ⟨rfl, fun _ => rfl⟩

/-- A posted write leaves the port or waits in it. -/
theorem Dev.postHost_replied (d : Dev) (p : Nat) (a : DWord) (bs : List Byte) (ro : Bool) : d.Replied (d.postHost p a bs ro) := by
  unfold Dev.postHost
  split
  · exact Dev.Replied.emit d _
  · exact Dev.Replied.modHp d p _ ⟨rfl, fun _ => rfl⟩

theorem Dev.Replied.modMg (d : Dev) (v : MgmtIf) (f : Mgmt → Mgmt) : d.Replied (d.modMg v f) :=
  ⟨rfl, fun _ => .refl _, [], by simp [Dev.modMg]⟩

theorem Dev.Replied.execs (d : Dev) (e : Tab (Option Exec)) (n : Nat) : d.Replied { d with execs := e, nextExec := n } :=
  ⟨rfl, fun _ => .refl _, [], by simp⟩

theorem Dev.sendMsix_replied (d : Dev) (p v : Nat) : d.Replied (d.sendMsix p v) := (Dev.sendMsix_events d p v).replied

/-- Writing a completion record posts it first. -/
theorem Dev.writeCpl_posts (d : Dev) (p sq : Nat) (tag : BitVec 16) (irq : Bool) (status unit : Nat) (info : DWord) :
    (d.postHost p
        (BitVec.ofNat 64 (ringBase ((d.hp p).cq (fld ((d.hp p).sq sq).cfg 16 2)).baseLo ((d.hp p).cq (fld ((d.hp p).sq sq).cfg 16 2)).baseHi +
          16 * ((d.hp p).cq (fld ((d.hp p).sq sq).cfg 16 2)).tail))
        (wordsBytes (completionWords tag status sq ((d.hp p).cq (fld ((d.hp p).sq sq).cfg 16 2)).phase unit ((d.hp p).sq sq).head info)) false).Replied
      (d.writeCpl p sq tag irq status unit info) := by
  unfold Dev.writeCpl
  dsimp only
  repeat' split
  all_goals first
    | exact Dev.Replied.modCq _ _ _ _
    | exact (Dev.Replied.modCq _ _ _ _).trans (Dev.sendMsix_replied _ _ _)

/-- A function that may make requests emits a completion record first. -/
theorem Dev.writeCpl_emits (d : Dev) (p sq : Nat) (tag : BitVec 16) (irq : Bool) (status unit : Nat) (info : DWord)
    (ha : (d.hp p).conf.asks = true) :
    (d.emit (.hostWrite p
        (BitVec.ofNat 64 (ringBase ((d.hp p).cq (fld ((d.hp p).sq sq).cfg 16 2)).baseLo ((d.hp p).cq (fld ((d.hp p).sq sq).cfg 16 2)).baseHi +
          16 * ((d.hp p).cq (fld ((d.hp p).sq sq).cfg 16 2)).tail))
        (wordsBytes (completionWords tag status sq ((d.hp p).cq (fld ((d.hp p).sq sq).cfg 16 2)).phase unit ((d.hp p).sq sq).head info)) false)).Replied
      (d.writeCpl p sq tag irq status unit info) := by
  have h := Dev.writeCpl_posts d p sq tag irq status unit info
  unfold Dev.postHost at h
  rw [if_pos ha] at h
  exact h

theorem Dev.writeCpl_replied (d : Dev) (p sq : Nat) (tag : BitVec 16) (irq : Bool) (status unit : Nat) (info : DWord) :
    d.Replied (d.writeCpl p sq tag irq status unit info) := (Dev.postHost_replied d _ _ _ _).trans (Dev.writeCpl_posts ..)

theorem Dev.ringAfter_replied (d : Dev) (p sq e status : Nat) (f : Bool) : d.Replied (d.ringAfter p sq e status f) :=
  Dev.Replied.modSq _ _ _ _

theorem Dev.endExec_replied (d : Dev) (e status unit : Nat) (info : DWord) : d.Replied (d.endExec e status unit info) := by
  unfold Dev.endExec
  split
  · exact Dev.Replied.refl d
  · refine (Dev.Replied.execs d (d.execs.set none e none) d.nextExec).trans ?_
    dsimp only
    split
    · split
      · exact Dev.Replied.modHp _ _ _ ⟨rfl, fun _ => rfl⟩
      · exact (Dev.writeCpl_replied ..).trans (Dev.ringAfter_replied ..)
    · exact Dev.Replied.modMg _ _ _
    · exact Dev.Replied.modMg _ _ _

theorem Dev.fenceDone_replied (d : Dev) (e : Nat) : d.Replied (d.fenceDone e).1 := Dev.Replied.execs d _ d.nextExec

theorem Dev.completeN_replied (d : Dev) (k e status unit : Nat) (info : DWord) : d.Replied (d.completeN k e status unit info) := by
  induction k generalizing d e status unit info with
  | zero => exact Dev.Replied.refl d
  | succ k ih =>
    unfold Dev.completeN
    dsimp only
    have h := (Dev.endExec_replied d e status unit info).trans (Dev.fenceDone_replied _ e)
    split
    · exact h
    · exact h.trans (ih _ _ _ _ _)

/-- A completion changes nothing but the rings, the slots, the executing descriptors and what was emitted (R370). -/
theorem Dev.complete_replied (d : Dev) (e status unit : Nat) (info : DWord) : d.Replied (d.complete e status unit info) :=
  Dev.completeN_replied ..

theorem Dev.start_replied (d : Dev) (iss : Issuer) (x : Desc) : d.Replied (d.start iss x) := by
  unfold Dev.start
  dsimp only
  split
  · exact ((Dev.Replied.modSq d _ _ _).trans (Dev.Replied.modCq _ _ _ _)).trans (Dev.Replied.execs _ _ _)
  · exact (Dev.Replied.modMg d _ _).trans (Dev.Replied.execs _ _ _)
  · exact (Dev.Replied.modMg d _ _).trans (Dev.Replied.execs _ _ _)

theorem Dev.setKind_replied (d : Dev) (e : Nat) (k : ExecKind) : d.Replied (d.setKind e k) :=
  Dev.Replied.execs d _ d.nextExec

/-- An entry that reads as a value stands in the list. -/
theorem Tab.mem_of_get {α : Type} (t : Tab (Option α)) (k : Nat) (v : α) (h : t.get none k = some v) : (k, some v) ∈ t := by
  induction t with
  | nil => cases h
  | cons a l ih =>
    obtain ⟨j, w⟩ := a
    unfold Tab.get at h
    split at h
    · next hk => subst hk; subst h; exact List.mem_cons_self
    · exact List.mem_cons_of_mem _ (ih h)

theorem Dev.running_of_exec (d : Dev) (e : Nat) (x : Exec) (h : d.exec e = some x) : (e, x) ∈ d.running := by
  unfold Dev.running
  exact List.mem_filterMap.2 ⟨(e, some x), Tab.mem_of_get _ _ _ h, rfl⟩

/-- Taking a descriptor off the fences' lists keeps every issuer. -/
theorem Dev.fenceDone_iss (d : Dev) (e g : Nat) (y : Exec) (h : (d.fenceDone e).1.exec g = some y) :
    ∃ z, d.exec g = some z ∧ z.iss = y.iss := by
  unfold Dev.fenceDone Dev.exec at h
  dsimp only at h
  unfold Dev.exec
  generalize d.execs = t at h ⊢
  induction t with
  | nil => cases h
  | cons a l ih =>
    obtain ⟨j, w⟩ := a
    simp only [List.map_cons, Tab.get] at h ⊢
    split at h
    · next hk =>
      simp only [hk, if_true]
      rcases w with _ | z
      · cases h
      · simp only [Option.map_some] at h
        refine ⟨z, rfl, ?_⟩
        cases h
        split <;> rfl
    · next hk =>
      simp only [if_neg hk]
      exact ih h

theorem Dev.sendMsix_slots (d : Dev) (p v : Nat) : (d.sendMsix p v).mgmt = d.mgmt ∧ (d.sendMsix p v).execs = d.execs := by
  unfold Dev.sendMsix
  dsimp only
  split
  · exact ⟨rfl, rfl⟩
  · split <;> exact ⟨rfl, rfl⟩

theorem Dev.postHost_slots (d : Dev) (p : Nat) (a : DWord) (bs : List Byte) (ro : Bool) :
    (d.postHost p a bs ro).mgmt = d.mgmt ∧ (d.postHost p a bs ro).execs = d.execs := by
  unfold Dev.postHost
  split <;> exact ⟨rfl, rfl⟩

/-- Writing a completion record leaves the slots and the executing descriptors. -/
theorem Dev.writeCpl_slots (d : Dev) (p sq : Nat) (tag : BitVec 16) (irq : Bool) (status unit : Nat) (info : DWord) :
    (d.writeCpl p sq tag irq status unit info).mgmt = d.mgmt ∧ (d.writeCpl p sq tag irq status unit info).execs = d.execs := by
  unfold Dev.writeCpl
  dsimp only
  repeat' split
  all_goals first
    | exact Dev.postHost_slots d _ _ _ _
    | exact ⟨(Dev.sendMsix_slots _ _ _).1.trans (Dev.postHost_slots d _ _ _ _).1, (Dev.sendMsix_slots _ _ _).2.trans (Dev.postHost_slots d _ _ _ _).2⟩

/-- The descriptors that end leave the slot of an interface alone that issued none of them. -/
theorem Dev.completeN_mg (i : MgmtIf) (ii : Issuer) (hi : ii = (match i with | .smbus => .smbus | .jtag => .jtag)) (d : Dev)
    (k e status unit : Nat) (info : DWord) (h : ∀ g y, d.exec g = some y → y.iss ≠ ii) :
    (d.completeN k e status unit info).mg i = d.mg i := by
  induction k generalizing d e status unit info with
  | zero => rfl
  | succ k ih =>
    have h1 : (d.endExec e status unit info).mg i = d.mg i ∧
        ∀ g y, (d.endExec e status unit info).exec g = some y → y.iss ≠ ii := by
      unfold Dev.endExec
      split
      · exact ⟨rfl, h⟩
      · next x hx =>
        have hx' := h e x hx
        have hg : ∀ g y, Tab.get none (d.execs.set none e none) g = some y → y.iss ≠ ii := by
          intro g y hy
          rw [Tab.get_set] at hy
          split at hy
          · cases hy
          · exact h g y hy
        dsimp only
        split
        · split
          · exact ⟨by cases i <;> rfl, hg⟩
          · have w := Dev.writeCpl_slots { d with execs := d.execs.set none e none }
            constructor
            · cases i
              · show Tab.get {} (Dev.writeCpl _ _ _ _ _ _ _ _).mgmt 0 = _
                rw [(w _ _ _ _ _ _ _).1]
                rfl
              · show Tab.get {} (Dev.writeCpl _ _ _ _ _ _ _ _).mgmt 1 = _
                rw [(w _ _ _ _ _ _ _).1]
                rfl
            · intro g y hy
              refine hg g y ?_
              have hy' : Tab.get none (Dev.writeCpl _ _ _ _ _ _ _ _).execs g = some y := hy
              rw [(w _ _ _ _ _ _ _).2] at hy'
              exact hy'
        · next he =>
          constructor
          · cases i with
            | smbus => exact absurd (he.trans hi.symm) hx'
            | jtag =>
              exact (Dev.mg_modMg_other _ .jtag .smbus _ (by decide))
          · exact hg
        · next he =>
          constructor
          · cases i with
            | jtag => exact absurd (he.trans hi.symm) hx'
            | smbus =>
              exact (Dev.mg_modMg_other _ .smbus .jtag _ (by decide))
          · exact hg
    have h2 : ∀ g y, ((d.endExec e status unit info).fenceDone e).1.exec g = some y → y.iss ≠ ii := by
      intro g y hy
      obtain ⟨z, hz, he⟩ := Dev.fenceDone_iss _ _ _ _ hy
      rw [← he]
      exact h1.2 g z hz
    have h3 : ((d.endExec e status unit info).fenceDone e).1.mg i = d.mg i := by
      rw [← h1.1]
      cases i <;> rfl
    unfold Dev.completeN
    dsimp only
    split
    · exact h3
    · rw [ih _ _ _ _ _ h2]
      exact h3

/-- The first record of a completion stays. -/
theorem Dev.complete_first (d : Dev) (e status unit : Nat) (info : DWord) :
    (d.endExec e status unit info).Replied (d.complete e status unit info) := by
  unfold Dev.complete Dev.completeN
  dsimp only
  split
  · exact Dev.fenceDone_replied _ _
  · exact (Dev.fenceDone_replied _ _).trans (Dev.completeN_replied ..)

/-- A descriptor that `d` starts and that completes in a device with the rings, slots and executing descriptors of its
start, whose function may make requests, delivers its record. -/
theorem Dev.complete_delivered (d d1 : Dev) (iss : Issuer) (x : Desc) (status unit : Nat) (info : DWord)
    (hs : ∀ p, (d1.hp p).sqs = ((d.start iss x).hp p).sqs) (hc : ∀ p, (d1.hp p).cqs = ((d.start iss x).hp p).cqs)
    (he : d1.execs = (d.start iss x).execs) (ho : ∃ l, d1.out = d.out ++ l)
    (hone : match iss with | .ring _ _ => True | i => ∀ y ∈ d.running, y.2.iss ≠ i)
    (ha : ∀ p q, iss = .ring p q → (d1.hp p).conf.asks = true) :
    d.Delivered (d1.complete d.nextExec status unit info) iss x status unit info := by
  obtain ⟨l0, hl0⟩ := ho
  obtain ⟨-, -, l2, hl2⟩ := Dev.complete_first d1 d.nextExec status unit info
  have mgcase : ∀ i : MgmtIf, ∀ ii : Issuer, ii = (match i with | .smbus => .smbus | .jtag => .jtag) → iss = ii →
      (∀ y ∈ d.running, y.2.iss ≠ ii) →
      ((d1.complete d.nextExec status unit info).mg i).slot = 2 ∧ ((d1.complete d.nextExec status unit info).mg i).exec = none ∧
      ((d1.complete d.nextExec status unit info).mg i).cpl =
        wordsBytes (completionWords (BitVec.ofNat 16 (fld (dword x 0) 16 16)) status 0 true unit 0 info) := by
    intro i ii hii hiss hn
    have hex : d1.exec d.nextExec = some { iss := ii, opcode := BitVec.ofNat 8 (fld (dword x 0) 0 8), flags := BitVec.ofNat 8 (fld (dword x 0) 8 8), tag := BitVec.ofNat 16 (fld (dword x 0) 16 16), idx := 0, kind := .rake } := by
      unfold Dev.exec
      rw [he, hiss, hii]
      unfold Dev.start
      cases i <;> simp only [Tab.get_set_same]
    have hrest : ∀ g y, ((d1.endExec d.nextExec status unit info).fenceDone d.nextExec).1.exec g = some y → y.iss ≠ ii := by
      intro g y hy
      obtain ⟨z, hz, hzi⟩ := Dev.fenceDone_iss _ _ _ _ hy
      rw [← hzi]
      have hz2 : Tab.get none (d1.execs.set none d.nextExec none) g = some z := by
        revert hz
        unfold Dev.endExec
        rw [hex]
        rw [hii]
        cases i <;> exact id
      rw [Tab.get_set] at hz2
      split at hz2
      · cases hz2
      · next hg =>
        rw [he] at hz2
        have hz3 : d.execs.get none g = some z := by
          rw [hiss, hii] at hz2
          unfold Dev.start at hz2
          cases i <;> (dsimp only [Dev.modMg] at hz2; rw [Tab.get_set_other _ _ _ _ _ hg] at hz2; exact hz2)
        exact hn _ (Dev.running_of_exec d g z hz3)
    have hmg : (d1.complete d.nextExec status unit info).mg i = (d1.endExec d.nextExec status unit info).mg i := by
      unfold Dev.complete Dev.completeN
      dsimp only
      split
      · cases i <;> rfl
      · rw [Dev.completeN_mg i ii hii _ _ _ _ _ _ hrest]
        cases i <;> rfl
    rw [hmg]
    unfold Dev.endExec
    rw [hex, hii]
    cases i <;> simp [Dev.modMg, Dev.mg]
  unfold Dev.Delivered
  match iss, hs, hc, he, hone, mgcase, ha with
  | .smbus, _, _, _, hone, mgcase, _ => exact mgcase .smbus .smbus rfl rfl hone
  | .jtag, _, _, _, hone, mgcase, _ => exact mgcase .jtag .jtag rfl rfl hone
  | .ring p q, hs, hc, he, _, _, ha =>
    dsimp only
    have hex : d1.exec d.nextExec = some { iss := .ring p q, opcode := BitVec.ofNat 8 (fld (dword x 0) 0 8), flags := BitVec.ofNat 8 (fld (dword x 0) 8 8), tag := BitVec.ofNat 16 (fld (dword x 0) 16 16), idx := ((d.hp p).sq q).head, kind := .rake } := by
      unfold Dev.exec
      rw [he]
      unfold Dev.start
      simp only [Tab.get_set_same]
    have hsq : ∀ y, ((d1.hp p).sqs.get {} y) = (((d.start (.ring p q) x).hp p).sqs.get {} y) := fun y => by rw [hs]
    have hcq : ∀ y, ((d1.hp p).cqs.get {} y) = (((d.start (.ring p q) x).hp p).cqs.get {} y) := fun y => by rw [hc]
    have h1 : ((d1.hp p).sq q).head = (((d.hp p).sq q).head + 1) % ringSize ((d.hp p).sq q).cfg ∧
        ((d1.hp p).sq q).cfg = ((d.hp p).sq q).cfg := by
      unfold HostPort.sq
      rw [hsq]
      unfold Dev.start
      simp [Dev.modSq, Dev.modCq, Dev.modHp, Dev.hp, HostPort.sq]
    have h2 : ∀ k, k = fld ((d.hp p).sq q).cfg 16 2 → ((d1.hp p).cq k).baseLo = ((d.hp p).cq k).baseLo ∧
        ((d1.hp p).cq k).baseHi = ((d.hp p).cq k).baseHi ∧ ((d1.hp p).cq k).tail = ((d.hp p).cq k).tail ∧
        ((d1.hp p).cq k).phase = ((d.hp p).cq k).phase := by
      intro k hk
      unfold HostPort.cq
      rw [hcq]
      unfold Dev.start
      simp [Dev.modSq, Dev.modCq, Dev.modHp, Dev.hp, hk, HostPort.sq]
    obtain ⟨b1, b2, b3, b4⟩ := h2 _ rfl
    obtain ⟨r1, r2⟩ := h1
    have hend : ∃ l, (d1.endExec d.nextExec status unit info).out = d1.out ++ l ∧
        Output.hostWrite p (BitVec.ofNat 64 (ringBase ((d.hp p).cq (fld ((d.hp p).sq q).cfg 16 2)).baseLo
            ((d.hp p).cq (fld ((d.hp p).sq q).cfg 16 2)).baseHi + 16 * ((d.hp p).cq (fld ((d.hp p).sq q).cfg 16 2)).tail))
          (wordsBytes (completionWords (BitVec.ofNat 16 (fld (dword x 0) 16 16)) status q ((d.hp p).cq (fld ((d.hp p).sq q).cfg 16 2)).phase unit
            ((((d.hp p).sq q).head + 1) % ringSize ((d.hp p).sq q).cfg) info)) false ∈ l := by
      unfold Dev.endExec
      rw [hex]
      dsimp only
      have w := Dev.writeCpl_emits { d1 with execs := d1.execs.set none d.nextExec none } p q (BitVec.ofNat 16 (fld (dword x 0) 16 16))
        ((BitVec.ofNat 8 (fld (dword x 0) 8 8)).getLsbD 3) status unit info (ha p q rfl)
      obtain ⟨-, -, l, hl⟩ := w.trans (Dev.ringAfter_replied _ p q d.nextExec status ((BitVec.ofNat 8 (fld (dword x 0) 8 8)).getLsbD 0))
      refine ⟨_, hl.trans (List.append_assoc _ _ _), ?_⟩
      refine List.mem_append_left _ ?_
      have hp1 : ({ d1 with execs := d1.execs.set none d.nextExec none } : Dev).hp p = d1.hp p := rfl
      rw [hp1, r2, b1, b2, b3, b4, r1]
      exact List.mem_singleton_self _
    obtain ⟨l, hl, hm⟩ := hend
    refine ⟨l0 ++ (l ++ l2), ?_, ?_⟩
    · rw [hl2, hl, hl0]
      simp
    · exact List.mem_append_right _ (List.mem_append_left _ hm)

end Sys2Proof.Machine
end

