-- ==== Sys2Proof/Laws/Keeps.lean ====
section
/-! SUPPORT. What every operation of the device keeps: a fuse bit once programmed, the canonical form of the fuse array
and of the unit table, and that no unit's epoch takes the reserved value 0xFFFF. The files Keeps<File> hold one lemma
for each operation of that file of Machine. -/

namespace Sys2Proof.Machine

/-- The fuse bits of `F` are programmed, the fuse array and the unit table are canonical, and no epoch is 0xFFFF. -/
structure Dev.Has (F : Tab Word) (d : Dev) : Prop where
  bits : ∀ i, F.get 0 i &&& d.fuses.get 0 i = F.get 0 i
  fuseForm : d.fuses.wf 0 = true
  unitForm : d.units.wf {} = true
  epochs : ∀ u, (d.units.get {} u).epoch ≠ 0xFFFF

variable {F : Tab Word}

/-- What touches neither the fuses nor the units keeps it. -/
theorem Dev.Has.of_eq {d d' : Dev} (hf : d'.fuses = d.fuses) (hu : d'.units = d.units) (h : d.Has F) : d'.Has F :=
  ⟨hf ▸ h.bits, hf ▸ h.fuseForm, hu ▸ h.unitForm, hu ▸ h.epochs⟩

/-- A record update of other fields keeps it. -/
theorem Dev.Has.upd {X : Dev} {nv : Tab NvUnit} {storeNv : StoreNv} {glb : Glb} {pans : Tab Pan} {cfg : CfgEng} {store : StoreCtl} 
    {rake : Rake} {sl : Sluice} {routes : Tab Word} {banks : Tab Bank} {hps : Tab HostPort} 
    {execs : Tab (Option Exec)} {nextExec : Nat} {links : Tab LinkPort} {fports : Tab FPort} 
    {pins : Pins} {time : TimeU} {pwr : Pwr} {clk : Clk} {bgs : Bgs} {tele : Tele} {fuse : Fuse} 
    {mgmt : Tab Mgmt} {mblk : MgmtBlk} {test : TestU} {pfw : Pfw} {freeCtr : Nat} {out : List Output} (h : X.Has F) :
    Dev.Has F (Dev.mk X.fuses nv storeNv X.units glb pans cfg store rake sl routes banks hps execs nextExec links fports pins time pwr clk bgs tele fuse mgmt mblk test pfw freeCtr out) := ⟨h.bits, h.fuseForm, h.unitForm, h.epochs⟩

theorem nextEpoch_ne (e : BitVec 16) : nextEpoch e ≠ 0xFFFF := by
  unfold nextEpoch
  split
  · decide
  · bv_omega

/-- A unit's register takes a value whose epoch is not 0xFFFF. -/
theorem Dev.Has.set_unit {d d' : Dev} (u : Nat) (v : UnitSt) (hv : v.epoch ≠ 0xFFFF) (hf : d'.fuses = d.fuses)
    (hu : d'.units = d.units.set {} u v) (h : d.Has F) : d'.Has F := by
  refine ⟨hf ▸ h.bits, hf ▸ h.fuseForm, hu ▸ Tab.wf_set _ _ _ _ h.unitForm, ?_⟩
  rw [hu]
  intro w
  rw [Tab.get_set]
  split
  · exact hv
  · exact h.epochs w

theorem ite_has {c : Prop} [Decidable c] {a b : Dev} (ha : a.Has F) (hb : b.Has F) : (if c then a else b).Has F := by
  split <;> assumption

theorem ite_snd_has {α : Type} {c : Prop} [Decidable c] {a b : α × Dev} (ha : a.2.Has F) (hb : b.2.Has F) :
    (if c then a else b).2.Has F := by
  split <;> assumption

theorem ite_fst_has {α : Type} {c : Prop} [Decidable c] {a b : Dev × α} (ha : a.1.Has F) (hb : b.1.Has F) :
    (if c then a else b).1.Has F := by
  split <;> assumption

theorem foldl_has {α : Type} (f : Dev → α → Dev) (l : List α) (d : Dev) (hf : ∀ d a, Dev.Has F d → (f d a).Has F)
    (h : d.Has F) : (l.foldl f d).Has F := by
  induction l generalizing d with
  | nil => exact h
  | cons a l ih => exact ih _ (hf _ _ h)

theorem foldS_has {α : Type} (f : Dev → α → Dev) (d : Dev) (l : List α) (hf : ∀ d a, Dev.Has F d → (f d a).Has F)
    (h : d.Has F) : (foldS f d l).Has F := foldl_has f l d hf h

theorem foldS_inv {σ α : Type} (Q : σ → Prop) (f : σ → α → σ) (s : σ) (l : List α) (hf : ∀ s a, Q s → Q (f s a))
    (h : Q s) : Q (foldS f s l) := by
  unfold foldS
  induction l generalizing s with
  | nil => exact h
  | cons a l ih => exact ih _ (hf _ _ h)

theorem foldS_fst_has {α β : Type} (f : Dev × β → α → Dev × β) (p : Dev × β) (l : List α)
    (hf : ∀ p a, p.1.Has F → (f p a).1.Has F) (h : p.1.Has F) : (foldS f p l).1.Has F :=
  foldS_inv (fun s : Dev × β => s.1.Has F) f p l hf h

theorem foldS_snd_has {α β : Type} (f : β × Dev → α → β × Dev) (p : β × Dev) (l : List α)
    (hf : ∀ p a, p.2.Has F → (f p a).2.Has F) (h : p.2.Has F) : (foldS f p l).2.Has F :=
  foldS_inv (fun s : β × Dev => s.2.Has F) f p l hf h

theorem fst_has {α : Type} {p : Dev × α} {d : Dev} {a : α} (h : p = (d, a)) (hp : p.1.Has F) : d.Has F := by
  subst h; exact hp

theorem snd_has {α : Type} {p : α × Dev} {d : Dev} {a : α} (h : p = (a, d)) (hp : p.2.Has F) : d.Has F := by
  subst h; exact hp

end Sys2Proof.Machine
end

