-- ==== Sys2Proof/Laws/KeepsOps.lean ====
section
/-! SUPPORT. Every operation of Machine/Ops.lean keeps what Laws/Keeps.lean states. -/

set_option linter.unusedTactic false
set_option linter.unreachableTactic false
set_option linter.unusedVariables false

namespace Sys2Proof.Machine

theorem Dev.setPan_has {F : Tab Word} (x0 : Dev) (x1 : Nat) (x2 : Pan) (h0 : x0.Has F) :
    (Dev.setPan x0 x1 x2).Has F := by
  unfold Dev.setPan
  repeat' (first | with_reducible assumption | with_reducible apply ite_has | with_reducible apply foldS_has | with_reducible apply foldl_has | intro _ _ _ | intro _ | dsimp only | split | (fail_if_no_progress with_reducible apply Dev.Has.upd))

theorem Dev.modPan_has {F : Tab Word} (x0 : Dev) (x1 : Nat) (x2 : Pan → Pan) (h0 : x0.Has F) :
    (Dev.modPan x0 x1 x2).Has F := by
  unfold Dev.modPan
  repeat' (first | with_reducible assumption | with_reducible apply Dev.setPan_has | with_reducible apply ite_has | with_reducible apply foldS_has | with_reducible apply foldl_has | intro _ _ _ | intro _ | dsimp only | split | (fail_if_no_progress with_reducible apply Dev.Has.upd))

theorem Dev.modNv_has {F : Tab Word} (x0 : Dev) (x1 : Nat) (x2 : NvUnit → NvUnit) (h0 : x0.Has F) :
    (Dev.modNv x0 x1 x2).Has F := by
  unfold Dev.modNv
  repeat' (first | with_reducible assumption | with_reducible apply ite_has | with_reducible apply foldS_has | with_reducible apply foldl_has | intro _ _ _ | intro _ | dsimp only | split | (fail_if_no_progress with_reducible apply Dev.Has.upd))

theorem Dev.setBank_has {F : Tab Word} (x0 : Dev) (x1 : Nat) (x2 : Bank) (h0 : x0.Has F) :
    (Dev.setBank x0 x1 x2).Has F := by
  unfold Dev.setBank
  repeat' (first | with_reducible assumption | with_reducible apply ite_has | with_reducible apply foldS_has | with_reducible apply foldl_has | intro _ _ _ | intro _ | dsimp only | split | (fail_if_no_progress with_reducible apply Dev.Has.upd))

theorem Dev.modBank_has {F : Tab Word} (x0 : Dev) (x1 : Nat) (x2 : Bank → Bank) (h0 : x0.Has F) :
    (Dev.modBank x0 x1 x2).Has F := by
  unfold Dev.modBank
  repeat' (first | with_reducible assumption | with_reducible apply Dev.setBank_has | with_reducible apply ite_has | with_reducible apply foldS_has | with_reducible apply foldl_has | intro _ _ _ | intro _ | dsimp only | split | (fail_if_no_progress with_reducible apply Dev.Has.upd))

theorem Dev.modHp_has {F : Tab Word} (x0 : Dev) (x1 : Nat) (x2 : HostPort → HostPort) (h0 : x0.Has F) :
    (Dev.modHp x0 x1 x2).Has F := by
  unfold Dev.modHp
  repeat' (first | with_reducible assumption | with_reducible apply ite_has | with_reducible apply foldS_has | with_reducible apply foldl_has | intro _ _ _ | intro _ | dsimp only | split | (fail_if_no_progress with_reducible apply Dev.Has.upd))

theorem Dev.modSq_has {F : Tab Word} (x0 : Dev) (x1 : Nat) (x2 : Nat) (x3 : Sq → Sq) (h0 : x0.Has F) :
    (Dev.modSq x0 x1 x2 x3).Has F := by
  unfold Dev.modSq
  repeat' (first | with_reducible assumption | with_reducible apply Dev.modHp_has | with_reducible apply ite_has | with_reducible apply foldS_has | with_reducible apply foldl_has | intro _ _ _ | intro _ | dsimp only | split | (fail_if_no_progress with_reducible apply Dev.Has.upd))

theorem Dev.modCq_has {F : Tab Word} (x0 : Dev) (x1 : Nat) (x2 : Nat) (x3 : Cq → Cq) (h0 : x0.Has F) :
    (Dev.modCq x0 x1 x2 x3).Has F := by
  unfold Dev.modCq
  repeat' (first | with_reducible assumption | with_reducible apply Dev.modHp_has | with_reducible apply ite_has | with_reducible apply foldS_has | with_reducible apply foldl_has | intro _ _ _ | intro _ | dsimp only | split | (fail_if_no_progress with_reducible apply Dev.Has.upd))

theorem Dev.modLink_has {F : Tab Word} (x0 : Dev) (x1 : Nat) (x2 : LinkPort → LinkPort) (h0 : x0.Has F) :
    (Dev.modLink x0 x1 x2).Has F := by
  unfold Dev.modLink
  repeat' (first | with_reducible assumption | with_reducible apply ite_has | with_reducible apply foldS_has | with_reducible apply foldl_has | intro _ _ _ | intro _ | dsimp only | split | (fail_if_no_progress with_reducible apply Dev.Has.upd))

theorem Dev.modFport_has {F : Tab Word} (x0 : Dev) (x1 : Nat) (x2 : FPort → FPort) (h0 : x0.Has F) :
    (Dev.modFport x0 x1 x2).Has F := by
  unfold Dev.modFport
  repeat' (first | with_reducible assumption | with_reducible apply ite_has | with_reducible apply foldS_has | with_reducible apply foldl_has | intro _ _ _ | intro _ | dsimp only | split | (fail_if_no_progress with_reducible apply Dev.Has.upd))

theorem Dev.modPin_has {F : Tab Word} (x0 : Dev) (x1 : Nat) (x2 : Pin → Pin) (h0 : x0.Has F) :
    (Dev.modPin x0 x1 x2).Has F := by
  unfold Dev.modPin
  repeat' (first | with_reducible assumption | with_reducible apply ite_has | with_reducible apply foldS_has | with_reducible apply foldl_has | intro _ _ _ | intro _ | dsimp only | split | (fail_if_no_progress with_reducible apply Dev.Has.upd))

theorem Dev.setKind_has {F : Tab Word} (x0 : Dev) (x1 : Nat) (x2 : ExecKind) (h0 : x0.Has F) :
    (Dev.setKind x0 x1 x2).Has F := by
  unfold Dev.setKind
  repeat' (first | with_reducible assumption | with_reducible apply ite_has | with_reducible apply foldS_has | with_reducible apply foldl_has | intro _ _ _ | intro _ | dsimp only | split | (fail_if_no_progress with_reducible apply Dev.Has.upd))

theorem Dev.setOp_has {F : Tab Word} (x0 : Dev) (x1 : Nat) (x2 : Option Op) (h0 : x0.Has F) :
    (Dev.setOp x0 x1 x2).Has F := by
  unfold Dev.setOp
  repeat' (first | with_reducible assumption | with_reducible apply ite_has | with_reducible apply foldS_has | with_reducible apply foldl_has | intro _ _ _ | intro _ | dsimp only | split | (fail_if_no_progress with_reducible apply Dev.Has.upd))

theorem Dev.modMg_has {F : Tab Word} (x0 : Dev) (x1 : MgmtIf) (x2 : Mgmt → Mgmt) (h0 : x0.Has F) :
    (Dev.modMg x0 x1 x2).Has F := by
  unfold Dev.modMg
  repeat' (first | with_reducible assumption | with_reducible apply ite_has | with_reducible apply foldS_has | with_reducible apply foldl_has | intro _ _ _ | intro _ | dsimp only | split | (fail_if_no_progress with_reducible apply Dev.Has.upd))

theorem Dev.emit_has {F : Tab Word} (x0 : Dev) (x1 : Output) (h0 : x0.Has F) :
    (Dev.emit x0 x1).Has F := by
  unfold Dev.emit
  repeat' (first | with_reducible assumption | with_reducible apply ite_has | with_reducible apply foldS_has | with_reducible apply foldl_has | intro _ _ _ | intro _ | dsimp only | split | (fail_if_no_progress with_reducible apply Dev.Has.upd))

theorem Dev.takeFree_has {F : Tab Word} (x0 : Dev) (h0 : x0.Has F) :
    (Dev.takeFree x0).2.Has F := by
  unfold Dev.takeFree
  repeat' (first | with_reducible assumption | with_reducible apply ite_snd_has | with_reducible apply ite_has | with_reducible apply foldS_has | with_reducible apply foldl_has | intro _ _ _ | intro _ | dsimp only | split | (fail_if_no_progress with_reducible apply Dev.Has.upd))

theorem Dev.grantTo_has {F : Tab Word} (x0 : Dev) (x1 : Nat) (x2 : Contender) (h0 : x0.Has F) :
    (Dev.grantTo x0 x1 x2).Has F := by
  unfold Dev.grantTo
  repeat' (first | with_reducible assumption | with_reducible apply ite_has | with_reducible apply foldS_has | with_reducible apply foldl_has | intro _ _ _ | intro _ | dsimp only | split | (fail_if_no_progress with_reducible apply Dev.Has.upd))

theorem Dev.postHost_has {F : Tab Word} (x0 : Dev) (x1 : Nat) (x2 : DWord) (x3 : List Byte) (x4 : Bool) (h0 : x0.Has F) :
    (Dev.postHost x0 x1 x2 x3 x4).Has F := by
  unfold Dev.postHost
  repeat' (first | with_reducible assumption | with_reducible apply Dev.emit_has | with_reducible apply Dev.modHp_has | with_reducible apply ite_has | with_reducible apply foldS_has | with_reducible apply foldl_has | intro _ _ _ | intro _ | dsimp only | split | (fail_if_no_progress with_reducible apply Dev.Has.upd))

theorem Dev.sendMsix_has {F : Tab Word} (x0 : Dev) (x1 : Nat) (x2 : Nat) (h0 : x0.Has F) :
    (Dev.sendMsix x0 x1 x2).Has F := by
  unfold Dev.sendMsix
  repeat' (first | with_reducible assumption | with_reducible apply Dev.modHp_has | with_reducible apply Dev.emit_has | with_reducible apply ite_has | with_reducible apply foldS_has | with_reducible apply foldl_has | intro _ _ _ | intro _ | dsimp only | split | (fail_if_no_progress with_reducible apply Dev.Has.upd))

theorem Dev.writeEvent_has {F : Tab Word} (x0 : Dev) (x1 : Nat) (x2 : HeldEv) (h0 : x0.Has F) :
    (Dev.writeEvent x0 x1 x2).Has F := by
  unfold Dev.writeEvent
  repeat' (first | with_reducible assumption | with_reducible apply Dev.emit_has | with_reducible apply Dev.modHp_has | with_reducible apply Dev.sendMsix_has | with_reducible apply ite_has | with_reducible apply foldS_has | with_reducible apply foldl_has | intro _ _ _ | intro _ | dsimp only | split | (fail_if_no_progress with_reducible apply Dev.Has.upd))

theorem Dev.flushLost_has {F : Tab Word} (x0 : Dev) (x1 : Nat) (h0 : x0.Has F) :
    (Dev.flushLost x0 x1).Has F := by
  unfold Dev.flushLost
  repeat' (first | with_reducible assumption | with_reducible apply Dev.writeEvent_has | with_reducible apply Dev.modHp_has | with_reducible apply ite_has | with_reducible apply foldS_has | with_reducible apply foldl_has | intro _ _ _ | intro _ | dsimp only | split | (fail_if_no_progress with_reducible apply Dev.Has.upd))

theorem Dev.deliverEvent_has {F : Tab Word} (x0 : Dev) (x1 : Nat) (x2 : HeldEv) (h0 : x0.Has F) :
    (Dev.deliverEvent x0 x1 x2).Has F := by
  unfold Dev.deliverEvent
  repeat' (first | with_reducible assumption | with_reducible apply Dev.modHp_has | with_reducible apply Dev.flushLost_has | with_reducible apply Dev.writeEvent_has | with_reducible apply ite_has | with_reducible apply foldS_has | with_reducible apply foldl_has | intro _ _ _ | intro _ | dsimp only | split | (fail_if_no_progress with_reducible apply Dev.Has.upd))

theorem Dev.holdForD0_has {F : Tab Word} (x0 : Dev) (x1 : Nat) (x2 : HeldEv) (h0 : x0.Has F) :
    (Dev.holdForD0 x0 x1 x2).Has F := by
  unfold Dev.holdForD0
  repeat' (first | with_reducible assumption | with_reducible apply Dev.modHp_has | with_reducible apply Dev.emit_has | with_reducible apply ite_has | with_reducible apply foldS_has | with_reducible apply foldl_has | intro _ _ _ | intro _ | dsimp only | split | (fail_if_no_progress with_reducible apply Dev.Has.upd))

theorem Dev.eventAt_has {F : Tab Word} (x0 : Dev) (x1 : Nat) (x2 : Nat) (x3 : Nat) (x4 : Nat) (x5 : DWord) (h0 : x0.Has F) :
    (Dev.eventAt x0 x1 x2 x3 x4 x5).Has F := by
  unfold Dev.eventAt
  repeat' (first | with_reducible assumption | with_reducible apply Dev.modHp_has | with_reducible apply Dev.holdForD0_has | with_reducible apply Dev.deliverEvent_has | with_reducible apply ite_has | with_reducible apply foldS_has | with_reducible apply foldl_has | intro _ _ _ | intro _ | dsimp only | split | (fail_if_no_progress with_reducible apply Dev.Has.upd))

theorem Dev.flushHeld_has {F : Tab Word} (x0 : Dev) (x1 : Nat) (h0 : x0.Has F) :
    (Dev.flushHeld x0 x1).Has F := by
  unfold Dev.flushHeld
  repeat' (first | with_reducible assumption | with_reducible apply Dev.deliverEvent_has | with_reducible apply Dev.modHp_has | with_reducible apply ite_has | with_reducible apply foldS_has | with_reducible apply foldl_has | intro _ _ _ | intro _ | dsimp only | split | (fail_if_no_progress with_reducible apply Dev.Has.upd))

theorem Dev.eventFor_has {F : Tab Word} (x0 : Dev) (x1 : Nat) (x2 : Nat) (x3 : Nat) (x4 : Nat) (x5 : DWord) (h0 : x0.Has F) :
    (Dev.eventFor x0 x1 x2 x3 x4 x5).Has F := by
  unfold Dev.eventFor
  repeat' (first | with_reducible assumption | with_reducible apply Dev.eventAt_has | with_reducible apply ite_has | with_reducible apply foldS_has | with_reducible apply foldl_has | intro _ _ _ | intro _ | dsimp only | split | (fail_if_no_progress with_reducible apply Dev.Has.upd))

theorem Dev.event_has {F : Tab Word} (x0 : Dev) (x1 : Nat) (x2 : Nat) (x3 : Nat) (x4 : DWord) (h0 : x0.Has F) :
    (Dev.event x0 x1 x2 x3 x4).Has F := by
  unfold Dev.event
  repeat' (first | with_reducible assumption | with_reducible apply Dev.eventFor_has | with_reducible apply ite_has | with_reducible apply foldS_has | with_reducible apply foldl_has | intro _ _ _ | intro _ | dsimp only | split | (fail_if_no_progress with_reducible apply Dev.Has.upd))

theorem Dev.putUnit_has {F : Tab Word} (x0 : Dev) (x1 : Nat) (x2 : UState) (h0 : x0.Has F) :
    (Dev.putUnit x0 x1 x2).Has F := by
  exact Dev.Has.set_unit (d := x0) x1 _ (nextEpoch_ne _) rfl rfl h0

theorem Dev.noteFault_has {F : Tab Word} (x0 : Dev) (x1 : Nat) (x2 : Nat) (h0 : x0.Has F) :
    (Dev.noteFault x0 x1 x2).Has F := by
  unfold Dev.noteFault
  repeat' (first | with_reducible assumption | with_reducible apply ite_has | with_reducible apply foldS_has | with_reducible apply foldl_has | intro _ _ _ | intro _ | dsimp only | split | (fail_if_no_progress with_reducible apply Dev.Has.upd))

theorem Dev.setUnit_has {F : Tab Word} (x0 : Dev) (x1 : Nat) (x2 : UState) (x3 : Cause) (h0 : x0.Has F) :
    (Dev.setUnit x0 x1 x2 x3).Has F := by
  unfold Dev.setUnit
  repeat' (first | with_reducible assumption | with_reducible apply Dev.putUnit_has | with_reducible apply Dev.eventAt_has | with_reducible apply ite_has | with_reducible apply foldS_has | with_reducible apply foldl_has | intro _ _ _ | intro _ | dsimp only | split | (fail_if_no_progress with_reducible apply Dev.Has.upd))

theorem Dev.returnUnit_has {F : Tab Word} (x0 : Dev) (x1 : Nat) (x2 : UState) (x3 : Cause) (h0 : x0.Has F) :
    (Dev.returnUnit x0 x1 x2 x3).Has F := by
  unfold Dev.returnUnit
  repeat' (first | with_reducible assumption | with_reducible apply Dev.setUnit_has | with_reducible apply Dev.noteFault_has | with_reducible apply ite_has | with_reducible apply foldS_has | with_reducible apply foldl_has | intro _ _ _ | intro _ | dsimp only | split | (fail_if_no_progress with_reducible apply Dev.Has.upd))

theorem Dev.fault_has {F : Tab Word} (x0 : Dev) (x1 : Nat) (x2 : Nat) (x3 : DWord) (h0 : x0.Has F) :
    (Dev.fault x0 x1 x2 x3).Has F := by
  unfold Dev.fault
  repeat' (first | with_reducible assumption | with_reducible apply Dev.setUnit_has | with_reducible apply Dev.noteFault_has | with_reducible apply Dev.event_has | with_reducible apply ite_has | with_reducible apply foldS_has | with_reducible apply foldl_has | intro _ _ _ | intro _ | dsimp only | split | (fail_if_no_progress with_reducible apply Dev.Has.upd))

theorem Dev.writeCpl_has {F : Tab Word} (x0 : Dev) (x1 : Nat) (x2 : Nat) (x3 : BitVec 16) (x4 : Bool) (x5 : Nat) (x6 : Nat) (x7 : DWord) (h0 : x0.Has F) :
    (Dev.writeCpl x0 x1 x2 x3 x4 x5 x6 x7).Has F := by
  unfold Dev.writeCpl
  repeat' (first | with_reducible assumption | with_reducible apply Dev.postHost_has | with_reducible apply Dev.modCq_has | with_reducible apply Dev.sendMsix_has | with_reducible apply ite_has | with_reducible apply foldS_has | with_reducible apply foldl_has | intro _ _ _ | intro _ | dsimp only | split | (fail_if_no_progress with_reducible apply Dev.Has.upd))

theorem Dev.ringAfter_has {F : Tab Word} (x0 : Dev) (x1 : Nat) (x2 : Nat) (x3 : Nat) (x4 : Nat) (x5 : Bool) (h0 : x0.Has F) :
    (Dev.ringAfter x0 x1 x2 x3 x4 x5).Has F := by
  unfold Dev.ringAfter
  repeat' (first | with_reducible assumption | with_reducible apply Dev.modSq_has | with_reducible apply ite_has | with_reducible apply foldS_has | with_reducible apply foldl_has | intro _ _ _ | intro _ | dsimp only | split | (fail_if_no_progress with_reducible apply Dev.Has.upd))

theorem Dev.endExec_has {F : Tab Word} (x0 : Dev) (x1 : Nat) (x2 : Nat) (x3 : Nat) (x4 : DWord) (h0 : x0.Has F) :
    (Dev.endExec x0 x1 x2 x3 x4).Has F := by
  unfold Dev.endExec
  repeat' (first | with_reducible assumption | with_reducible apply Dev.modHp_has | with_reducible apply Dev.ringAfter_has | with_reducible apply Dev.writeCpl_has | with_reducible apply Dev.modMg_has | with_reducible apply ite_has | with_reducible apply foldS_has | with_reducible apply foldl_has | intro _ _ _ | intro _ | dsimp only | split | (fail_if_no_progress with_reducible apply Dev.Has.upd))

theorem Dev.fenceDone_has {F : Tab Word} (x0 : Dev) (x1 : Nat) (h0 : x0.Has F) :
    (Dev.fenceDone x0 x1).1.Has F := by
  unfold Dev.fenceDone
  repeat' (first | with_reducible assumption | with_reducible apply ite_fst_has | with_reducible apply ite_has | with_reducible apply foldS_has | with_reducible apply foldl_has | intro _ _ _ | intro _ | dsimp only | split | (fail_if_no_progress with_reducible apply Dev.Has.upd))

theorem Dev.completeN_has {F : Tab Word} (x0 : Dev) (x1 : Nat) (x2 : Nat) (x3 : Nat) (x4 : Nat) (x5 : DWord) (h0 : x0.Has F) :
    (Dev.completeN x0 x1 x2 x3 x4 x5).Has F := by
  induction x1 generalizing x0 x2 x3 x4 x5 with
  | zero =>
    unfold Dev.completeN
    repeat' (first | with_reducible assumption | with_reducible apply Dev.fenceDone_has | with_reducible apply fst_has ‹_ = (_, _)› (Dev.fenceDone_has ..) | with_reducible apply Dev.endExec_has | with_reducible apply Dev.endExec_has | with_reducible apply Dev.fenceDone_has | with_reducible apply fst_has ‹_ = (_, _)› (Dev.fenceDone_has ..) | with_reducible apply ite_has | with_reducible apply foldS_has | with_reducible apply foldl_has | intro _ _ _ | intro _ | dsimp only | split | (fail_if_no_progress with_reducible apply Dev.Has.upd))
  | succ k ih =>
    unfold Dev.completeN
    repeat' (first | with_reducible assumption | with_reducible apply ih | with_reducible apply Dev.fenceDone_has | with_reducible apply fst_has ‹_ = (_, _)› (Dev.fenceDone_has ..) | with_reducible apply Dev.endExec_has | with_reducible apply Dev.endExec_has | with_reducible apply Dev.fenceDone_has | with_reducible apply fst_has ‹_ = (_, _)› (Dev.fenceDone_has ..) | with_reducible apply ite_has | with_reducible apply foldS_has | with_reducible apply foldl_has | intro _ _ _ | intro _ | dsimp only | split | (fail_if_no_progress with_reducible apply Dev.Has.upd))

theorem Dev.complete_has {F : Tab Word} (x0 : Dev) (x1 : Nat) (x2 : Nat) (x3 : Nat) (x4 : DWord) (h0 : x0.Has F) :
    (Dev.complete x0 x1 x2 x3 x4).Has F := by
  unfold Dev.complete
  repeat' (first | with_reducible assumption | with_reducible apply Dev.completeN_has | with_reducible apply ite_has | with_reducible apply foldS_has | with_reducible apply foldl_has | intro _ _ _ | intro _ | dsimp only | split | (fail_if_no_progress with_reducible apply Dev.Has.upd))

theorem Dev.start_has {F : Tab Word} (x0 : Dev) (x1 : Issuer) (x2 : Desc) (h0 : x0.Has F) :
    (Dev.start x0 x1 x2).Has F := by
  unfold Dev.start
  repeat' (first | with_reducible assumption | with_reducible apply Dev.modSq_has | with_reducible apply Dev.modCq_has | with_reducible apply Dev.modMg_has | with_reducible apply ite_has | with_reducible apply foldS_has | with_reducible apply foldl_has | intro _ _ _ | intro _ | dsimp only | split | (fail_if_no_progress with_reducible apply Dev.Has.upd))

theorem Dev.usePreread_has {F : Tab Word} (x0 : Dev) (x1 : Nat) (h0 : x0.Has F) :
    (Dev.usePreread x0 x1).2.Has F := by
  unfold Dev.usePreread
  repeat' (first | with_reducible assumption | with_reducible apply Dev.modHp_has | with_reducible apply Dev.modSq_has | with_reducible apply ite_snd_has | with_reducible apply ite_has | with_reducible apply foldS_has | with_reducible apply foldl_has | intro _ _ _ | intro _ | dsimp only | split | (fail_if_no_progress with_reducible apply Dev.Has.upd))

theorem Dev.begin_has {F : Tab Word} (x0 : Dev) (x1 : Issuer) (x2 : Desc) (x3 : Nat) (x4 : Bool) (x5 : Bool) (x6 : List (Nat × Nat)) (x7 : Dev → Nat → Dev) (h0 : x0.Has F) (h7 : ∀ (y0 : Dev) (y1 : Nat), y0.Has F → (x7 y0 y1).Has F) :
    (Dev.begin x0 x1 x2 x3 x4 x5 x6 x7).Has F := by
  unfold Dev.begin
  repeat' (first | with_reducible assumption | with_reducible apply Dev.start_has | with_reducible apply Dev.complete_has | with_reducible apply Dev.usePreread_has | with_reducible apply snd_has ‹_ = (_, _)› (Dev.usePreread_has ..) | with_reducible apply h7 | with_reducible apply ite_has | with_reducible apply foldS_has | with_reducible apply foldl_has | intro _ _ _ | intro _ | dsimp only | split | (fail_if_no_progress with_reducible apply Dev.Has.upd))

theorem Dev.beginAt_has {F : Tab Word} (x0 : Dev) (x1 : Bool) (x2 : Issuer) (x3 : Desc) (x4 : Nat) (x5 : List (Nat × Nat)) (x6 : Dev → Nat → Dev) (h0 : x0.Has F) (h6 : ∀ (y0 : Dev) (y1 : Nat), y0.Has F → (x6 y0 y1).Has F) :
    (Dev.beginAt x0 x1 x2 x3 x4 x5 x6).Has F := by
  unfold Dev.beginAt
  repeat' (first | with_reducible assumption | with_reducible apply Dev.begin_has | with_reducible apply h6 | with_reducible apply ite_has | with_reducible apply foldS_has | with_reducible apply foldl_has | intro _ _ _ | intro _ | dsimp only | split | (fail_if_no_progress with_reducible apply Dev.Has.upd))

end Sys2Proof.Machine
end

