-- ==== Sys2Proof/Laws/KeepsFlags.lean ====
section
/-! SUPPORT. Every operation of Machine/Flags.lean keeps what Laws/Keeps.lean states. -/

set_option linter.unusedTactic false
set_option linter.unreachableTactic false
set_option linter.unusedVariables false

namespace Sys2Proof.Machine

theorem Dev.hostErr_has {F : Tab Word} (x0 : Dev) (x1 : Nat) (x2 : Nat) (x3 : Nat) (x4 : Nat) (h0 : x0.Has F) :
    (Dev.hostErr x0 x1 x2 x3 x4).Has F := by
  unfold Dev.hostErr
  repeat' (first | with_reducible assumption | with_reducible apply Dev.modHp_has | with_reducible apply ite_has | with_reducible apply foldS_has | with_reducible apply foldl_has | intro _ _ _ | intro _ | dsimp only | split | (fail_if_no_progress with_reducible apply Dev.Has.upd))

theorem Dev.hostErrAddr_has {F : Tab Word} (x0 : Dev) (x1 : Nat) (x2 : Nat) (x3 : Nat) (x4 : Nat) (x5 : DWord) (h0 : x0.Has F) :
    (Dev.hostErrAddr x0 x1 x2 x3 x4 x5).Has F := by
  unfold Dev.hostErrAddr
  repeat' (first | with_reducible assumption | with_reducible apply Dev.hostErr_has | with_reducible apply Dev.modHp_has | with_reducible apply ite_has | with_reducible apply foldS_has | with_reducible apply foldl_has | intro _ _ _ | intro _ | dsimp only | split | (fail_if_no_progress with_reducible apply Dev.Has.upd))

theorem Dev.dropWrite_has {F : Tab Word} (x0 : Dev) (x1 : Path) (h0 : x0.Has F) :
    (Dev.dropWrite x0 x1).Has F := by
  unfold Dev.dropWrite
  repeat' (first | with_reducible assumption | with_reducible apply Dev.modHp_has | with_reducible apply Dev.hostErr_has | with_reducible apply Dev.emit_has | with_reducible apply ite_has | with_reducible apply foldS_has | with_reducible apply foldl_has | intro _ _ _ | intro _ | dsimp only | split | (fail_if_no_progress with_reducible apply Dev.Has.upd))

theorem Dev.badAccess_has {F : Tab Word} (x0 : Dev) (x1 : Path) (h0 : x0.Has F) :
    (Dev.badAccess x0 x1).Has F := by
  unfold Dev.badAccess
  repeat' (first | with_reducible assumption | with_reducible apply Dev.modHp_has | with_reducible apply Dev.hostErr_has | with_reducible apply ite_has | with_reducible apply foldS_has | with_reducible apply foldl_has | intro _ _ _ | intro _ | dsimp only | split | (fail_if_no_progress with_reducible apply Dev.Has.upd))

theorem Dev.lateReply_has {F : Tab Word} (x0 : Dev) (x1 : MgmtIf) (x2 : List Byte) (h0 : x0.Has F) :
    (Dev.lateReply x0 x1 x2).Has F := by
  unfold Dev.lateReply
  repeat' (first | with_reducible assumption | with_reducible apply Dev.emit_has | with_reducible apply Dev.modMg_has | with_reducible apply ite_has | with_reducible apply foldS_has | with_reducible apply foldl_has | intro _ _ _ | intro _ | dsimp only | split | (fail_if_no_progress with_reducible apply Dev.Has.upd))

theorem Dev.countMgmt_has {F : Tab Word} (x0 : Dev) (x1 : MgmtIf) (h0 : x0.Has F) :
    (Dev.countMgmt x0 x1).Has F := by
  unfold Dev.countMgmt
  repeat' (first | with_reducible assumption | with_reducible apply Dev.modMg_has | with_reducible apply ite_has | with_reducible apply foldS_has | with_reducible apply foldl_has | intro _ _ _ | intro _ | dsimp only | split | (fail_if_no_progress with_reducible apply Dev.Has.upd))

theorem Dev.carryFree_has {F : Tab Word} (x0 : Dev) (x1 : MgmtIf) (x2 : Bool) (x3 : Dev → Dev) (h0 : x0.Has F) (h3 : ∀ (y0 : Dev), y0.Has F → (x3 y0).Has F) :
    (Dev.carryFree x0 x1 x2 x3).Has F := by
  unfold Dev.carryFree
  repeat' (first | with_reducible assumption | with_reducible apply Dev.emit_has | with_reducible apply h3 | with_reducible apply ite_has | with_reducible apply foldS_has | with_reducible apply foldl_has | intro _ _ _ | intro _ | dsimp only | split | (fail_if_no_progress with_reducible apply Dev.Has.upd))

theorem Dev.carry_has {F : Tab Word} (x0 : Dev) (x1 : MgmtIf) (x2 : Bool) (x3 : Dev → Dev) (h0 : x0.Has F) (h3 : ∀ (y0 : Dev), y0.Has F → (x3 y0).Has F) :
    (Dev.carry x0 x1 x2 x3).Has F := by
  unfold Dev.carry
  repeat' (first | with_reducible assumption | with_reducible apply Dev.carryFree_has | with_reducible apply Dev.countMgmt_has | with_reducible apply h3 | with_reducible apply ite_has | with_reducible apply foldS_has | with_reducible apply foldl_has | intro _ _ _ | intro _ | dsimp only | split | (fail_if_no_progress with_reducible apply Dev.Has.upd))

theorem Dev.logAer_has {F : Tab Word} (x0 : Dev) (x1 : Nat) (x2 : Nat) (h0 : x0.Has F) :
    (Dev.logAer x0 x1 x2).Has F := by
  unfold Dev.logAer
  repeat' (first | with_reducible assumption | with_reducible apply Dev.modHp_has | with_reducible apply ite_has | with_reducible apply foldS_has | with_reducible apply foldl_has | intro _ _ _ | intro _ | dsimp only | split | (fail_if_no_progress with_reducible apply Dev.Has.upd))

theorem Dev.access_has {F : Tab Word} (x0 : Dev) (x1 : Path) (x2 : Dev → Dev) (h0 : x0.Has F) (h2 : ∀ (y0 : Dev), y0.Has F → (x2 y0).Has F) :
    (Dev.access x0 x1 x2).Has F := by
  unfold Dev.access
  repeat' (first | with_reducible assumption | with_reducible apply Dev.logAer_has | with_reducible apply Dev.carry_has | with_reducible apply h2 | with_reducible apply ite_has | with_reducible apply foldS_has | with_reducible apply foldl_has | intro _ _ _ | intro _ | dsimp only | split | (fail_if_no_progress with_reducible apply Dev.Has.upd))

theorem Dev.wrote_has {F : Tab Word} (x0 : Dev) (x1 : Path) (h0 : x0.Has F) :
    (Dev.wrote x0 x1).Has F := by
  unfold Dev.wrote
  repeat' (first | with_reducible assumption | with_reducible apply Dev.emit_has | with_reducible apply ite_has | with_reducible apply foldS_has | with_reducible apply foldl_has | intro _ _ _ | intro _ | dsimp only | split | (fail_if_no_progress with_reducible apply Dev.Has.upd))

theorem Dev.returns_has {F : Tab Word} (x0 : Dev) (x1 : Path) (x2 : Nat) (x3 : Word) (h0 : x0.Has F) :
    (Dev.returns x0 x1 x2 x3).Has F := by
  unfold Dev.returns
  repeat' (first | with_reducible assumption | with_reducible apply Dev.emit_has | with_reducible apply ite_has | with_reducible apply foldS_has | with_reducible apply foldl_has | intro _ _ _ | intro _ | dsimp only | split | (fail_if_no_progress with_reducible apply Dev.Has.upd))

theorem Dev.filteredIf_has {F : Tab Word} (x0 : Dev) (x1 : Path) (x2 : Blk) (x3 : Nat) (x4 : Dev → Bool) (x5 : Dev → Dev) (h0 : x0.Has F) (h5 : ∀ (y0 : Dev), y0.Has F → (x5 y0).Has F) :
    (Dev.filteredIf x0 x1 x2 x3 x4 x5).Has F := by
  unfold Dev.filteredIf
  repeat' (first | with_reducible assumption | with_reducible apply Dev.access_has | with_reducible apply Dev.badAccess_has | with_reducible apply Dev.wrote_has | with_reducible apply Dev.dropWrite_has | with_reducible apply h5 | with_reducible apply ite_has | with_reducible apply foldS_has | with_reducible apply foldl_has | intro _ _ _ | intro _ | dsimp only | split | (fail_if_no_progress with_reducible apply Dev.Has.upd))

theorem Dev.filtered_has {F : Tab Word} (x0 : Dev) (x1 : Path) (x2 : Blk) (x3 : Nat) (x4 : Dev → Dev) (h0 : x0.Has F) (h4 : ∀ (y0 : Dev), y0.Has F → (x4 y0).Has F) :
    (Dev.filtered x0 x1 x2 x3 x4).Has F := by
  unfold Dev.filtered
  repeat' (first | with_reducible assumption | with_reducible apply Dev.filteredIf_has | with_reducible apply h4 | with_reducible apply ite_has | with_reducible apply foldS_has | with_reducible apply foldl_has | intro _ _ _ | intro _ | dsimp only | split | (fail_if_no_progress with_reducible apply Dev.Has.upd))

theorem Dev.readThrough_has {F : Tab Word} (x0 : Dev) (x1 : Path) (x2 : Blk) (x3 : Nat) (x4 : Nat) (x5 : Dev → Word × Dev) (h0 : x0.Has F) (h5 : ∀ (y0 : Dev), y0.Has F → (x5 y0).2.Has F) :
    (Dev.readThrough x0 x1 x2 x3 x4 x5).Has F := by
  unfold Dev.readThrough
  repeat' (first | with_reducible assumption | with_reducible apply Dev.access_has | with_reducible apply Dev.returns_has | with_reducible apply Dev.badAccess_has | with_reducible apply h5 | with_reducible apply ite_has | with_reducible apply foldS_has | with_reducible apply foldl_has | intro _ _ _ | intro _ | dsimp only | split | (fail_if_no_progress with_reducible apply Dev.Has.upd))

end Sys2Proof.Machine
end

