-- ==== Sys2Proof/Laws/KeepsBanks.lean ====
section
/-! SUPPORT. Every operation of Machine/Banks.lean keeps what Laws/Keeps.lean states. -/

set_option linter.unusedTactic false
set_option linter.unreachableTactic false
set_option linter.unusedVariables false

namespace Sys2Proof.Machine

theorem Dev.bankAct_has {F : Tab Word} (x0 : Dev) (x1 : Nat) (x2 : Nat) (x3 : Nat) (x4 : Nat) (h0 : x0.Has F) :
    (Dev.bankAct x0 x1 x2 x3 x4).Has F := by
  unfold Dev.bankAct
  repeat' (first | with_reducible assumption | with_reducible apply ite_has | with_reducible apply foldS_has | with_reducible apply foldl_has | intro _ _ _ | intro _ | dsimp only | split | (fail_if_no_progress with_reducible apply Dev.Has.upd))

theorem Dev.bankWork_has {F : Tab Word} (x0 : Dev) (x1 : Nat) (x2 : Nat) (x3 : Bank) (x4 : Bank) (x5 : List Nat) (x6 : Nat) (x7 : Nat) (x8 : Bool) (h0 : x0.Has F) :
    (Dev.bankWork x0 x1 x2 x3 x4 x5 x6 x7 x8).Has F := by
  unfold Dev.bankWork
  repeat' (first | with_reducible assumption | with_reducible apply Dev.takeFree_has | with_reducible apply snd_has ‹_ = (_, _)› (Dev.takeFree_has ..) | with_reducible apply Dev.bankAct_has | with_reducible apply ite_has | with_reducible apply foldS_has | with_reducible apply foldl_has | intro _ _ _ | intro _ | dsimp only | split | (fail_if_no_progress with_reducible apply Dev.Has.upd))

theorem Dev.panBeats_has {F : Tab Word} (x0 : Dev) (x1 : Nat) (x2 : Nat) (h0 : x0.Has F) :
    (Dev.panBeats x0 x1 x2).Has F := by
  unfold Dev.panBeats
  repeat' (first | with_reducible assumption | with_reducible apply ite_has | with_reducible apply foldS_has | with_reducible apply foldl_has | intro _ _ _ | intro _ | dsimp only | split | (fail_if_no_progress with_reducible apply Dev.Has.upd))

theorem Dev.panCycles_has {F : Tab Word} (x0 : Dev) (x1 : Nat) (x2 : Nat) (h0 : x0.Has F) :
    (Dev.panCycles x0 x1 x2).Has F := by
  unfold Dev.panCycles
  repeat' (first | with_reducible assumption | with_reducible apply ite_has | with_reducible apply foldS_has | with_reducible apply foldl_has | intro _ _ _ | intro _ | dsimp only | split | (fail_if_no_progress with_reducible apply Dev.Has.upd))

theorem Dev.bankEvents_has {F : Tab Word} (x0 : Dev) (x1 : Nat) (x2 : List BankEv) (h0 : x0.Has F) :
    (Dev.bankEvents x0 x1 x2).Has F := by
  unfold Dev.bankEvents
  repeat' (first | with_reducible assumption | with_reducible apply Dev.event_has | with_reducible apply ite_has | with_reducible apply foldS_has | with_reducible apply foldl_has | intro _ _ _ | intro _ | dsimp only | split | (fail_if_no_progress with_reducible apply Dev.Has.upd))

theorem Dev.bankGrant_has {F : Tab Word} (x0 : Dev) (x1 : Nat) (x2 : Nat) (h0 : x0.Has F) :
    (Dev.bankGrant x0 x1 x2).Has F := by
  unfold Dev.bankGrant
  repeat' (first | with_reducible assumption | with_reducible apply Dev.grantTo_has | with_reducible apply ite_has | with_reducible apply foldS_has | with_reducible apply foldl_has | intro _ _ _ | intro _ | dsimp only | split | (fail_if_no_progress with_reducible apply Dev.Has.upd))

theorem opScrubStep_has {F : Tab Word} (x0 : Nat) (x1 : Dev) (h1 : x1.Has F) :
    (opScrubStep x0 x1).Has F := by
  unfold opScrubStep
  repeat' (first | with_reducible assumption | with_reducible apply Dev.bankWork_has | with_reducible apply Dev.bankEvents_has | with_reducible apply Dev.setBank_has | with_reducible apply Dev.bankGrant_has | with_reducible apply ite_has | with_reducible apply foldS_has | with_reducible apply foldl_has | intro _ _ _ | intro _ | dsimp only | split | (fail_if_no_progress with_reducible apply Dev.Has.upd))

theorem opZeroFillStep_has {F : Tab Word} (x0 : Nat) (x1 : Dev) (h1 : x1.Has F) :
    (opZeroFillStep x0 x1).Has F := by
  unfold opZeroFillStep
  repeat' (first | with_reducible assumption | with_reducible apply Dev.bankGrant_has | with_reducible apply Dev.bankAct_has | with_reducible apply Dev.setBank_has | with_reducible apply ite_has | with_reducible apply foldS_has | with_reducible apply foldl_has | intro _ _ _ | intro _ | dsimp only | split | (fail_if_no_progress with_reducible apply Dev.Has.upd))

theorem opRecodeStep_has {F : Tab Word} (x0 : Nat) (x1 : Dev) (h1 : x1.Has F) :
    (opRecodeStep x0 x1).Has F := by
  unfold opRecodeStep
  repeat' (first | with_reducible assumption | with_reducible apply Dev.takeFree_has | with_reducible apply snd_has ‹_ = (_, _)› (Dev.takeFree_has ..) | with_reducible apply Dev.bankEvents_has | with_reducible apply Dev.modBank_has | with_reducible apply Dev.bankWork_has | with_reducible apply Dev.setBank_has | with_reducible apply Dev.bankGrant_has | with_reducible apply ite_has | with_reducible apply foldS_has | with_reducible apply foldl_has | intro _ _ _ | intro _ | dsimp only | split | (fail_if_no_progress with_reducible apply Dev.Has.upd))

theorem Dev.endBorrow_has {F : Tab Word} (x0 : Dev) (x1 : Nat) (x2 : Nat) (x3 : Nat) (x4 : Nat) (x5 : List Nat) (h0 : x0.Has F) :
    (Dev.endBorrow x0 x1 x2 x3 x4 x5).1.Has F := by
  unfold Dev.endBorrow
  repeat' (first | with_reducible assumption | with_reducible apply Dev.takeFree_has | with_reducible apply snd_has ‹_ = (_, _)› (Dev.takeFree_has ..) | with_reducible apply Dev.bankEvents_has | with_reducible apply Dev.setBank_has | with_reducible apply ite_fst_has | with_reducible apply foldS_fst_has | with_reducible apply ite_has | with_reducible apply foldS_has | with_reducible apply foldl_has | intro _ _ _ | intro _ | dsimp only | split | (fail_if_no_progress with_reducible apply Dev.Has.upd))

theorem Dev.bistBank_has {F : Tab Word} (x0 : Dev) (x1 : Nat) (x2 : Nat) (x3 : Bool) (h0 : x0.Has F) :
    (Dev.bistBank x0 x1 x2 x3).Has F := by
  unfold Dev.bistBank
  repeat' (first | with_reducible assumption | with_reducible apply ite_has | with_reducible apply foldS_has | with_reducible apply foldl_has | intro _ _ _ | intro _ | dsimp only | split | (fail_if_no_progress with_reducible apply Dev.Has.upd))

theorem opBankSelftestStep_has {F : Tab Word} (x0 : Nat) (x1 : Nat) (x2 : Nat) (x3 : List Nat) (x4 : Dev) (h4 : x4.Has F) :
    (opBankSelftestStep x0 x1 x2 x3 x4).Has F := by
  unfold opBankSelftestStep
  repeat' (first | with_reducible assumption | with_reducible apply Dev.bankAct_has | with_reducible apply Dev.setBank_has | with_reducible apply Dev.bankGrant_has | with_reducible apply Dev.endBorrow_has | with_reducible apply fst_has ‹_ = (_, _)› (Dev.endBorrow_has ..) | with_reducible apply Dev.takeFree_has | with_reducible apply snd_has ‹_ = (_, _)› (Dev.takeFree_has ..) | with_reducible apply Dev.bistBank_has | with_reducible apply ite_has | with_reducible apply foldS_has | with_reducible apply foldl_has | intro _ _ _ | intro _ | dsimp only | split | (fail_if_no_progress with_reducible apply Dev.Has.upd))

theorem opBankCtrlWrite_has {F : Tab Word} (x0 : Path) (x1 : Nat) (x2 : Word) (x3 : Dev) (h3 : x3.Has F) :
    (opBankCtrlWrite x0 x1 x2 x3).Has F := by
  unfold opBankCtrlWrite
  repeat' (first | with_reducible assumption | with_reducible apply Dev.filtered_has | with_reducible apply Dev.modBank_has | with_reducible apply ite_has | with_reducible apply foldS_has | with_reducible apply foldl_has | intro _ _ _ | intro _ | dsimp only | split | (fail_if_no_progress with_reducible apply Dev.Has.upd))

theorem opFlipArm_has {F : Tab Word} (x0 : Path) (x1 : Nat) (x2 : Word) (x3 : Dev) (h3 : x3.Has F) :
    (opFlipArm x0 x1 x2 x3).Has F := by
  unfold opFlipArm
  repeat' (first | with_reducible assumption | with_reducible apply Dev.filtered_has | with_reducible apply Dev.modBank_has | with_reducible apply ite_has | with_reducible apply foldS_has | with_reducible apply foldl_has | intro _ _ _ | intro _ | dsimp only | split | (fail_if_no_progress with_reducible apply Dev.Has.upd))

theorem opScrub_has {F : Tab Word} (x0 : Issuer) (x1 : Desc) (x2 : Dev) (h2 : x2.Has F) :
    (opScrub x0 x1 x2).Has F := by
  unfold opScrub
  repeat' (first | with_reducible assumption | with_reducible apply Dev.beginAt_has | with_reducible apply Dev.complete_has | with_reducible apply Dev.bankWork_has | with_reducible apply Dev.bankEvents_has | with_reducible apply Dev.setBank_has | with_reducible apply ite_has | with_reducible apply foldS_has | with_reducible apply foldl_has | intro _ _ _ | intro _ | dsimp only | split | (fail_if_no_progress with_reducible apply Dev.Has.upd))

end Sys2Proof.Machine
end

