-- ==== Sys2Proof/Laws/KeepsFabric.lean ====
section
/-! SUPPORT. Every operation of Machine/Fabric.lean keeps what Laws/Keeps.lean states. -/

set_option linter.unusedTactic false
set_option linter.unreachableTactic false
set_option linter.unusedVariables false

namespace Sys2Proof.Machine

theorem Dev.putViews_has {F : Tab Word} (x0 : Dev) (x1 : Views) (x2 : Nat) (h0 : x0.Has F) :
    (Dev.putViews x0 x1 x2).Has F := by
  unfold Dev.putViews
  repeat' (first | with_reducible assumption | with_reducible apply ite_has | with_reducible apply foldS_has | with_reducible apply foldl_has | intro _ _ _ | intro _ | dsimp only | split | (fail_if_no_progress with_reducible apply Dev.Has.upd))

theorem Dev.settle_has {F : Tab Word} (x0 : Dev) (x1 : Nat) (h0 : x0.Has F) :
    (Dev.settle x0 x1).Has F := by
  unfold Dev.settle
  repeat' (first | with_reducible assumption | with_reducible apply Dev.putViews_has | with_reducible apply ite_has | with_reducible apply foldS_has | with_reducible apply foldl_has | intro _ _ _ | intro _ | dsimp only | split | (fail_if_no_progress with_reducible apply Dev.Has.upd))

theorem Dev.clockPan_has {F : Tab Word} (x0 : Dev) (x1 : Nat) (x2 : List (Nat × Bool)) (h0 : x0.Has F) :
    (Dev.clockPan x0 x1 x2).Has F := by
  unfold Dev.clockPan
  repeat' (first | with_reducible assumption | with_reducible apply Dev.putViews_has | with_reducible apply ite_has | with_reducible apply foldS_has | with_reducible apply foldl_has | intro _ _ _ | intro _ | dsimp only | split | (fail_if_no_progress with_reducible apply Dev.Has.upd))

theorem Dev.sourcesOf_has {F : Tab Word} (x0 : Dev) (x1 : List Nat) (x2 : Pan → Pan) (h0 : x0.Has F) :
    (Dev.sourcesOf x0 x1 x2).Has F := by
  unfold Dev.sourcesOf
  repeat' (first | with_reducible assumption | with_reducible apply Dev.modPan_has | with_reducible apply Dev.settle_has | with_reducible apply ite_has | with_reducible apply foldS_has | with_reducible apply foldl_has | intro _ _ _ | intro _ | dsimp only | split | (fail_if_no_progress with_reducible apply Dev.Has.upd))

theorem Dev.panSources_has {F : Tab Word} (x0 : Dev) (x1 : Nat) (x2 : Pan → Pan) (h0 : x0.Has F) :
    (Dev.panSources x0 x1 x2).Has F := by
  unfold Dev.panSources
  repeat' (first | with_reducible assumption | with_reducible apply Dev.sourcesOf_has | with_reducible apply ite_has | with_reducible apply foldS_has | with_reducible apply foldl_has | intro _ _ _ | intro _ | dsimp only | split | (fail_if_no_progress with_reducible apply Dev.Has.upd))

theorem Dev.reborder_has {F : Tab Word} (x0 : Dev) (x1 : List Nat) (x2 : Dev → Dev) (h0 : x0.Has F) (h2 : ∀ (y0 : Dev), y0.Has F → (x2 y0).Has F) :
    (Dev.reborder x0 x1 x2).Has F := by
  unfold Dev.reborder
  repeat' (first | with_reducible assumption | with_reducible apply Dev.modPan_has | with_reducible apply Dev.settle_has | with_reducible apply h2 | with_reducible apply ite_has | with_reducible apply foldS_has | with_reducible apply foldl_has | intro _ _ _ | intro _ | dsimp only | split | (fail_if_no_progress with_reducible apply Dev.Has.upd))

theorem Dev.shutPans_has {F : Tab Word} (x0 : Dev) (x1 : List Nat) (h0 : x0.Has F) :
    (Dev.shutPans x0 x1).Has F := by
  unfold Dev.shutPans
  repeat' (first | with_reducible assumption | with_reducible apply Dev.reborder_has | with_reducible apply Dev.modPan_has | with_reducible apply ite_has | with_reducible apply foldS_has | with_reducible apply foldl_has | intro _ _ _ | intro _ | dsimp only | split | (fail_if_no_progress with_reducible apply Dev.Has.upd))

theorem Dev.shutPan_has {F : Tab Word} (x0 : Dev) (x1 : Nat) (h0 : x0.Has F) :
    (Dev.shutPan x0 x1).Has F := by
  unfold Dev.shutPan
  repeat' (first | with_reducible assumption | with_reducible apply Dev.shutPans_has | with_reducible apply ite_has | with_reducible apply foldS_has | with_reducible apply foldl_has | intro _ _ _ | intro _ | dsimp only | split | (fail_if_no_progress with_reducible apply Dev.Has.upd))

theorem Dev.writePanGsr_has {F : Tab Word} (x0 : Dev) (x1 : Nat) (x2 : Word) (h0 : x0.Has F) :
    (Dev.writePanGsr x0 x1 x2).Has F := by
  unfold Dev.writePanGsr
  repeat' (first | with_reducible assumption | with_reducible apply Dev.panSources_has | with_reducible apply ite_has | with_reducible apply foldS_has | with_reducible apply foldl_has | intro _ _ _ | intro _ | dsimp only | split | (fail_if_no_progress with_reducible apply Dev.Has.upd))

theorem opPanGsrWrite_has {F : Tab Word} (x0 : Path) (x1 : Nat) (x2 : Word) (x3 : Dev) (h3 : x3.Has F) :
    (opPanGsrWrite x0 x1 x2 x3).Has F := by
  unfold opPanGsrWrite
  repeat' (first | with_reducible assumption | with_reducible apply Dev.filtered_has | with_reducible apply Dev.writePanGsr_has | with_reducible apply ite_has | with_reducible apply foldS_has | with_reducible apply foldl_has | intro _ _ _ | intro _ | dsimp only | split | (fail_if_no_progress with_reducible apply Dev.Has.upd))

theorem opUserGsrWire_has {F : Tab Word} (x0 : Nat) (x1 : Bool) (x2 : Dev) (h2 : x2.Has F) :
    (opUserGsrWire x0 x1 x2).Has F := by
  unfold opUserGsrWire
  repeat' (first | with_reducible assumption | with_reducible apply Dev.panSources_has | with_reducible apply ite_has | with_reducible apply foldS_has | with_reducible apply foldl_has | intro _ _ _ | intro _ | dsimp only | split | (fail_if_no_progress with_reducible apply Dev.Has.upd))

theorem Dev.countPersist_has {F : Tab Word} (x0 : Dev) (x1 : Nat) (h0 : x0.Has F) :
    (Dev.countPersist x0 x1).Has F := by
  unfold Dev.countPersist
  repeat' (first | with_reducible assumption | with_reducible apply Dev.modPan_has | with_reducible apply ite_has | with_reducible apply foldS_has | with_reducible apply foldl_has | intro _ _ _ | intro _ | dsimp only | split | (fail_if_no_progress with_reducible apply Dev.Has.upd))

end Sys2Proof.Machine
end

