-- ==== Sys2Proof/Laws/KeepsPlanes.lean ====
section
/-! SUPPORT. Every operation of Machine/Planes.lean keeps what Laws/Keeps.lean states. -/

set_option linter.unusedTactic false
set_option linter.unreachableTactic false
set_option linter.unusedVariables false

namespace Sys2Proof.Machine

theorem Dev.putRecWord_has {F : Tab Word} (x0 : Dev) (x1 : RecJob) (h0 : x0.Has F) :
    (Dev.putRecWord x0 x1).Has F := by
  unfold Dev.putRecWord
  repeat' (first | with_reducible assumption | with_reducible apply Dev.modNv_has | with_reducible apply ite_has | with_reducible apply foldS_has | with_reducible apply foldl_has | intro _ _ _ | intro _ | dsimp only | split | (fail_if_no_progress with_reducible apply Dev.Has.upd))

theorem Dev.countRecord_has {F : Tab Word} (x0 : Dev) (x1 : Nat) (h0 : x0.Has F) :
    (Dev.countRecord x0 x1).Has F := by
  unfold Dev.countRecord
  repeat' (first | with_reducible assumption | with_reducible apply Dev.modNv_has | with_reducible apply ite_has | with_reducible apply foldS_has | with_reducible apply foldl_has | intro _ _ _ | intro _ | dsimp only | split | (fail_if_no_progress with_reducible apply Dev.Has.upd))

theorem Dev.countStage_has {F : Tab Word} (x0 : Dev) (x1 : Nat) (x2 : Nat) (h0 : x0.Has F) :
    (Dev.countStage x0 x1 x2).Has F := by
  unfold Dev.countStage
  repeat' (first | with_reducible assumption | with_reducible apply Dev.modNv_has | with_reducible apply ite_has | with_reducible apply foldS_has | with_reducible apply foldl_has | intro _ _ _ | intro _ | dsimp only | split | (fail_if_no_progress with_reducible apply Dev.Has.upd))

theorem Dev.countRetry_has {F : Tab Word} (x0 : Dev) (x1 : Nat) (h0 : x0.Has F) :
    (Dev.countRetry x0 x1).Has F := by
  unfold Dev.countRetry
  repeat' (first | with_reducible assumption | with_reducible apply Dev.modNv_has | with_reducible apply ite_has | with_reducible apply foldS_has | with_reducible apply foldl_has | intro _ _ _ | intro _ | dsimp only | split | (fail_if_no_progress with_reducible apply Dev.Has.upd))

theorem Dev.countRefresh_has {F : Tab Word} (x0 : Dev) (x1 : Nat) (h0 : x0.Has F) :
    (Dev.countRefresh x0 x1).Has F := by
  unfold Dev.countRefresh
  repeat' (first | with_reducible assumption | with_reducible apply Dev.modNv_has | with_reducible apply ite_has | with_reducible apply foldS_has | with_reducible apply foldl_has | intro _ _ _ | intro _ | dsimp only | split | (fail_if_no_progress with_reducible apply Dev.Has.upd))

theorem Dev.invalidate_has {F : Tab Word} (x0 : Dev) (x1 : Nat) (h0 : x0.Has F) :
    (Dev.invalidate x0 x1).Has F := by
  unfold Dev.invalidate
  repeat' (first | with_reducible assumption | with_reducible apply Dev.putRecWord_has | with_reducible apply Dev.countRecord_has | with_reducible apply Dev.modPan_has | with_reducible apply ite_has | with_reducible apply foldS_has | with_reducible apply foldl_has | intro _ _ _ | intro _ | dsimp only | split | (fail_if_no_progress with_reducible apply Dev.Has.upd))

theorem Dev.writeFrame_has {F : Tab Word} (x0 : Dev) (x1 : Nat) (x2 : Nat) (x3 : Nat) (x4 : FrameBits) (x5 : WriteCheck) (h0 : x0.Has F) :
    (Dev.writeFrame x0 x1 x2 x3 x4 x5).1.Has F := by
  unfold Dev.writeFrame
  repeat' (first | with_reducible assumption | with_reducible apply Dev.modNv_has | with_reducible apply Dev.countRetry_has | with_reducible apply ite_fst_has | with_reducible apply ite_has | with_reducible apply foldS_has | with_reducible apply foldl_has | intro _ _ _ | intro _ | dsimp only | split | (fail_if_no_progress with_reducible apply Dev.Has.upd))

theorem Dev.atCommit_has {F : Tab Word} (x0 : Dev) (x1 : Nat) (h0 : x0.Has F) :
    (Dev.atCommit x0 x1).Has F := by
  unfold Dev.atCommit
  repeat' (first | with_reducible assumption | with_reducible apply Dev.modPan_has | with_reducible apply ite_has | with_reducible apply foldS_has | with_reducible apply foldl_has | intro _ _ _ | intro _ | dsimp only | split | (fail_if_no_progress with_reducible apply Dev.Has.upd))

theorem Dev.loadRegs_has {F : Tab Word} (x0 : Dev) (x1 : Nat) (x2 : Nat) (h0 : x0.Has F) :
    (Dev.loadRegs x0 x1 x2).Has F := by
  unfold Dev.loadRegs
  repeat' (first | with_reducible assumption | with_reducible apply Dev.modPan_has | with_reducible apply ite_has | with_reducible apply foldS_has | with_reducible apply foldl_has | intro _ _ _ | intro _ | dsimp only | split | (fail_if_no_progress with_reducible apply Dev.Has.upd))

theorem Dev.loadRam_has {F : Tab Word} (x0 : Dev) (x1 : Nat) (h0 : x0.Has F) :
    (Dev.loadRam x0 x1).Has F := by
  unfold Dev.loadRam
  repeat' (first | with_reducible assumption | with_reducible apply Dev.modPan_has | with_reducible apply ite_has | with_reducible apply foldS_has | with_reducible apply foldl_has | intro _ _ _ | intro _ | dsimp only | split | (fail_if_no_progress with_reducible apply Dev.Has.upd))

theorem Dev.switchPlane_has {F : Tab Word} (x0 : Dev) (x1 : Nat) (x2 : Nat) (h0 : x0.Has F) :
    (Dev.switchPlane x0 x1 x2).Has F := by
  unfold Dev.switchPlane
  exact Dev.panSources_has _ _ _ (Dev.countPersist_has _ _ (Dev.Has.upd (Dev.modPan_has _ _ _ (Dev.loadRam_has _ _ (Dev.loadRegs_has _ _ _ h0)))))

theorem Dev.markFail_has {F : Tab Word} (x0 : Dev) (x1 : Nat) (x2 : Option Nat) (h0 : x0.Has F) :
    (Dev.markFail x0 x1 x2).Has F := by
  unfold Dev.markFail
  repeat' (first | with_reducible assumption | with_reducible apply Dev.modPan_has | with_reducible apply Dev.shutPan_has | with_reducible apply ite_has | with_reducible apply foldS_has | with_reducible apply foldl_has | intro _ _ _ | intro _ | dsimp only | split | (fail_if_no_progress with_reducible apply Dev.Has.upd))

theorem Dev.failVerify_has {F : Tab Word} (x0 : Dev) (x1 : Nat) (x2 : Option Nat) (h0 : x0.Has F) :
    (Dev.failVerify x0 x1 x2).Has F := by
  unfold Dev.failVerify
  repeat' (first | with_reducible assumption | with_reducible apply Dev.markFail_has | with_reducible apply Dev.fault_has | with_reducible apply ite_has | with_reducible apply foldS_has | with_reducible apply foldl_has | intro _ _ _ | intro _ | dsimp only | split | (fail_if_no_progress with_reducible apply Dev.Has.upd))

theorem Dev.verifyPan_has {F : Tab Word} (x0 : Dev) (x1 : Bool) (x2 : Nat) (x3 : Option Nat) (h0 : x0.Has F) :
    (Dev.verifyPan x0 x1 x2 x3).Has F := by
  unfold Dev.verifyPan
  repeat' (first | with_reducible assumption | with_reducible apply Dev.markFail_has | with_reducible apply Dev.failVerify_has | with_reducible apply Dev.modPan_has | with_reducible apply ite_has | with_reducible apply foldS_has | with_reducible apply foldl_has | intro _ _ _ | intro _ | dsimp only | split | (fail_if_no_progress with_reducible apply Dev.Has.upd))

theorem Dev.reinforce_has {F : Tab Word} (x0 : Dev) (x1 : Nat) (h0 : x0.Has F) :
    (Dev.reinforce x0 x1).Has F := by
  unfold Dev.reinforce
  repeat' (first | with_reducible assumption | with_reducible apply Dev.modPan_has | with_reducible apply Dev.countRefresh_has | with_reducible apply ite_has | with_reducible apply foldS_has | with_reducible apply foldl_has | intro _ _ _ | intro _ | dsimp only | split | (fail_if_no_progress with_reducible apply Dev.Has.upd))

theorem Dev.selectUnit_has {F : Tab Word} (x0 : Dev) (x1 : Nat) (h0 : x0.Has F) :
    (Dev.selectUnit x0 x1).Has F := by
  unfold Dev.selectUnit
  repeat' (first | with_reducible assumption | with_reducible apply Dev.modPan_has | with_reducible apply Dev.loadRegs_has | with_reducible apply ite_has | with_reducible apply foldS_has | with_reducible apply foldl_has | intro _ _ _ | intro _ | dsimp only | split | (fail_if_no_progress with_reducible apply Dev.Has.upd))

theorem Dev.completeRecord_has {F : Tab Word} (x0 : Dev) (x1 : List Nat) (x2 : Nat) (h0 : x0.Has F) :
    (Dev.completeRecord x0 x1 x2).Has F := by
  unfold Dev.completeRecord
  repeat' (first | with_reducible assumption | with_reducible apply Dev.modPan_has | with_reducible apply Dev.countRecord_has | with_reducible apply Dev.putRecWord_has | with_reducible apply ite_has | with_reducible apply foldS_has | with_reducible apply foldl_has | intro _ _ _ | intro _ | dsimp only | split | (fail_if_no_progress with_reducible apply Dev.Has.upd))

theorem Dev.selectAll_has {F : Tab Word} (x0 : Dev) (x1 : List Nat) (h0 : x0.Has F) :
    (Dev.selectAll x0 x1).Has F := by
  exact foldS_has _ _ _ (fun d u h => Dev.completeRecord_has d _ u h) (foldS_has _ _ _ (fun d u h => Dev.selectUnit_has d u h) h0)

end Sys2Proof.Machine
end

