-- ==== Sys2Proof/Laws/KeepsFuses.lean ====
section
/-! SUPPORT. Every operation of Machine/Fuses.lean keeps what Laws/Keeps.lean states. -/

set_option linter.unusedTactic false
set_option linter.unreachableTactic false
set_option linter.unusedVariables false

namespace Sys2Proof.Machine

theorem Dev.loadPartitions_has {F : Tab Word} (x0 : Dev) (h0 : x0.Has F) :
    (Dev.loadPartitions x0).Has F := by
  unfold Dev.loadPartitions
  repeat' (first | with_reducible assumption | with_reducible apply ite_has | with_reducible apply foldS_has | with_reducible apply foldl_has | intro _ _ _ | intro _ | dsimp only | split | (fail_if_no_progress with_reducible apply Dev.Has.upd))

theorem Dev.writeNarrow_has {F : Tab Word} (x0 : Dev) (x1 : Nat) (x2 : Word) (h0 : x0.Has F) :
    (Dev.writeNarrow x0 x1 x2).Has F := by
  unfold Dev.writeNarrow
  repeat' (first | with_reducible assumption | with_reducible apply ite_has | with_reducible apply foldS_has | with_reducible apply foldl_has | intro _ _ _ | intro _ | dsimp only | split | (fail_if_no_progress with_reducible apply Dev.Has.upd))

theorem opFuseNarrow_has {F : Tab Word} (x0 : Path) (x1 : Word) (x2 : Dev) (h2 : x2.Has F) :
    (opFuseNarrow x0 x1 x2).Has F := by
  unfold opFuseNarrow
  repeat' (first | with_reducible assumption | with_reducible apply Dev.filtered_has | with_reducible apply Dev.writeNarrow_has | with_reducible apply ite_has | with_reducible apply foldS_has | with_reducible apply foldl_has | intro _ _ _ | intro _ | dsimp only | split | (fail_if_no_progress with_reducible apply Dev.Has.upd))

theorem Dev.fuseResponse_has {F : Tab Word} (x0 : Dev) (x1 : FuseJob) (x2 : Nat) (h0 : x0.Has F) :
    (Dev.fuseResponse x0 x1 x2).Has F := by
  unfold Dev.fuseResponse
  repeat' (first | with_reducible assumption | with_reducible apply Dev.lateReply_has | with_reducible apply Dev.modMg_has | with_reducible apply ite_has | with_reducible apply foldS_has | with_reducible apply foldl_has | intro _ _ _ | intro _ | dsimp only | split | (fail_if_no_progress with_reducible apply Dev.Has.upd))

theorem Dev.fuseStart_has {F : Tab Word} (x0 : Dev) (x1 : Nat) (h0 : x0.Has F) :
    (Dev.fuseStart x0 x1).Has F := by
  induction x1 generalizing x0 with
  | zero =>
    unfold Dev.fuseStart
    repeat' (first | with_reducible assumption | with_reducible apply Dev.fuseResponse_has | with_reducible apply ite_has | with_reducible apply foldS_has | with_reducible apply foldl_has | intro _ _ _ | intro _ | dsimp only | split | (fail_if_no_progress with_reducible apply Dev.Has.upd))
  | succ k ih =>
    unfold Dev.fuseStart
    repeat' (first | with_reducible assumption | with_reducible apply ih | with_reducible apply Dev.fuseResponse_has | with_reducible apply ite_has | with_reducible apply foldS_has | with_reducible apply foldl_has | intro _ _ _ | intro _ | dsimp only | split | (fail_if_no_progress with_reducible apply Dev.Has.upd))

theorem Dev.fuseCommand_has {F : Tab Word} (x0 : Dev) (x1 : FuseJob) (h0 : x0.Has F) :
    (Dev.fuseCommand x0 x1).Has F := by
  unfold Dev.fuseCommand
  repeat' (first | with_reducible assumption | with_reducible apply Dev.fuseStart_has | with_reducible apply Dev.modMg_has | with_reducible apply ite_has | with_reducible apply foldS_has | with_reducible apply foldl_has | intro _ _ _ | intro _ | dsimp only | split | (fail_if_no_progress with_reducible apply Dev.Has.upd))

theorem Dev.setFuse_has {F : Tab Word} (x0 : Dev) (x1 : Nat) (h0 : x0.Has F) :
    (Dev.setFuse x0 x1).Has F := by
  unfold Dev.setFuse
  refine ⟨fun i => ?_, by dsimp only; exact Tab.wf_modify _ _ _ _ h0.fuseForm, h0.unitForm, h0.epochs⟩
  have hb := h0.bits i
  dsimp only
  rw [Tab.get_modify]
  split
  · next h =>
    subst h
    ext j hj
    have := congrArg (fun w => w.getLsbD j) hb
    simp only [BitVec.getLsbD_and, BitVec.getElem_and, BitVec.getElem_or] at this ⊢
    simp only [BitVec.getLsbD_eq_getElem hj] at this
    revert this
    cases (F.get 0 (x1 / 32))[j] <;> simp +contextual
  · exact hb

theorem opFuseProgram_has {F : Tab Word} (x0 : MgmtIf) (x1 : BitVec 16) (x2 : Word) (x3 : Dev) (h3 : x3.Has F) :
    (opFuseProgram x0 x1 x2 x3).Has F := by
  unfold opFuseProgram
  repeat' (first | with_reducible assumption | with_reducible apply Dev.carry_has | with_reducible apply Dev.fuseCommand_has | with_reducible apply ite_has | with_reducible apply foldS_has | with_reducible apply foldl_has | intro _ _ _ | intro _ | dsimp only | split | (fail_if_no_progress with_reducible apply Dev.Has.upd))

theorem opFuseLock_has {F : Tab Word} (x0 : MgmtIf) (x1 : Byte) (x2 : Dev) (h2 : x2.Has F) :
    (opFuseLock x0 x1 x2).Has F := by
  unfold opFuseLock
  repeat' (first | with_reducible assumption | with_reducible apply Dev.carry_has | with_reducible apply Dev.fuseCommand_has | with_reducible apply ite_has | with_reducible apply foldS_has | with_reducible apply foldl_has | intro _ _ _ | intro _ | dsimp only | split | (fail_if_no_progress with_reducible apply Dev.Has.upd))

theorem opFuseRollback_has {F : Tab Word} (x0 : MgmtIf) (x1 : BitVec 16) (x2 : Dev) (h2 : x2.Has F) :
    (opFuseRollback x0 x1 x2).Has F := by
  unfold opFuseRollback
  repeat' (first | with_reducible assumption | with_reducible apply Dev.carry_has | with_reducible apply Dev.fuseCommand_has | with_reducible apply ite_has | with_reducible apply foldS_has | with_reducible apply foldl_has | intro _ _ _ | intro _ | dsimp only | split | (fail_if_no_progress with_reducible apply Dev.Has.upd))

end Sys2Proof.Machine
end

