-- ==== Sys2Proof/Laws/KeepsLanes.lean ====
section
/-! SUPPORT. Every operation of Machine/Lanes.lean keeps what Laws/Keeps.lean states. -/

set_option linter.unusedTactic false
set_option linter.unreachableTactic false
set_option linter.unusedVariables false

namespace Sys2Proof.Machine

/-- What a pass leaves keeps it. -/
def PassOut.Has (F : Tab Word) : PassOut → Prop
  | .go d _ => d.Has F
  | .fail d _ _ _ => d.Has F
  | _ => True

theorem PassOut.mk_go {F : Tab Word} {d : Dev} {x : Pass} (h : d.Has F) : (PassOut.go d x).Has F := h

theorem PassOut.mk_fail {F : Tab Word} {d : Dev} {x : Pass} {a b : Nat} (h : d.Has F) : (PassOut.fail d x a b).Has F := h

theorem PassOut.mk_wait {F : Tab Word} : PassOut.wait.Has F := trivial

theorem PassOut.go_has {F : Tab Word} {o : PassOut} {d : Dev} {x : Pass} (h : o = .go d x) (ho : o.Has F) : d.Has F := by
  subst h; exact ho

theorem PassOut.fail_has {F : Tab Word} {o : PassOut} {d : Dev} {x : Pass} {a b : Nat} (h : o = .fail d x a b) (ho : o.Has F) :
    d.Has F := by
  subst h; exact ho

theorem Dev.cfgError_has {F : Tab Word} (x0 : Dev) (x1 : Nat) (x2 : Nat) (x3 : Nat) (x4 : Nat) (h0 : x0.Has F) :
    (Dev.cfgError x0 x1 x2 x3 x4).Has F := by
  unfold Dev.cfgError
  repeat' (first | with_reducible assumption | with_reducible apply ite_has | with_reducible apply foldS_has | with_reducible apply foldl_has | intro _ _ _ | intro _ | dsimp only | split | (fail_if_no_progress with_reducible apply Dev.Has.upd))

theorem Dev.setTokens_has {F : Tab Word} (x0 : Dev) (x1 : Nat) (x2 : Int) (h0 : x0.Has F) :
    (Dev.setTokens x0 x1 x2).Has F := by
  unfold Dev.setTokens
  repeat' (first | with_reducible assumption | with_reducible apply ite_has | with_reducible apply foldS_has | with_reducible apply foldl_has | intro _ _ _ | intro _ | dsimp only | split | (fail_if_no_progress with_reducible apply Dev.Has.upd))

theorem Dev.drawTokens_has {F : Tab Word} (x0 : Dev) (x1 : Nat) (x2 : Nat) (h0 : x0.Has F) :
    (Dev.drawTokens x0 x1 x2).Has F := by
  unfold Dev.drawTokens
  repeat' (first | with_reducible assumption | with_reducible apply Dev.setTokens_has | with_reducible apply ite_has | with_reducible apply foldS_has | with_reducible apply foldl_has | intro _ _ _ | intro _ | dsimp only | split | (fail_if_no_progress with_reducible apply Dev.Has.upd))

theorem Dev.returnTokens_has {F : Tab Word} (x0 : Dev) (x1 : Nat) (x2 : Nat) (h0 : x0.Has F) :
    (Dev.returnTokens x0 x1 x2).Has F := by
  unfold Dev.returnTokens
  repeat' (first | with_reducible assumption | with_reducible apply Dev.setTokens_has | with_reducible apply ite_has | with_reducible apply foldS_has | with_reducible apply foldl_has | intro _ _ _ | intro _ | dsimp only | split | (fail_if_no_progress with_reducible apply Dev.Has.upd))

theorem Dev.mapJob_has {F : Tab Word} (x0 : Dev) (x1 : Nat) (h0 : x0.Has F) :
    (Dev.mapJob x0 x1).Has F := by
  unfold Dev.mapJob
  repeat' (first | with_reducible assumption | with_reducible apply ite_has | with_reducible apply foldS_has | with_reducible apply foldl_has | intro _ _ _ | intro _ | dsimp only | split | (fail_if_no_progress with_reducible apply Dev.Has.upd))

theorem Dev.wearOut_has {F : Tab Word} (x0 : Dev) (x1 : Nat) (h0 : x0.Has F) :
    (Dev.wearOut x0 x1).Has F := by
  unfold Dev.wearOut
  repeat' (first | with_reducible assumption | with_reducible apply Dev.mapJob_has | with_reducible apply ite_has | with_reducible apply foldS_has | with_reducible apply foldl_has | intro _ _ _ | intro _ | dsimp only | split | (fail_if_no_progress with_reducible apply Dev.Has.upd))

theorem Dev.putPass_has {F : Tab Word} (x0 : Dev) (x1 : Pass) (x2 : Pass) (h0 : x0.Has F) :
    (Dev.putPass x0 x1 x2).Has F := by
  unfold Dev.putPass
  repeat' (first | with_reducible assumption | with_reducible apply ite_has | with_reducible apply foldS_has | with_reducible apply foldl_has | intro _ _ _ | intro _ | dsimp only | split | (fail_if_no_progress with_reducible apply Dev.Has.upd))

theorem Dev.dropPass_has {F : Tab Word} (x0 : Dev) (x1 : Pass) (h0 : x0.Has F) :
    (Dev.dropPass x0 x1).Has F := by
  unfold Dev.dropPass
  repeat' (first | with_reducible assumption | with_reducible apply ite_has | with_reducible apply foldS_has | with_reducible apply foldl_has | intro _ _ _ | intro _ | dsimp only | split | (fail_if_no_progress with_reducible apply Dev.Has.upd))

theorem Dev.keepFrame_has {F : Tab Word} (x0 : Dev) (x1 : Pass) (x2 : Nat) (x3 : FrameBits) (h0 : x0.Has F) :
    (Dev.keepFrame x0 x1 x2 x3).Has F := by
  unfold Dev.keepFrame
  repeat' (first | with_reducible assumption | with_reducible apply Dev.setOp_has | with_reducible apply ite_has | with_reducible apply foldS_has | with_reducible apply foldl_has | intro _ _ _ | intro _ | dsimp only | split | (fail_if_no_progress with_reducible apply Dev.Has.upd))

theorem Dev.laneWrite_has {F : Tab Word} (x0 : Dev) (x1 : Pass) (x2 : Nat) (x3 : FrameBits) (x4 : WriteCheck) (h0 : x0.Has F) :
    (Dev.laneWrite x0 x1 x2 x3 x4).1.Has F := by
  unfold Dev.laneWrite
  repeat' (first | with_reducible assumption | with_reducible apply Dev.writeFrame_has | with_reducible apply fst_has ‹_ = (_, _)› (Dev.writeFrame_has ..) | with_reducible apply Dev.drawTokens_has | with_reducible apply ite_fst_has | with_reducible apply ite_has | with_reducible apply foldS_has | with_reducible apply foldl_has | intro _ _ _ | intro _ | dsimp only | split | (fail_if_no_progress with_reducible apply Dev.Has.upd))

theorem Dev.putNext_has {F : Tab Word} (x0 : Dev) (x1 : Pass) (x2 : FrameBits) (x3 : WriteCheck) (h0 : x0.Has F) :
    (Dev.putNext x0 x1 x2 x3).Has F := by
  unfold Dev.putNext
  repeat' (first | with_reducible assumption | with_reducible apply Dev.keepFrame_has | with_reducible apply Dev.laneWrite_has | with_reducible apply fst_has ‹_ = (_, _)› (Dev.laneWrite_has ..) | with_reducible apply PassOut.mk_go | with_reducible apply PassOut.mk_fail | exact PassOut.mk_wait | with_reducible apply ite_has | with_reducible apply foldS_has | with_reducible apply foldl_has | intro _ _ _ | intro _ | dsimp only | split | (fail_if_no_progress with_reducible apply Dev.Has.upd))

theorem Dev.takeItem_has {F : Tab Word} (x0 : Dev) (x1 : Pass) (x2 : Nat) (x3 : FrameBits) (x4 : Option Word) (x5 : List FrameItem) (x6 : WriteCheck) (h0 : x0.Has F) :
    (Dev.takeItem x0 x1 x2 x3 x4 x5 x6).Has F := by
  unfold Dev.takeItem
  repeat' (first | with_reducible assumption | with_reducible apply Dev.putNext_has | with_reducible apply PassOut.go_has ‹_ = PassOut.go _ _› (Dev.putNext_has ..) | with_reducible apply PassOut.fail_has ‹_ = PassOut.fail _ _ _ _› (Dev.putNext_has ..) | with_reducible apply PassOut.mk_go | with_reducible apply PassOut.mk_fail | exact PassOut.mk_wait | with_reducible apply ite_has | with_reducible apply foldS_has | with_reducible apply foldl_has | intro _ _ _ | intro _ | dsimp only | split | (fail_if_no_progress with_reducible apply Dev.Has.upd))

theorem Dev.imageFrame_has {F : Tab Word} (x0 : Dev) (x1 : Pass) (x2 : WriteCheck) (h0 : x0.Has F) :
    (Dev.imageFrame x0 x1 x2).Has F := by
  unfold Dev.imageFrame
  repeat' (first | with_reducible assumption | with_reducible apply Dev.putNext_has | with_reducible apply PassOut.go_has ‹_ = PassOut.go _ _› (Dev.putNext_has ..) | with_reducible apply PassOut.fail_has ‹_ = PassOut.fail _ _ _ _› (Dev.putNext_has ..) | with_reducible apply Dev.takeItem_has | with_reducible apply PassOut.go_has ‹_ = PassOut.go _ _› (Dev.takeItem_has ..) | with_reducible apply PassOut.fail_has ‹_ = PassOut.fail _ _ _ _› (Dev.takeItem_has ..) | with_reducible apply PassOut.mk_go | with_reducible apply PassOut.mk_fail | exact PassOut.mk_wait | with_reducible apply ite_has | with_reducible apply foldS_has | with_reducible apply foldl_has | intro _ _ _ | intro _ | dsimp only | split | (fail_if_no_progress with_reducible apply Dev.Has.upd))

theorem Dev.carryFrame_has {F : Tab Word} (x0 : Dev) (x1 : Pass) (x2 : WriteCheck) (h0 : x0.Has F) :
    (Dev.carryFrame x0 x1 x2).Has F := by
  unfold Dev.carryFrame
  repeat' (first | with_reducible assumption | with_reducible apply Dev.laneWrite_has | with_reducible apply fst_has ‹_ = (_, _)› (Dev.laneWrite_has ..) | with_reducible apply PassOut.mk_go | with_reducible apply PassOut.mk_fail | exact PassOut.mk_wait | with_reducible apply ite_has | with_reducible apply foldS_has | with_reducible apply foldl_has | intro _ _ _ | intro _ | dsimp only | split | (fail_if_no_progress with_reducible apply Dev.Has.upd))

theorem Dev.passFrame_has {F : Tab Word} (x0 : Dev) (x1 : Pass) (x2 : Arrival) (x3 : WriteCheck) (h0 : x0.Has F) :
    (Dev.passFrame x0 x1 x2 x3).Has F := by
  unfold Dev.passFrame
  repeat' (first | with_reducible assumption | with_reducible apply Dev.carryFrame_has | with_reducible apply PassOut.go_has ‹_ = PassOut.go _ _› (Dev.carryFrame_has ..) | with_reducible apply PassOut.fail_has ‹_ = PassOut.fail _ _ _ _› (Dev.carryFrame_has ..) | with_reducible apply Dev.wearOut_has | with_reducible apply Dev.imageFrame_has | with_reducible apply PassOut.go_has ‹_ = PassOut.go _ _› (Dev.imageFrame_has ..) | with_reducible apply PassOut.fail_has ‹_ = PassOut.fail _ _ _ _› (Dev.imageFrame_has ..) | with_reducible apply PassOut.mk_go | with_reducible apply PassOut.mk_fail | exact PassOut.mk_wait | with_reducible apply ite_has | with_reducible apply foldS_has | with_reducible apply foldl_has | intro _ _ _ | intro _ | dsimp only | split | (fail_if_no_progress with_reducible apply Dev.Has.upd))

theorem Dev.quitLane_has {F : Tab Word} (x0 : Dev) (x1 : Pass) (h0 : x0.Has F) :
    (Dev.quitLane x0 x1).Has F := by
  unfold Dev.quitLane
  repeat' (first | with_reducible assumption | with_reducible apply Dev.modPan_has | with_reducible apply Dev.dropPass_has | with_reducible apply Dev.setUnit_has | with_reducible apply ite_has | with_reducible apply foldS_has | with_reducible apply foldl_has | intro _ _ _ | intro _ | dsimp only | split | (fail_if_no_progress with_reducible apply Dev.Has.upd))

theorem Dev.leaveLane_has {F : Tab Word} (x0 : Dev) (x1 : Pass) (x2 : Bool) (h0 : x0.Has F) :
    (Dev.leaveLane x0 x1 x2).Has F := by
  unfold Dev.leaveLane
  repeat' (first | with_reducible assumption | with_reducible apply Dev.quitLane_has | with_reducible apply ite_has | with_reducible apply foldS_has | with_reducible apply foldl_has | intro _ _ _ | intro _ | dsimp only | split | (fail_if_no_progress with_reducible apply Dev.Has.upd))

theorem Dev.refund_has {F : Tab Word} (x0 : Dev) (x1 : Pass) (h0 : x0.Has F) :
    (Dev.refund x0 x1).Has F := by
  unfold Dev.refund
  repeat' (first | with_reducible assumption | with_reducible apply Dev.returnTokens_has | with_reducible apply ite_has | with_reducible apply foldS_has | with_reducible apply foldl_has | intro _ _ _ | intro _ | dsimp only | split | (fail_if_no_progress with_reducible apply Dev.Has.upd))

end Sys2Proof.Machine
end

