-- ==== Sys2Proof/Laws/KeepsLinkTx.lean ====
section
/-! SUPPORT. Every operation of Machine/LinkTx.lean keeps what Laws/Keeps.lean states. -/

set_option linter.unusedTactic false
set_option linter.unreachableTactic false
set_option linter.unusedVariables false

namespace Sys2Proof.Machine

theorem Dev.sendPacket_has {F : Tab Word} (x0 : Dev) (x1 : Nat) (x2 : Packet) (h0 : x0.Has F) :
    (Dev.sendPacket x0 x1 x2).Has F := by
  unfold Dev.sendPacket
  repeat' (first | with_reducible assumption | with_reducible apply Dev.modLink_has | with_reducible apply Dev.emit_has | with_reducible apply ite_has | with_reducible apply foldS_has | with_reducible apply foldl_has | intro _ _ _ | intro _ | dsimp only | split | (fail_if_no_progress with_reducible apply Dev.Has.upd))

theorem Dev.flushLinkN_has {F : Tab Word} (x0 : Dev) (x1 : Nat) (x2 : Nat) (h0 : x0.Has F) :
    (Dev.flushLinkN x0 x1 x2).Has F := by
  induction x2 generalizing x0 x1 with
  | zero =>
    unfold Dev.flushLinkN
    repeat' (first | with_reducible assumption | with_reducible apply Dev.sendPacket_has | with_reducible apply Dev.modLink_has | with_reducible apply ite_has | with_reducible apply foldS_has | with_reducible apply foldl_has | intro _ _ _ | intro _ | dsimp only | split | (fail_if_no_progress with_reducible apply Dev.Has.upd))
  | succ k ih =>
    unfold Dev.flushLinkN
    repeat' (first | with_reducible assumption | with_reducible apply ih | with_reducible apply Dev.sendPacket_has | with_reducible apply Dev.modLink_has | with_reducible apply ite_has | with_reducible apply foldS_has | with_reducible apply foldl_has | intro _ _ _ | intro _ | dsimp only | split | (fail_if_no_progress with_reducible apply Dev.Has.upd))

theorem Dev.wakePeer_has {F : Tab Word} (x0 : Dev) (x1 : Nat) (h0 : x0.Has F) :
    (Dev.wakePeer x0 x1).Has F := by
  unfold Dev.wakePeer
  repeat' (first | with_reducible assumption | with_reducible apply Dev.emit_has | with_reducible apply Dev.modLink_has | with_reducible apply ite_has | with_reducible apply foldS_has | with_reducible apply foldl_has | intro _ _ _ | intro _ | dsimp only | split | (fail_if_no_progress with_reducible apply Dev.Has.upd))

theorem Dev.flushLink_has {F : Tab Word} (x0 : Dev) (x1 : Nat) (h0 : x0.Has F) :
    (Dev.flushLink x0 x1).Has F := by
  unfold Dev.flushLink
  repeat' (first | with_reducible assumption | with_reducible apply Dev.wakePeer_has | with_reducible apply Dev.flushLinkN_has | with_reducible apply ite_has | with_reducible apply foldS_has | with_reducible apply foldl_has | intro _ _ _ | intro _ | dsimp only | split | (fail_if_no_progress with_reducible apply Dev.Has.upd))

theorem Dev.idleBlock_has {F : Tab Word} (x0 : Dev) (x1 : Nat) (h0 : x0.Has F) :
    (Dev.idleBlock x0 x1).Has F := by
  unfold Dev.idleBlock
  repeat' (first | with_reducible assumption | with_reducible apply Dev.emit_has | with_reducible apply Dev.modLink_has | with_reducible apply ite_has | with_reducible apply foldS_has | with_reducible apply foldl_has | intro _ _ _ | intro _ | dsimp only | split | (fail_if_no_progress with_reducible apply Dev.Has.upd))

theorem Dev.queuePacket_has {F : Tab Word} (x0 : Dev) (x1 : Nat) (x2 : Packet) (h0 : x0.Has F) :
    (Dev.queuePacket x0 x1 x2).Has F := by
  unfold Dev.queuePacket
  repeat' (first | with_reducible assumption | with_reducible apply Dev.flushLink_has | with_reducible apply Dev.modLink_has | with_reducible apply ite_has | with_reducible apply foldS_has | with_reducible apply foldl_has | intro _ _ _ | intro _ | dsimp only | split | (fail_if_no_progress with_reducible apply Dev.Has.upd))

theorem Dev.sendRsp_has {F : Tab Word} (x0 : Dev) (x1 : BitVec 14) (x2 : BitVec 16) (x3 : BitVec 16) (x4 : Byte) (x5 : List Line) (h0 : x0.Has F) :
    (Dev.sendRsp x0 x1 x2 x3 x4 x5).Has F := by
  unfold Dev.sendRsp
  repeat' (first | with_reducible assumption | with_reducible apply Dev.queuePacket_has | with_reducible apply ite_has | with_reducible apply foldS_has | with_reducible apply foldl_has | intro _ _ _ | intro _ | dsimp only | split | (fail_if_no_progress with_reducible apply Dev.Has.upd))

end Sys2Proof.Machine
end

