-- ==== Sys2Proof/Laws/KeepsSluice.lean ====
section
/-! SUPPORT. Every operation of Machine/Sluice.lean keeps what Laws/Keeps.lean states. -/

set_option linter.unusedTactic false
set_option linter.unreachableTactic false
set_option linter.unusedVariables false

namespace Sys2Proof.Machine

theorem Dev.modIng_has {F : Tab Word} (x0 : Dev) (x1 : Nat) (x2 : Ingress → Ingress) (h0 : x0.Has F) :
    (Dev.modIng x0 x1 x2).Has F := by
  unfold Dev.modIng
  repeat' (first | with_reducible assumption | with_reducible apply ite_has | with_reducible apply foldS_has | with_reducible apply foldl_has | intro _ _ _ | intro _ | dsimp only | split | (fail_if_no_progress with_reducible apply Dev.Has.upd))

theorem Dev.modDest_has {F : Tab Word} (x0 : Dev) (x1 : Nat) (x2 : SlDest → SlDest) (h0 : x0.Has F) :
    (Dev.modDest x0 x1 x2).Has F := by
  unfold Dev.modDest
  repeat' (first | with_reducible assumption | with_reducible apply ite_has | with_reducible apply foldS_has | with_reducible apply foldl_has | intro _ _ _ | intro _ | dsimp only | split | (fail_if_no_progress with_reducible apply Dev.Has.upd))

theorem Dev.modReq_has {F : Tab Word} (x0 : Dev) (x1 : Nat) (x2 : SlIn → SlIn) (h0 : x0.Has F) :
    (Dev.modReq x0 x1 x2).Has F := by
  unfold Dev.modReq
  repeat' (first | with_reducible assumption | with_reducible apply ite_has | with_reducible apply foldS_has | with_reducible apply foldl_has | intro _ _ _ | intro _ | dsimp only | split | (fail_if_no_progress with_reducible apply Dev.Has.upd))

theorem Dev.stageReq_has {F : Tab Word} (x0 : Dev) (x1 : Nat) (x2 : ReqStage) (h0 : x0.Has F) :
    (Dev.stageReq x0 x1 x2).Has F := by
  unfold Dev.stageReq
  repeat' (first | with_reducible assumption | with_reducible apply Dev.modReq_has | with_reducible apply ite_has | with_reducible apply foldS_has | with_reducible apply foldl_has | intro _ _ _ | intro _ | dsimp only | split | (fail_if_no_progress with_reducible apply Dev.Has.upd))

theorem Dev.dropReq_has {F : Tab Word} (x0 : Dev) (x1 : Nat) (h0 : x0.Has F) :
    (Dev.dropReq x0 x1).Has F := by
  unfold Dev.dropReq
  repeat' (first | with_reducible assumption | with_reducible apply ite_has | with_reducible apply foldS_has | with_reducible apply foldl_has | intro _ _ _ | intro _ | dsimp only | split | (fail_if_no_progress with_reducible apply Dev.Has.upd))

theorem Dev.slErr_has {F : Tab Word} (x0 : Dev) (x1 : Nat) (x2 : Nat) (x3 : SlIn) (h0 : x0.Has F) :
    (Dev.slErr x0 x1 x2 x3).Has F := by
  unfold Dev.slErr
  repeat' (first | with_reducible assumption | with_reducible apply ite_has | with_reducible apply foldS_has | with_reducible apply foldl_has | intro _ _ _ | intro _ | dsimp only | split | (fail_if_no_progress with_reducible apply Dev.Has.upd))

theorem Dev.respond_has {F : Tab Word} (x0 : Dev) (x1 : Nat) (x2 : List (Byte × Line)) (h0 : x0.Has F) :
    (Dev.respond x0 x1 x2).Has F := by
  unfold Dev.respond
  repeat' (first | with_reducible assumption | with_reducible apply Dev.modIng_has | with_reducible apply Dev.stageReq_has | with_reducible apply ite_has | with_reducible apply foldS_has | with_reducible apply foldl_has | intro _ _ _ | intro _ | dsimp only | split | (fail_if_no_progress with_reducible apply Dev.Has.upd))

theorem Dev.answer_has {F : Tab Word} (x0 : Dev) (x1 : Nat) (x2 : Nat) (h0 : x0.Has F) :
    (Dev.answer x0 x1 x2).Has F := by
  unfold Dev.answer
  repeat' (first | with_reducible assumption | with_reducible apply Dev.slErr_has | with_reducible apply Dev.respond_has | with_reducible apply ite_has | with_reducible apply foldS_has | with_reducible apply foldl_has | intro _ _ _ | intro _ | dsimp only | split | (fail_if_no_progress with_reducible apply Dev.Has.upd))

theorem Dev.freeSlot_has {F : Tab Word} (x0 : Dev) (x1 : Nat) (h0 : x0.Has F) :
    (Dev.freeSlot x0 x1).Has F := by
  unfold Dev.freeSlot
  repeat' (first | with_reducible assumption | with_reducible apply Dev.modDest_has | with_reducible apply ite_has | with_reducible apply foldS_has | with_reducible apply foldl_has | intro _ _ _ | intro _ | dsimp only | split | (fail_if_no_progress with_reducible apply Dev.Has.upd))

theorem Dev.noteTransit_has {F : Tab Word} (x0 : Dev) (x1 : BitVec 14) (x2 : BitVec 16) (x3 : SlIn) (h0 : x0.Has F) :
    (Dev.noteTransit x0 x1 x2 x3).Has F := by
  unfold Dev.noteTransit
  repeat' (first | with_reducible assumption | with_reducible apply ite_has | with_reducible apply foldS_has | with_reducible apply foldl_has | intro _ _ _ | intro _ | dsimp only | split | (fail_if_no_progress with_reducible apply Dev.Has.upd))

theorem Dev.transitAnswer_has {F : Tab Word} (x0 : Dev) (x1 : Packet) (h0 : x0.Has F) :
    (Dev.transitAnswer x0 x1).1.Has F := by
  unfold Dev.transitAnswer
  repeat' (first | with_reducible assumption | with_reducible apply Dev.slErr_has | with_reducible apply ite_fst_has | with_reducible apply ite_has | with_reducible apply foldS_has | with_reducible apply foldl_has | intro _ _ _ | intro _ | dsimp only | split | (fail_if_no_progress with_reducible apply Dev.Has.upd))

theorem Dev.egress_has {F : Tab Word} (x0 : Dev) (x1 : Nat) (x2 : Nat) (h0 : x0.Has F) :
    (Dev.egress x0 x1 x2).Has F := by
  unfold Dev.egress
  repeat' (first | with_reducible assumption | with_reducible apply Dev.answer_has | with_reducible apply Dev.queuePacket_has | with_reducible apply Dev.noteTransit_has | with_reducible apply Dev.dropReq_has | with_reducible apply Dev.stageReq_has | with_reducible apply Dev.modLink_has | with_reducible apply ite_has | with_reducible apply foldS_has | with_reducible apply foldl_has | intro _ _ _ | intro _ | dsimp only | split | (fail_if_no_progress with_reducible apply Dev.Has.upd))

theorem Dev.enterDest_has {F : Tab Word} (x0 : Dev) (x1 : Nat) (x2 : Nat) (h0 : x0.Has F) :
    (Dev.enterDest x0 x1 x2).Has F := by
  unfold Dev.enterDest
  repeat' (first | with_reducible assumption | with_reducible apply Dev.modDest_has | with_reducible apply Dev.modReq_has | with_reducible apply Dev.egress_has | with_reducible apply Dev.freeSlot_has | with_reducible apply ite_has | with_reducible apply foldS_has | with_reducible apply foldl_has | intro _ _ _ | intro _ | dsimp only | split | (fail_if_no_progress with_reducible apply Dev.Has.upd))

theorem Dev.spend_has {F : Tab Word} (x0 : Dev) (x1 : Nat) (x2 : Nat) (h0 : x0.Has F) :
    (Dev.spend x0 x1 x2).Has F := by
  unfold Dev.spend
  repeat' (first | with_reducible assumption | with_reducible apply Dev.enterDest_has | with_reducible apply Dev.modIng_has | with_reducible apply ite_has | with_reducible apply foldS_has | with_reducible apply foldl_has | intro _ _ _ | intro _ | dsimp only | split | (fail_if_no_progress with_reducible apply Dev.Has.upd))

theorem Dev.wantSlot_has {F : Tab Word} (x0 : Dev) (x1 : Nat) (x2 : Nat) (h0 : x0.Has F) :
    (Dev.wantSlot x0 x1 x2).Has F := by
  unfold Dev.wantSlot
  repeat' (first | with_reducible assumption | with_reducible apply Dev.spend_has | with_reducible apply Dev.stageReq_has | with_reducible apply ite_has | with_reducible apply foldS_has | with_reducible apply foldl_has | intro _ _ _ | intro _ | dsimp only | split | (fail_if_no_progress with_reducible apply Dev.Has.upd))

theorem opReserve_has {F : Tab Word} (x0 : Nat) (x1 : Nat) (x2 : Dev) (h2 : x2.Has F) :
    (opReserve x0 x1 x2).Has F := by
  unfold opReserve
  repeat' (first | with_reducible assumption | with_reducible apply Dev.modDest_has | with_reducible apply Dev.wakePeer_has | with_reducible apply ite_has | with_reducible apply foldS_has | with_reducible apply foldl_has | intro _ _ _ | intro _ | dsimp only | split | (fail_if_no_progress with_reducible apply Dev.Has.upd))

theorem opGrant_has {F : Tab Word} (x0 : Nat) (x1 : Dev) (h1 : x1.Has F) :
    (opGrant x0 x1).Has F := by
  unfold opGrant
  repeat' (first | with_reducible assumption | with_reducible apply Dev.modDest_has | with_reducible apply Dev.spend_has | with_reducible apply Dev.modIng_has | with_reducible apply ite_has | with_reducible apply foldS_has | with_reducible apply foldl_has | intro _ _ _ | intro _ | dsimp only | split | (fail_if_no_progress with_reducible apply Dev.Has.upd))

theorem opSlotReturn_has {F : Tab Word} (x0 : Nat) (x1 : Nat) (x2 : Dev) (h2 : x2.Has F) :
    (opSlotReturn x0 x1 x2).Has F := by
  unfold opSlotReturn
  repeat' (first | with_reducible assumption | with_reducible apply Dev.modDest_has | with_reducible apply Dev.modIng_has | with_reducible apply ite_has | with_reducible apply foldS_has | with_reducible apply foldl_has | intro _ _ _ | intro _ | dsimp only | split | (fail_if_no_progress with_reducible apply Dev.Has.upd))

theorem Dev.admitBank_has {F : Tab Word} (x0 : Dev) (x1 : Nat) (h0 : x0.Has F) :
    (Dev.admitBank x0 x1).Has F := by
  unfold Dev.admitBank
  repeat' (first | with_reducible assumption | with_reducible apply Dev.modBank_has | with_reducible apply Dev.stageReq_has | with_reducible apply Dev.grantTo_has | with_reducible apply ite_has | with_reducible apply foldS_has | with_reducible apply foldl_has | intro _ _ _ | intro _ | dsimp only | split | (fail_if_no_progress with_reducible apply Dev.Has.upd))

theorem Dev.translated_has {F : Tab Word} (x0 : Dev) (x1 : Nat) (x2 : Option TcEntry) (h0 : x0.Has F) :
    (Dev.translated x0 x1 x2).Has F := by
  unfold Dev.translated
  repeat' (first | with_reducible assumption | with_reducible apply Dev.answer_has | with_reducible apply Dev.wantSlot_has | with_reducible apply Dev.modReq_has | with_reducible apply Dev.admitBank_has | with_reducible apply ite_has | with_reducible apply foldS_has | with_reducible apply foldl_has | intro _ _ _ | intro _ | dsimp only | split | (fail_if_no_progress with_reducible apply Dev.Has.upd))

theorem Dev.translate_has {F : Tab Word} (x0 : Dev) (x1 : Nat) (h0 : x0.Has F) :
    (Dev.translate x0 x1).Has F := by
  unfold Dev.translate
  repeat' (first | with_reducible assumption | with_reducible apply Dev.stageReq_has | with_reducible apply Dev.translated_has | with_reducible apply Dev.modIng_has | with_reducible apply ite_has | with_reducible apply foldS_has | with_reducible apply foldl_has | intro _ _ _ | intro _ | dsimp only | split | (fail_if_no_progress with_reducible apply Dev.Has.upd))

theorem opLookup_has {F : Tab Word} (x0 : Nat) (x1 : Dev) (h1 : x1.Has F) :
    (opLookup x0 x1).Has F := by
  unfold opLookup
  repeat' (first | with_reducible assumption | with_reducible apply Dev.modIng_has | with_reducible apply ite_has | with_reducible apply foldS_has | with_reducible apply foldl_has | intro _ _ _ | intro _ | dsimp only | split | (fail_if_no_progress with_reducible apply Dev.Has.upd))

theorem opReply_has {F : Tab Word} (x0 : Nat) (x1 : Dev) (h1 : x1.Has F) :
    (opReply x0 x1).Has F := by
  unfold opReply
  repeat' (first | with_reducible assumption | with_reducible apply Dev.modIng_has | with_reducible apply Dev.translated_has | with_reducible apply ite_has | with_reducible apply foldS_has | with_reducible apply foldl_has | intro _ _ _ | intro _ | dsimp only | split | (fail_if_no_progress with_reducible apply Dev.Has.upd))

theorem Dev.flitErrors_has {F : Tab Word} (x0 : Dev) (x1 : SlIn) (x2 : FlitErr) (h0 : x0.Has F) :
    (Dev.flitErrors x0 x1 x2).Has F := by
  unfold Dev.flitErrors
  repeat' (first | with_reducible assumption | with_reducible apply Dev.slErr_has | with_reducible apply Dev.fault_has | with_reducible apply ite_has | with_reducible apply foldS_has | with_reducible apply foldl_has | intro _ _ _ | intro _ | dsimp only | split | (fail_if_no_progress with_reducible apply Dev.Has.upd))

theorem Dev.enter_has {F : Tab Word} (x0 : Dev) (x1 : SlIn) (h0 : x0.Has F) :
    (Dev.enter x0 x1).Has F := by
  unfold Dev.enter
  repeat' (first | with_reducible assumption | with_reducible apply Dev.answer_has | with_reducible apply Dev.wantSlot_has | with_reducible apply Dev.translate_has | with_reducible apply ite_has | with_reducible apply foldS_has | with_reducible apply foldl_has | intro _ _ _ | intro _ | dsimp only | split | (fail_if_no_progress with_reducible apply Dev.Has.upd))

theorem Dev.enterDirect_has {F : Tab Word} (x0 : Dev) (x1 : SlIn) (x2 : Nat) (x3 : Nat) (h0 : x0.Has F) :
    (Dev.enterDirect x0 x1 x2 x3).Has F := by
  unfold Dev.enterDirect
  repeat' (first | with_reducible assumption | with_reducible apply Dev.wantSlot_has | with_reducible apply ite_has | with_reducible apply foldS_has | with_reducible apply foldl_has | intro _ _ _ | intro _ | dsimp only | split | (fail_if_no_progress with_reducible apply Dev.Has.upd))

theorem Dev.present_has {F : Tab Word} (x0 : Dev) (x1 : SlIn) (x2 : FlitErr) (h0 : x0.Has F) :
    (Dev.present x0 x1 x2).Has F := by
  unfold Dev.present
  repeat' (first | with_reducible assumption | with_reducible apply Dev.flitErrors_has | with_reducible apply Dev.enter_has | with_reducible apply ite_has | with_reducible apply foldS_has | with_reducible apply foldl_has | intro _ _ _ | intro _ | dsimp only | split | (fail_if_no_progress with_reducible apply Dev.Has.upd))

theorem Dev.sendInval_has {F : Tab Word} (x0 : Dev) (x1 : InvalKind) (x2 : Option Nat) (h0 : x0.Has F) :
    (Dev.sendInval x0 x1 x2).Has F := by
  unfold Dev.sendInval
  repeat' (first | with_reducible assumption | with_reducible apply ite_has | with_reducible apply foldS_has | with_reducible apply foldl_has | intro _ _ _ | intro _ | dsimp only | split | (fail_if_no_progress with_reducible apply Dev.Has.upd))

theorem opInval_has {F : Tab Word} (x0 : Nat) (x1 : Dev) (h1 : x1.Has F) :
    (opInval x0 x1).Has F := by
  unfold opInval
  repeat' (first | with_reducible assumption | with_reducible apply Dev.modIng_has | with_reducible apply ite_has | with_reducible apply foldS_has | with_reducible apply foldl_has | intro _ _ _ | intro _ | dsimp only | split | (fail_if_no_progress with_reducible apply Dev.Has.upd))

theorem Dev.closePort_has {F : Tab Word} (x0 : Dev) (x1 : Nat) (x2 : PortSt) (h0 : x0.Has F) :
    (Dev.closePort x0 x1 x2).Has F := by
  unfold Dev.closePort
  repeat' (first | with_reducible assumption | with_reducible apply Dev.modPan_has | with_reducible apply ite_has | with_reducible apply foldS_has | with_reducible apply foldl_has | intro _ _ _ | intro _ | dsimp only | split | (fail_if_no_progress with_reducible apply Dev.Has.upd))

theorem opClose_has {F : Tab Word} (x0 : Nat) (x1 : CloseTo) (x2 : Dev) (h2 : x2.Has F) :
    (opClose x0 x1 x2).Has F := by
  unfold opClose
  repeat' (first | with_reducible assumption | with_reducible apply Dev.closePort_has | with_reducible apply ite_has | with_reducible apply foldS_has | with_reducible apply foldl_has | intro _ _ _ | intro _ | dsimp only | split | (fail_if_no_progress with_reducible apply Dev.Has.upd))

theorem opOpen_has {F : Tab Word} (x0 : Nat) (x1 : Dev) (h1 : x1.Has F) :
    (opOpen x0 x1).Has F := by
  unfold opOpen
  repeat' (first | with_reducible assumption | with_reducible apply Dev.closePort_has | with_reducible apply ite_has | with_reducible apply foldS_has | with_reducible apply foldl_has | intro _ _ _ | intro _ | dsimp only | split | (fail_if_no_progress with_reducible apply Dev.Has.upd))

theorem opEndpointRequest_has {F : Tab Word} (x0 : Nat) (x1 : Dev) (h1 : x1.Has F) :
    (opEndpointRequest x0 x1).Has F := by
  unfold opEndpointRequest
  repeat' (first | with_reducible assumption | with_reducible apply Dev.modDest_has | with_reducible apply Dev.answer_has | with_reducible apply Dev.freeSlot_has | with_reducible apply Dev.stageReq_has | with_reducible apply Dev.emit_has | with_reducible apply Dev.panBeats_has | with_reducible apply ite_has | with_reducible apply foldS_has | with_reducible apply foldl_has | intro _ _ _ | intro _ | dsimp only | split | (fail_if_no_progress with_reducible apply Dev.Has.upd))

theorem opEndpointResponse_has {F : Tab Word} (x0 : Nat) (x1 : Nat) (x2 : Byte) (x3 : List Line) (x4 : Dev) (h4 : x4.Has F) :
    (opEndpointResponse x0 x1 x2 x3 x4).Has F := by
  unfold opEndpointResponse
  repeat' (first | with_reducible assumption | with_reducible apply Dev.panBeats_has | with_reducible apply Dev.freeSlot_has | with_reducible apply Dev.respond_has | with_reducible apply Dev.slErr_has | with_reducible apply ite_has | with_reducible apply foldS_has | with_reducible apply foldl_has | intro _ _ _ | intro _ | dsimp only | split | (fail_if_no_progress with_reducible apply Dev.Has.upd))

theorem Dev.busyModule_has {F : Tab Word} (x0 : Dev) (x1 : Nat) (h0 : x0.Has F) :
    (Dev.busyModule x0 x1).Has F := by
  unfold Dev.busyModule
  repeat' (first | with_reducible assumption | with_reducible apply Dev.answer_has | with_reducible apply Dev.freeSlot_has | with_reducible apply ite_has | with_reducible apply foldS_has | with_reducible apply foldl_has | intro _ _ _ | intro _ | dsimp only | split | (fail_if_no_progress with_reducible apply Dev.Has.upd))

theorem Dev.recoverSluice_has {F : Tab Word} (x0 : Dev) (h0 : x0.Has F) :
    (Dev.recoverSluice x0).Has F := by
  unfold Dev.recoverSluice
  repeat' (first | with_reducible assumption | with_reducible apply Dev.answer_has | with_reducible apply ite_has | with_reducible apply foldS_has | with_reducible apply foldl_has | intro _ _ _ | intro _ | dsimp only | split | (fail_if_no_progress with_reducible apply Dev.Has.upd))

theorem Dev.writeSluice_has {F : Tab Word} (x0 : Dev) (x1 : Nat) (x2 : Word) (h0 : x0.Has F) :
    (Dev.writeSluice x0 x1 x2).Has F := by
  unfold Dev.writeSluice
  repeat' (first | with_reducible assumption | with_reducible apply ite_has | with_reducible apply foldS_has | with_reducible apply foldl_has | intro _ _ _ | intro _ | dsimp only | split | (fail_if_no_progress with_reducible apply Dev.Has.upd))

end Sys2Proof.Machine
end

