-- ==== Sys2Proof/Laws/KeepsPools.lean ====
section
/-! SUPPORT. Every operation of Machine/Pools.lean keeps what Laws/Keeps.lean states. -/

set_option linter.unusedTactic false
set_option linter.unreachableTactic false
set_option linter.unusedVariables false

namespace Sys2Proof.Machine

theorem Dev.putMove_has {F : Tab Word} (x0 : Dev) (x1 : PageMove) (x2 : PageMove) (h0 : x0.Has F) :
    (Dev.putMove x0 x1 x2).Has F := by
  unfold Dev.putMove
  repeat' (first | with_reducible assumption | with_reducible apply ite_has | with_reducible apply foldS_has | with_reducible apply foldl_has | intro _ _ _ | intro _ | dsimp only | split | (fail_if_no_progress with_reducible apply Dev.Has.upd))

theorem Dev.dropMove_has {F : Tab Word} (x0 : Dev) (x1 : PageMove) (h0 : x0.Has F) :
    (Dev.dropMove x0 x1).Has F := by
  unfold Dev.dropMove
  repeat' (first | with_reducible assumption | with_reducible apply ite_has | with_reducible apply foldS_has | with_reducible apply foldl_has | intro _ _ _ | intro _ | dsimp only | split | (fail_if_no_progress with_reducible apply Dev.Has.upd))

theorem Dev.abandonMove_has {F : Tab Word} (x0 : Dev) (x1 : PageMove) (h0 : x0.Has F) :
    (Dev.abandonMove x0 x1).Has F := by
  unfold Dev.abandonMove
  repeat' (first | with_reducible assumption | with_reducible apply Dev.modBank_has | with_reducible apply Dev.dropMove_has | with_reducible apply ite_has | with_reducible apply foldS_has | with_reducible apply foldl_has | intro _ _ _ | intro _ | dsimp only | split | (fail_if_no_progress with_reducible apply Dev.Has.upd))

theorem Dev.abandonBank_has {F : Tab Word} (x0 : Dev) (x1 : Nat) (h0 : x0.Has F) :
    (Dev.abandonBank x0 x1).Has F := by
  unfold Dev.abandonBank
  repeat' (first | with_reducible assumption | with_reducible apply Dev.abandonMove_has | with_reducible apply ite_has | with_reducible apply foldS_has | with_reducible apply foldl_has | intro _ _ _ | intro _ | dsimp only | split | (fail_if_no_progress with_reducible apply Dev.Has.upd))

theorem Dev.markDirty_has {F : Tab Word} (x0 : Dev) (x1 : Nat) (x2 : Nat) (x3 : Nat) (x4 : Nat) (h0 : x0.Has F) :
    (Dev.markDirty x0 x1 x2 x3 x4).Has F := by
  unfold Dev.markDirty
  repeat' (first | with_reducible assumption | with_reducible apply Dev.putMove_has | with_reducible apply ite_has | with_reducible apply foldS_has | with_reducible apply foldl_has | intro _ _ _ | intro _ | dsimp only | split | (fail_if_no_progress with_reducible apply Dev.Has.upd))

theorem Dev.copyLines_has {F : Tab Word} (x0 : Dev) (x1 : PageMove) (x2 : List Nat) (h0 : x0.Has F) :
    (Dev.copyLines x0 x1 x2).Has F := by
  unfold Dev.copyLines
  repeat' (first | with_reducible assumption | with_reducible apply Dev.bankAct_has | with_reducible apply Dev.bankWork_has | with_reducible apply Dev.bankEvents_has | with_reducible apply Dev.setBank_has | with_reducible apply ite_has | with_reducible apply foldS_has | with_reducible apply foldl_has | intro _ _ _ | intro _ | dsimp only | split | (fail_if_no_progress with_reducible apply Dev.Has.upd))

theorem opPageCopyPass_has {F : Tab Word} (x0 : Nat) (x1 : Dev) (h1 : x1.Has F) : (opPageCopyPass x0 x1).Has F := by
  unfold opPageCopyPass
  refine ite_has h1 ?_
  have hg := Dev.bankGrant_has x1 x0 7 h1
  revert hg
  generalize x1.bankGrant x0 7 = d
  intro hg
  dsimp only
  split
  · split
    · exact hg
    · exact ite_has h1 (ite_has (Dev.sendInval_has _ _ _ (Dev.putMove_has _ _ _ hg)) (Dev.copyLines_has _ _ _ (Dev.putMove_has _ _ _ hg)))
    · exact hg
  · split
    · exact h1
    · have : ∀ (d : Dev) (m : PageMove) (l : List Nat), d.Has F →
          (if ((d.bank x0).slot ((d.bank x0).slotOf m.srcPage)).written = true then d.copyLines m l else d).Has F :=
        fun d m l h => ite_has (Dev.copyLines_has _ _ _ h) h
      exact this _ _ _ (Dev.Has.upd (Dev.modBank_has _ _ _ (Dev.modBank_has _ _ _ (Dev.putMove_has _ _ _ hg))))

theorem opPageMark_has {F : Tab Word} (x0 : Nat) (x1 : Nat) (x2 : Dev) (h2 : x2.Has F) :
    (opPageMark x0 x1 x2).Has F := by
  unfold opPageMark
  repeat' (first | with_reducible assumption | with_reducible apply Dev.putMove_has | with_reducible apply ite_has | with_reducible apply foldS_has | with_reducible apply foldl_has | intro _ _ _ | intro _ | dsimp only | split | (fail_if_no_progress with_reducible apply Dev.Has.upd))

theorem opPageMoveFinish_has {F : Tab Word} (x0 : Nat) (x1 : Dev) (h1 : x1.Has F) :
    (opPageMoveFinish x0 x1).Has F := by
  unfold opPageMoveFinish
  repeat' (first | with_reducible assumption | with_reducible apply Dev.copyLines_has | with_reducible apply Dev.modBank_has | with_reducible apply Dev.dropMove_has | with_reducible apply ite_has | with_reducible apply foldS_has | with_reducible apply foldl_has | intro _ _ _ | intro _ | dsimp only | split | (fail_if_no_progress with_reducible apply Dev.Has.upd))

theorem Dev.serveBank_has {F : Tab Word} (x0 : Dev) (x1 : Nat) (x2 : Nat) (x3 : SlIn) (x4 : Nat) (x5 : Nat) (h0 : x0.Has F) :
    (Dev.serveBank x0 x1 x2 x3 x4 x5).Has F := by
  unfold Dev.serveBank
  refine ite_has (Dev.respond_has _ _ _ (Dev.slErr_has _ _ _ _ (Dev.setBank_has _ _ _ h0))) (ite_has (Dev.respond_has _ _ _ (Dev.setBank_has _ _ _ h0))
    (ite_has (Dev.respond_has _ _ _ (Dev.slErr_has _ _ _ _ (Dev.setBank_has _ _ _ h0))) ?_))
  extract_lets
  generalize (ite (x3.write = true) _ _ : Bank × List (Byte × Line) × List BankEv) = w
  obtain ⟨b1, out, evs⟩ := w
  dsimp only
  have h2 : ∀ (d : Dev), d.Has F → (if x3.poisons out = true then (d.slErr 3 stUncorr x3).respond x2 (x3.uniform stUncorr)
      else d.respond x2 out).Has F := fun d h => ite_has (Dev.respond_has _ _ _ (Dev.slErr_has _ _ _ _ h)) (Dev.respond_has _ _ _ h)
  refine h2 _ (ite_has (Dev.slErr_has _ _ _ _ ?_) ?_) <;>
  exact ite_has (Dev.markDirty_has _ _ _ _ _ (Dev.bankWork_has _ _ _ _ _ _ _ _ _ (Dev.bankEvents_has _ _ _ (Dev.setBank_has _ _ _ h0))))
    (Dev.bankWork_has _ _ _ _ _ _ _ _ _ (Dev.bankEvents_has _ _ _ (Dev.setBank_has _ _ _ h0)))

theorem opBankRequest_has {F : Tab Word} (x0 : Nat) (x1 : Dev) (h1 : x1.Has F) :
    (opBankRequest x0 x1).Has F := by
  unfold opBankRequest
  repeat' (first | with_reducible assumption | with_reducible apply Dev.modBank_has | with_reducible apply Dev.admitBank_has | with_reducible apply Dev.serveBank_has | with_reducible apply ite_has | with_reducible apply foldS_has | with_reducible apply foldl_has | intro _ _ _ | intro _ | dsimp only | split | (fail_if_no_progress with_reducible apply Dev.Has.upd))

theorem opRetire_has {F : Tab Word} (x0 : Issuer) (x1 : Desc) (x2 : Dev) (h2 : x2.Has F) :
    (opRetire x0 x1 x2).Has F := by
  unfold opRetire
  repeat' (first | with_reducible assumption | with_reducible apply Dev.beginAt_has | with_reducible apply Dev.complete_has | with_reducible apply Dev.abandonMove_has | with_reducible apply Dev.bankEvents_has | with_reducible apply Dev.setBank_has | with_reducible apply Dev.bankWork_has | with_reducible apply ite_has | with_reducible apply foldS_has | with_reducible apply foldl_has | intro _ _ _ | intro _ | dsimp only | split | (fail_if_no_progress with_reducible apply Dev.Has.upd))

theorem opBankParityFault_has {F : Tab Word} (x0 : Nat) (x1 : Dev) (h1 : x1.Has F) :
    (opBankParityFault x0 x1).Has F := by
  unfold opBankParityFault
  repeat' (first | with_reducible assumption | with_reducible apply Dev.fault_has | with_reducible apply Dev.modBank_has | with_reducible apply Dev.abandonBank_has | with_reducible apply ite_has | with_reducible apply foldS_has | with_reducible apply foldl_has | intro _ _ _ | intro _ | dsimp only | split | (fail_if_no_progress with_reducible apply Dev.Has.upd))

theorem Dev.takePages_has {F : Tab Word} (x0 : Dev) (x1 : List Nat) (x2 : Nat) (x3 : Nat) (h0 : x0.Has F) :
    (Dev.takePages x0 x1 x2 x3).1.Has F := by
  induction x2 generalizing x0 x1 x3 with
  | zero =>
    unfold Dev.takePages
    repeat' (first | with_reducible assumption | with_reducible apply Dev.modBank_has | with_reducible apply ite_fst_has | with_reducible apply ite_has | with_reducible apply foldS_has | with_reducible apply foldl_has | intro _ _ _ | intro _ | dsimp only | split | (fail_if_no_progress with_reducible apply Dev.Has.upd))
  | succ k ih =>
    unfold Dev.takePages
    repeat' (first | with_reducible assumption | with_reducible apply ih | with_reducible apply Dev.modBank_has | with_reducible apply ite_fst_has | with_reducible apply ite_has | with_reducible apply foldS_has | with_reducible apply foldl_has | intro _ _ _ | intro _ | dsimp only | split | (fail_if_no_progress with_reducible apply Dev.Has.upd))

theorem Dev.poolCreate_has {F : Tab Word} (x0 : Dev) (x1 : Nat) (x2 : Issuer) (x3 : Desc) (h0 : x0.Has F) :
    (Dev.poolCreate x0 x1 x2 x3).Has F := by
  unfold Dev.poolCreate
  repeat' (first | with_reducible assumption | with_reducible apply Dev.complete_has | with_reducible apply Dev.takePages_has | with_reducible apply fst_has ‹_ = (_, _)› (Dev.takePages_has ..) | with_reducible apply ite_has | with_reducible apply foldS_has | with_reducible apply foldl_has | intro _ _ _ | intro _ | dsimp only | split | (fail_if_no_progress with_reducible apply Dev.Has.upd))

theorem Dev.poolFree_has {F : Tab Word} (x0 : Dev) (x1 : Nat) (x2 : Issuer) (x3 : Desc) (h0 : x0.Has F) :
    (Dev.poolFree x0 x1 x2 x3).Has F := by
  unfold Dev.poolFree
  repeat' (first | with_reducible assumption | with_reducible apply Dev.complete_has | with_reducible apply Dev.abandonMove_has | with_reducible apply Dev.sendInval_has | with_reducible apply Dev.setKind_has | with_reducible apply ite_has | with_reducible apply foldS_has | with_reducible apply foldl_has | intro _ _ _ | intro _ | dsimp only | split | (fail_if_no_progress with_reducible apply Dev.Has.upd))

theorem Dev.beginRake_has {F : Tab Word} (x0 : Dev) (x1 : Issuer) (x2 : Desc) (x3 : Nat) (x4 : Bool) (x5 : Bool) (x6 : List (Nat × Nat)) (x7 : Dev → Nat → Dev) (h0 : x0.Has F) (h7 : ∀ (y0 : Dev) (y1 : Nat), y0.Has F → (x7 y0 y1).Has F) :
    (Dev.beginRake x0 x1 x2 x3 x4 x5 x6 x7).Has F := by
  unfold Dev.beginRake
  repeat' (first | with_reducible assumption | with_reducible apply Dev.begin_has | with_reducible apply Dev.complete_has | with_reducible apply Dev.setKind_has | with_reducible apply h7 | with_reducible apply ite_has | with_reducible apply foldS_has | with_reducible apply foldl_has | intro _ _ _ | intro _ | dsimp only | split | (fail_if_no_progress with_reducible apply Dev.Has.upd))

theorem opPoolCreate_has {F : Tab Word} (x0 : Issuer) (x1 : Desc) (x2 : Dev) (h2 : x2.Has F) :
    (opPoolCreate x0 x1 x2).Has F := by
  unfold opPoolCreate
  repeat' (first | with_reducible assumption | with_reducible apply Dev.beginRake_has | with_reducible apply Dev.poolCreate_has | with_reducible apply ite_has | with_reducible apply foldS_has | with_reducible apply foldl_has | intro _ _ _ | intro _ | dsimp only | split | (fail_if_no_progress with_reducible apply Dev.Has.upd))

theorem opPoolFree_has {F : Tab Word} (x0 : Issuer) (x1 : Desc) (x2 : Dev) (h2 : x2.Has F) :
    (opPoolFree x0 x1 x2).Has F := by
  unfold opPoolFree
  repeat' (first | with_reducible assumption | with_reducible apply Dev.beginRake_has | with_reducible apply Dev.poolFree_has | with_reducible apply ite_has | with_reducible apply foldS_has | with_reducible apply foldl_has | intro _ _ _ | intro _ | dsimp only | split | (fail_if_no_progress with_reducible apply Dev.Has.upd))

theorem Dev.followPool_has {F : Tab Word} (x0 : Dev) (x1 : Nat) (x2 : Pool) (x3 : Nat) (h0 : x0.Has F) :
    (Dev.followPool x0 x1 x2 x3).Has F := by
  unfold Dev.followPool
  repeat' (first | with_reducible assumption | with_reducible apply ite_has | with_reducible apply foldS_has | with_reducible apply foldl_has | intro _ _ _ | intro _ | dsimp only | split | (fail_if_no_progress with_reducible apply Dev.Has.upd))

theorem Dev.recomputeHomes_has {F : Tab Word} (x0 : Dev) (h0 : x0.Has F) :
    (Dev.recomputeHomes x0).Has F := by
  unfold Dev.recomputeHomes
  repeat' (first | with_reducible assumption | with_reducible apply Dev.followPool_has | with_reducible apply ite_has | with_reducible apply foldS_has | with_reducible apply foldl_has | intro _ _ _ | intro _ | dsimp only | split | (fail_if_no_progress with_reducible apply Dev.Has.upd))

theorem Dev.writePool_has {F : Tab Word} (x0 : Dev) (x1 : Nat) (x2 : Word) (h0 : x0.Has F) :
    (Dev.writePool x0 x1 x2).Has F := by
  unfold Dev.writePool
  repeat' (first | with_reducible assumption | with_reducible apply ite_has | with_reducible apply foldS_has | with_reducible apply foldl_has | intro _ _ _ | intro _ | dsimp only | split | (fail_if_no_progress with_reducible apply Dev.Has.upd))

end Sys2Proof.Machine
end

