-- ==== Sys2Proof/Laws/KeepsPins.lean ====
section
/-! SUPPORT. Every operation of Machine/Pins.lean keeps what Laws/Keeps.lean states. -/

set_option linter.unusedTactic false
set_option linter.unreachableTactic false
set_option linter.unusedVariables false

namespace Sys2Proof.Machine

theorem Dev.clampPin_has {F : Tab Word} (x0 : Dev) (x1 : Nat) (h0 : x0.Has F) :
    (Dev.clampPin x0 x1).Has F := by
  unfold Dev.clampPin
  repeat' (first | with_reducible assumption | with_reducible apply Dev.modPin_has | with_reducible apply ite_has | with_reducible apply foldS_has | with_reducible apply foldl_has | intro _ _ _ | intro _ | dsimp only | split | (fail_if_no_progress with_reducible apply Dev.Has.upd))

theorem Dev.padLevel_has {F : Tab Word} (x0 : Dev) (x1 : Nat) (x2 : Bool) (x3 : Nat) (h0 : x0.Has F) :
    (Dev.padLevel x0 x1 x2 x3).Has F := by
  unfold Dev.padLevel
  repeat' (first | with_reducible assumption | with_reducible apply Dev.modPin_has | with_reducible apply Dev.event_has | with_reducible apply ite_has | with_reducible apply foldS_has | with_reducible apply foldl_has | intro _ _ _ | intro _ | dsimp only | split | (fail_if_no_progress with_reducible apply Dev.Has.upd))

theorem Dev.keepSinks_has {F : Tab Word} (x0 : Dev) (h0 : x0.Has F) :
    (Dev.keepSinks x0).Has F := by
  unfold Dev.keepSinks
  repeat' (first | with_reducible assumption | with_reducible apply Dev.modPin_has | with_reducible apply ite_has | with_reducible apply foldS_has | with_reducible apply foldl_has | intro _ _ _ | intro _ | dsimp only | split | (fail_if_no_progress with_reducible apply Dev.Has.upd))

theorem Dev.refreshSinks_has {F : Tab Word} (x0 : Dev) (h0 : x0.Has F) :
    (Dev.refreshSinks x0).Has F := by
  unfold Dev.refreshSinks
  repeat' (first | with_reducible assumption | with_reducible apply Dev.settle_has | with_reducible apply Dev.modPan_has | with_reducible apply ite_has | with_reducible apply foldS_has | with_reducible apply foldl_has | intro _ _ _ | intro _ | dsimp only | split | (fail_if_no_progress with_reducible apply Dev.Has.upd))

theorem Dev.flushChannel_has {F : Tab Word} (x0 : Dev) (x1 : Nat) (h0 : x0.Has F) :
    (Dev.flushChannel x0 x1).Has F := by
  unfold Dev.flushChannel
  repeat' (first | with_reducible assumption | with_reducible apply Dev.emit_has | with_reducible apply Dev.modFport_has | with_reducible apply ite_has | with_reducible apply foldS_has | with_reducible apply foldl_has | intro _ _ _ | intro _ | dsimp only | split | (fail_if_no_progress with_reducible apply Dev.Has.upd))

theorem Dev.drivePin_has {F : Tab Word} (x0 : Dev) (x1 : Nat) (h0 : x0.Has F) :
    (Dev.drivePin x0 x1).Has F := by
  unfold Dev.drivePin
  repeat' (first | with_reducible assumption | with_reducible apply Dev.clampPin_has | with_reducible apply Dev.modPin_has | with_reducible apply Dev.padLevel_has | with_reducible apply ite_has | with_reducible apply foldS_has | with_reducible apply foldl_has | intro _ _ _ | intro _ | dsimp only | split | (fail_if_no_progress with_reducible apply Dev.Has.upd))

theorem Dev.drivePins_has {F : Tab Word} (x0 : List Nat) (x1 : Nat) (x2 : Dev) (h2 : x2.Has F) :
    (Dev.drivePins x0 x1 x2).Has F := by
  induction x1 generalizing x2 with
  | zero => exact h2
  | succ k ih =>
    have h : (foldS Dev.drivePin x2 x0).Has F := foldS_has _ _ _ (fun d n hd => Dev.drivePin_has d n hd) h2
    unfold Dev.drivePins
    dsimp only
    split
    · exact h
    · exact ih _ h

theorem Dev.refreshPins_has {F : Tab Word} (x0 : Dev) (h0 : x0.Has F) :
    (Dev.refreshPins x0).Has F := by
  unfold Dev.refreshPins
  repeat' (first | with_reducible assumption | with_reducible apply Dev.flushChannel_has | with_reducible apply Dev.refreshSinks_has | with_reducible apply Dev.drivePins_has | with_reducible apply ite_has | with_reducible apply foldS_has | with_reducible apply foldl_has | intro _ _ _ | intro _ | dsimp only | split | (fail_if_no_progress with_reducible apply Dev.Has.upd))

theorem Dev.withClaims_has {F : Tab Word} (x0 : Dev) (x1 : Dev → Dev) (h0 : x0.Has F) (h1 : ∀ (y0 : Dev), y0.Has F → (x1 y0).Has F) :
    (Dev.withClaims x0 x1).Has F := by
  unfold Dev.withClaims
  repeat' (first | with_reducible assumption | with_reducible apply Dev.event_has | with_reducible apply Dev.refreshPins_has | with_reducible apply h1 | with_reducible apply ite_has | with_reducible apply foldS_has | with_reducible apply foldl_has | intro _ _ _ | intro _ | dsimp only | split | (fail_if_no_progress with_reducible apply Dev.Has.upd))

theorem Dev.writePinSel_has {F : Tab Word} (x0 : Dev) (x1 : Nat) (x2 : Word) (h0 : x0.Has F) :
    (Dev.writePinSel x0 x1 x2).Has F := by
  unfold Dev.writePinSel
  repeat' (first | with_reducible assumption | with_reducible apply Dev.withClaims_has | with_reducible apply Dev.modPin_has | with_reducible apply ite_has | with_reducible apply foldS_has | with_reducible apply foldl_has | intro _ _ _ | intro _ | dsimp only | split | (fail_if_no_progress with_reducible apply Dev.Has.upd))

theorem opPinSelWrite_has {F : Tab Word} (x0 : Path) (x1 : Nat) (x2 : Word) (x3 : Dev) (h3 : x3.Has F) :
    (opPinSelWrite x0 x1 x2 x3).Has F := by
  unfold opPinSelWrite
  repeat' (first | with_reducible assumption | with_reducible apply Dev.filteredIf_has | with_reducible apply Dev.writePinSel_has | with_reducible apply ite_has | with_reducible apply foldS_has | with_reducible apply foldl_has | intro _ _ _ | intro _ | dsimp only | split | (fail_if_no_progress with_reducible apply Dev.Has.upd))

theorem opPinEdge_has {F : Tab Word} (x0 : Nat) (x1 : PinLevel) (x2 : Dev) (h2 : x2.Has F) :
    (opPinEdge x0 x1 x2).Has F := by
  unfold opPinEdge
  repeat' (first | with_reducible assumption | with_reducible apply Dev.refreshPins_has | with_reducible apply Dev.padLevel_has | with_reducible apply ite_has | with_reducible apply foldS_has | with_reducible apply foldl_has | intro _ _ _ | intro _ | dsimp only | split | (fail_if_no_progress with_reducible apply Dev.Has.upd))

theorem Dev.movePins_has {F : Tab Word} (x0 : Dev) (x1 : List (Nat × Nat)) (h0 : x0.Has F) :
    (Dev.movePins x0 x1).Has F := by
  unfold Dev.movePins
  repeat' (first | with_reducible assumption | with_reducible apply Dev.withClaims_has | with_reducible apply ite_has | with_reducible apply foldS_has | with_reducible apply foldl_has | intro _ _ _ | intro _ | dsimp only | split | (fail_if_no_progress with_reducible apply Dev.Has.upd))

theorem opPinBankParityFault_has {F : Tab Word} (x0 : Nat) (x1 : Dev) (h1 : x1.Has F) :
    (opPinBankParityFault x0 x1).Has F := by
  unfold opPinBankParityFault
  repeat' (first | with_reducible assumption | with_reducible apply Dev.refreshPins_has | with_reducible apply Dev.fault_has | with_reducible apply ite_has | with_reducible apply foldS_has | with_reducible apply foldl_has | intro _ _ _ | intro _ | dsimp only | split | (fail_if_no_progress with_reducible apply Dev.Has.upd))

theorem Dev.loadPins_has {F : Tab Word} (x0 : Dev) (x1 : Option Nat) (h0 : x0.Has F) :
    (Dev.loadPins x0 x1).Has F := by
  unfold Dev.loadPins
  repeat' (first | with_reducible assumption | with_reducible apply Dev.withClaims_has | with_reducible apply Dev.modPin_has | with_reducible apply ite_has | with_reducible apply foldS_has | with_reducible apply foldl_has | intro _ _ _ | intro _ | dsimp only | split | (fail_if_no_progress with_reducible apply Dev.Has.upd))

theorem opUserClockEdge_has {F : Tab Word} (x0 : Nat) (x1 : List (Nat × Bool)) (x2 : Dev) (h2 : x2.Has F) :
    (opUserClockEdge x0 x1 x2).Has F := by
  unfold opUserClockEdge
  repeat' (first | with_reducible assumption | with_reducible apply Dev.panCycles_has | with_reducible apply Dev.clockPan_has | with_reducible apply Dev.emit_has | with_reducible apply Dev.modFport_has | with_reducible apply Dev.refreshPins_has | with_reducible apply ite_has | with_reducible apply foldS_has | with_reducible apply foldl_has | intro _ _ _ | intro _ | dsimp only | split | (fail_if_no_progress with_reducible apply Dev.Has.upd))

theorem Dev.writePin_has {F : Tab Word} (x0 : Dev) (x1 : Nat) (x2 : Nat) (x3 : Word) (h0 : x0.Has F) :
    (Dev.writePin x0 x1 x2 x3).Has F := by
  unfold Dev.writePin
  repeat' (first | with_reducible assumption | with_reducible apply Dev.modPin_has | with_reducible apply Dev.refreshPins_has | with_reducible apply Dev.writePinSel_has | with_reducible apply Dev.refreshSinks_has | with_reducible apply ite_has | with_reducible apply foldS_has | with_reducible apply foldl_has | intro _ _ _ | intro _ | dsimp only | split | (fail_if_no_progress with_reducible apply Dev.Has.upd))

end Sys2Proof.Machine
end

