-- ==== Sys2Proof/Laws/KeepsTelemetry.lean ====
section
/-! SUPPORT. Every operation of Machine/Telemetry.lean keeps what Laws/Keeps.lean states. -/

set_option linter.unusedTactic false
set_option linter.unreachableTactic false
set_option linter.unusedVariables false

namespace Sys2Proof.Machine

theorem Dev.bgsEvent_has {F : Tab Word} (x0 : Dev) (x1 : Nat → Bool) (x2 : Nat) (x3 : DWord) (h0 : x0.Has F) :
    (Dev.bgsEvent x0 x1 x2 x3).Has F := by
  unfold Dev.bgsEvent
  repeat' (first | with_reducible assumption | with_reducible apply Dev.eventAt_has | with_reducible apply ite_has | with_reducible apply foldS_has | with_reducible apply foldl_has | intro _ _ _ | intro _ | dsimp only | split | (fail_if_no_progress with_reducible apply Dev.Has.upd))

theorem Dev.sampleTemp_has {F : Tab Word} (x0 : Dev) (x1 : Nat) (x2 : BitVec 16) (h0 : x0.Has F) :
    (Dev.sampleTemp x0 x1 x2).Has F := by
  unfold Dev.sampleTemp
  repeat' (first | with_reducible assumption | with_reducible apply Dev.takeFree_has | with_reducible apply snd_has ‹_ = (_, _)› (Dev.takeFree_has ..) | with_reducible apply Dev.bgsEvent_has | with_reducible apply ite_has | with_reducible apply foldS_has | with_reducible apply foldl_has | intro _ _ _ | intro _ | dsimp only | split | (fail_if_no_progress with_reducible apply Dev.Has.upd))

theorem Dev.sampleVolt_has {F : Tab Word} (x0 : Dev) (x1 : Nat) (x2 : BitVec 16) (h0 : x0.Has F) :
    (Dev.sampleVolt x0 x1 x2).Has F := by
  unfold Dev.sampleVolt
  repeat' (first | with_reducible assumption | with_reducible apply Dev.takeFree_has | with_reducible apply snd_has ‹_ = (_, _)› (Dev.takeFree_has ..) | with_reducible apply Dev.bgsEvent_has | with_reducible apply ite_has | with_reducible apply foldS_has | with_reducible apply foldl_has | intro _ _ _ | intro _ | dsimp only | split | (fail_if_no_progress with_reducible apply Dev.Has.upd))

theorem opTelemetrySample_has {F : Tab Word} (x0 : List (BitVec 16)) (x1 : List (BitVec 16)) (x2 : BitVec 16) (x3 : Dev) (h3 : x3.Has F) :
    (opTelemetrySample x0 x1 x2 x3).Has F := by
  unfold opTelemetrySample
  repeat' (first | with_reducible assumption | with_reducible apply Dev.sampleTemp_has | with_reducible apply Dev.sampleVolt_has | with_reducible apply Dev.refreshPins_has | with_reducible apply ite_has | with_reducible apply foldS_has | with_reducible apply foldl_has | intro _ _ _ | intro _ | dsimp only | split | (fail_if_no_progress with_reducible apply Dev.Has.upd))

theorem opActivityWindowEnd_has {F : Tab Word} (x0 : Dev) (h0 : x0.Has F) :
    (opActivityWindowEnd x0).Has F := by
  unfold opActivityWindowEnd
  repeat' (first | with_reducible assumption | with_reducible apply Dev.takeFree_has | with_reducible apply snd_has ‹_ = (_, _)› (Dev.takeFree_has ..) | with_reducible apply ite_has | with_reducible apply foldS_has | with_reducible apply foldl_has | intro _ _ _ | intro _ | dsimp only | split | (fail_if_no_progress with_reducible apply Dev.Has.upd))

theorem opTeleClear_has {F : Tab Word} (x0 : Path) (x1 : Word) (x2 : Dev) (h2 : x2.Has F) :
    (opTeleClear x0 x1 x2).Has F := by
  unfold opTeleClear
  repeat' (first | with_reducible assumption | with_reducible apply Dev.filtered_has | with_reducible apply ite_has | with_reducible apply foldS_has | with_reducible apply foldl_has | intro _ _ _ | intro _ | dsimp only | split | (fail_if_no_progress with_reducible apply Dev.Has.upd))

theorem Dev.readRec0_has {F : Tab Word} (x0 : Dev) (x1 : Nat) (h0 : x0.Has F) :
    (Dev.readRec0 x0 x1).2.Has F := by
  unfold Dev.readRec0
  repeat' (first | with_reducible assumption | with_reducible apply ite_snd_has | with_reducible apply ite_has | with_reducible apply foldS_has | with_reducible apply foldl_has | intro _ _ _ | intro _ | dsimp only | split | (fail_if_no_progress with_reducible apply Dev.Has.upd))

theorem opTeleRec0Read_has {F : Tab Word} (x0 : Path) (x1 : Dev) (h1 : x1.Has F) :
    (opTeleRec0Read x0 x1).Has F := by
  unfold opTeleRec0Read
  repeat' (first | with_reducible assumption | with_reducible apply Dev.readThrough_has | with_reducible apply Dev.readRec0_has | with_reducible apply snd_has ‹_ = (_, _)› (Dev.readRec0_has ..) | with_reducible apply ite_has | with_reducible apply foldS_has | with_reducible apply foldl_has | intro _ _ _ | intro _ | dsimp only | split | (fail_if_no_progress with_reducible apply Dev.Has.upd))

theorem Dev.writeTele_has {F : Tab Word} (x0 : Dev) (x1 : Nat) (x2 : Nat) (x3 : Word) (h0 : x0.Has F) :
    (Dev.writeTele x0 x1 x2 x3).Has F := by
  unfold Dev.writeTele
  repeat' (first | with_reducible assumption | with_reducible apply ite_has | with_reducible apply foldS_has | with_reducible apply foldl_has | intro _ _ _ | intro _ | dsimp only | split | (fail_if_no_progress with_reducible apply Dev.Has.upd))

end Sys2Proof.Machine
end

