-- ==== Sys2Proof/Laws/KeepsFieldPorts.lean ====
section
/-! SUPPORT. Every operation of Machine/FieldPorts.lean keeps what Laws/Keeps.lean states. -/

set_option linter.unusedTactic false
set_option linter.unreachableTactic false
set_option linter.unusedVariables false

namespace Sys2Proof.Machine

theorem Dev.fportErr_has {F : Tab Word} (x0 : Dev) (x1 : Nat) (x2 : BitVec 12) (h0 : x0.Has F) :
    (Dev.fportErr x0 x1 x2).Has F := by
  unfold Dev.fportErr
  repeat' (first | with_reducible assumption | with_reducible apply Dev.modFport_has | with_reducible apply Dev.event_has | with_reducible apply ite_has | with_reducible apply foldS_has | with_reducible apply foldl_has | intro _ _ _ | intro _ | dsimp only | split | (fail_if_no_progress with_reducible apply Dev.Has.upd))

theorem Dev.pushRx_has {F : Tab Word} (x0 : Dev) (x1 : Nat) (x2 : List Word) (h0 : x0.Has F) :
    (Dev.pushRx x0 x1 x2).Has F := by
  unfold Dev.pushRx
  repeat' (first | with_reducible assumption | with_reducible apply Dev.fportErr_has | with_reducible apply Dev.modFport_has | with_reducible apply Dev.event_has | with_reducible apply Dev.flushChannel_has | with_reducible apply ite_has | with_reducible apply foldS_has | with_reducible apply foldl_has | intro _ _ _ | intro _ | dsimp only | split | (fail_if_no_progress with_reducible apply Dev.Has.upd))

theorem Dev.countTx_has {F : Tab Word} (x0 : Dev) (x1 : Nat) (h0 : x0.Has F) :
    (Dev.countTx x0 x1).Has F := by
  unfold Dev.countTx
  repeat' (first | with_reducible assumption | with_reducible apply Dev.modFport_has | with_reducible apply ite_has | with_reducible apply foldS_has | with_reducible apply foldl_has | intro _ _ _ | intro _ | dsimp only | split | (fail_if_no_progress with_reducible apply Dev.Has.upd))

theorem Dev.countRx_has {F : Tab Word} (x0 : Dev) (x1 : Nat) (h0 : x0.Has F) :
    (Dev.countRx x0 x1).Has F := by
  unfold Dev.countRx
  repeat' (first | with_reducible assumption | with_reducible apply Dev.modFport_has | with_reducible apply ite_has | with_reducible apply foldS_has | with_reducible apply foldl_has | intro _ _ _ | intro _ | dsimp only | split | (fail_if_no_progress with_reducible apply Dev.Has.upd))

theorem Dev.fportToIdle_has {F : Tab Word} (x0 : Dev) (x1 : Nat) (x2 : Cause) (h0 : x0.Has F) :
    (Dev.fportToIdle x0 x1 x2).Has F := by
  unfold Dev.fportToIdle
  repeat' (first | with_reducible assumption | with_reducible apply Dev.setUnit_has | with_reducible apply Dev.modFport_has | with_reducible apply ite_has | with_reducible apply foldS_has | with_reducible apply foldl_has | intro _ _ _ | intro _ | dsimp only | split | (fail_if_no_progress with_reducible apply Dev.Has.upd))

theorem opFportStart_has {F : Tab Word} (x0 : Nat) (x1 : Dev) (h1 : x1.Has F) :
    (opFportStart x0 x1).Has F := by
  unfold opFportStart
  repeat' (first | with_reducible assumption | with_reducible apply Dev.modFport_has | with_reducible apply Dev.flushChannel_has | with_reducible apply Dev.refreshPins_has | with_reducible apply Dev.setUnit_has | with_reducible apply ite_has | with_reducible apply foldS_has | with_reducible apply foldl_has | intro _ _ _ | intro _ | dsimp only | split | (fail_if_no_progress with_reducible apply Dev.Has.upd))

theorem Dev.uartTake_has {F : Tab Word} (x0 : Dev) (x1 : Nat) (x2 : BitVec 9) (x3 : Bool) (x4 : Bool) (x5 : Bool) (h0 : x0.Has F) :
    (Dev.uartTake x0 x1 x2 x3 x4 x5).Has F := by
  unfold Dev.uartTake
  repeat' (first | with_reducible assumption | with_reducible apply Dev.fportErr_has | with_reducible apply Dev.refreshPins_has | with_reducible apply Dev.pushRx_has | with_reducible apply Dev.countRx_has | with_reducible apply ite_has | with_reducible apply foldS_has | with_reducible apply foldl_has | intro _ _ _ | intro _ | dsimp only | split | (fail_if_no_progress with_reducible apply Dev.Has.upd))

theorem opUartRxCharacter_has {F : Tab Word} (x0 : Nat) (x1 : BitVec 9) (x2 : Bool) (x3 : Bool) (x4 : Bool) (x5 : Dev) (h5 : x5.Has F) :
    (opUartRxCharacter x0 x1 x2 x3 x4 x5).Has F := by
  unfold opUartRxCharacter
  repeat' (first | with_reducible assumption | with_reducible apply Dev.uartTake_has | with_reducible apply ite_has | with_reducible apply foldS_has | with_reducible apply foldl_has | intro _ _ _ | intro _ | dsimp only | split | (fail_if_no_progress with_reducible apply Dev.Has.upd))

theorem opUartTxCharacter_has {F : Tab Word} (x0 : Nat) (x1 : Dev) (h1 : x1.Has F) :
    (opUartTxCharacter x0 x1).Has F := by
  unfold opUartTxCharacter
  repeat' (first | with_reducible assumption | with_reducible apply Dev.countTx_has | with_reducible apply Dev.modFport_has | with_reducible apply Dev.emit_has | with_reducible apply Dev.uartTake_has | with_reducible apply Dev.refreshPins_has | with_reducible apply ite_has | with_reducible apply foldS_has | with_reducible apply foldl_has | intro _ _ _ | intro _ | dsimp only | split | (fail_if_no_progress with_reducible apply Dev.Has.upd))

theorem Dev.spiController_has {F : Tab Word} (x0 : Dev) (x1 : Nat) (x2 : Byte) (h0 : x0.Has F) :
    (Dev.spiController x0 x1 x2).Has F := by
  unfold Dev.spiController
  repeat' (first | with_reducible assumption | with_reducible apply Dev.takeFree_has | with_reducible apply snd_has ‹_ = (_, _)› (Dev.takeFree_has ..) | with_reducible apply Dev.countTx_has | with_reducible apply Dev.modFport_has | with_reducible apply Dev.emit_has | with_reducible apply Dev.pushRx_has | with_reducible apply Dev.countRx_has | with_reducible apply Dev.refreshPins_has | with_reducible apply ite_has | with_reducible apply foldS_has | with_reducible apply foldl_has | intro _ _ _ | intro _ | dsimp only | split | (fail_if_no_progress with_reducible apply Dev.Has.upd))

theorem Dev.spiTarget_has {F : Tab Word} (x0 : Dev) (x1 : Nat) (x2 : Byte) (h0 : x0.Has F) :
    (Dev.spiTarget x0 x1 x2).Has F := by
  unfold Dev.spiTarget
  repeat' (first | with_reducible assumption | with_reducible apply Dev.fportErr_has | with_reducible apply Dev.countTx_has | with_reducible apply Dev.modFport_has | with_reducible apply Dev.emit_has | with_reducible apply Dev.refreshPins_has | with_reducible apply Dev.countRx_has | with_reducible apply Dev.pushRx_has | with_reducible apply ite_has | with_reducible apply foldS_has | with_reducible apply foldl_has | intro _ _ _ | intro _ | dsimp only | split | (fail_if_no_progress with_reducible apply Dev.Has.upd))

theorem opSpiByte_has {F : Tab Word} (x0 : Nat) (x1 : Byte) (x2 : Dev) (h2 : x2.Has F) :
    (opSpiByte x0 x1 x2).Has F := by
  unfold opSpiByte
  repeat' (first | with_reducible assumption | with_reducible apply Dev.spiTarget_has | with_reducible apply Dev.spiController_has | with_reducible apply ite_has | with_reducible apply foldS_has | with_reducible apply foldl_has | intro _ _ _ | intro _ | dsimp only | split | (fail_if_no_progress with_reducible apply Dev.Has.upd))

theorem opSpiCsEnd_has {F : Tab Word} (x0 : Nat) (x1 : Dev) (h1 : x1.Has F) :
    (opSpiCsEnd x0 x1).Has F := by
  unfold opSpiCsEnd
  repeat' (first | with_reducible assumption | with_reducible apply Dev.modFport_has | with_reducible apply Dev.refreshPins_has | with_reducible apply Dev.pushRx_has | with_reducible apply ite_has | with_reducible apply foldS_has | with_reducible apply foldl_has | intro _ _ _ | intro _ | dsimp only | split | (fail_if_no_progress with_reducible apply Dev.Has.upd))

theorem Dev.i2cAbandon_has {F : Tab Word} (x0 : Dev) (x1 : Nat) (x2 : BitVec 12) (x3 : List Word) (x4 : Bool) (h0 : x0.Has F) :
    (Dev.i2cAbandon x0 x1 x2 x3 x4).Has F := by
  unfold Dev.i2cAbandon
  repeat' (first | with_reducible assumption | with_reducible apply Dev.fportErr_has | with_reducible apply Dev.modFport_has | with_reducible apply Dev.emit_has | with_reducible apply ite_has | with_reducible apply foldS_has | with_reducible apply foldl_has | intro _ _ _ | intro _ | dsimp only | split | (fail_if_no_progress with_reducible apply Dev.Has.upd))

theorem Dev.i2cController_has {F : Tab Word} (x0 : Dev) (x1 : Nat) (x2 : Byte) (x3 : I2cEnd) (h0 : x0.Has F) :
    (Dev.i2cController x0 x1 x2 x3).Has F := by
  unfold Dev.i2cController
  repeat' (first | with_reducible assumption | with_reducible apply Dev.countTx_has | with_reducible apply Dev.modFport_has | with_reducible apply Dev.emit_has | with_reducible apply Dev.i2cAbandon_has | with_reducible apply Dev.pushRx_has | with_reducible apply Dev.countRx_has | with_reducible apply ite_has | with_reducible apply foldS_has | with_reducible apply foldl_has | intro _ _ _ | intro _ | dsimp only | split | (fail_if_no_progress with_reducible apply Dev.Has.upd))

theorem Dev.i2cTarget_has {F : Tab Word} (x0 : Dev) (x1 : Nat) (x2 : Byte) (x3 : I2cEnd) (x4 : Bool) (x5 : Bool) (x6 : Bool) (h0 : x0.Has F) :
    (Dev.i2cTarget x0 x1 x2 x3 x4 x5 x6).Has F := by
  unfold Dev.i2cTarget
  repeat' (first | with_reducible assumption | with_reducible apply Dev.emit_has | with_reducible apply Dev.countTx_has | with_reducible apply Dev.modFport_has | with_reducible apply Dev.countRx_has | with_reducible apply Dev.pushRx_has | with_reducible apply ite_has | with_reducible apply foldS_has | with_reducible apply foldl_has | intro _ _ _ | intro _ | dsimp only | split | (fail_if_no_progress with_reducible apply Dev.Has.upd))

theorem opI2cByte_has {F : Tab Word} (x0 : Nat) (x1 : Byte) (x2 : I2cEnd) (x3 : Bool) (x4 : Bool) (x5 : Bool) (x6 : Dev) (h6 : x6.Has F) :
    (opI2cByte x0 x1 x2 x3 x4 x5 x6).Has F := by
  unfold opI2cByte
  repeat' (first | with_reducible assumption | with_reducible apply Dev.refreshPins_has | with_reducible apply Dev.i2cTarget_has | with_reducible apply Dev.modFport_has | with_reducible apply Dev.i2cController_has | with_reducible apply ite_has | with_reducible apply foldS_has | with_reducible apply foldl_has | intro _ _ _ | intro _ | dsimp only | split | (fail_if_no_progress with_reducible apply Dev.Has.upd))

theorem opI2cStretchTimeout_has {F : Tab Word} (x0 : Nat) (x1 : Dev) (h1 : x1.Has F) :
    (opI2cStretchTimeout x0 x1).Has F := by
  unfold opI2cStretchTimeout
  repeat' (first | with_reducible assumption | with_reducible apply Dev.refreshPins_has | with_reducible apply Dev.i2cAbandon_has | with_reducible apply ite_has | with_reducible apply foldS_has | with_reducible apply foldl_has | intro _ _ _ | intro _ | dsimp only | split | (fail_if_no_progress with_reducible apply Dev.Has.upd))

theorem Dev.canError_has {F : Tab Word} (x0 : Dev) (x1 : Nat) (x2 : Bool) (x3 : CanErr) (x4 : Bool) (h0 : x0.Has F) :
    (Dev.canError x0 x1 x2 x3 x4).Has F := by
  unfold Dev.canError
  repeat' (first | with_reducible assumption | with_reducible apply Dev.modFport_has | with_reducible apply Dev.fportErr_has | with_reducible apply ite_has | with_reducible apply foldS_has | with_reducible apply foldl_has | intro _ _ _ | intro _ | dsimp only | split | (fail_if_no_progress with_reducible apply Dev.Has.upd))

theorem Dev.canTake_has {F : Tab Word} (x0 : Dev) (x1 : Nat) (x2 : List Word) (x3 : DWord) (h0 : x0.Has F) :
    (Dev.canTake x0 x1 x2 x3).Has F := by
  unfold Dev.canTake
  repeat' (first | with_reducible assumption | with_reducible apply Dev.modFport_has | with_reducible apply Dev.countRx_has | with_reducible apply Dev.pushRx_has | with_reducible apply ite_has | with_reducible apply foldS_has | with_reducible apply foldl_has | intro _ _ _ | intro _ | dsimp only | split | (fail_if_no_progress with_reducible apply Dev.Has.upd))

theorem Dev.canPex_has {F : Tab Word} (x0 : Dev) (x1 : Nat) (x2 : Bool) (h0 : x0.Has F) :
    (Dev.canPex x0 x1 x2).Has F := by
  unfold Dev.canPex
  repeat' (first | with_reducible assumption | with_reducible apply Dev.fportErr_has | with_reducible apply Dev.modFport_has | with_reducible apply Dev.canError_has | with_reducible apply ite_has | with_reducible apply foldS_has | with_reducible apply foldl_has | intro _ _ _ | intro _ | dsimp only | split | (fail_if_no_progress with_reducible apply Dev.Has.upd))

theorem opCanRxFrame_has {F : Tab Word} (x0 : Nat) (x1 : List Word) (x2 : CanEnd) (x3 : Dev) (h3 : x3.Has F) :
    (opCanRxFrame x0 x1 x2 x3).Has F := by
  unfold opCanRxFrame
  repeat' (first | with_reducible assumption | with_reducible apply Dev.canPex_has | with_reducible apply Dev.canTake_has | with_reducible apply Dev.canError_has | with_reducible apply ite_has | with_reducible apply foldS_has | with_reducible apply foldl_has | intro _ _ _ | intro _ | dsimp only | split | (fail_if_no_progress with_reducible apply Dev.Has.upd))

theorem opCanTxFrame_has {F : Tab Word} (x0 : Nat) (x1 : CanEnd) (x2 : Dev) (h2 : x2.Has F) :
    (opCanTxFrame x0 x1 x2).Has F := by
  unfold opCanTxFrame
  repeat' (first | with_reducible assumption | with_reducible apply Dev.modFport_has | with_reducible apply Dev.canTake_has | with_reducible apply Dev.countTx_has | with_reducible apply Dev.emit_has | with_reducible apply Dev.canError_has | with_reducible apply Dev.canPex_has | with_reducible apply ite_has | with_reducible apply foldS_has | with_reducible apply foldl_has | intro _ _ _ | intro _ | dsimp only | split | (fail_if_no_progress with_reducible apply Dev.Has.upd))

theorem opCanBusOff_has {F : Tab Word} (x0 : Nat) (x1 : Dev) (h1 : x1.Has F) :
    (opCanBusOff x0 x1).Has F := by
  unfold opCanBusOff
  repeat' (first | with_reducible assumption | with_reducible apply Dev.event_has | with_reducible apply Dev.fportErr_has | with_reducible apply Dev.modFport_has | with_reducible apply Dev.refreshPins_has | with_reducible apply Dev.fportToIdle_has | with_reducible apply ite_has | with_reducible apply foldS_has | with_reducible apply foldl_has | intro _ _ _ | intro _ | dsimp only | split | (fail_if_no_progress with_reducible apply Dev.Has.upd))

theorem Dev.writeTxdata_has {F : Tab Word} (x0 : Dev) (x1 : Nat) (x2 : Word) (h0 : x0.Has F) :
    (Dev.writeTxdata x0 x1 x2).Has F := by
  unfold Dev.writeTxdata
  repeat' (first | with_reducible assumption | with_reducible apply Dev.fportErr_has | with_reducible apply Dev.refreshPins_has | with_reducible apply Dev.modFport_has | with_reducible apply ite_has | with_reducible apply foldS_has | with_reducible apply foldl_has | intro _ _ _ | intro _ | dsimp only | split | (fail_if_no_progress with_reducible apply Dev.Has.upd))

theorem opFportTxdataWrite_has {F : Tab Word} (x0 : Path) (x1 : Nat) (x2 : Word) (x3 : Dev) (h3 : x3.Has F) :
    (opFportTxdataWrite x0 x1 x2 x3).Has F := by
  unfold opFportTxdataWrite
  repeat' (first | with_reducible assumption | with_reducible apply Dev.filtered_has | with_reducible apply Dev.writeTxdata_has | with_reducible apply ite_has | with_reducible apply foldS_has | with_reducible apply foldl_has | intro _ _ _ | intro _ | dsimp only | split | (fail_if_no_progress with_reducible apply Dev.Has.upd))

theorem Dev.readRxdata_has {F : Tab Word} (x0 : Dev) (x1 : Nat) (h0 : x0.Has F) :
    (Dev.readRxdata x0 x1).2.Has F := by
  unfold Dev.readRxdata
  repeat' (first | with_reducible assumption | with_reducible apply Dev.fportErr_has | with_reducible apply Dev.refreshPins_has | with_reducible apply Dev.modFport_has | with_reducible apply ite_snd_has | with_reducible apply ite_has | with_reducible apply foldS_has | with_reducible apply foldl_has | intro _ _ _ | intro _ | dsimp only | split | (fail_if_no_progress with_reducible apply Dev.Has.upd))

theorem opFportRxdataRead_has {F : Tab Word} (x0 : Path) (x1 : Nat) (x2 : Dev) (h2 : x2.Has F) :
    (opFportRxdataRead x0 x1 x2).Has F := by
  unfold opFportRxdataRead
  repeat' (first | with_reducible assumption | with_reducible apply Dev.readThrough_has | with_reducible apply Dev.readRxdata_has | with_reducible apply snd_has ‹_ = (_, _)› (Dev.readRxdata_has ..) | with_reducible apply ite_has | with_reducible apply foldS_has | with_reducible apply foldl_has | intro _ _ _ | intro _ | dsimp only | split | (fail_if_no_progress with_reducible apply Dev.Has.upd))

theorem Dev.readFportCount_has {F : Tab Word} (x0 : Dev) (x1 : Nat) (h0 : x0.Has F) :
    (Dev.readFportCount x0 x1).2.Has F := by
  unfold Dev.readFportCount
  repeat' (first | with_reducible assumption | with_reducible apply Dev.modFport_has | with_reducible apply ite_snd_has | with_reducible apply ite_has | with_reducible apply foldS_has | with_reducible apply foldl_has | intro _ _ _ | intro _ | dsimp only | split | (fail_if_no_progress with_reducible apply Dev.Has.upd))

theorem opFportCountRead_has {F : Tab Word} (x0 : Path) (x1 : Nat) (x2 : Dev) (h2 : x2.Has F) :
    (opFportCountRead x0 x1 x2).Has F := by
  unfold opFportCountRead
  repeat' (first | with_reducible assumption | with_reducible apply Dev.readThrough_has | with_reducible apply Dev.readFportCount_has | with_reducible apply snd_has ‹_ = (_, _)› (Dev.readFportCount_has ..) | with_reducible apply ite_has | with_reducible apply foldS_has | with_reducible apply foldl_has | intro _ _ _ | intro _ | dsimp only | split | (fail_if_no_progress with_reducible apply Dev.Has.upd))

theorem opFieldChannelTx_has {F : Tab Word} (x0 : Nat) (x1 : Nat) (x2 : Word) (x3 : Dev) (h3 : x3.Has F) :
    (opFieldChannelTx x0 x1 x2 x3).Has F := by
  unfold opFieldChannelTx
  repeat' (first | with_reducible assumption | with_reducible apply Dev.refreshPins_has | with_reducible apply Dev.modFport_has | with_reducible apply ite_has | with_reducible apply foldS_has | with_reducible apply foldl_has | intro _ _ _ | intro _ | dsimp only | split | (fail_if_no_progress with_reducible apply Dev.Has.upd))

theorem opFportParityFault_has {F : Tab Word} (x0 : Nat) (x1 : Dev) (h1 : x1.Has F) :
    (opFportParityFault x0 x1).Has F := by
  unfold opFportParityFault
  repeat' (first | with_reducible assumption | with_reducible apply Dev.refreshPins_has | with_reducible apply Dev.fault_has | with_reducible apply ite_has | with_reducible apply foldS_has | with_reducible apply foldl_has | intro _ _ _ | intro _ | dsimp only | split | (fail_if_no_progress with_reducible apply Dev.Has.upd))

theorem Dev.fportLoop_has {F : Tab Word} (x0 : Dev) (x1 : Nat) (x2 : Nat) (x3 : Cause) (h0 : x0.Has F) :
    (Dev.fportLoop x0 x1 x2 x3).Has F := by
  unfold Dev.fportLoop
  repeat' (first | with_reducible assumption | with_reducible apply Dev.modFport_has | with_reducible apply Dev.refreshPins_has | with_reducible apply Dev.setUnit_has | with_reducible apply ite_has | with_reducible apply foldS_has | with_reducible apply foldl_has | intro _ _ _ | intro _ | dsimp only | split | (fail_if_no_progress with_reducible apply Dev.Has.upd))

theorem Dev.fportUnloop_has {F : Tab Word} (x0 : Dev) (x1 : Nat) (x2 : Cause) (h0 : x0.Has F) :
    (Dev.fportUnloop x0 x1 x2).Has F := by
  unfold Dev.fportUnloop
  repeat' (first | with_reducible assumption | with_reducible apply Dev.refreshPins_has | with_reducible apply Dev.fportToIdle_has | with_reducible apply Dev.modFport_has | with_reducible apply ite_has | with_reducible apply foldS_has | with_reducible apply foldl_has | intro _ _ _ | intro _ | dsimp only | split | (fail_if_no_progress with_reducible apply Dev.Has.upd))

theorem Dev.writeFport_has {F : Tab Word} (x0 : Dev) (x1 : Nat) (x2 : Nat) (x3 : Word) (h0 : x0.Has F) :
    (Dev.writeFport x0 x1 x2 x3).Has F := by
  unfold Dev.writeFport
  repeat' (first | with_reducible assumption | with_reducible apply Dev.modFport_has | with_reducible apply Dev.refreshPins_has | with_reducible apply Dev.writeTxdata_has | with_reducible apply ite_has | with_reducible apply foldS_has | with_reducible apply foldl_has | intro _ _ _ | intro _ | dsimp only | split | (fail_if_no_progress with_reducible apply Dev.Has.upd))

end Sys2Proof.Machine
end

