-- ==== Sys2Proof/Laws/KeepsHostMem.lean ====
section
/-! SUPPORT. Every operation of Machine/HostMem.lean keeps what Laws/Keeps.lean states. -/

set_option linter.unusedTactic false
set_option linter.unreachableTactic false
set_option linter.unusedVariables false

namespace Sys2Proof.Machine

theorem Dev.askHost_has {F : Tab Word} (x0 : Dev) (x1 : Nat) (x2 : ReadWhy) (x3 : Nat) (x4 : Nat) (h0 : x0.Has F) :
    (Dev.askHost x0 x1 x2 x3 x4).Has F := by
  unfold Dev.askHost
  repeat' (first | with_reducible assumption | with_reducible apply Dev.modHp_has | with_reducible apply Dev.emit_has | with_reducible apply ite_has | with_reducible apply foldS_has | with_reducible apply foldl_has | intro _ _ _ | intro _ | dsimp only | split | (fail_if_no_progress with_reducible apply Dev.Has.upd))

theorem Dev.askWaiting_has {F : Tab Word} (x0 : Dev) (x1 : Nat) (h0 : x0.Has F) :
    (Dev.askWaiting x0 x1).Has F := by
  unfold Dev.askWaiting
  repeat' (first | with_reducible assumption | with_reducible apply Dev.emit_has | with_reducible apply Dev.modHp_has | with_reducible apply ite_has | with_reducible apply foldS_has | with_reducible apply foldl_has | intro _ _ _ | intro _ | dsimp only | split | (fail_if_no_progress with_reducible apply Dev.Has.upd))

theorem Dev.putBuf_has {F : Tab Word} (x0 : Dev) (x1 : MgmtIf) (x2 : Nat) (x3 : List Byte) (h0 : x0.Has F) :
    (Dev.putBuf x0 x1 x2 x3).Has F := by
  unfold Dev.putBuf
  repeat' (first | with_reducible assumption | with_reducible apply Dev.modMg_has | with_reducible apply ite_has | with_reducible apply foldS_has | with_reducible apply foldl_has | intro _ _ _ | intro _ | dsimp only | split | (fail_if_no_progress with_reducible apply Dev.Has.upd))

theorem Dev.askBytes_has {F : Tab Word} (x0 : Dev) (x1 : Nat) (x2 : Issuer) (x3 : ReadWhy) (x4 : Nat) (x5 : Nat) (x6 : Dev → List Byte → Dev) (x7 : Dev → Dev) (h0 : x0.Has F) (h6 : ∀ (y0 : Dev) (y1 : List Byte), y0.Has F → (x6 y0 y1).Has F) (h7 : ∀ (y0 : Dev), y0.Has F → (x7 y0).Has F) :
    (Dev.askBytes x0 x1 x2 x3 x4 x5 x6 x7).Has F := by
  unfold Dev.askBytes
  repeat' (first | with_reducible assumption | with_reducible apply Dev.askHost_has | with_reducible apply h6 | with_reducible apply h7 | with_reducible apply ite_has | with_reducible apply foldS_has | with_reducible apply foldl_has | intro _ _ _ | intro _ | dsimp only | split | (fail_if_no_progress with_reducible apply Dev.Has.upd))

theorem Dev.putHostData_has {F : Tab Word} (x0 : Dev) (x1 : Nat) (x2 : Issuer) (x3 : Nat) (x4 : List Byte) (h0 : x0.Has F) :
    (Dev.putHostData x0 x1 x2 x3 x4).Has F := by
  unfold Dev.putHostData
  repeat' (first | with_reducible assumption | with_reducible apply Dev.modHp_has | with_reducible apply Dev.postHost_has | with_reducible apply Dev.putBuf_has | with_reducible apply ite_has | with_reducible apply foldS_has | with_reducible apply foldl_has | intro _ _ _ | intro _ | dsimp only | split | (fail_if_no_progress with_reducible apply Dev.Has.upd))

end Sys2Proof.Machine
end

