-- ==== Sys2Proof/Laws/KeepsRake.lean ====
section
/-! SUPPORT. Every operation of Machine/Rake.lean keeps what Laws/Keeps.lean states. -/

set_option linter.unusedTactic false
set_option linter.unreachableTactic false
set_option linter.unusedVariables false

namespace Sys2Proof.Machine

theorem Dev.endPst_has {F : Tab Word} (x0 : Dev) (x1 : Nat) (h0 : x0.Has F) :
    (Dev.endPst x0 x1).Has F := by
  unfold Dev.endPst
  repeat' (first | with_reducible assumption | with_reducible apply Dev.panSources_has | with_reducible apply ite_has | with_reducible apply foldS_has | with_reducible apply foldl_has | intro _ _ _ | intro _ | dsimp only | split | (fail_if_no_progress with_reducible apply Dev.Has.upd))

theorem Dev.abortPst_has {F : Tab Word} (x0 : Dev) (x1 : Nat) (h0 : x0.Has F) :
    (Dev.abortPst x0 x1).Has F := by
  unfold Dev.abortPst
  repeat' (first | with_reducible assumption | with_reducible apply Dev.endPst_has | with_reducible apply ite_has | with_reducible apply foldS_has | with_reducible apply foldl_has | intro _ _ _ | intro _ | dsimp only | split | (fail_if_no_progress with_reducible apply Dev.Has.upd))

theorem Dev.discardPre_has {F : Tab Word} (x0 : Dev) (x1 : Nat) (h0 : x0.Has F) :
    (Dev.discardPre x0 x1).Has F := by
  unfold Dev.discardPre
  repeat' (first | with_reducible assumption | with_reducible apply Dev.refund_has | with_reducible apply Dev.leaveLane_has | with_reducible apply Dev.modPan_has | with_reducible apply ite_has | with_reducible apply foldS_has | with_reducible apply foldl_has | intro _ _ _ | intro _ | dsimp only | split | (fail_if_no_progress with_reducible apply Dev.Has.upd))

theorem Dev.bindTags_has {F : Tab Word} (x0 : Dev) (x1 : List (Nat × TagBind)) (h0 : x0.Has F) :
    (Dev.bindTags x0 x1).Has F := by
  unfold Dev.bindTags
  repeat' (first | with_reducible assumption | with_reducible apply ite_has | with_reducible apply foldS_has | with_reducible apply foldl_has | intro _ _ _ | intro _ | dsimp only | split | (fail_if_no_progress with_reducible apply Dev.Has.upd))

theorem Dev.unbindTags_has {F : Tab Word} (x0 : Dev) (x1 : List Nat) (h0 : x0.Has F) :
    (Dev.unbindTags x0 x1).Has F := by
  unfold Dev.unbindTags
  repeat' (first | with_reducible assumption | with_reducible apply ite_has | with_reducible apply foldS_has | with_reducible apply foldl_has | intro _ _ _ | intro _ | dsimp only | split | (fail_if_no_progress with_reducible apply Dev.Has.upd))

theorem Dev.bindPorts_has {F : Tab Word} (x0 : Dev) (x1 : List ResEntry) (x2 : Nat) (x3 : Nat) (h0 : x0.Has F) :
    (Dev.bindPorts x0 x1 x2 x3).Has F := by
  unfold Dev.bindPorts
  repeat' (first | with_reducible assumption | with_reducible apply Dev.modLink_has | with_reducible apply Dev.modFport_has | with_reducible apply ite_has | with_reducible apply foldS_has | with_reducible apply foldl_has | intro _ _ _ | intro _ | dsimp only | split | (fail_if_no_progress with_reducible apply Dev.Has.upd))

theorem Dev.unbindPorts_has {F : Tab Word} (x0 : Dev) (x1 : List Nat) (h0 : x0.Has F) :
    (Dev.unbindPorts x0 x1).Has F := by
  unfold Dev.unbindPorts
  repeat' (first | with_reducible assumption | with_reducible apply ite_has | with_reducible apply foldS_has | with_reducible apply foldl_has | intro _ _ _ | intro _ | dsimp only | split | (fail_if_no_progress with_reducible apply Dev.Has.upd))

theorem Dev.dropRes_has {F : Tab Word} (x0 : Dev) (x1 : List Nat) (h0 : x0.Has F) :
    (Dev.dropRes x0 x1).Has F := by
  unfold Dev.dropRes
  repeat' (first | with_reducible assumption | with_reducible apply ite_has | with_reducible apply foldS_has | with_reducible apply foldl_has | intro _ _ _ | intro _ | dsimp only | split | (fail_if_no_progress with_reducible apply Dev.Has.upd))

theorem Dev.setRes_has {F : Tab Word} (x0 : Dev) (x1 : Nat) (x2 : Nat) (x3 : List ResEntry) (h0 : x0.Has F) :
    (Dev.setRes x0 x1 x2 x3).Has F := by
  unfold Dev.setRes
  repeat' (first | with_reducible assumption | with_reducible apply ite_has | with_reducible apply foldS_has | with_reducible apply foldl_has | intro _ _ _ | intro _ | dsimp only | split | (fail_if_no_progress with_reducible apply Dev.Has.upd))

theorem Dev.setQreq_has {F : Tab Word} (x0 : Dev) (x1 : Nat) (x2 : Bool) (h0 : x0.Has F) :
    (Dev.setQreq x0 x1 x2).Has F := by
  unfold Dev.setQreq
  repeat' (first | with_reducible assumption | with_reducible apply Dev.emit_has | with_reducible apply Dev.settle_has | with_reducible apply Dev.modPan_has | with_reducible apply ite_has | with_reducible apply foldS_has | with_reducible apply foldl_has | intro _ _ _ | intro _ | dsimp only | split | (fail_if_no_progress with_reducible apply Dev.Has.upd))

theorem Dev.modOp_has {F : Tab Word} (x0 : Dev) (x1 : Nat) (x2 : Op → Op) (h0 : x0.Has F) :
    (Dev.modOp x0 x1 x2).Has F := by
  unfold Dev.modOp
  repeat' (first | with_reducible assumption | with_reducible apply Dev.setOp_has | with_reducible apply ite_has | with_reducible apply foldS_has | with_reducible apply foldl_has | intro _ _ _ | intro _ | dsimp only | split | (fail_if_no_progress with_reducible apply Dev.Has.upd))

theorem Dev.unhold_has {F : Tab Word} (x0 : Dev) (x1 : Cause) (x2 : List Nat) (h0 : x0.Has F) :
    (Dev.unhold x0 x1 x2).Has F := by
  unfold Dev.unhold
  repeat' (first | with_reducible assumption | with_reducible apply Dev.sourcesOf_has | with_reducible apply Dev.setUnit_has | with_reducible apply Dev.modPan_has | with_reducible apply ite_has | with_reducible apply foldS_has | with_reducible apply foldl_has | intro _ _ _ | intro _ | dsimp only | split | (fail_if_no_progress with_reducible apply Dev.Has.upd))

theorem Dev.unstage_has {F : Tab Word} (x0 : Dev) (x1 : Op) (x2 : Nat) (h0 : x0.Has F) :
    (Dev.unstage x0 x1 x2).Has F := by
  unfold Dev.unstage
  repeat' (first | with_reducible assumption | with_reducible apply Dev.returnUnit_has | with_reducible apply ite_has | with_reducible apply foldS_has | with_reducible apply foldl_has | intro _ _ _ | intro _ | dsimp only | split | (fail_if_no_progress with_reducible apply Dev.Has.upd))

theorem Dev.undoOp_has {F : Tab Word} (x0 : Dev) (x1 : Nat) (x2 : Op) (h0 : x0.Has F) :
    (Dev.undoOp x0 x1 x2).Has F := by
  unfold Dev.undoOp
  repeat' (first | with_reducible assumption | with_reducible apply Dev.returnTokens_has | with_reducible apply Dev.refund_has | with_reducible apply Dev.leaveLane_has | with_reducible apply Dev.modPan_has | with_reducible apply Dev.unstage_has | with_reducible apply Dev.panSources_has | with_reducible apply Dev.setQreq_has | with_reducible apply Dev.unhold_has | with_reducible apply Dev.sourcesOf_has | with_reducible apply Dev.refreshPins_has | with_reducible apply Dev.setOp_has | with_reducible apply Dev.bindTags_has | with_reducible apply ite_has | with_reducible apply foldS_has | with_reducible apply foldl_has | intro _ _ _ | intro _ | dsimp only | split | (fail_if_no_progress with_reducible apply Dev.Has.upd))

theorem Dev.failOp_has {F : Tab Word} (x0 : Dev) (x1 : Nat) (x2 : Nat) (x3 : Nat) (x4 : DWord) (h0 : x0.Has F) :
    (Dev.failOp x0 x1 x2 x3 x4).Has F := by
  unfold Dev.failOp
  repeat' (first | with_reducible assumption | with_reducible apply Dev.complete_has | with_reducible apply Dev.undoOp_has | with_reducible apply ite_has | with_reducible apply foldS_has | with_reducible apply foldl_has | intro _ _ _ | intro _ | dsimp only | split | (fail_if_no_progress with_reducible apply Dev.Has.upd))

theorem Dev.toStaged_has {F : Tab Word} (x0 : Dev) (x1 : Op) (x2 : Nat) (h0 : x0.Has F) :
    (Dev.toStaged x0 x1 x2).Has F := by
  unfold Dev.toStaged
  repeat' (first | with_reducible assumption | with_reducible apply Dev.setUnit_has | with_reducible apply ite_has | with_reducible apply foldS_has | with_reducible apply foldl_has | intro _ _ _ | intro _ | dsimp only | split | (fail_if_no_progress with_reducible apply Dev.Has.upd))

theorem Dev.startRecords_has {F : Tab Word} (x0 : Dev) (x1 : Nat) (h0 : x0.Has F) :
    (Dev.startRecords x0 x1).Has F := by
  unfold Dev.startRecords
  repeat' (first | with_reducible assumption | with_reducible apply Dev.failOp_has | with_reducible apply Dev.discardPre_has | with_reducible apply Dev.toStaged_has | with_reducible apply Dev.modOp_has | with_reducible apply ite_has | with_reducible apply foldS_has | with_reducible apply foldl_has | intro _ _ _ | intro _ | dsimp only | split | (fail_if_no_progress with_reducible apply Dev.Has.upd))

theorem Dev.holdAll_has {F : Tab Word} (x0 : Dev) (x1 : Nat) (x2 : List Nat) (h0 : x0.Has F) :
    (Dev.holdAll x0 x1 x2).Has F := by
  unfold Dev.holdAll
  repeat' (first | with_reducible assumption | with_reducible apply Dev.modPan_has | with_reducible apply Dev.setUnit_has | with_reducible apply Dev.shutPans_has | with_reducible apply Dev.sourcesOf_has | with_reducible apply Dev.busyModule_has | with_reducible apply Dev.modOp_has | with_reducible apply Dev.refreshPins_has | with_reducible apply Dev.unbindTags_has | with_reducible apply Dev.sendInval_has | with_reducible apply Dev.startRecords_has | with_reducible apply ite_has | with_reducible apply foldS_has | with_reducible apply foldl_has | intro _ _ _ | intro _ | dsimp only | split | (fail_if_no_progress with_reducible apply Dev.Has.upd))

theorem Dev.quiesce_has {F : Tab Word} (x0 : Dev) (x1 : Nat) (h0 : x0.Has F) :
    (Dev.quiesce x0 x1).Has F := by
  unfold Dev.quiesce
  repeat' (first | with_reducible assumption | with_reducible apply Dev.setQreq_has | with_reducible apply Dev.modOp_has | with_reducible apply Dev.holdAll_has | with_reducible apply ite_has | with_reducible apply foldS_has | with_reducible apply foldl_has | intro _ _ _ | intro _ | dsimp only | split | (fail_if_no_progress with_reducible apply Dev.Has.upd))

theorem Dev.opAck_has {F : Tab Word} (x0 : Dev) (x1 : Nat) (x2 : Nat) (h0 : x0.Has F) :
    (Dev.opAck x0 x1 x2).Has F := by
  unfold Dev.opAck
  repeat' (first | with_reducible assumption | with_reducible apply Dev.modOp_has | with_reducible apply Dev.holdAll_has | with_reducible apply ite_has | with_reducible apply foldS_has | with_reducible apply foldl_has | intro _ _ _ | intro _ | dsimp only | split | (fail_if_no_progress with_reducible apply Dev.Has.upd))

theorem Dev.logForce_has {F : Tab Word} (x0 : Dev) (x1 : Op) (x2 : Nat) (h0 : x0.Has F) :
    (Dev.logForce x0 x1 x2).Has F := by
  unfold Dev.logForce
  repeat' (first | with_reducible assumption | with_reducible apply ite_has | with_reducible apply foldS_has | with_reducible apply foldl_has | intro _ _ _ | intro _ | dsimp only | split | (fail_if_no_progress with_reducible apply Dev.Has.upd))

theorem Dev.opTimeout_has {F : Tab Word} (x0 : Dev) (x1 : Nat) (h0 : x0.Has F) :
    (Dev.opTimeout x0 x1).Has F := by
  unfold Dev.opTimeout
  repeat' (first | with_reducible assumption | with_reducible apply Dev.holdAll_has | with_reducible apply Dev.logForce_has | with_reducible apply Dev.failOp_has | with_reducible apply ite_has | with_reducible apply foldS_has | with_reducible apply foldl_has | intro _ _ _ | intro _ | dsimp only | split | (fail_if_no_progress with_reducible apply Dev.Has.upd))

theorem Dev.stageMember_has {F : Tab Word} (x0 : Dev) (x1 : Nat) (x2 : Op) (x3 : Nat) (h0 : x0.Has F) :
    (Dev.stageMember x0 x1 x2 x3).Has F := by
  unfold Dev.stageMember
  repeat' (first | with_reducible assumption | with_reducible apply Dev.modPan_has | with_reducible apply Dev.toStaged_has | with_reducible apply ite_has | with_reducible apply foldS_has | with_reducible apply foldl_has | intro _ _ _ | intro _ | dsimp only | split | (fail_if_no_progress with_reducible apply Dev.Has.upd))

theorem Dev.makeReal_has {F : Tab Word} (x0 : Dev) (x1 : Nat) (h0 : x0.Has F) :
    (Dev.makeReal x0 x1).Has F := by
  unfold Dev.makeReal
  repeat' (first | with_reducible assumption | with_reducible apply Dev.modOp_has | with_reducible apply Dev.quiesce_has | with_reducible apply Dev.toStaged_has | with_reducible apply Dev.stageMember_has | with_reducible apply ite_has | with_reducible apply foldS_has | with_reducible apply foldl_has | intro _ _ _ | intro _ | dsimp only | split | (fail_if_no_progress with_reducible apply Dev.Has.upd))

theorem Dev.addPasses_has {F : Tab Word} (x0 : Dev) (x1 : Nat → Nat → Pass) (x2 : List Nat) (h0 : x0.Has F) :
    (Dev.addPasses x0 x1 x2).Has F := by
  unfold Dev.addPasses
  repeat' (first | with_reducible assumption | with_reducible apply ite_has | with_reducible apply foldS_has | with_reducible apply foldl_has | intro _ _ _ | intro _ | dsimp only | split | (fail_if_no_progress with_reducible apply Dev.Has.upd))

theorem Dev.freshStaging_has {F : Tab Word} (x0 : Dev) (x1 : Nat) (h0 : x0.Has F) :
    (Dev.freshStaging x0 x1).Has F := by
  unfold Dev.freshStaging
  repeat' (first | with_reducible assumption | with_reducible apply Dev.addPasses_has | with_reducible apply Dev.modOp_has | with_reducible apply ite_has | with_reducible apply foldS_has | with_reducible apply foldl_has | intro _ _ _ | intro _ | dsimp only | split | (fail_if_no_progress with_reducible apply Dev.Has.upd))

theorem Dev.retryHit_has {F : Tab Word} (x0 : Dev) (x1 : Nat) (h0 : x0.Has F) :
    (Dev.retryHit x0 x1).Has F := by
  unfold Dev.retryHit
  repeat' (first | with_reducible assumption | with_reducible apply Dev.freshStaging_has | with_reducible apply Dev.discardPre_has | with_reducible apply Dev.makeReal_has | with_reducible apply ite_has | with_reducible apply foldS_has | with_reducible apply foldl_has | intro _ _ _ | intro _ | dsimp only | split | (fail_if_no_progress with_reducible apply Dev.Has.upd))

theorem Dev.passFail_has {F : Tab Word} (x0 : Dev) (x1 : Pass) (x2 : Nat) (x3 : Nat) (h0 : x0.Has F) :
    (Dev.passFail x0 x1 x2 x3).Has F := by
  unfold Dev.passFail
  repeat' (first | with_reducible assumption | with_reducible apply Dev.retryHit_has | with_reducible apply Dev.discardPre_has | with_reducible apply Dev.failOp_has | with_reducible apply Dev.cfgError_has | with_reducible apply ite_has | with_reducible apply foldS_has | with_reducible apply foldl_has | intro _ _ _ | intro _ | dsimp only | split | (fail_if_no_progress with_reducible apply Dev.Has.upd))

theorem Dev.beginPass_has {F : Tab Word} (x0 : Dev) (x1 : Pass) (x2 : Nat) (h0 : x0.Has F) :
    (Dev.beginPass x0 x1 x2).Has F := by
  unfold Dev.beginPass
  repeat' (first | with_reducible assumption | with_reducible apply Dev.discardPre_has | with_reducible apply Dev.abortPst_has | with_reducible apply Dev.failOp_has | with_reducible apply Dev.retryHit_has | with_reducible apply Dev.putPass_has | with_reducible apply Dev.invalidate_has | with_reducible apply Dev.countStage_has | with_reducible apply Dev.drawTokens_has | with_reducible apply Dev.modPan_has | with_reducible apply Dev.setUnit_has | with_reducible apply Dev.passFail_has | with_reducible apply ite_has | with_reducible apply foldS_has | with_reducible apply foldl_has | intro _ _ _ | intro _ | dsimp only | split | (fail_if_no_progress with_reducible apply Dev.Has.upd))

theorem opPassStart_has {F : Tab Word} (x0 : Dev) (h0 : x0.Has F) :
    (opPassStart x0).Has F := by
  unfold opPassStart
  repeat' (first | with_reducible assumption | with_reducible apply Dev.beginPass_has | with_reducible apply Dev.retryHit_has | with_reducible apply Dev.discardPre_has | with_reducible apply ite_has | with_reducible apply foldS_has | with_reducible apply foldl_has | intro _ _ _ | intro _ | dsimp only | split | (fail_if_no_progress with_reducible apply Dev.Has.upd))

theorem opStagingFrame_has {F : Tab Word} (x0 : Nat) (x1 : Arrival) (x2 : WriteCheck) (x3 : Dev) (h3 : x3.Has F) :
    (opStagingFrame x0 x1 x2 x3).Has F := by
  unfold opStagingFrame
  repeat' (first | with_reducible assumption | with_reducible apply Dev.passFail_has | with_reducible apply Dev.passFrame_has | with_reducible apply PassOut.go_has ‹_ = PassOut.go _ _› (Dev.passFrame_has ..) | with_reducible apply PassOut.fail_has ‹_ = PassOut.fail _ _ _ _› (Dev.passFrame_has ..) | with_reducible apply Dev.putPass_has | with_reducible apply ite_has | with_reducible apply foldS_has | with_reducible apply foldl_has | intro _ _ _ | intro _ | dsimp only | split | (fail_if_no_progress with_reducible apply Dev.Has.upd))

theorem Dev.carryPasses_has {F : Tab Word} (x0 : Dev) (x1 : Nat) (x2 : Op) (h0 : x0.Has F) :
    (Dev.carryPasses x0 x1 x2).Has F := by
  unfold Dev.carryPasses
  repeat' (first | with_reducible assumption | with_reducible apply Dev.addPasses_has | with_reducible apply Dev.modOp_has | with_reducible apply ite_has | with_reducible apply foldS_has | with_reducible apply foldl_has | intro _ _ _ | intro _ | dsimp only | split | (fail_if_no_progress with_reducible apply Dev.Has.upd))

theorem Dev.memberDone_has {F : Tab Word} (x0 : Dev) (x1 : Nat) (x2 : Pass) (h0 : x0.Has F) :
    (Dev.memberDone x0 x1 x2).Has F := by
  unfold Dev.memberDone
  repeat' (first | with_reducible assumption | with_reducible apply Dev.modOp_has | with_reducible apply Dev.stageMember_has | with_reducible apply Dev.quiesce_has | with_reducible apply Dev.startRecords_has | with_reducible apply ite_has | with_reducible apply foldS_has | with_reducible apply foldl_has | intro _ _ _ | intro _ | dsimp only | split | (fail_if_no_progress with_reducible apply Dev.Has.upd))

theorem opPassEnd_has {F : Tab Word} (x0 : Nat) (x1 : Dev) (h1 : x1.Has F) :
    (opPassEnd x0 x1).Has F := by
  unfold opPassEnd
  repeat' (first | with_reducible assumption | with_reducible apply Dev.passFail_has | with_reducible apply Dev.leaveLane_has | with_reducible apply Dev.retryHit_has | with_reducible apply Dev.modPan_has | with_reducible apply Dev.memberDone_has | with_reducible apply ite_has | with_reducible apply foldS_has | with_reducible apply foldl_has | intro _ _ _ | intro _ | dsimp only | split | (fail_if_no_progress with_reducible apply Dev.Has.upd))

theorem Dev.putHostBytes_has {F : Tab Word} (x0 : Dev) (x1 : Nat) (x2 : List Byte) (h0 : x0.Has F) :
    (Dev.putHostBytes x0 x1 x2).Has F := by
  unfold Dev.putHostBytes
  repeat' (first | with_reducible assumption | with_reducible apply Dev.modOp_has | with_reducible apply ite_has | with_reducible apply foldS_has | with_reducible apply foldl_has | intro _ _ _ | intro _ | dsimp only | split | (fail_if_no_progress with_reducible apply Dev.Has.upd))

theorem Dev.askBody_has {F : Tab Word} (x0 : Dev) (x1 : Nat) (h0 : x0.Has F) :
    (Dev.askBody x0 x1).Has F := by
  unfold Dev.askBody
  repeat' (first | with_reducible assumption | with_reducible apply Dev.askBytes_has | with_reducible apply Dev.putHostBytes_has | with_reducible apply Dev.failOp_has | with_reducible apply ite_has | with_reducible apply foldS_has | with_reducible apply foldl_has | intro _ _ _ | intro _ | dsimp only | split | (fail_if_no_progress with_reducible apply Dev.Has.upd))

theorem Dev.endEvict_has {F : Tab Word} (x0 : Dev) (x1 : Nat) (x2 : Op) (h0 : x0.Has F) :
    (Dev.endEvict x0 x1 x2).Has F := by
  unfold Dev.endEvict
  repeat' (first | with_reducible assumption | with_reducible apply Dev.complete_has | with_reducible apply Dev.setOp_has | with_reducible apply ite_has | with_reducible apply foldS_has | with_reducible apply foldl_has | intro _ _ _ | intro _ | dsimp only | split | (fail_if_no_progress with_reducible apply Dev.Has.upd))

theorem Dev.recordPlace_has {F : Tab Word} (x0 : Dev) (x1 : Op) (h0 : x0.Has F) :
    (Dev.recordPlace x0 x1).Has F := by
  unfold Dev.recordPlace
  repeat' (first | with_reducible assumption | with_reducible apply ite_has | with_reducible apply foldS_has | with_reducible apply foldl_has | intro _ _ _ | intro _ | dsimp only | split | (fail_if_no_progress with_reducible apply Dev.Has.upd))

theorem Dev.emptyPan_has {F : Tab Word} (x0 : Dev) (x1 : Cause) (x2 : PortSt) (x3 : Nat) (h0 : x0.Has F) :
    (Dev.emptyPan x0 x1 x2 x3).Has F := by
  unfold Dev.emptyPan
  repeat' (first | with_reducible assumption | with_reducible apply Dev.modPan_has | with_reducible apply Dev.switchPlane_has | with_reducible apply Dev.setQreq_has | with_reducible apply Dev.panSources_has | with_reducible apply Dev.setUnit_has | with_reducible apply ite_has | with_reducible apply foldS_has | with_reducible apply foldl_has | intro _ _ _ | intro _ | dsimp only | split | (fail_if_no_progress with_reducible apply Dev.Has.upd))

theorem Dev.opCommit_has {F : Tab Word} (x0 : Dev) (x1 : Nat) (x2 : Op) (h0 : x0.Has F) :
    (Dev.opCommit x0 x1 x2).Has F := by
  unfold Dev.opCommit
  repeat' (first | with_reducible assumption | with_reducible apply Dev.atCommit_has | with_reducible apply Dev.modOp_has | with_reducible apply Dev.recomputeHomes_has | with_reducible apply Dev.recordPlace_has | with_reducible apply Dev.setRes_has | with_reducible apply Dev.dropRes_has | with_reducible apply Dev.unbindPorts_has | with_reducible apply Dev.emptyPan_has | with_reducible apply Dev.movePins_has | with_reducible apply Dev.refreshPins_has | with_reducible apply ite_has | with_reducible apply foldS_has | with_reducible apply foldl_has | intro _ _ _ | intro _ | dsimp only | split | (fail_if_no_progress with_reducible apply Dev.Has.upd))

theorem Dev.opSwitch_has {F : Tab Word} (x0 : Dev) (x1 : Nat) (x2 : Op) (h0 : x0.Has F) :
    (Dev.opSwitch x0 x1 x2).Has F := by
  unfold Dev.opSwitch
  repeat' (first | with_reducible assumption | with_reducible apply Dev.switchPlane_has | with_reducible apply Dev.modPan_has | with_reducible apply Dev.setUnit_has | with_reducible apply Dev.setQreq_has | with_reducible apply Dev.bindTags_has | with_reducible apply Dev.unbindTags_has | with_reducible apply Dev.bindPorts_has | with_reducible apply Dev.unbindPorts_has | with_reducible apply Dev.modOp_has | with_reducible apply Dev.refreshPins_has | with_reducible apply Dev.sendInval_has | with_reducible apply ite_has | with_reducible apply foldS_has | with_reducible apply foldl_has | intro _ _ _ | intro _ | dsimp only | split | (fail_if_no_progress with_reducible apply Dev.Has.upd))

theorem Dev.opRelease_has {F : Tab Word} (x0 : Dev) (x1 : Nat) (x2 : Op) (h0 : x0.Has F) :
    (Dev.opRelease x0 x1 x2).Has F := by
  unfold Dev.opRelease
  repeat' (first | with_reducible assumption | with_reducible apply Dev.modPan_has | with_reducible apply Dev.sourcesOf_has | with_reducible apply Dev.refreshPins_has | with_reducible apply Dev.setOp_has | with_reducible apply Dev.flushChannel_has | with_reducible apply Dev.complete_has | with_reducible apply ite_has | with_reducible apply foldS_has | with_reducible apply foldl_has | intro _ _ _ | intro _ | dsimp only | split | (fail_if_no_progress with_reducible apply Dev.Has.upd))

theorem Dev.opCapture_has {F : Tab Word} (x0 : Dev) (x1 : Nat) (x2 : Op) (h0 : x0.Has F) :
    (Dev.opCapture x0 x1 x2).Has F := by
  unfold Dev.opCapture
  repeat' (first | with_reducible assumption | with_reducible apply Dev.modOp_has | with_reducible apply Dev.carryPasses_has | with_reducible apply ite_has | with_reducible apply foldS_has | with_reducible apply foldl_has | intro _ _ _ | intro _ | dsimp only | split | (fail_if_no_progress with_reducible apply Dev.Has.upd))

theorem Dev.startPre_has {F : Tab Word} (x0 : Dev) (x1 : Word) (x2 : Nat) (h0 : x0.Has F) :
    ∀ z, Dev.startPre x0 x1 x2 = some z → z.Has F := by
  unfold Dev.startPre
  intro z hz
  split at hz
  · cases hz
  · split at hz
    · cases hz
    · dsimp only at hz
      split at hz
      · cases hz
      · cases hz
        exact Dev.addPasses_has _ _ _ (foldS_has _ _ _ (fun d y h => Dev.abortPst_has _ _ (Dev.Has.upd h)) h0)

theorem Dev.tryPre_has {F : Tab Word} (x0 : Dev) (x1 : List (Word × Nat)) (h0 : x0.Has F) :
    (Dev.tryPre x0 x1).Has F := by
  induction x1 generalizing x0 with
  | nil =>
    unfold Dev.tryPre
    split
    · exact h0
    · next m rd _ =>
      dsimp only
      rcases hz : Dev.startPre { x0 with rake := { x0.rake with pendPred := none } } m rd with _ | z
      · exact Dev.Has.upd h0
      · exact Dev.startPre_has _ _ _ (Dev.Has.upd h0) z hz
  | cons a l ih =>
    obtain ⟨m, rd⟩ := a
    unfold Dev.tryPre
    dsimp only
    split
    · next z hz => exact Dev.startPre_has _ _ _ (Dev.Has.upd h0) z hz
    · exact ih _ (Dev.Has.upd h0)

theorem Dev.dropCandidates_has {F : Tab Word} (x0 : Dev) (h0 : x0.Has F) :
    (Dev.dropCandidates x0).Has F := by
  unfold Dev.dropCandidates
  repeat' (first | with_reducible assumption | with_reducible apply ite_has | with_reducible apply foldS_has | with_reducible apply foldl_has | intro _ _ _ | intro _ | dsimp only | split | (fail_if_no_progress with_reducible apply Dev.Has.upd))

theorem opPrestageStart_has {F : Tab Word} (x0 : Dev) (h0 : x0.Has F) :
    (opPrestageStart x0).Has F := by
  unfold opPrestageStart
  repeat' (first | with_reducible assumption | with_reducible apply Dev.dropCandidates_has | with_reducible apply Dev.tryPre_has | with_reducible apply opPassStart_has | with_reducible apply ite_has | with_reducible apply foldS_has | with_reducible apply foldl_has | intro _ _ _ | intro _ | dsimp only | split | (fail_if_no_progress with_reducible apply Dev.Has.upd))

theorem opTokenRefill_has {F : Tab Word} (x0 : Dev) (h0 : x0.Has F) :
    (opTokenRefill x0).Has F := by
  unfold opTokenRefill
  repeat' (first | with_reducible assumption | with_reducible apply Dev.setTokens_has | with_reducible apply ite_has | with_reducible apply foldS_has | with_reducible apply foldl_has | intro _ _ _ | intro _ | dsimp only | split | (fail_if_no_progress with_reducible apply Dev.Has.upd))

theorem Dev.writeWearSize_has {F : Tab Word} (x0 : Dev) (x1 : Word) (h0 : x0.Has F) :
    (Dev.writeWearSize x0 x1).Has F := by
  unfold Dev.writeWearSize
  repeat' (first | with_reducible assumption | with_reducible apply Dev.setTokens_has | with_reducible apply ite_has | with_reducible apply foldS_has | with_reducible apply foldl_has | intro _ _ _ | intro _ | dsimp only | split | (fail_if_no_progress with_reducible apply Dev.Has.upd))

theorem opWearSizeWrite_has {F : Tab Word} (x0 : Path) (x1 : Word) (x2 : Dev) (h2 : x2.Has F) :
    (opWearSizeWrite x0 x1 x2).Has F := by
  unfold opWearSizeWrite
  repeat' (first | with_reducible assumption | with_reducible apply Dev.filtered_has | with_reducible apply Dev.writeWearSize_has | with_reducible apply ite_has | with_reducible apply foldS_has | with_reducible apply foldl_has | intro _ _ _ | intro _ | dsimp only | split | (fail_if_no_progress with_reducible apply Dev.Has.upd))

end Sys2Proof.Machine
end

