-- ==== Sys2Proof/Laws/KeepsPlace.lean ====
section
/-! SUPPORT. Every operation of Machine/Place.lean keeps what Laws/Keeps.lean states. -/

set_option linter.unusedTactic false
set_option linter.unreachableTactic false
set_option linter.unusedVariables false

namespace Sys2Proof.Machine

theorem Dev.noteDecision_has {F : Tab Word} (x0 : Dev) (x1 : Nat) (x2 : Op) (x3 : Nat) (x4 : Bool) (x5 : Bool) (x6 : Int) (x7 : Nat) (h0 : x0.Has F) :
    (Dev.noteDecision x0 x1 x2 x3 x4 x5 x6 x7).Has F := by
  unfold Dev.noteDecision
  repeat' (first | with_reducible assumption | with_reducible apply ite_has | with_reducible apply foldS_has | with_reducible apply foldl_has | intro _ _ _ | intro _ | dsimp only | split | (fail_if_no_progress with_reducible apply Dev.Has.upd))

theorem Dev.launch_has {F : Tab Word} (x0 : Dev) (x1 : Nat) (x2 : Op) (x3 : Nat) (x4 : Bool) (x5 : Bool) (x6 : Int) (x7 : Nat) (h0 : x0.Has F) :
    (Dev.launch x0 x1 x2 x3 x4 x5 x6 x7).Has F := by
  unfold Dev.launch
  repeat' (first | with_reducible assumption | with_reducible apply Dev.noteDecision_has | with_reducible apply Dev.setOp_has | with_reducible apply Dev.logForce_has | with_reducible apply Dev.abortPst_has | with_reducible apply Dev.retryHit_has | with_reducible apply Dev.askBody_has | with_reducible apply Dev.freshStaging_has | with_reducible apply ite_has | with_reducible apply foldS_has | with_reducible apply foldl_has | intro _ _ _ | intro _ | dsimp only | split | (fail_if_no_progress with_reducible apply Dev.Has.upd))

theorem Dev.placeDecide_has {F : Tab Word} (x0 : Dev) (x1 : Nat) (x2 : Op) (h0 : x0.Has F) :
    (Dev.placeDecide x0 x1 x2).Has F := by
  unfold Dev.placeDecide
  repeat' (first | with_reducible assumption | with_reducible apply Dev.failOp_has | with_reducible apply Dev.launch_has | with_reducible apply ite_has | with_reducible apply foldS_has | with_reducible apply foldl_has | intro _ _ _ | intro _ | dsimp only | split | (fail_if_no_progress with_reducible apply Dev.Has.upd))

theorem Dev.placeHeaderChecks_has {F : Tab Word} (x0 : Dev) (x1 : Nat) (x2 : Op) (x3 : Option ImgHdr) (h0 : x0.Has F) :
    (Dev.placeHeaderChecks x0 x1 x2 x3).Has F := by
  unfold Dev.placeHeaderChecks
  repeat' (first | with_reducible assumption | with_reducible apply Dev.failOp_has | with_reducible apply Dev.placeDecide_has | with_reducible apply ite_has | with_reducible apply foldS_has | with_reducible apply foldl_has | intro _ _ _ | intro _ | dsimp only | split | (fail_if_no_progress with_reducible apply Dev.Has.upd))

theorem Dev.placeResDone_has {F : Tab Word} (x0 : Dev) (x1 : Nat) (h0 : x0.Has F) :
    (Dev.placeResDone x0 x1).Has F := by
  unfold Dev.placeResDone
  repeat' (first | with_reducible assumption | with_reducible apply Dev.placeHeaderChecks_has | with_reducible apply Dev.setOp_has | with_reducible apply ite_has | with_reducible apply foldS_has | with_reducible apply foldl_has | intro _ _ _ | intro _ | dsimp only | split | (fail_if_no_progress with_reducible apply Dev.Has.upd))

theorem Dev.placeResBytes_has {F : Tab Word} (x0 : Dev) (x1 : Nat) (x2 : List Byte) (h0 : x0.Has F) :
    (Dev.placeResBytes x0 x1 x2).Has F := by
  unfold Dev.placeResBytes
  repeat' (first | with_reducible assumption | with_reducible apply Dev.modOp_has | with_reducible apply Dev.placeResDone_has | with_reducible apply Dev.askBytes_has | with_reducible apply Dev.failOp_has | with_reducible apply ite_has | with_reducible apply foldS_has | with_reducible apply foldl_has | intro _ _ _ | intro _ | dsimp only | split | (fail_if_no_progress with_reducible apply Dev.Has.upd))

theorem Dev.placeHeader_has {F : Tab Word} (x0 : Dev) (x1 : Nat) (h0 : x0.Has F) :
    (Dev.placeHeader x0 x1).Has F := by
  unfold Dev.placeHeader
  repeat' (first | with_reducible assumption | with_reducible apply Dev.modOp_has | with_reducible apply Dev.placeResDone_has | with_reducible apply Dev.askBytes_has | with_reducible apply Dev.placeResBytes_has | with_reducible apply Dev.failOp_has | with_reducible apply ite_has | with_reducible apply foldS_has | with_reducible apply foldl_has | intro _ _ _ | intro _ | dsimp only | split | (fail_if_no_progress with_reducible apply Dev.Has.upd))

theorem Dev.imageArrived_has {F : Tab Word} (x0 : Dev) (x1 : Nat) (x2 : List Byte) (h0 : x0.Has F) :
    (Dev.imageArrived x0 x1 x2).Has F := by
  unfold Dev.imageArrived
  repeat' (first | with_reducible assumption | with_reducible apply Dev.putHostBytes_has | with_reducible apply Dev.askBytes_has | with_reducible apply Dev.failOp_has | with_reducible apply Dev.placeHeader_has | with_reducible apply Dev.placeResBytes_has | with_reducible apply Dev.askBody_has | with_reducible apply ite_has | with_reducible apply foldS_has | with_reducible apply foldl_has | intro _ _ _ | intro _ | dsimp only | split | (fail_if_no_progress with_reducible apply Dev.Has.upd))

theorem Dev.imageFailed_has {F : Tab Word} (x0 : Dev) (x1 : Nat) (h0 : x0.Has F) :
    (Dev.imageFailed x0 x1).Has F := by
  unfold Dev.imageFailed
  repeat' (first | with_reducible assumption | with_reducible apply Dev.failOp_has | with_reducible apply Dev.passFail_has | with_reducible apply ite_has | with_reducible apply foldS_has | with_reducible apply foldl_has | intro _ _ _ | intro _ | dsimp only | split | (fail_if_no_progress with_reducible apply Dev.Has.upd))

theorem Dev.placeStart_has {F : Tab Word} (x0 : Dev) (x1 : Nat) (x2 : Issuer) (x3 : Desc) (h0 : x0.Has F) :
    (Dev.placeStart x0 x1 x2 x3).Has F := by
  unfold Dev.placeStart
  repeat' (first | with_reducible assumption | with_reducible apply Dev.complete_has | with_reducible apply Dev.setOp_has | with_reducible apply Dev.askBytes_has | with_reducible apply Dev.placeHeader_has | with_reducible apply Dev.putHostBytes_has | with_reducible apply Dev.failOp_has | with_reducible apply Dev.placeHeaderChecks_has | with_reducible apply ite_has | with_reducible apply foldS_has | with_reducible apply foldl_has | intro _ _ _ | intro _ | dsimp only | split | (fail_if_no_progress with_reducible apply Dev.Has.upd))

theorem Dev.evictStart_has {F : Tab Word} (x0 : Dev) (x1 : Nat) (x2 : Issuer) (x3 : Desc) (h0 : x0.Has F) :
    (Dev.evictStart x0 x1 x2 x3).Has F := by
  unfold Dev.evictStart
  repeat' (first | with_reducible assumption | with_reducible apply Dev.complete_has | with_reducible apply Dev.quiesce_has | with_reducible apply Dev.setOp_has | with_reducible apply ite_has | with_reducible apply foldS_has | with_reducible apply foldl_has | intro _ _ _ | intro _ | dsimp only | split | (fail_if_no_progress with_reducible apply Dev.Has.upd))

theorem Dev.migrateStart_has {F : Tab Word} (x0 : Dev) (x1 : Nat) (x2 : Issuer) (x3 : Desc) (h0 : x0.Has F) :
    (Dev.migrateStart x0 x1 x2 x3).Has F := by
  unfold Dev.migrateStart
  extract_lets rd carry
  refine ite_has (Dev.complete_has _ _ _ _ _ h0) ?_
  split
  · exact Dev.complete_has _ _ _ _ _ h0
  · extract_lets
    iterate 6 refine ite_has (Dev.complete_has _ _ _ _ _ h0) ?_
    clear_value *
    repeat' (first | with_reducible apply Dev.complete_has | with_reducible apply Dev.launch_has | exact h0 | with_reducible apply ite_has | split)

theorem Dev.discardModule_has {F : Tab Word} (x0 : Dev) (x1 : Word) (h0 : x0.Has F) :
    (Dev.discardModule x0 x1).Has F := by
  unfold Dev.discardModule
  repeat' (first | with_reducible assumption | with_reducible apply Dev.retryHit_has | with_reducible apply Dev.discardPre_has | with_reducible apply ite_has | with_reducible apply foldS_has | with_reducible apply foldl_has | intro _ _ _ | intro _ | dsimp only | split | (fail_if_no_progress with_reducible apply Dev.Has.upd))

theorem Dev.hintStart_has {F : Tab Word} (x0 : Dev) (x1 : Nat) (x2 : Issuer) (x3 : Desc) (h0 : x0.Has F) :
    (Dev.hintStart x0 x1 x2 x3).Has F := by
  unfold Dev.hintStart
  repeat' (first | with_reducible assumption | with_reducible apply Dev.discardModule_has | with_reducible apply Dev.complete_has | with_reducible apply ite_has | with_reducible apply foldS_has | with_reducible apply foldl_has | intro _ _ _ | intro _ | dsimp only | split | (fail_if_no_progress with_reducible apply Dev.Has.upd))

theorem Dev.bindStart_has {F : Tab Word} (x0 : Dev) (x1 : Nat) (x2 : Issuer) (x3 : Desc) (h0 : x0.Has F) :
    (Dev.bindStart x0 x1 x2 x3).Has F := by
  unfold Dev.bindStart
  repeat' (first | with_reducible assumption | with_reducible apply Dev.complete_has | with_reducible apply Dev.unbindTags_has | with_reducible apply Dev.bindTags_has | with_reducible apply Dev.sendInval_has | with_reducible apply Dev.setKind_has | with_reducible apply ite_has | with_reducible apply foldS_has | with_reducible apply foldl_has | intro _ _ _ | intro _ | dsimp only | split | (fail_if_no_progress with_reducible apply Dev.Has.upd))

theorem Dev.rakeRun_has {F : Tab Word} (x0 : Dev) (x1 : Nat) (x2 : Issuer) (x3 : Desc) (h0 : x0.Has F) :
    (Dev.rakeRun x0 x1 x2 x3).Has F := by
  unfold Dev.rakeRun
  repeat' (first | with_reducible assumption | with_reducible apply Dev.complete_has | with_reducible apply Dev.placeStart_has | with_reducible apply Dev.evictStart_has | with_reducible apply Dev.migrateStart_has | with_reducible apply Dev.hintStart_has | with_reducible apply Dev.bindStart_has | with_reducible apply Dev.poolCreate_has | with_reducible apply Dev.poolFree_has | with_reducible apply ite_has | with_reducible apply foldS_has | with_reducible apply foldl_has | intro _ _ _ | intro _ | dsimp only | split | (fail_if_no_progress with_reducible apply Dev.Has.upd))

theorem Dev.resumeRake_has {F : Tab Word} (x0 : Dev) (h0 : x0.Has F) :
    (Dev.resumeRake x0).Has F := by
  unfold Dev.resumeRake
  repeat' (first | with_reducible assumption | with_reducible apply Dev.rakeRun_has | with_reducible apply ite_has | with_reducible apply foldS_has | with_reducible apply foldl_has | intro _ _ _ | intro _ | dsimp only | split | (fail_if_no_progress with_reducible apply Dev.Has.upd))

theorem Dev.beginMapped_has {F : Tab Word} (x0 : Dev) (x1 : Issuer) (x2 : Desc) (x3 : Nat) (x4 : Bool) (x5 : Bool) (x6 : List (Nat × Nat)) (h0 : x0.Has F) :
    (Dev.beginMapped x0 x1 x2 x3 x4 x5 x6).Has F := by
  unfold Dev.beginMapped
  repeat' (first | with_reducible assumption | with_reducible apply Dev.begin_has | with_reducible apply Dev.rakeRun_has | with_reducible apply Dev.setKind_has | with_reducible apply ite_has | with_reducible apply foldS_has | with_reducible apply foldl_has | intro _ _ _ | intro _ | dsimp only | split | (fail_if_no_progress with_reducible apply Dev.Has.upd))

theorem opPlace_has {F : Tab Word} (x0 : Issuer) (x1 : Desc) (x2 : Dev) (h2 : x2.Has F) :
    (opPlace x0 x1 x2).Has F := by
  unfold opPlace
  repeat' (first | with_reducible assumption | with_reducible apply Dev.beginMapped_has | with_reducible apply ite_has | with_reducible apply foldS_has | with_reducible apply foldl_has | intro _ _ _ | intro _ | dsimp only | split | (fail_if_no_progress with_reducible apply Dev.Has.upd))

theorem opEvict_has {F : Tab Word} (x0 : Issuer) (x1 : Desc) (x2 : Dev) (h2 : x2.Has F) :
    (opEvict x0 x1 x2).Has F := by
  unfold opEvict
  repeat' (first | with_reducible assumption | with_reducible apply Dev.beginMapped_has | with_reducible apply ite_has | with_reducible apply foldS_has | with_reducible apply foldl_has | intro _ _ _ | intro _ | dsimp only | split | (fail_if_no_progress with_reducible apply Dev.Has.upd))

theorem opMigrate_has {F : Tab Word} (x0 : Issuer) (x1 : Desc) (x2 : Dev) (h2 : x2.Has F) :
    (opMigrate x0 x1 x2).Has F := by
  unfold opMigrate
  repeat' (first | with_reducible assumption | with_reducible apply Dev.beginMapped_has | with_reducible apply ite_has | with_reducible apply foldS_has | with_reducible apply foldl_has | intro _ _ _ | intro _ | dsimp only | split | (fail_if_no_progress with_reducible apply Dev.Has.upd))

theorem opHint_has {F : Tab Word} (x0 : Issuer) (x1 : Desc) (x2 : Dev) (h2 : x2.Has F) :
    (opHint x0 x1 x2).Has F := by
  unfold opHint
  repeat' (first | with_reducible assumption | with_reducible apply Dev.beginMapped_has | with_reducible apply ite_has | with_reducible apply foldS_has | with_reducible apply foldl_has | intro _ _ _ | intro _ | dsimp only | split | (fail_if_no_progress with_reducible apply Dev.Has.upd))

theorem opBind_has {F : Tab Word} (x0 : Issuer) (x1 : Desc) (x2 : Dev) (h2 : x2.Has F) :
    (opBind x0 x1 x2).Has F := by
  unfold opBind
  repeat' (first | with_reducible assumption | with_reducible apply Dev.beginMapped_has | with_reducible apply ite_has | with_reducible apply foldS_has | with_reducible apply foldl_has | intro _ _ _ | intro _ | dsimp only | split | (fail_if_no_progress with_reducible apply Dev.Has.upd))

theorem opPortDrained_has {F : Tab Word} (x0 : Nat) (x1 : Dev) (h1 : x1.Has F) :
    (opPortDrained x0 x1).Has F := by
  unfold opPortDrained
  repeat' (first | with_reducible assumption | with_reducible apply Dev.modOp_has | with_reducible apply ite_has | with_reducible apply foldS_has | with_reducible apply foldl_has | intro _ _ _ | intro _ | dsimp only | split | (fail_if_no_progress with_reducible apply Dev.Has.upd))

theorem opCaptureDone_has {F : Tab Word} (x0 : Nat) (x1 : Dev) (h1 : x1.Has F) :
    (opCaptureDone x0 x1).Has F := by
  unfold opCaptureDone
  repeat' (first | with_reducible assumption | with_reducible apply Dev.opCapture_has | with_reducible apply ite_has | with_reducible apply foldS_has | with_reducible apply foldl_has | intro _ _ _ | intro _ | dsimp only | split | (fail_if_no_progress with_reducible apply Dev.Has.upd))

theorem opRecordWordWritten_has {F : Tab Word} (x0 : Nat) (x1 : Dev) (h1 : x1.Has F) :
    (opRecordWordWritten x0 x1).Has F := by
  unfold opRecordWordWritten
  repeat' (first | with_reducible assumption | with_reducible apply Dev.countRecord_has | with_reducible apply Dev.putRecWord_has | with_reducible apply Dev.modOp_has | with_reducible apply Dev.endEvict_has | with_reducible apply ite_has | with_reducible apply foldS_has | with_reducible apply foldl_has | intro _ _ _ | intro _ | dsimp only | split | (fail_if_no_progress with_reducible apply Dev.Has.upd))

theorem opCommitPoint_has {F : Tab Word} (x0 : Nat) (x1 : Dev) (h1 : x1.Has F) :
    (opCommitPoint x0 x1).Has F := by
  unfold opCommitPoint
  repeat' (first | with_reducible assumption | with_reducible apply Dev.opCommit_has | with_reducible apply ite_has | with_reducible apply foldS_has | with_reducible apply foldl_has | intro _ _ _ | intro _ | dsimp only | split | (fail_if_no_progress with_reducible apply Dev.Has.upd))

theorem opPlaneSwitch_has {F : Tab Word} (x0 : Nat) (x1 : Dev) (h1 : x1.Has F) :
    (opPlaneSwitch x0 x1).Has F := by
  unfold opPlaneSwitch
  repeat' (first | with_reducible assumption | with_reducible apply Dev.opSwitch_has | with_reducible apply ite_has | with_reducible apply foldS_has | with_reducible apply foldl_has | intro _ _ _ | intro _ | dsimp only | split | (fail_if_no_progress with_reducible apply Dev.Has.upd))

theorem opBorderRelease_has {F : Tab Word} (x0 : Nat) (x1 : Dev) (h1 : x1.Has F) :
    (opBorderRelease x0 x1).Has F := by
  unfold opBorderRelease
  repeat' (first | with_reducible assumption | with_reducible apply Dev.opRelease_has | with_reducible apply ite_has | with_reducible apply foldS_has | with_reducible apply foldl_has | intro _ _ _ | intro _ | dsimp only | split | (fail_if_no_progress with_reducible apply Dev.Has.upd))

theorem opInvalAck_has {F : Tab Word} (x0 : Dev) (h0 : x0.Has F) :
    (opInvalAck x0).Has F := by
  unfold opInvalAck
  repeat' (first | with_reducible assumption | with_reducible apply Dev.takeFree_has | with_reducible apply snd_has ‹_ = (_, _)› (Dev.takeFree_has ..) | with_reducible apply Dev.modOp_has | with_reducible apply Dev.complete_has | with_reducible apply Dev.modBank_has | with_reducible apply ite_has | with_reducible apply foldS_has | with_reducible apply foldl_has | intro _ _ _ | intro _ | dsimp only | split | (fail_if_no_progress with_reducible apply Dev.Has.upd))

theorem Dev.rebuildAt_has {F : Tab Word} (x0 : Dev) (x1 : Nat) (h0 : x0.Has F) :
    (Dev.rebuildAt x0 x1).Has F := by
  unfold Dev.rebuildAt
  repeat' (first | with_reducible assumption | with_reducible apply Dev.bindPorts_has | with_reducible apply Dev.setRes_has | with_reducible apply Dev.bindTags_has | with_reducible apply ite_has | with_reducible apply foldS_has | with_reducible apply foldl_has | intro _ _ _ | intro _ | dsimp only | split | (fail_if_no_progress with_reducible apply Dev.Has.upd))

theorem Dev.rebuildTags_has {F : Tab Word} (x0 : Dev) (h0 : x0.Has F) :
    (Dev.rebuildTags x0).Has F := by
  unfold Dev.rebuildTags
  repeat' (first | with_reducible assumption | with_reducible apply Dev.rebuildAt_has | with_reducible apply Dev.resumeRake_has | with_reducible apply ite_has | with_reducible apply foldS_has | with_reducible apply foldl_has | intro _ _ _ | intro _ | dsimp only | split | (fail_if_no_progress with_reducible apply Dev.Has.upd))

theorem opRakeParityFault_has {F : Tab Word} (x0 : Dev) (h0 : x0.Has F) :
    (opRakeParityFault x0).Has F := by
  unfold opRakeParityFault
  repeat' (first | with_reducible assumption | with_reducible apply Dev.fault_has | with_reducible apply Dev.failOp_has | with_reducible apply Dev.resumeRake_has | with_reducible apply ite_has | with_reducible apply foldS_has | with_reducible apply foldl_has | intro _ _ _ | intro _ | dsimp only | split | (fail_if_no_progress with_reducible apply Dev.Has.upd))

theorem Dev.recoverRake_has {F : Tab Word} (x0 : Dev) (h0 : x0.Has F) :
    (Dev.recoverRake x0).Has F := by
  unfold Dev.recoverRake
  repeat' (first | with_reducible assumption | with_reducible apply Dev.discardPre_has | with_reducible apply ite_has | with_reducible apply foldS_has | with_reducible apply foldl_has | intro _ _ _ | intro _ | dsimp only | split | (fail_if_no_progress with_reducible apply Dev.Has.upd))

theorem Dev.stopPasses_has {F : Tab Word} (x0 : Dev) (h0 : x0.Has F) :
    (Dev.stopPasses x0).Has F := by
  unfold Dev.stopPasses
  repeat' (first | with_reducible assumption | with_reducible apply opRecordWordWritten_has | with_reducible apply Dev.discardPre_has | with_reducible apply Dev.refund_has | with_reducible apply Dev.quitLane_has | with_reducible apply ite_has | with_reducible apply foldS_has | with_reducible apply foldl_has | intro _ _ _ | intro _ | dsimp only | split | (fail_if_no_progress with_reducible apply Dev.Has.upd))

theorem Dev.abandonPre_has {F : Tab Word} (x0 : Dev) (h0 : x0.Has F) :
    (Dev.abandonPre x0).Has F := by
  unfold Dev.abandonPre
  repeat' (first | with_reducible assumption | with_reducible apply Dev.retryHit_has | with_reducible apply Dev.discardPre_has | with_reducible apply ite_has | with_reducible apply foldS_has | with_reducible apply foldl_has | intro _ _ _ | intro _ | dsimp only | split | (fail_if_no_progress with_reducible apply Dev.Has.upd))

theorem opLaneParityFault_has {F : Tab Word} (x0 : Nat) (x1 : Dev) (h1 : x1.Has F) :
    (opLaneParityFault x0 x1).Has F := by
  unfold opLaneParityFault
  repeat' (first | with_reducible assumption | with_reducible apply Dev.takeFree_has | with_reducible apply snd_has ‹_ = (_, _)› (Dev.takeFree_has ..) | with_reducible apply Dev.fault_has | with_reducible apply Dev.passFail_has | with_reducible apply ite_has | with_reducible apply foldS_has | with_reducible apply foldl_has | intro _ _ _ | intro _ | dsimp only | split | (fail_if_no_progress with_reducible apply Dev.Has.upd))

theorem Dev.writeRake_has {F : Tab Word} (x0 : Dev) (x1 : Nat) (x2 : Word) (h0 : x0.Has F) :
    (Dev.writeRake x0 x1 x2).Has F := by
  unfold Dev.writeRake
  repeat' (first | with_reducible assumption | with_reducible apply Dev.dropCandidates_has | with_reducible apply ite_has | with_reducible apply foldS_has | with_reducible apply foldl_has | intro _ _ _ | intro _ | dsimp only | split | (fail_if_no_progress with_reducible apply Dev.Has.upd))

end Sys2Proof.Machine
end

