-- ==== Sys2Proof/Laws/KeepsStartUp.lean ====
section
/-! SUPPORT. Every operation of Machine/StartUp.lean keeps what Laws/Keeps.lean states. -/

set_option linter.unusedTactic false
set_option linter.unreachableTactic false
set_option linter.unusedVariables false

namespace Sys2Proof.Machine

theorem Dev.consume_has {F : Tab Word} (x0 : Dev) (x1 : Nat) (x2 : Nat) (h0 : x0.Has F) :
    (Dev.consume x0 x1 x2).Has F := by
  unfold Dev.consume
  repeat' (first | with_reducible assumption | with_reducible apply ite_has | with_reducible apply foldS_has | with_reducible apply foldl_has | intro _ _ _ | intro _ | dsimp only | split | (fail_if_no_progress with_reducible apply Dev.Has.upd))

theorem Dev.savePan_has {F : Tab Word} (x0 : Dev) (x1 : Nat) (x2 : Nat) (h0 : x0.Has F) :
    (Dev.savePan x0 x1 x2).Has F := by
  unfold Dev.savePan
  repeat' (first | with_reducible assumption | with_reducible apply ite_has | with_reducible apply foldS_has | with_reducible apply foldl_has | intro _ _ _ | intro _ | dsimp only | split | (fail_if_no_progress with_reducible apply Dev.Has.upd))

theorem Dev.saveAll_has {F : Tab Word} (x0 : Dev) (h0 : x0.Has F) :
    (Dev.saveAll x0).1.Has F := by
  unfold Dev.saveAll
  repeat' (first | with_reducible assumption | with_reducible apply Dev.savePan_has | with_reducible apply ite_fst_has | with_reducible apply foldS_fst_has | with_reducible apply ite_has | with_reducible apply foldS_has | with_reducible apply foldl_has | intro _ _ _ | intro _ | dsimp only | split | (fail_if_no_progress with_reducible apply Dev.Has.upd))

theorem Dev.restorePan_has {F : Tab Word} (x0 : Dev) (x1 : Nat) (h0 : x0.Has F) :
    (Dev.restorePan x0 x1).Has F := by
  unfold Dev.restorePan
  repeat' (first | with_reducible assumption | with_reducible apply Dev.consume_has | with_reducible apply Dev.modPan_has | with_reducible apply ite_has | with_reducible apply foldS_has | with_reducible apply foldl_has | intro _ _ _ | intro _ | dsimp only | split | (fail_if_no_progress with_reducible apply Dev.Has.upd))

theorem Dev.writeStart_has {F : Tab Word} (x0 : Dev) (h0 : x0.Has F) :
    (Dev.writeStart x0).Has F := by
  unfold Dev.writeStart
  repeat' (first | with_reducible assumption | with_reducible apply ite_has | with_reducible apply foldS_has | with_reducible apply foldl_has | intro _ _ _ | intro _ | dsimp only | split | (fail_if_no_progress with_reducible apply Dev.Has.upd))

theorem Dev.cleared_has {F : Tab Word} (x0 : Dev) (h0 : x0.Has F) :
    (Dev.cleared x0).Has F := by
  exact ⟨h0.bits, h0.fuseForm, rfl, fun u => (by decide : ((0 : BitVec 16) ≠ 0xFFFF))⟩

theorem Dev.clearedWarm_has {F : Tab Word} (x0 : Dev) (h0 : x0.Has F) :
    (Dev.clearedWarm x0).Has F := by
  unfold Dev.clearedWarm
  repeat' (first | with_reducible assumption | with_reducible apply Dev.cleared_has | with_reducible apply ite_has | with_reducible apply foldS_has | with_reducible apply foldl_has | intro _ _ _ | intro _ | dsimp only | split | (fail_if_no_progress with_reducible apply Dev.Has.upd))

theorem Dev.senseFuses_has {F : Tab Word} (x0 : Dev) (h0 : x0.Has F) :
    (Dev.senseFuses x0).Has F := by
  unfold Dev.senseFuses
  repeat' (first | with_reducible assumption | with_reducible apply Dev.loadPartitions_has | with_reducible apply ite_has | with_reducible apply foldS_has | with_reducible apply foldl_has | intro _ _ _ | intro _ | dsimp only | split | (fail_if_no_progress with_reducible apply Dev.Has.upd))

theorem Dev.loadHard_has {F : Tab Word} (x0 : Dev) (h0 : x0.Has F) :
    (Dev.loadHard x0).Has F := by
  unfold Dev.loadHard
  repeat' (first | with_reducible assumption | with_reducible apply ite_has | with_reducible apply foldS_has | with_reducible apply foldl_has | intro _ _ _ | intro _ | dsimp only | split | (fail_if_no_progress with_reducible apply Dev.Has.upd))

theorem Dev.verifyStart_has {F : Tab Word} (x0 : Dev) (h0 : x0.Has F) :
    (Dev.verifyStart x0).Has F := by
  unfold Dev.verifyStart
  repeat' (first | with_reducible assumption | with_reducible apply Dev.reinforce_has | with_reducible apply Dev.verifyPan_has | with_reducible apply Dev.modPan_has | with_reducible apply ite_has | with_reducible apply foldS_has | with_reducible apply foldl_has | intro _ _ _ | intro _ | dsimp only | split | (fail_if_no_progress with_reducible apply Dev.Has.upd))

theorem Dev.loadPans_has {F : Tab Word} (x0 : Dev) (h0 : x0.Has F) :
    (Dev.loadPans x0).Has F := by
  unfold Dev.loadPans
  repeat' (first | with_reducible assumption | with_reducible apply Dev.restorePan_has | with_reducible apply Dev.countPersist_has | with_reducible apply Dev.loadRam_has | with_reducible apply Dev.sourcesOf_has | with_reducible apply Dev.writeStart_has | with_reducible apply ite_has | with_reducible apply foldS_has | with_reducible apply foldl_has | intro _ _ _ | intro _ | dsimp only | split | (fail_if_no_progress with_reducible apply Dev.Has.upd))

theorem Dev.finishStart_has {F : Tab Word} (x0 : Dev) (h0 : x0.Has F) :
    (Dev.finishStart x0).Has F := by
  unfold Dev.finishStart
  repeat' (first | with_reducible assumption | with_reducible apply Dev.verifyStart_has | with_reducible apply Dev.loadPans_has | with_reducible apply ite_has | with_reducible apply foldS_has | with_reducible apply foldl_has | intro _ _ _ | intro _ | dsimp only | split | (fail_if_no_progress with_reducible apply Dev.Has.upd))

theorem Dev.startUp_has {F : Tab Word} (x0 : Dev) (x1 : StartCause) (x2 : Straps) (x3 : StartCells) (h0 : x0.Has F) :
    (Dev.startUp x0 x1 x2 x3).Has F := by
  unfold Dev.startUp
  repeat' (first | with_reducible assumption | with_reducible apply Dev.selectAll_has | with_reducible apply Dev.senseFuses_has | with_reducible apply Dev.refreshPins_has | with_reducible apply Dev.loadHard_has | with_reducible apply Dev.loadPins_has | with_reducible apply Dev.finishStart_has | with_reducible apply ite_has | with_reducible apply foldS_has | with_reducible apply foldl_has | intro _ _ _ | intro _ | dsimp only | split | (fail_if_no_progress with_reducible apply Dev.Has.upd))

theorem Dev.coldStart_has {F : Tab Word} (x0 : Dev) (x1 : Straps) (x2 : StartCells) (h0 : x0.Has F) :
    (Dev.coldStart x0 x1 x2).Has F := by
  unfold Dev.coldStart
  repeat' (first | with_reducible assumption | with_reducible apply Dev.cleared_has | with_reducible apply Dev.startUp_has | with_reducible apply ite_has | with_reducible apply foldS_has | with_reducible apply foldl_has | intro _ _ _ | intro _ | dsimp only | split | (fail_if_no_progress with_reducible apply Dev.Has.upd))

theorem opPowerOnResetRelease_has {F : Tab Word} (x0 : Straps) (x1 : StartCells) (x2 : Dev) (h2 : x2.Has F) :
    (opPowerOnResetRelease x0 x1 x2).Has F := by
  unfold opPowerOnResetRelease
  repeat' (first | with_reducible assumption | with_reducible apply Dev.coldStart_has | with_reducible apply ite_has | with_reducible apply foldS_has | with_reducible apply foldl_has | intro _ _ _ | intro _ | dsimp only | split | (fail_if_no_progress with_reducible apply Dev.Has.upd))

theorem Dev.loseSave_has {F : Tab Word} (x0 : Dev) (x1 : Nat) (h0 : x0.Has F) :
    (Dev.loseSave x0 x1).Has F := by
  unfold Dev.loseSave
  repeat' (first | with_reducible assumption | with_reducible apply Dev.modNv_has | with_reducible apply ite_has | with_reducible apply foldS_has | with_reducible apply foldl_has | intro _ _ _ | intro _ | dsimp only | split | (fail_if_no_progress with_reducible apply Dev.Has.upd))

theorem Dev.finishWords_has {F : Tab Word} (x0 : Dev) (h0 : x0.Has F) :
    (Dev.finishWords x0).Has F := by
  unfold Dev.finishWords
  repeat' (first | with_reducible assumption | with_reducible apply Dev.putRecWord_has | with_reducible apply Dev.countRecord_has | with_reducible apply ite_has | with_reducible apply foldS_has | with_reducible apply foldl_has | intro _ _ _ | intro _ | dsimp only | split | (fail_if_no_progress with_reducible apply Dev.Has.upd))

theorem opBrownOut_has {F : Tab Word} (x0 : Bool) (x1 : List Nat) (x2 : Dev) (h2 : x2.Has F) :
    (opBrownOut x0 x1 x2).Has F := by
  unfold opBrownOut
  repeat' (first | with_reducible assumption | with_reducible apply Dev.loseSave_has | with_reducible apply Dev.cleared_has | with_reducible apply Dev.finishWords_has | with_reducible apply ite_has | with_reducible apply foldS_has | with_reducible apply foldl_has | intro _ _ _ | intro _ | dsimp only | split | (fail_if_no_progress with_reducible apply Dev.Has.upd))

theorem opProgN_has {F : Tab Word} (x0 : Straps) (x1 : StartCells) (x2 : Dev) (h2 : x2.Has F) :
    (opProgN x0 x1 x2).Has F := by
  unfold opProgN
  repeat' (first | with_reducible assumption | with_reducible apply Dev.startUp_has | with_reducible apply Dev.clearedWarm_has | with_reducible apply Dev.finishWords_has | with_reducible apply ite_has | with_reducible apply foldS_has | with_reducible apply foldl_has | intro _ _ _ | intro _ | dsimp only | split | (fail_if_no_progress with_reducible apply Dev.Has.upd))

theorem Dev.initUnit_has {F : Tab Word} (x0 : Dev) (x1 : Nat) (h0 : x0.Has F) :
    (Dev.initUnit x0 x1).Has F := by
  unfold Dev.initUnit
  repeat' (first | with_reducible assumption | with_reducible apply Dev.fault_has | with_reducible apply Dev.setUnit_has | with_reducible apply Dev.modPan_has | with_reducible apply Dev.modFport_has | with_reducible apply ite_has | with_reducible apply foldS_has | with_reducible apply foldl_has | intro _ _ _ | intro _ | dsimp only | split | (fail_if_no_progress with_reducible apply Dev.Has.upd))

theorem Dev.pfwSave_has {F : Tab Word} (x0 : Dev) (h0 : x0.Has F) :
    (Dev.pfwSave x0).Has F := by
  unfold Dev.pfwSave
  repeat' (first | with_reducible assumption | with_reducible apply Dev.stopPasses_has | with_reducible apply Dev.saveAll_has | with_reducible apply fst_has ‹_ = (_, _)› (Dev.saveAll_has ..) | with_reducible apply Dev.modNv_has | with_reducible apply Dev.sourcesOf_has | with_reducible apply ite_has | with_reducible apply foldS_has | with_reducible apply foldl_has | intro _ _ _ | intro _ | dsimp only | split | (fail_if_no_progress with_reducible apply Dev.Has.upd))

theorem opDoneRelease_has {F : Tab Word} (x0 : DoneHow) (x1 : Dev) (h1 : x1.Has F) :
    (opDoneRelease x0 x1).Has F := by
  unfold opDoneRelease
  repeat' (first | with_reducible assumption | with_reducible apply Dev.pfwSave_has | with_reducible apply ite_has | with_reducible apply foldS_has | with_reducible apply foldl_has | intro _ _ _ | intro _ | dsimp only | split | (fail_if_no_progress with_reducible apply Dev.Has.upd))

theorem opIoEnable_has {F : Tab Word} (x0 : Bool) (x1 : Dev) (h1 : x1.Has F) :
    (opIoEnable x0 x1).Has F := by
  unfold opIoEnable
  repeat' (first | with_reducible assumption | with_reducible apply Dev.initUnit_has | with_reducible apply Dev.sourcesOf_has | with_reducible apply ite_has | with_reducible apply foldS_has | with_reducible apply foldl_has | intro _ _ _ | intro _ | dsimp only | split | (fail_if_no_progress with_reducible apply Dev.Has.upd))

theorem opPinBankEnable_has {F : Tab Word} (x0 : Nat) (x1 : Bool) (x2 : Nat) (x3 : Dev) (h3 : x3.Has F) :
    (opPinBankEnable x0 x1 x2 x3).Has F := by
  unfold opPinBankEnable
  repeat' (first | with_reducible assumption | with_reducible apply Dev.refreshPins_has | with_reducible apply ite_has | with_reducible apply foldS_has | with_reducible apply foldl_has | intro _ _ _ | intro _ | dsimp only | split | (fail_if_no_progress with_reducible apply Dev.Has.upd))

theorem Dev.countErase_has {F : Tab Word} (x0 : Dev) (x1 : Nat) (h0 : x0.Has F) :
    (Dev.countErase x0 x1).Has F := by
  unfold Dev.countErase
  repeat' (first | with_reducible assumption | with_reducible apply ite_has | with_reducible apply foldS_has | with_reducible apply foldl_has | intro _ _ _ | intro _ | dsimp only | split | (fail_if_no_progress with_reducible apply Dev.Has.upd))

theorem opSaveUnitErase_has {F : Tab Word} (x0 : Nat) (x1 : Dev) (h1 : x1.Has F) :
    (opSaveUnitErase x0 x1).Has F := by
  unfold opSaveUnitErase
  repeat' (first | with_reducible assumption | with_reducible apply Dev.countErase_has | with_reducible apply ite_has | with_reducible apply foldS_has | with_reducible apply foldl_has | intro _ _ _ | intro _ | dsimp only | split | (fail_if_no_progress with_reducible apply Dev.Has.upd))

theorem opStartCountUnitErase_has {F : Tab Word} (x0 : Nat) (x1 : Dev) (h1 : x1.Has F) :
    (opStartCountUnitErase x0 x1).Has F := by
  unfold opStartCountUnitErase
  repeat' (first | with_reducible assumption | with_reducible apply Dev.countErase_has | with_reducible apply ite_has | with_reducible apply foldS_has | with_reducible apply foldl_has | intro _ _ _ | intro _ | dsimp only | split | (fail_if_no_progress with_reducible apply Dev.Has.upd))

end Sys2Proof.Machine
end

