-- ==== Sys2Proof/Laws/KeepsCfgPort.lean ====
section
/-! SUPPORT. Every operation of Machine/CfgPort.lean keeps what Laws/Keeps.lean states. -/

set_option linter.unusedTactic false
set_option linter.unreachableTactic false
set_option linter.unusedVariables false

namespace Sys2Proof.Machine

/-- Either outcome keeps it. -/
def sumHas (F : Tab Word) {α β : Type} : Dev × α ⊕ Dev × β → Prop
  | .inl p => p.1.Has F
  | .inr p => p.1.Has F

theorem mk_inl {F : Tab Word} {α β : Type} {p : Dev × α} (h : p.1.Has F) : sumHas (β := β) F (.inl p) := h

theorem mk_inr {F : Tab Word} {α β : Type} {p : Dev × β} (h : p.1.Has F) : sumHas (α := α) F (.inr p) := h

theorem inl_has {F : Tab Word} {α β : Type} {o : Dev × α ⊕ Dev × β} {d : Dev} {a : α} (h : o = .inl (d, a)) (ho : sumHas F o) :
    d.Has F := by
  subst h; exact ho

theorem inr_has {F : Tab Word} {α β : Type} {o : Dev × α ⊕ Dev × β} {d : Dev} {a : β} (h : o = .inr (d, a)) (ho : sumHas F o) :
    d.Has F := by
  subst h; exact ho

theorem inr_fst_has {F : Tab Word} {α β : Type} {o : Dev × α ⊕ Dev × β} {p : Dev × β} (h : o = .inr p) (ho : sumHas F o) :
    p.1.Has F := by
  subst h; exact ho

theorem Dev.forward_has {F : Tab Word} (x0 : Dev) (x1 : Nat) (x2 : List Byte) (h0 : x0.Has F) :
    (Dev.forward x0 x1 x2).Has F := by
  unfold Dev.forward
  repeat' (first | with_reducible assumption | with_reducible apply Dev.emit_has | with_reducible apply ite_has | with_reducible apply foldS_has | with_reducible apply foldl_has | intro _ _ _ | intro _ | dsimp only | split | (fail_if_no_progress with_reducible apply Dev.Has.upd))

theorem Dev.loadFail_has {F : Tab Word} (x0 : Dev) (x1 : Nat) (x2 : Nat) (h0 : x0.Has F) :
    (Dev.loadFail x0 x1 x2).Has F := by
  unfold Dev.loadFail
  repeat' (first | with_reducible assumption | with_reducible apply Dev.cfgError_has | with_reducible apply Dev.finishStart_has | with_reducible apply ite_has | with_reducible apply foldS_has | with_reducible apply foldl_has | intro _ _ _ | intro _ | dsimp only | split | (fail_if_no_progress with_reducible apply Dev.Has.upd))

theorem Dev.record_has {F : Tab Word} (x0 : Dev) (x1 : Byte) (x2 : RecHdr) (x3 : List Byte) (x4 : Dev → Load → Dev) (h0 : x0.Has F) (h4 : ∀ (y0 : Dev) (y1 : Load), y0.Has F → (x4 y0 y1).Has F) :
    (Dev.record x0 x1 x2 x3 x4).Has F := by
  unfold Dev.record
  repeat' (first | with_reducible assumption | with_reducible apply Dev.forward_has | with_reducible apply h4 | with_reducible apply ite_has | with_reducible apply foldS_has | with_reducible apply foldl_has | intro _ _ _ | intro _ | dsimp only | split | (fail_if_no_progress with_reducible apply Dev.Has.upd))

theorem Dev.putLoad_has {F : Tab Word} (x0 : Dev) (x1 : Load) (h0 : x0.Has F) :
    (Dev.putLoad x0 x1).Has F := by
  unfold Dev.putLoad
  repeat' (first | with_reducible assumption | with_reducible apply ite_has | with_reducible apply foldS_has | with_reducible apply foldl_has | intro _ _ _ | intro _ | dsimp only | split | (fail_if_no_progress with_reducible apply Dev.Has.upd))

theorem Dev.plainRecord_has {F : Tab Word} (x0 : Dev) (x1 : Byte) (x2 : RecHdr) (x3 : List Byte) (x4 : Load) (x5 : Dev → Load → List Byte → Dev) (h0 : x0.Has F) (h5 : ∀ (y0 : Dev) (y1 : Load) (y2 : List Byte), y0.Has F → (x5 y0 y1 y2).Has F) :
    (Dev.plainRecord x0 x1 x2 x3 x4 x5).Has F := by
  unfold Dev.plainRecord
  repeat' (first | with_reducible assumption | with_reducible apply Dev.loadFail_has | with_reducible apply h5 | with_reducible apply ite_has | with_reducible apply foldS_has | with_reducible apply foldl_has | intro _ _ _ | intro _ | dsimp only | split | (fail_if_no_progress with_reducible apply Dev.Has.upd))

theorem opSyncSequence_has {F : Tab Word} (x0 : Nat) (x1 : Dev) (h1 : x1.Has F) :
    (opSyncSequence x0 x1).Has F := by
  unfold opSyncSequence
  repeat' (first | with_reducible assumption | with_reducible apply Dev.forward_has | with_reducible apply ite_has | with_reducible apply foldS_has | with_reducible apply foldl_has | intro _ _ _ | intro _ | dsimp only | split | (fail_if_no_progress with_reducible apply Dev.Has.upd))

theorem opChainRecord_has {F : Tab Word} (x0 : RecHdr) (x1 : List Byte) (x2 : Dev) (h2 : x2.Has F) :
    (opChainRecord x0 x1 x2).Has F := by
  unfold opChainRecord
  repeat' (first | with_reducible assumption | with_reducible apply Dev.forward_has | with_reducible apply Dev.plainRecord_has | with_reducible apply Dev.putLoad_has | with_reducible apply ite_has | with_reducible apply foldS_has | with_reducible apply foldl_has | intro _ _ _ | intro _ | dsimp only | split | (fail_if_no_progress with_reducible apply Dev.Has.upd))

theorem opNopRecord_has {F : Tab Word} (x0 : RecHdr) (x1 : List Byte) (x2 : Dev) (h2 : x2.Has F) :
    (opNopRecord x0 x1 x2).Has F := by
  unfold opNopRecord
  repeat' (first | with_reducible assumption | with_reducible apply Dev.record_has | with_reducible apply Dev.plainRecord_has | with_reducible apply Dev.putLoad_has | with_reducible apply ite_has | with_reducible apply foldS_has | with_reducible apply foldl_has | intro _ _ _ | intro _ | dsimp only | split | (fail_if_no_progress with_reducible apply Dev.Has.upd))

theorem opRegwRecord_has {F : Tab Word} (x0 : RecHdr) (x1 : List Byte) (x2 : Dev) (h2 : x2.Has F) :
    (opRegwRecord x0 x1 x2).Has F := by
  unfold opRegwRecord
  repeat' (first | with_reducible assumption | with_reducible apply Dev.record_has | with_reducible apply Dev.plainRecord_has | with_reducible apply Dev.loadFail_has | with_reducible apply Dev.putLoad_has | with_reducible apply ite_has | with_reducible apply foldS_has | with_reducible apply foldl_has | intro _ _ _ | intro _ | dsimp only | split | (fail_if_no_progress with_reducible apply Dev.Has.upd))

theorem opKeyRecord_has {F : Tab Word} (x0 : RecHdr) (x1 : List Byte) (x2 : Dev) (h2 : x2.Has F) :
    (opKeyRecord x0 x1 x2).Has F := by
  unfold opKeyRecord
  repeat' (first | with_reducible assumption | with_reducible apply Dev.record_has | with_reducible apply Dev.loadFail_has | with_reducible apply Dev.putLoad_has | with_reducible apply ite_has | with_reducible apply foldS_has | with_reducible apply foldl_has | intro _ _ _ | intro _ | dsimp only | split | (fail_if_no_progress with_reducible apply Dev.Has.upd))

theorem opTagRecord_has {F : Tab Word} (x0 : RecHdr) (x1 : List Byte) (x2 : Dev) (h2 : x2.Has F) :
    (opTagRecord x0 x1 x2).Has F := by
  unfold opTagRecord
  repeat' (first | with_reducible assumption | with_reducible apply Dev.record_has | with_reducible apply Dev.loadFail_has | with_reducible apply Dev.putLoad_has | with_reducible apply ite_has | with_reducible apply foldS_has | with_reducible apply foldl_has | intro _ _ _ | intro _ | dsimp only | split | (fail_if_no_progress with_reducible apply Dev.Has.upd))

theorem Dev.openShadow_has {F : Tab Word} (x0 : Dev) (x1 : Nat) (h0 : x0.Has F) :
    (Dev.openShadow x0 x1).Has F := by
  unfold Dev.openShadow
  repeat' (first | with_reducible assumption | with_reducible apply Dev.invalidate_has | with_reducible apply Dev.countStage_has | with_reducible apply ite_has | with_reducible apply foldS_has | with_reducible apply foldl_has | intro _ _ _ | intro _ | dsimp only | split | (fail_if_no_progress with_reducible apply Dev.Has.upd))

theorem opPansetRecord_has {F : Tab Word} (x0 : RecHdr) (x1 : List Byte) (x2 : Dev) (h2 : x2.Has F) :
    (opPansetRecord x0 x1 x2).Has F := by
  unfold opPansetRecord
  repeat' (first | with_reducible assumption | with_reducible apply Dev.record_has | with_reducible apply Dev.plainRecord_has | with_reducible apply Dev.loadFail_has | with_reducible apply Dev.putLoad_has | with_reducible apply Dev.openShadow_has | with_reducible apply ite_has | with_reducible apply foldS_has | with_reducible apply foldl_has | intro _ _ _ | intro _ | dsimp only | split | (fail_if_no_progress with_reducible apply Dev.Has.upd))

theorem Dev.loadWrite_has {F : Tab Word} (x0 : Dev) (x1 : Nat) (x2 : Nat) (x3 : FrameBits) (x4 : WriteCheck) (h0 : x0.Has F) :
    (Dev.loadWrite x0 x1 x2 x3 x4).1.Has F := by
  unfold Dev.loadWrite
  repeat' (first | with_reducible assumption | with_reducible apply Dev.writeFrame_has | with_reducible apply fst_has ‹_ = (_, _)› (Dev.writeFrame_has ..) | with_reducible apply ite_fst_has | with_reducible apply ite_has | with_reducible apply foldS_has | with_reducible apply foldl_has | intro _ _ _ | intro _ | dsimp only | split | (fail_if_no_progress with_reducible apply Dev.Has.upd))

theorem Dev.zeroFrames_has {F : Tab Word} (x0 : Dev) (x1 : Nat) (x2 : Nat) (x3 : Nat) (x4 : List WriteCheck) (h0 : x0.Has F) :
    sumHas F (x0.zeroFrames x1 x2 x3 x4) := by
  induction x3 generalizing x0 x2 x4 with
  | zero => exact h0
  | succ k ih =>
    unfold Dev.zeroFrames
    split
    · exact ih _ _ _ (fst_has ‹_ = _› (Dev.loadWrite_has _ _ _ _ _ h0))
    · exact fst_has ‹_ = _› (Dev.loadWrite_has _ _ _ _ _ h0)

theorem Dev.fillGap_has {F : Tab Word} (x0 : Dev) (x1 : Load) (x2 : Nat) (x3 : List WriteCheck) (h0 : x0.Has F) :
    sumHas F (Dev.fillGap x0 x1 x2 x3) := by
  unfold Dev.fillGap
  repeat' (first | with_reducible assumption | with_reducible apply Dev.zeroFrames_has | with_reducible apply inl_has ‹_ = Sum.inl _› (Dev.zeroFrames_has ..) | with_reducible apply inr_has ‹_ = Sum.inr _› (Dev.zeroFrames_has ..) | with_reducible apply inr_fst_has ‹_ = Sum.inr _› (Dev.zeroFrames_has ..) | with_reducible apply mk_inl | with_reducible apply mk_inr | with_reducible apply ite_has | with_reducible apply foldS_has | with_reducible apply foldl_has | intro _ _ _ | intro _ | dsimp only | split | (fail_if_no_progress with_reducible apply Dev.Has.upd))

theorem Dev.streamFrame_has {F : Tab Word} (x0 : Dev) (x1 : Load) (x2 : Nat) (x3 : Option Nat) (x4 : List Byte) (x5 : List WriteCheck) (h0 : x0.Has F) :
    sumHas F (Dev.streamFrame x0 x1 x2 x3 x4 x5) := by
  unfold Dev.streamFrame
  repeat' (first | with_reducible assumption | with_reducible apply Dev.openShadow_has | with_reducible apply Dev.fillGap_has | with_reducible apply inl_has ‹_ = Sum.inl _› (Dev.fillGap_has ..) | with_reducible apply inr_has ‹_ = Sum.inr _› (Dev.fillGap_has ..) | with_reducible apply inr_fst_has ‹_ = Sum.inr _› (Dev.fillGap_has ..) | with_reducible apply Dev.loadWrite_has | with_reducible apply fst_has ‹_ = (_, _)› (Dev.loadWrite_has ..) | with_reducible apply mk_inl | with_reducible apply mk_inr | with_reducible apply ite_has | with_reducible apply foldS_has | with_reducible apply foldl_has | intro _ _ _ | intro _ | dsimp only | split | (fail_if_no_progress with_reducible apply Dev.Has.upd))

theorem Dev.streamFrames_has {F : Tab Word} (x0 : Dev) (x1 : Nat) (x2 : Option Nat) (x3 : List Byte) (x4 : Nat) (x5 : Nat) (x6 : Load)
    (x7 : List WriteCheck) (h0 : x0.Has F) : sumHas F (x0.streamFrames x1 x2 x3 x4 x5 x6 x7) := by
  induction x4 generalizing x0 x5 x6 x7 with
  | zero => exact h0
  | succ k ih =>
    unfold Dev.streamFrames
    dsimp only
    split
    · exact h0
    · split
      · exact ih _ _ _ _ (inl_has ‹_ = _› (Dev.streamFrame_has _ _ _ _ _ _ h0))
      · exact inr_fst_has ‹_ = _› (Dev.streamFrame_has _ _ _ _ _ _ h0)

theorem opFramesRecord_has {F : Tab Word} (x0 : RecHdr) (x1 : List Byte) (x2 : List WriteCheck) (x3 : Dev) (h3 : x3.Has F) :
    (opFramesRecord x0 x1 x2 x3).Has F := by
  unfold opFramesRecord
  repeat' (first | with_reducible assumption | with_reducible apply Dev.record_has | with_reducible apply Dev.plainRecord_has | with_reducible apply Dev.loadFail_has | with_reducible apply Dev.streamFrames_has | with_reducible apply inl_has ‹_ = Sum.inl _› (Dev.streamFrames_has ..) | with_reducible apply inr_has ‹_ = Sum.inr _› (Dev.streamFrames_has ..) | with_reducible apply inr_fst_has ‹_ = Sum.inr _› (Dev.streamFrames_has ..) | with_reducible apply Dev.putLoad_has | with_reducible apply ite_has | with_reducible apply foldS_has | with_reducible apply foldl_has | intro _ _ _ | intro _ | dsimp only | split | (fail_if_no_progress with_reducible apply Dev.Has.upd))

theorem Dev.zeroUnits_has {F : Tab Word} (x0 : Dev) (x1 : List Nat) (x2 : List WriteCheck) (h0 : x0.Has F) :
    sumHas F (x0.zeroUnits x1 x2) := by
  induction x1 generalizing x0 x2 with
  | nil => exact h0
  | cons u us ih =>
    unfold Dev.zeroUnits
    split
    · exact ih _ _ (inl_has ‹_ = _› (Dev.zeroFrames_has _ _ _ _ _ h0))
    · exact inr_fst_has ‹_ = _› (Dev.zeroFrames_has _ _ _ _ _ h0)

theorem Dev.fillRest_has {F : Tab Word} (x0 : Dev) (x1 : Load) (x2 : List WriteCheck) (h0 : x0.Has F) :
    sumHas F (Dev.fillRest x0 x1 x2) := by
  unfold Dev.fillRest
  repeat' (first | with_reducible assumption | with_reducible apply Dev.zeroFrames_has | with_reducible apply inl_has ‹_ = Sum.inl _› (Dev.zeroFrames_has ..) | with_reducible apply inr_has ‹_ = Sum.inr _› (Dev.zeroFrames_has ..) | with_reducible apply inr_fst_has ‹_ = Sum.inr _› (Dev.zeroFrames_has ..) | with_reducible apply Dev.zeroUnits_has | with_reducible apply inl_has ‹_ = Sum.inl _› (Dev.zeroUnits_has ..) | with_reducible apply inr_has ‹_ = Sum.inr _› (Dev.zeroUnits_has ..) | with_reducible apply inr_fst_has ‹_ = Sum.inr _› (Dev.zeroUnits_has ..) | with_reducible apply mk_inl | with_reducible apply mk_inr | with_reducible apply ite_has | with_reducible apply foldS_has | with_reducible apply foldl_has | intro _ _ _ | intro _ | dsimp only | split | (fail_if_no_progress with_reducible apply Dev.Has.upd))

theorem Dev.commitLoad_has {F : Tab Word} (x0 : Dev) (x1 : Load) (x2 : Word) (h0 : x0.Has F) :
    (Dev.commitLoad x0 x1 x2).Has F := by
  unfold Dev.commitLoad
  repeat' (first | with_reducible assumption | with_reducible apply Dev.invalidate_has | with_reducible apply Dev.putRecWord_has | with_reducible apply Dev.countRecord_has | with_reducible apply Dev.modNv_has | with_reducible apply Dev.loadPins_has | with_reducible apply Dev.loadHard_has | with_reducible apply Dev.selectAll_has | with_reducible apply Dev.atCommit_has | with_reducible apply Dev.finishStart_has | with_reducible apply ite_has | with_reducible apply foldS_has | with_reducible apply foldl_has | intro _ _ _ | intro _ | dsimp only | split | (fail_if_no_progress with_reducible apply Dev.Has.upd))

theorem Dev.endLoad_has {F : Tab Word} (x0 : Dev) (x1 : Load) (x2 : List WriteCheck) (h0 : x0.Has F) :
    (Dev.endLoad x0 x1 x2).Has F := by
  unfold Dev.endLoad
  repeat' (first | with_reducible assumption | with_reducible apply Dev.loadFail_has | with_reducible apply Dev.openShadow_has | with_reducible apply Dev.fillRest_has | with_reducible apply inl_has ‹_ = Sum.inl _› (Dev.fillRest_has ..) | with_reducible apply inr_has ‹_ = Sum.inr _› (Dev.fillRest_has ..) | with_reducible apply inr_fst_has ‹_ = Sum.inr _› (Dev.fillRest_has ..) | with_reducible apply Dev.commitLoad_has | with_reducible apply ite_has | with_reducible apply foldS_has | with_reducible apply foldl_has | intro _ _ _ | intro _ | dsimp only | split | (fail_if_no_progress with_reducible apply Dev.Has.upd))

theorem opEndRecord_has {F : Tab Word} (x0 : RecHdr) (x1 : List Byte) (x2 : List WriteCheck) (x3 : Dev) (h3 : x3.Has F) :
    (opEndRecord x0 x1 x2 x3).Has F := by
  unfold opEndRecord
  repeat' (first | with_reducible assumption | with_reducible apply Dev.record_has | with_reducible apply Dev.loadFail_has | with_reducible apply Dev.endLoad_has | with_reducible apply ite_has | with_reducible apply foldS_has | with_reducible apply foldl_has | intro _ _ _ | intro _ | dsimp only | split | (fail_if_no_progress with_reducible apply Dev.Has.upd))

theorem opUnknownRecord_has {F : Tab Word} (x0 : Byte) (x1 : RecHdr) (x2 : List Byte) (x3 : Dev) (h3 : x3.Has F) :
    (opUnknownRecord x0 x1 x2 x3).Has F := by
  unfold opUnknownRecord
  repeat' (first | with_reducible assumption | with_reducible apply Dev.record_has | with_reducible apply Dev.plainRecord_has | with_reducible apply Dev.putLoad_has | with_reducible apply ite_has | with_reducible apply foldS_has | with_reducible apply foldl_has | intro _ _ _ | intro _ | dsimp only | split | (fail_if_no_progress with_reducible apply Dev.Has.upd))

theorem opForeignRecord_has {F : Tab Word} (x0 : Byte) (x1 : RecHdr) (x2 : List Byte) (x3 : Dev) (h3 : x3.Has F) :
    (opForeignRecord x0 x1 x2 x3).Has F := by
  unfold opForeignRecord
  repeat' (first | with_reducible assumption | with_reducible apply Dev.record_has | with_reducible apply ite_has | with_reducible apply foldS_has | with_reducible apply foldl_has | intro _ _ _ | intro _ | dsimp only | split | (fail_if_no_progress with_reducible apply Dev.Has.upd))

theorem opCfgTimeout_has {F : Tab Word} (x0 : Dev) (h0 : x0.Has F) :
    (opCfgTimeout x0).Has F := by
  unfold opCfgTimeout
  repeat' (first | with_reducible assumption | with_reducible apply Dev.loadFail_has | with_reducible apply ite_has | with_reducible apply foldS_has | with_reducible apply foldl_has | intro _ _ _ | intro _ | dsimp only | split | (fail_if_no_progress with_reducible apply Dev.Has.upd))

theorem opPortControllerParityFault_has {F : Tab Word} (x0 : Dev) (h0 : x0.Has F) :
    (opPortControllerParityFault x0).Has F := by
  unfold opPortControllerParityFault
  repeat' (first | with_reducible assumption | with_reducible apply Dev.fault_has | with_reducible apply Dev.loadFail_has | with_reducible apply ite_has | with_reducible apply foldS_has | with_reducible apply foldl_has | intro _ _ _ | intro _ | dsimp only | split | (fail_if_no_progress with_reducible apply Dev.Has.upd))

end Sys2Proof.Machine
end

