-- ==== Sys2Proof/Laws/KeepsStore.lean ====
section
/-! SUPPORT. Every operation of Machine/Store.lean keeps what Laws/Keeps.lean states. -/

set_option linter.unusedTactic false
set_option linter.unreachableTactic false
set_option linter.unusedVariables false

namespace Sys2Proof.Machine

theorem Dev.modJob_has {F : Tab Word} (x0 : Dev) (x1 : StoreJob → StoreJob) (h0 : x0.Has F) :
    (Dev.modJob x0 x1).Has F := by
  unfold Dev.modJob
  repeat' (first | with_reducible assumption | with_reducible apply ite_has | with_reducible apply foldS_has | with_reducible apply foldl_has | intro _ _ _ | intro _ | dsimp only | split | (fail_if_no_progress with_reducible apply Dev.Has.upd))

/-- The two recursions of the job queue together. -/
theorem Dev.jobs_has {F : Tab Word} (n : Nat) : (∀ (x0 : Dev) (st : Nat) (i : DWord), x0.Has F → (x0.endJobN n st i).Has F) ∧
    (∀ x0 : Dev, x0.Has F → (x0.startJobN n).Has F) := by
  induction n with
  | zero =>
    constructor
    · intro x0 st i h0
      unfold Dev.endJobN
      exact h0
    · intro x0 h0
      unfold Dev.startJobN
      exact h0
  | succ n ih =>
    obtain ⟨ih1, ih2⟩ := ih
    constructor
    · intro x0 st i h0
      unfold Dev.endJobN
      repeat' (first | with_reducible assumption | with_reducible apply ih2 | with_reducible apply Dev.complete_has | dsimp only | split | with_reducible apply Dev.Has.upd)
    · intro x0 h0
      unfold Dev.startJobN
      repeat' (first | with_reducible assumption | with_reducible apply ih1 | with_reducible apply Dev.modJob_has | with_reducible apply Dev.askHost_has | with_reducible apply ite_has | dsimp only | split | with_reducible apply Dev.Has.upd)

theorem Dev.endJobN_has {F : Tab Word} (x0 : Dev) (x1 : Nat) (x2 : Nat) (x3 : DWord) (h0 : x0.Has F) :
    (Dev.endJobN x0 x1 x2 x3).Has F := (Dev.jobs_has x1).1 x0 x2 x3 h0

theorem Dev.startJobN_has {F : Tab Word} (x0 : Dev) (x1 : Nat) (h0 : x0.Has F) :
    (Dev.startJobN x0 x1).Has F := by
  exact (Dev.jobs_has x1).2 x0 h0

theorem Dev.endJob_has {F : Tab Word} (x0 : Dev) (x1 : Nat) (x2 : DWord) (h0 : x0.Has F) :
    (Dev.endJob x0 x1 x2).Has F := by
  unfold Dev.endJob
  repeat' (first | with_reducible assumption | with_reducible apply Dev.endJobN_has | with_reducible apply ite_has | with_reducible apply foldS_has | with_reducible apply foldl_has | intro _ _ _ | intro _ | dsimp only | split | (fail_if_no_progress with_reducible apply Dev.Has.upd))

theorem Dev.storeAlloc_has {F : Tab Word} (x0 : Dev) (x1 : StoreJob) (x2 : ImgHdr) (h0 : x0.Has F) :
    (Dev.storeAlloc x0 x1 x2).Has F := by
  unfold Dev.storeAlloc
  repeat' (first | with_reducible assumption | with_reducible apply Dev.endJob_has | with_reducible apply Dev.modJob_has | with_reducible apply ite_has | with_reducible apply foldS_has | with_reducible apply foldl_has | intro _ _ _ | intro _ | dsimp only | split | (fail_if_no_progress with_reducible apply Dev.Has.upd))

theorem Dev.storeResource_has {F : Tab Word} (x0 : Dev) (x1 : StoreJob) (x2 : List Byte) (h0 : x0.Has F) :
    (Dev.storeResource x0 x1 x2).Has F := by
  unfold Dev.storeResource
  repeat' (first | with_reducible assumption | with_reducible apply Dev.endJob_has | with_reducible apply Dev.storeAlloc_has | with_reducible apply Dev.modJob_has | with_reducible apply ite_has | with_reducible apply foldS_has | with_reducible apply foldl_has | intro _ _ _ | intro _ | dsimp only | split | (fail_if_no_progress with_reducible apply Dev.Has.upd))

theorem Dev.askJob_has {F : Tab Word} (x0 : Dev) (x1 : StoreJob) (x2 : Nat) (x3 : Nat) (x4 : Dev → List Byte → Dev) (h0 : x0.Has F) (h4 : ∀ (y0 : Dev) (y1 : List Byte), y0.Has F → (x4 y0 y1).Has F) :
    (Dev.askJob x0 x1 x2 x3 x4).Has F := by
  unfold Dev.askJob
  repeat' (first | with_reducible assumption | with_reducible apply Dev.askBytes_has | with_reducible apply Dev.endJob_has | with_reducible apply h4 | with_reducible apply ite_has | with_reducible apply foldS_has | with_reducible apply foldl_has | intro _ _ _ | intro _ | dsimp only | split | (fail_if_no_progress with_reducible apply Dev.Has.upd))

theorem Dev.storeHeader_has {F : Tab Word} (x0 : Dev) (x1 : StoreJob) (h0 : x0.Has F) :
    (Dev.storeHeader x0 x1).Has F := by
  unfold Dev.storeHeader
  repeat' (first | with_reducible assumption | with_reducible apply Dev.storeResource_has | with_reducible apply Dev.askJob_has | with_reducible apply Dev.modJob_has | with_reducible apply ite_has | with_reducible apply foldS_has | with_reducible apply foldl_has | intro _ _ _ | intro _ | dsimp only | split | (fail_if_no_progress with_reducible apply Dev.Has.upd))

theorem Dev.storeBody_has {F : Tab Word} (x0 : Dev) (x1 : StoreJob) (h0 : x0.Has F) :
    (Dev.storeBody x0 x1).Has F := by
  unfold Dev.storeBody
  repeat' (first | with_reducible assumption | with_reducible apply Dev.modJob_has | with_reducible apply Dev.askJob_has | with_reducible apply ite_has | with_reducible apply foldS_has | with_reducible apply foldl_has | intro _ _ _ | intro _ | dsimp only | split | (fail_if_no_progress with_reducible apply Dev.Has.upd))

theorem Dev.storeArrived_has {F : Tab Word} (x0 : Dev) (x1 : List Byte) (h0 : x0.Has F) :
    (Dev.storeArrived x0 x1).Has F := by
  unfold Dev.storeArrived
  repeat' (first | with_reducible assumption | with_reducible apply Dev.modJob_has | with_reducible apply Dev.askJob_has | with_reducible apply Dev.storeHeader_has | with_reducible apply Dev.storeResource_has | with_reducible apply Dev.storeBody_has | with_reducible apply ite_has | with_reducible apply foldS_has | with_reducible apply foldl_has | intro _ _ _ | intro _ | dsimp only | split | (fail_if_no_progress with_reducible apply Dev.Has.upd))

theorem Dev.storeReadFailed_has {F : Tab Word} (x0 : Dev) (h0 : x0.Has F) :
    (Dev.storeReadFailed x0).Has F := by
  unfold Dev.storeReadFailed
  repeat' (first | with_reducible assumption | with_reducible apply Dev.endJob_has | with_reducible apply ite_has | with_reducible apply foldS_has | with_reducible apply foldl_has | intro _ _ _ | intro _ | dsimp only | split | (fail_if_no_progress with_reducible apply Dev.Has.upd))

theorem Dev.feedJobs_has {F : Tab Word} (x0 : Dev) (x1 : Nat) (h0 : x0.Has F) : (Dev.feedJobs x0 x1).Has F := by
  induction x1 generalizing x0 with
  | zero => exact h0
  | succ n ih =>
    unfold Dev.feedJobs
    dsimp only
    split
    · split
      · exact ih _ (Dev.storeArrived_has _ _ h0)
      · exact h0
    · exact h0

theorem Dev.startJobs_has {F : Tab Word} (x0 : Dev) (h0 : x0.Has F) :
    (Dev.startJobs x0).Has F := by
  unfold Dev.startJobs
  repeat' (first | with_reducible assumption | with_reducible apply Dev.feedJobs_has | with_reducible apply Dev.startJobN_has | with_reducible apply ite_has | with_reducible apply foldS_has | with_reducible apply foldl_has | intro _ _ _ | intro _ | dsimp only | split | (fail_if_no_progress with_reducible apply Dev.Has.upd))

theorem Dev.storeRead_has {F : Tab Word} (x0 : Dev) (x1 : Nat) (x2 : Option (List Byte)) (h0 : x0.Has F) :
    (Dev.storeRead x0 x1 x2).Has F := by
  unfold Dev.storeRead
  repeat' (first | with_reducible assumption | with_reducible apply Dev.startJobs_has | with_reducible apply Dev.storeArrived_has | with_reducible apply Dev.storeReadFailed_has | with_reducible apply ite_has | with_reducible apply foldS_has | with_reducible apply foldl_has | intro _ _ _ | intro _ | dsimp only | split | (fail_if_no_progress with_reducible apply Dev.Has.upd))

theorem opCatalogueLoaded_has {F : Tab Word} (x0 : Option Nat) (x1 : Dev) (h1 : x1.Has F) :
    (opCatalogueLoaded x0 x1).Has F := by
  unfold opCatalogueLoaded
  repeat' (first | with_reducible assumption | with_reducible apply Dev.wearOut_has | with_reducible apply Dev.startJobs_has | with_reducible apply Dev.rebuildTags_has | with_reducible apply ite_has | with_reducible apply foldS_has | with_reducible apply foldl_has | intro _ _ _ | intro _ | dsimp only | split | (fail_if_no_progress with_reducible apply Dev.Has.upd))

theorem opStoreImage_has {F : Tab Word} (x0 : Issuer) (x1 : Desc) (x2 : Dev) (h2 : x2.Has F) :
    (opStoreImage x0 x1 x2).Has F := by
  unfold opStoreImage
  repeat' (first | with_reducible assumption | with_reducible apply Dev.beginAt_has | with_reducible apply Dev.complete_has | with_reducible apply Dev.startJobs_has | with_reducible apply Dev.setKind_has | with_reducible apply ite_has | with_reducible apply foldS_has | with_reducible apply foldl_has | intro _ _ _ | intro _ | dsimp only | split | (fail_if_no_progress with_reducible apply Dev.Has.upd))

theorem Dev.eraseLib_has {F : Tab Word} (x0 : Dev) (x1 : Nat) (h0 : x0.Has F) :
    (Dev.eraseLib x0 x1).Has F := by
  unfold Dev.eraseLib
  repeat' (first | with_reducible assumption | with_reducible apply ite_has | with_reducible apply foldS_has | with_reducible apply foldl_has | intro _ _ _ | intro _ | dsimp only | split | (fail_if_no_progress with_reducible apply Dev.Has.upd))

theorem Dev.eraseRegion_has {F : Tab Word} (x0 : Dev) (x1 : Nat) (h0 : x0.Has F) :
    (Dev.eraseRegion x0 x1).Has F := by
  unfold Dev.eraseRegion
  repeat' (first | with_reducible assumption | with_reducible apply ite_has | with_reducible apply foldS_has | with_reducible apply foldl_has | intro _ _ _ | intro _ | dsimp only | split | (fail_if_no_progress with_reducible apply Dev.Has.upd))

theorem opStoreEraseDone_has {F : Tab Word} (x0 : Nat) (x1 : Dev) (h1 : x1.Has F) :
    (opStoreEraseDone x0 x1).Has F := by
  unfold opStoreEraseDone
  repeat' (first | with_reducible assumption | with_reducible apply Dev.modJob_has | with_reducible apply Dev.countErase_has | with_reducible apply Dev.eraseLib_has | with_reducible apply Dev.startJobs_has | with_reducible apply Dev.storeBody_has | with_reducible apply Dev.eraseRegion_has | with_reducible apply ite_has | with_reducible apply foldS_has | with_reducible apply foldl_has | intro _ _ _ | intro _ | dsimp only | split | (fail_if_no_progress with_reducible apply Dev.Has.upd))

theorem Dev.programImage_has {F : Tab Word} (x0 : Dev) (x1 : StoreJob) (x2 : Bool) (h0 : x0.Has F) :
    (Dev.programImage x0 x1 x2).Has F := by
  unfold Dev.programImage
  repeat' (first | with_reducible assumption | with_reducible apply Dev.modJob_has | with_reducible apply Dev.startJobs_has | with_reducible apply Dev.endJob_has | with_reducible apply Dev.wearOut_has | with_reducible apply ite_has | with_reducible apply foldS_has | with_reducible apply foldl_has | intro _ _ _ | intro _ | dsimp only | split | (fail_if_no_progress with_reducible apply Dev.Has.upd))

theorem Dev.writeHalf_has {F : Tab Word} (x0 : Dev) (x1 : StoreJob) (h0 : x0.Has F) :
    (Dev.writeHalf x0 x1).Has F := by
  unfold Dev.writeHalf
  repeat' (first | with_reducible assumption | with_reducible apply Dev.discardModule_has | with_reducible apply Dev.modJob_has | with_reducible apply ite_has | with_reducible apply foldS_has | with_reducible apply foldl_has | intro _ _ _ | intro _ | dsimp only | split | (fail_if_no_progress with_reducible apply Dev.Has.upd))

theorem Dev.writeHeader_has {F : Tab Word} (x0 : Dev) (x1 : StoreJob) (h0 : x0.Has F) :
    (Dev.writeHeader x0 x1).Has F := by
  unfold Dev.writeHeader
  repeat' (first | with_reducible assumption | with_reducible apply Dev.modJob_has | with_reducible apply Dev.startJobs_has | with_reducible apply Dev.endJob_has | with_reducible apply ite_has | with_reducible apply foldS_has | with_reducible apply foldl_has | intro _ _ _ | intro _ | dsimp only | split | (fail_if_no_progress with_reducible apply Dev.Has.upd))

theorem Dev.writeMap_has {F : Tab Word} (x0 : Dev) (h0 : x0.Has F) :
    (Dev.writeMap x0).Has F := by
  unfold Dev.writeMap
  repeat' (first | with_reducible assumption | with_reducible apply Dev.startJobs_has | with_reducible apply Dev.mapJob_has | with_reducible apply ite_has | with_reducible apply foldS_has | with_reducible apply foldl_has | intro _ _ _ | intro _ | dsimp only | split | (fail_if_no_progress with_reducible apply Dev.Has.upd))

theorem Dev.vaultAppend_has {F : Tab Word} (x0 : Dev) (x1 : VaultRec) (h0 : x0.Has F) :
    ∀ z, Dev.vaultAppend x0 x1 = some z → z.Has F := by
  unfold Dev.vaultAppend
  intro z hz
  rcases hu : Dev.vaultUnit x0 x1.size with _ | u
  · rw [hu] at hz
    cases hz
  · rw [hu] at hz
    cases hz
    exact Dev.Has.upd h0

theorem Dev.putVault_has {F : Tab Word} (x0 : Dev) (x1 : Nat) (x2 : VaultJob → VaultJob) (h0 : x0.Has F) :
    (Dev.putVault x0 x1 x2).Has F := by
  unfold Dev.putVault
  repeat' (first | with_reducible assumption | with_reducible apply ite_has | with_reducible apply foldS_has | with_reducible apply foldl_has | intro _ _ _ | intro _ | dsimp only | split | (fail_if_no_progress with_reducible apply Dev.Has.upd))

theorem Dev.endVault_has {F : Tab Word} (x0 : Dev) (x1 : Nat) (x2 : Nat) (x3 : DWord) (h0 : x0.Has F) :
    (Dev.endVault x0 x1 x2 x3).Has F := by
  unfold Dev.endVault
  repeat' (first | with_reducible assumption | with_reducible apply Dev.complete_has | with_reducible apply ite_has | with_reducible apply foldS_has | with_reducible apply foldl_has | intro _ _ _ | intro _ | dsimp only | split | (fail_if_no_progress with_reducible apply Dev.Has.upd))

theorem Dev.vaultData_has {F : Tab Word} (x0 : Dev) (x1 : Nat) (x2 : List Byte) (h0 : x0.Has F) :
    (Dev.vaultData x0 x1 x2).Has F := by
  unfold Dev.vaultData
  repeat' (first | with_reducible assumption | with_reducible apply Dev.putVault_has | with_reducible apply Dev.askBytes_has | with_reducible apply Dev.endVault_has | with_reducible apply ite_has | with_reducible apply foldS_has | with_reducible apply foldl_has | intro _ _ _ | intro _ | dsimp only | split | (fail_if_no_progress with_reducible apply Dev.Has.upd))

theorem Dev.runVault_has {F : Tab Word} (x0 : Dev) (x1 : VaultJob) (h0 : x0.Has F) :
    (Dev.runVault x0 x1).Has F := by
  unfold Dev.runVault
  repeat' (first | with_reducible assumption | with_reducible apply Dev.endVault_has | with_reducible apply Dev.putVault_has | with_reducible apply Dev.askBytes_has | with_reducible apply Dev.vaultData_has | with_reducible apply Dev.wearOut_has | with_reducible apply Dev.putHostData_has | with_reducible apply ite_has | with_reducible apply foldS_has | with_reducible apply foldl_has | intro _ _ _ | intro _ | dsimp only | split | (fail_if_no_progress with_reducible apply Dev.Has.upd))

theorem Dev.resumeVault_has {F : Tab Word} (x0 : Dev) (h0 : x0.Has F) :
    (Dev.resumeVault x0).Has F := by
  unfold Dev.resumeVault
  repeat' (first | with_reducible assumption | with_reducible apply Dev.runVault_has | with_reducible apply ite_has | with_reducible apply foldS_has | with_reducible apply foldl_has | intro _ _ _ | intro _ | dsimp only | split | (fail_if_no_progress with_reducible apply Dev.Has.upd))

theorem Dev.vaultArrived_has {F : Tab Word} (x0 : Dev) (x1 : Nat) (x2 : Option (List Byte)) (h0 : x0.Has F) :
    (Dev.vaultArrived x0 x1 x2).Has F := by
  unfold Dev.vaultArrived
  repeat' (first | with_reducible assumption | with_reducible apply Dev.resumeVault_has | with_reducible apply Dev.vaultData_has | with_reducible apply Dev.endVault_has | with_reducible apply ite_has | with_reducible apply foldS_has | with_reducible apply foldl_has | intro _ _ _ | intro _ | dsimp only | split | (fail_if_no_progress with_reducible apply Dev.Has.upd))

theorem Dev.vaultJob_has {F : Tab Word} (x0 : Dev) (x1 : Nat) (x2 : Issuer) (x3 : Desc) (x4 : Bool) (x5 : Bool) (h0 : x0.Has F) :
    (Dev.vaultJob x0 x1 x2 x3 x4 x5).Has F := by
  unfold Dev.vaultJob
  repeat' (first | with_reducible assumption | with_reducible apply Dev.runVault_has | with_reducible apply Dev.setKind_has | with_reducible apply ite_has | with_reducible apply foldS_has | with_reducible apply foldl_has | intro _ _ _ | intro _ | dsimp only | split | (fail_if_no_progress with_reducible apply Dev.Has.upd))

theorem opVaultWrite_has {F : Tab Word} (x0 : Issuer) (x1 : Desc) (x2 : Dev) (h2 : x2.Has F) :
    (opVaultWrite x0 x1 x2).Has F := by
  unfold opVaultWrite
  repeat' (first | with_reducible assumption | with_reducible apply Dev.beginAt_has | with_reducible apply Dev.complete_has | with_reducible apply Dev.vaultJob_has | with_reducible apply ite_has | with_reducible apply foldS_has | with_reducible apply foldl_has | intro _ _ _ | intro _ | dsimp only | split | (fail_if_no_progress with_reducible apply Dev.Has.upd))

theorem opVaultRead_has {F : Tab Word} (x0 : Issuer) (x1 : Desc) (x2 : Bool) (x3 : Dev) (h3 : x3.Has F) :
    (opVaultRead x0 x1 x2 x3).Has F := by
  unfold opVaultRead
  repeat' (first | with_reducible assumption | with_reducible apply Dev.beginAt_has | with_reducible apply Dev.complete_has | with_reducible apply Dev.vaultJob_has | with_reducible apply ite_has | with_reducible apply foldS_has | with_reducible apply foldl_has | intro _ _ _ | intro _ | dsimp only | split | (fail_if_no_progress with_reducible apply Dev.Has.upd))

theorem opVaultIndexBuilt_has {F : Tab Word} (x0 : Dev) (h0 : x0.Has F) :
    (opVaultIndexBuilt x0).Has F := by
  unfold opVaultIndexBuilt
  repeat' (first | with_reducible assumption | with_reducible apply Dev.resumeVault_has | with_reducible apply ite_has | with_reducible apply foldS_has | with_reducible apply foldl_has | intro _ _ _ | intro _ | dsimp only | split | (fail_if_no_progress with_reducible apply Dev.Has.upd))

theorem Dev.programVault_has {F : Tab Word} (x0 : Dev) (h0 : x0.Has F) :
    (Dev.programVault x0).Has F := by
  unfold Dev.programVault
  split
  · exact h0
  · dsimp only
    split
    · exact Dev.resumeVault_has _ (Dev.endVault_has _ _ _ _ h0)
    · split
      · exact h0
      · next d1 hd => exact Dev.resumeVault_has _ (Dev.endVault_has _ _ _ _ (Dev.vaultAppend_has _ _ h0 _ hd))

theorem opStoreProgramDone_has {F : Tab Word} (x0 : Bool) (x1 : Dev) (h1 : x1.Has F) :
    (opStoreProgramDone x0 x1).Has F := by
  unfold opStoreProgramDone
  repeat' (first | with_reducible assumption | with_reducible apply Dev.programImage_has | with_reducible apply Dev.writeHalf_has | with_reducible apply Dev.writeHeader_has | with_reducible apply Dev.programVault_has | with_reducible apply ite_has | with_reducible apply foldS_has | with_reducible apply foldl_has | intro _ _ _ | intro _ | dsimp only | split | (fail_if_no_progress with_reducible apply Dev.Has.upd))

theorem opVaultCompaction_has {F : Tab Word} (x0 : Dev) (h0 : x0.Has F) :
    (opVaultCompaction x0).Has F := by
  unfold opVaultCompaction
  split
  · exact h0
  · next u _ =>
    split
    · exact h0
    · next d1 hd =>
      have key : ∀ (l : List VaultRec) (o : Option Dev), (∀ z, o = some z → z.Has F) →
          ∀ z, l.foldl (fun (o : Option Dev) r => o.bind fun d => d.vaultAppend r) o = some z → z.Has F := by
        intro l
        induction l with
        | nil => exact fun o h => h
        | cons a l ih =>
          intro o h
          refine ih _ ?_
          intro z hz
          rcases o with _ | y
          · cases hz
          · exact Dev.vaultAppend_has _ _ (h y rfl) z hz
      exact Dev.countErase_has _ _ (Dev.Has.upd (key _ _ (fun z hz => by cases hz; exact h0) _ hd))

theorem opStoreParityFault_has {F : Tab Word} (x0 : Dev) (h0 : x0.Has F) :
    (opStoreParityFault x0).Has F := by
  unfold opStoreParityFault
  repeat' (first | with_reducible assumption | with_reducible apply Dev.fault_has | with_reducible apply Dev.endVault_has | with_reducible apply Dev.complete_has | with_reducible apply Dev.resumeRake_has | with_reducible apply ite_has | with_reducible apply foldS_has | with_reducible apply foldl_has | intro _ _ _ | intro _ | dsimp only | split | (fail_if_no_progress with_reducible apply Dev.Has.upd))

theorem Dev.writeCfg_has {F : Tab Word} (x0 : Dev) (x1 : Nat) (x2 : Word) (h0 : x0.Has F) :
    (Dev.writeCfg x0 x1 x2).Has F := by
  unfold Dev.writeCfg
  repeat' (first | with_reducible assumption | with_reducible apply ite_has | with_reducible apply foldS_has | with_reducible apply foldl_has | intro _ _ _ | intro _ | dsimp only | split | (fail_if_no_progress with_reducible apply Dev.Has.upd))

end Sys2Proof.Machine
end

