-- ==== Sys2Proof/Laws/KeepsMover.lean ====
section
/-! SUPPORT. Every operation of Machine/Mover.lean keeps what Laws/Keeps.lean states. -/

set_option linter.unusedTactic false
set_option linter.unreachableTactic false
set_option linter.unusedVariables false

namespace Sys2Proof.Machine

theorem Dev.drainHost_has {F : Tab Word} (x0 : Dev) (x1 : Nat) (x2 : Issuer) (x3 : Xfer) (h0 : x0.Has F) :
    (Dev.drainHost x0 x1 x2 x3).1.Has F := by
  unfold Dev.drainHost
  repeat' (first | with_reducible assumption | with_reducible apply Dev.putHostData_has | with_reducible apply ite_fst_has | with_reducible apply ite_has | with_reducible apply foldS_has | with_reducible apply foldl_has | intro _ _ _ | intro _ | dsimp only | split | (fail_if_no_progress with_reducible apply Dev.Has.upd))

theorem Dev.askSource_has {F : Tab Word} (x0 : Dev) (x1 : Nat) (x2 : Issuer) (x3 : Xfer) (h0 : x0.Has F) :
    (Dev.askSource x0 x1 x2 x3).1.Has F := by
  unfold Dev.askSource
  repeat' (first | with_reducible assumption | with_reducible apply Dev.askHost_has | with_reducible apply ite_fst_has | with_reducible apply ite_has | with_reducible apply foldS_has | with_reducible apply foldl_has | intro _ _ _ | intro _ | dsimp only | split | (fail_if_no_progress with_reducible apply Dev.Has.upd))

theorem Dev.xferGo_has {F : Tab Word} (x0 : Dev) (x1 : Nat) (x2 : Issuer) (x3 : Xfer) (h0 : x0.Has F) :
    (Dev.xferGo x0 x1 x2 x3).Has F := by
  unfold Dev.xferGo
  repeat' (first | with_reducible assumption | with_reducible apply Dev.askSource_has | with_reducible apply fst_has ‹_ = (_, _)› (Dev.askSource_has ..) | with_reducible apply Dev.drainHost_has | with_reducible apply fst_has ‹_ = (_, _)› (Dev.drainHost_has ..) | with_reducible apply Dev.complete_has | with_reducible apply Dev.setKind_has | with_reducible apply ite_has | with_reducible apply foldS_has | with_reducible apply foldl_has | intro _ _ _ | intro _ | dsimp only | split | (fail_if_no_progress with_reducible apply Dev.Has.upd))

theorem Dev.execResponse_has {F : Tab Word} (x0 : Dev) (x1 : Nat) (x2 : SlIn) (x3 : List (Byte × Line)) (h0 : x0.Has F) :
    (Dev.execResponse x0 x1 x2 x3).Has F := by
  unfold Dev.execResponse
  repeat' (first | with_reducible assumption | with_reducible apply Dev.xferGo_has | with_reducible apply Dev.complete_has | with_reducible apply ite_has | with_reducible apply foldS_has | with_reducible apply foldl_has | intro _ _ _ | intro _ | dsimp only | split | (fail_if_no_progress with_reducible apply Dev.Has.upd))

theorem opBusyRetry_has {F : Tab Word} (x0 : Issuer) (x1 : Nat) (x2 : Dev) (h2 : x2.Has F) :
    (opBusyRetry x0 x1 x2).Has F := by
  unfold opBusyRetry
  repeat' (first | with_reducible assumption | with_reducible apply Dev.setKind_has | with_reducible apply ite_has | with_reducible apply foldS_has | with_reducible apply foldl_has | intro _ _ _ | intro _ | dsimp only | split | (fail_if_no_progress with_reducible apply Dev.Has.upd))

theorem opBusyWindowExpiry_has {F : Tab Word} (x0 : Issuer) (x1 : Nat) (x2 : Dev) (h2 : x2.Has F) :
    (opBusyWindowExpiry x0 x1 x2).Has F := by
  unfold opBusyWindowExpiry
  repeat' (first | with_reducible assumption | with_reducible apply Dev.xferGo_has | with_reducible apply ite_has | with_reducible apply foldS_has | with_reducible apply foldl_has | intro _ _ _ | intro _ | dsimp only | split | (fail_if_no_progress with_reducible apply Dev.Has.upd))

theorem opCopy_has {F : Tab Word} (x0 : Issuer) (x1 : Desc) (x2 : Dev) (h2 : x2.Has F) :
    (opCopy x0 x1 x2).Has F := by
  unfold opCopy
  repeat' (first | with_reducible assumption | with_reducible apply Dev.begin_has | with_reducible apply Dev.usePreread_has | with_reducible apply snd_has ‹_ = (_, _)› (Dev.usePreread_has ..) | with_reducible apply Dev.complete_has | with_reducible apply Dev.xferGo_has | with_reducible apply ite_has | with_reducible apply foldS_has | with_reducible apply foldl_has | intro _ _ _ | intro _ | dsimp only | split | (fail_if_no_progress with_reducible apply Dev.Has.upd))

theorem opFill_has {F : Tab Word} (x0 : Issuer) (x1 : Desc) (x2 : Dev) (h2 : x2.Has F) :
    (opFill x0 x1 x2).Has F := by
  unfold opFill
  repeat' (first | with_reducible assumption | with_reducible apply Dev.begin_has | with_reducible apply Dev.complete_has | with_reducible apply Dev.xferGo_has | with_reducible apply ite_has | with_reducible apply foldS_has | with_reducible apply foldl_has | intro _ _ _ | intro _ | dsimp only | split | (fail_if_no_progress with_reducible apply Dev.Has.upd))

theorem opFliptest_has {F : Tab Word} (x0 : Issuer) (x1 : Desc) (x2 : Dev) (h2 : x2.Has F) :
    (opFliptest x0 x1 x2).Has F := by
  unfold opFliptest
  repeat' (first | with_reducible assumption | with_reducible apply Dev.begin_has | with_reducible apply Dev.complete_has | with_reducible apply Dev.setKind_has | with_reducible apply ite_has | with_reducible apply foldS_has | with_reducible apply foldl_has | intro _ _ _ | intro _ | dsimp only | split | (fail_if_no_progress with_reducible apply Dev.Has.upd))

theorem opSnapshot_has {F : Tab Word} (x0 : Issuer) (x1 : Desc) (x2 : Dev) (h2 : x2.Has F) :
    (opSnapshot x0 x1 x2).Has F := by
  unfold opSnapshot
  repeat' (first | with_reducible assumption | with_reducible apply Dev.begin_has | with_reducible apply Dev.complete_has | with_reducible apply Dev.putHostData_has | with_reducible apply ite_has | with_reducible apply foldS_has | with_reducible apply foldl_has | intro _ _ _ | intro _ | dsimp only | split | (fail_if_no_progress with_reducible apply Dev.Has.upd))

theorem opNop_has {F : Tab Word} (x0 : Issuer) (x1 : Desc) (x2 : Dev) (h2 : x2.Has F) :
    (opNop x0 x1 x2).Has F := by
  unfold opNop
  repeat' (first | with_reducible assumption | with_reducible apply Dev.begin_has | with_reducible apply Dev.complete_has | with_reducible apply ite_has | with_reducible apply foldS_has | with_reducible apply foldl_has | intro _ _ _ | intro _ | dsimp only | split | (fail_if_no_progress with_reducible apply Dev.Has.upd))

theorem opFence_has {F : Tab Word} (x0 : Issuer) (x1 : Desc) (x2 : Dev) (h2 : x2.Has F) :
    (opFence x0 x1 x2).Has F := by
  unfold opFence
  repeat' (first | with_reducible assumption | with_reducible apply Dev.begin_has | with_reducible apply Dev.complete_has | with_reducible apply Dev.setKind_has | with_reducible apply ite_has | with_reducible apply foldS_has | with_reducible apply foldl_has | intro _ _ _ | intro _ | dsimp only | split | (fail_if_no_progress with_reducible apply Dev.Has.upd))

theorem opBadOpcode_has {F : Tab Word} (x0 : Issuer) (x1 : Desc) (x2 : Dev) (h2 : x2.Has F) :
    (opBadOpcode x0 x1 x2).Has F := by
  unfold opBadOpcode
  repeat' (first | with_reducible assumption | with_reducible apply Dev.begin_has | with_reducible apply Dev.complete_has | with_reducible apply ite_has | with_reducible apply foldS_has | with_reducible apply foldl_has | intro _ _ _ | intro _ | dsimp only | split | (fail_if_no_progress with_reducible apply Dev.Has.upd))

theorem opArbitrationStarvation_has {F : Tab Word} (x0 : Nat) (x1 : Contender) (x2 : Dev) (h2 : x2.Has F) :
    (opArbitrationStarvation x0 x1 x2).Has F := by
  unfold opArbitrationStarvation
  repeat' (first | with_reducible assumption | with_reducible apply Dev.grantTo_has | with_reducible apply ite_has | with_reducible apply foldS_has | with_reducible apply foldl_has | intro _ _ _ | intro _ | dsimp only | split | (fail_if_no_progress with_reducible apply Dev.Has.upd))

theorem opReqStarvation_has {F : Tab Word} (x0 : Nat) (x1 : Nat) (x2 : Dev) (h2 : x2.Has F) :
    (opReqStarvation x0 x1 x2).Has F := by
  unfold opReqStarvation
  repeat' (first | with_reducible assumption | with_reducible apply opArbitrationStarvation_has | with_reducible apply ite_has | with_reducible apply foldS_has | with_reducible apply foldl_has | intro _ _ _ | intro _ | dsimp only | split | (fail_if_no_progress with_reducible apply Dev.Has.upd))

end Sys2Proof.Machine
end

