-- ==== Sys2Proof/Laws/KeepsHost.lean ====
section
/-! SUPPORT. Every operation of Machine/Host.lean keeps what Laws/Keeps.lean states. -/

set_option linter.unusedTactic false
set_option linter.unreachableTactic false
set_option linter.unusedVariables false

namespace Sys2Proof.Machine

theorem Dev.askCancel_has {F : Tab Word} (x0 : Dev) (x1 : Nat) (x2 : Nat) (h0 : x0.Has F) :
    (Dev.askCancel x0 x1 x2).Has F := by
  unfold Dev.askCancel
  repeat' (first | with_reducible assumption | with_reducible apply Dev.askHost_has | with_reducible apply Dev.modSq_has | with_reducible apply ite_has | with_reducible apply foldS_has | with_reducible apply foldl_has | intro _ _ _ | intro _ | dsimp only | split | (fail_if_no_progress with_reducible apply Dev.Has.upd))

theorem Dev.cancelOut_has {F : Tab Word} (x0 : Dev) (x1 : Nat) (x2 : Nat) (x3 : Nat) (h0 : x0.Has F) :
    (Dev.cancelOut x0 x1 x2 x3).Has F := by
  induction x3 generalizing x0 x1 x2 with
  | zero =>
    unfold Dev.cancelOut
    repeat' (first | with_reducible assumption | with_reducible apply Dev.modSq_has | with_reducible apply Dev.modCq_has | with_reducible apply Dev.writeCpl_has | with_reducible apply ite_has | with_reducible apply foldS_has | with_reducible apply foldl_has | intro _ _ _ | intro _ | dsimp only | split | (fail_if_no_progress with_reducible apply Dev.Has.upd))
  | succ k ih =>
    unfold Dev.cancelOut
    repeat' (first | with_reducible assumption | with_reducible apply ih | with_reducible apply Dev.modSq_has | with_reducible apply Dev.modCq_has | with_reducible apply Dev.writeCpl_has | with_reducible apply ite_has | with_reducible apply foldS_has | with_reducible apply foldl_has | intro _ _ _ | intro _ | dsimp only | split | (fail_if_no_progress with_reducible apply Dev.Has.upd))

theorem Dev.badDoorbell_has {F : Tab Word} (x0 : Dev) (x1 : Nat) (x2 : Nat) (x3 : Word) (h0 : x0.Has F) :
    (Dev.badDoorbell x0 x1 x2 x3).Has F := by
  unfold Dev.badDoorbell
  repeat' (first | with_reducible assumption | with_reducible apply Dev.modHp_has | with_reducible apply Dev.hostErr_has | with_reducible apply ite_has | with_reducible apply foldS_has | with_reducible apply foldl_has | intro _ _ _ | intro _ | dsimp only | split | (fail_if_no_progress with_reducible apply Dev.Has.upd))

theorem Dev.sqBell_has {F : Tab Word} (x0 : Dev) (x1 : Nat) (x2 : Nat) (x3 : Word) (h0 : x0.Has F) :
    (Dev.sqBell x0 x1 x2 x3).Has F := by
  unfold Dev.sqBell
  repeat' (first | with_reducible assumption | with_reducible apply Dev.badDoorbell_has | with_reducible apply Dev.modSq_has | with_reducible apply Dev.askCancel_has | with_reducible apply ite_has | with_reducible apply foldS_has | with_reducible apply foldl_has | intro _ _ _ | intro _ | dsimp only | split | (fail_if_no_progress with_reducible apply Dev.Has.upd))

theorem Dev.cancelGo_has {F : Tab Word} (x0 : Dev) (x1 : Nat) (x2 : Nat) (h0 : x0.Has F) :
    (Dev.cancelGo x0 x1 x2).Has F := by
  unfold Dev.cancelGo
  repeat' (first | with_reducible assumption | with_reducible apply Dev.cancelOut_has | with_reducible apply Dev.askCancel_has | with_reducible apply Dev.sqBell_has | with_reducible apply Dev.modSq_has | with_reducible apply ite_has | with_reducible apply foldS_has | with_reducible apply foldl_has | intro _ _ _ | intro _ | dsimp only | split | (fail_if_no_progress with_reducible apply Dev.Has.upd))

theorem Dev.doorbell_has {F : Tab Word} (x0 : Dev) (x1 : Nat) (x2 : Dev → Dev) (h0 : x0.Has F) (h2 : ∀ (y0 : Dev), y0.Has F → (x2 y0).Has F) :
    (Dev.doorbell x0 x1 x2).Has F := by
  unfold Dev.doorbell
  repeat' (first | with_reducible assumption | with_reducible apply Dev.logAer_has | with_reducible apply h2 | with_reducible apply ite_has | with_reducible apply foldS_has | with_reducible apply foldl_has | intro _ _ _ | intro _ | dsimp only | split | (fail_if_no_progress with_reducible apply Dev.Has.upd))

theorem opSqDoorbell_has {F : Tab Word} (x0 : Nat) (x1 : Nat) (x2 : Word) (x3 : Dev) (h3 : x3.Has F) :
    (opSqDoorbell x0 x1 x2 x3).Has F := by
  unfold opSqDoorbell
  repeat' (first | with_reducible assumption | with_reducible apply Dev.doorbell_has | with_reducible apply Dev.badDoorbell_has | with_reducible apply Dev.sqBell_has | with_reducible apply ite_has | with_reducible apply foldS_has | with_reducible apply foldl_has | intro _ _ _ | intro _ | dsimp only | split | (fail_if_no_progress with_reducible apply Dev.Has.upd))

theorem opCancelDoorbell_has {F : Tab Word} (x0 : Nat) (x1 : Nat) (x2 : Word) (x3 : Dev) (h3 : x3.Has F) :
    (opCancelDoorbell x0 x1 x2 x3).Has F := by
  unfold opCancelDoorbell
  repeat' (first | with_reducible assumption | with_reducible apply Dev.doorbell_has | with_reducible apply Dev.sqBell_has | with_reducible apply ite_has | with_reducible apply foldS_has | with_reducible apply foldl_has | intro _ _ _ | intro _ | dsimp only | split | (fail_if_no_progress with_reducible apply Dev.Has.upd))

theorem opCqDoorbell_has {F : Tab Word} (x0 : Nat) (x1 : Nat) (x2 : Word) (x3 : Dev) (h3 : x3.Has F) :
    (opCqDoorbell x0 x1 x2 x3).Has F := by
  unfold opCqDoorbell
  repeat' (first | with_reducible assumption | with_reducible apply Dev.doorbell_has | with_reducible apply Dev.badDoorbell_has | with_reducible apply Dev.cancelGo_has | with_reducible apply Dev.modCq_has | with_reducible apply ite_has | with_reducible apply foldS_has | with_reducible apply foldl_has | intro _ _ _ | intro _ | dsimp only | split | (fail_if_no_progress with_reducible apply Dev.Has.upd))

theorem opEqDoorbell_has {F : Tab Word} (x0 : Nat) (x1 : Word) (x2 : Dev) (h2 : x2.Has F) :
    (opEqDoorbell x0 x1 x2).Has F := by
  unfold opEqDoorbell
  repeat' (first | with_reducible assumption | with_reducible apply Dev.doorbell_has | with_reducible apply Dev.badDoorbell_has | with_reducible apply Dev.flushLost_has | with_reducible apply Dev.modHp_has | with_reducible apply ite_has | with_reducible apply foldS_has | with_reducible apply foldl_has | intro _ _ _ | intro _ | dsimp only | split | (fail_if_no_progress with_reducible apply Dev.Has.upd))

theorem Dev.cfgIgnored_has {F : Tab Word} (x0 : Dev) (x1 : Nat) (x2 : Nat) (h0 : x0.Has F) :
    (Dev.cfgIgnored x0 x1 x2).Has F := by
  unfold Dev.cfgIgnored
  repeat' (first | with_reducible assumption | with_reducible apply Dev.hostErr_has | with_reducible apply ite_has | with_reducible apply foldS_has | with_reducible apply foldl_has | intro _ _ _ | intro _ | dsimp only | split | (fail_if_no_progress with_reducible apply Dev.Has.upd))

theorem Dev.writeSqCfg_has {F : Tab Word} (x0 : Dev) (x1 : Nat) (x2 : Nat) (x3 : Word) (h0 : x0.Has F) :
    (Dev.writeSqCfg x0 x1 x2 x3).Has F := by
  unfold Dev.writeSqCfg
  repeat' (first | with_reducible assumption | with_reducible apply Dev.modSq_has | with_reducible apply Dev.cfgIgnored_has | with_reducible apply ite_has | with_reducible apply foldS_has | with_reducible apply foldl_has | intro _ _ _ | intro _ | dsimp only | split | (fail_if_no_progress with_reducible apply Dev.Has.upd))

theorem Dev.writeRingCfg_has {F : Tab Word} (x0 : Dev) (x1 : Nat) (x2 : Nat) (x3 : Word) (h0 : x0.Has F) :
    (Dev.writeRingCfg x0 x1 x2 x3).Has F := by
  unfold Dev.writeRingCfg
  repeat' (first | with_reducible assumption | with_reducible apply Dev.cfgIgnored_has | with_reducible apply Dev.writeSqCfg_has | with_reducible apply Dev.modCq_has | with_reducible apply Dev.modHp_has | with_reducible apply ite_has | with_reducible apply foldS_has | with_reducible apply foldl_has | intro _ _ _ | intro _ | dsimp only | split | (fail_if_no_progress with_reducible apply Dev.Has.upd))

theorem opRingEnable_has {F : Tab Word} (x0 : Nat) (x1 : Nat) (x2 : Word) (x3 : Dev) (h3 : x3.Has F) :
    (opRingEnable x0 x1 x2 x3).Has F := by
  unfold opRingEnable
  repeat' (first | with_reducible assumption | with_reducible apply Dev.access_has | with_reducible apply Dev.writeRingCfg_has | with_reducible apply ite_has | with_reducible apply foldS_has | with_reducible apply foldl_has | intro _ _ _ | intro _ | dsimp only | split | (fail_if_no_progress with_reducible apply Dev.Has.upd))

theorem opRingDisable_has {F : Tab Word} (x0 : Nat) (x1 : Nat) (x2 : Word) (x3 : Dev) (h3 : x3.Has F) :
    (opRingDisable x0 x1 x2 x3).Has F := by
  unfold opRingDisable
  repeat' (first | with_reducible assumption | with_reducible apply Dev.access_has | with_reducible apply Dev.writeRingCfg_has | with_reducible apply ite_has | with_reducible apply foldS_has | with_reducible apply foldl_has | intro _ _ _ | intro _ | dsimp only | split | (fail_if_no_progress with_reducible apply Dev.Has.upd))

theorem Dev.writeBase_has {F : Tab Word} (x0 : Dev) (x1 : Nat) (x2 : Nat) (x3 : Bool) (x4 : Word) (h0 : x0.Has F) :
    (Dev.writeBase x0 x1 x2 x3 x4).Has F := by
  unfold Dev.writeBase
  repeat' (first | with_reducible assumption | with_reducible apply Dev.cfgIgnored_has | with_reducible apply Dev.modSq_has | with_reducible apply Dev.modCq_has | with_reducible apply Dev.modHp_has | with_reducible apply ite_has | with_reducible apply foldS_has | with_reducible apply foldl_has | intro _ _ _ | intro _ | dsimp only | split | (fail_if_no_progress with_reducible apply Dev.Has.upd))

theorem Dev.discardAll_has {F : Tab Word} (x0 : Dev) (x1 : Nat) (h0 : x0.Has F) :
    (Dev.discardAll x0 x1).Has F := by
  unfold Dev.discardAll
  repeat' (first | with_reducible assumption | with_reducible apply Dev.modSq_has | with_reducible apply ite_has | with_reducible apply foldS_has | with_reducible apply foldl_has | intro _ _ _ | intro _ | dsimp only | split | (fail_if_no_progress with_reducible apply Dev.Has.upd))

theorem Dev.writeHostCtrl_has {F : Tab Word} (x0 : Dev) (x1 : Nat) (x2 : Word) (h0 : x0.Has F) :
    (Dev.writeHostCtrl x0 x1 x2).Has F := by
  unfold Dev.writeHostCtrl
  repeat' (first | with_reducible assumption | with_reducible apply Dev.modHp_has | with_reducible apply Dev.discardAll_has | with_reducible apply ite_has | with_reducible apply foldS_has | with_reducible apply foldl_has | intro _ _ _ | intro _ | dsimp only | split | (fail_if_no_progress with_reducible apply Dev.Has.upd))

theorem opHostCtrlEnable_has {F : Tab Word} (x0 : Nat) (x1 : Word) (x2 : Dev) (h2 : x2.Has F) :
    (opHostCtrlEnable x0 x1 x2).Has F := by
  unfold opHostCtrlEnable
  repeat' (first | with_reducible assumption | with_reducible apply Dev.access_has | with_reducible apply Dev.writeHostCtrl_has | with_reducible apply ite_has | with_reducible apply foldS_has | with_reducible apply foldl_has | intro _ _ _ | intro _ | dsimp only | split | (fail_if_no_progress with_reducible apply Dev.Has.upd))

theorem opDescriptorFetch_has {F : Tab Word} (x0 : Nat) (x1 : Nat) (x2 : Dev) (h2 : x2.Has F) :
    (opDescriptorFetch x0 x1 x2).Has F := by
  unfold opDescriptorFetch
  repeat' (first | with_reducible assumption | with_reducible apply Dev.askCancel_has | with_reducible apply Dev.askHost_has | with_reducible apply Dev.modSq_has | with_reducible apply ite_has | with_reducible apply foldS_has | with_reducible apply foldl_has | intro _ _ _ | intro _ | dsimp only | split | (fail_if_no_progress with_reducible apply Dev.Has.upd))

theorem opPreread_has {F : Tab Word} (x0 : Nat) (x1 : Nat) (x2 : Dev) (h2 : x2.Has F) :
    (opPreread x0 x1 x2).Has F := by
  unfold opPreread
  repeat' (first | with_reducible assumption | with_reducible apply Dev.askHost_has | with_reducible apply ite_has | with_reducible apply foldS_has | with_reducible apply foldl_has | intro _ _ _ | intro _ | dsimp only | split | (fail_if_no_progress with_reducible apply Dev.Has.upd))

theorem Dev.fetchFailed_has {F : Tab Word} (x0 : Dev) (x1 : Nat) (x2 : Nat) (x3 : Nat) (x4 : DWord) (h0 : x0.Has F) :
    (Dev.fetchFailed x0 x1 x2 x3 x4).Has F := by
  unfold Dev.fetchFailed
  repeat' (first | with_reducible assumption | with_reducible apply Dev.modSq_has | with_reducible apply Dev.eventAt_has | with_reducible apply Dev.hostErrAddr_has | with_reducible apply ite_has | with_reducible apply foldS_has | with_reducible apply foldl_has | intro _ _ _ | intro _ | dsimp only | split | (fail_if_no_progress with_reducible apply Dev.Has.upd))

theorem Dev.neededRead_has {F : Tab Word} (x0 : Dev) (x1 : ReadWhy) (x2 : Option (List Byte)) (h0 : x0.Has F) :
    (Dev.neededRead x0 x1 x2).Has F := by
  unfold Dev.neededRead
  repeat' (first | with_reducible assumption | with_reducible apply Dev.xferGo_has | with_reducible apply Dev.imageArrived_has | with_reducible apply Dev.imageFailed_has | with_reducible apply Dev.storeRead_has | with_reducible apply Dev.vaultArrived_has | with_reducible apply ite_has | with_reducible apply foldS_has | with_reducible apply foldl_has | intro _ _ _ | intro _ | dsimp only | split | (fail_if_no_progress with_reducible apply Dev.Has.upd))

theorem opHostReadCompletion_has {F : Tab Word} (x0 : Nat) (x1 : Nat) (x2 : HostRead) (x3 : Dev) (h3 : x3.Has F) :
    (opHostReadCompletion x0 x1 x2 x3).Has F := by
  unfold opHostReadCompletion
  repeat' (first | with_reducible assumption | with_reducible apply Dev.logAer_has | with_reducible apply Dev.askWaiting_has | with_reducible apply Dev.modHp_has | with_reducible apply Dev.modSq_has | with_reducible apply Dev.fetchFailed_has | with_reducible apply Dev.cancelGo_has | with_reducible apply Dev.hostErrAddr_has | with_reducible apply Dev.neededRead_has | with_reducible apply ite_has | with_reducible apply foldS_has | with_reducible apply foldl_has | intro _ _ _ | intro _ | dsimp only | split | (fail_if_no_progress with_reducible apply Dev.Has.upd))

theorem Dev.loseHost_has {F : Tab Word} (x0 : Dev) (x1 : Nat) (h0 : x0.Has F) :
    (Dev.loseHost x0 x1).Has F := by
  unfold Dev.loseHost
  repeat' (first | with_reducible assumption | with_reducible apply Dev.modSq_has | with_reducible apply Dev.modHp_has | with_reducible apply Dev.neededRead_has | with_reducible apply Dev.modCq_has | with_reducible apply ite_has | with_reducible apply foldS_has | with_reducible apply foldl_has | intro _ _ _ | intro _ | dsimp only | split | (fail_if_no_progress with_reducible apply Dev.Has.upd))

theorem Dev.hostLost_has {F : Tab Word} (x0 : Dev) (x1 : Nat) (x2 : Bool) (h0 : x0.Has F) :
    (Dev.hostLost x0 x1 x2).Has F := by
  unfold Dev.hostLost
  repeat' (first | with_reducible assumption | with_reducible apply Dev.modHp_has | with_reducible apply Dev.loseHost_has | with_reducible apply Dev.setUnit_has | with_reducible apply ite_has | with_reducible apply foldS_has | with_reducible apply foldl_has | intro _ _ _ | intro _ | dsimp only | split | (fail_if_no_progress with_reducible apply Dev.Has.upd))

theorem Dev.sendPending_has {F : Tab Word} (x0 : Dev) (x1 : Nat) (x2 : Nat) (h0 : x0.Has F) :
    (Dev.sendPending x0 x1 x2).Has F := by
  unfold Dev.sendPending
  repeat' (first | with_reducible assumption | with_reducible apply Dev.sendMsix_has | with_reducible apply Dev.modHp_has | with_reducible apply ite_has | with_reducible apply foldS_has | with_reducible apply foldl_has | intro _ _ _ | intro _ | dsimp only | split | (fail_if_no_progress with_reducible apply Dev.Has.upd))

theorem Dev.releasePosted_has {F : Tab Word} (x0 : Dev) (x1 : Nat) (h0 : x0.Has F) :
    (Dev.releasePosted x0 x1).Has F := by
  unfold Dev.releasePosted
  repeat' (first | with_reducible assumption | with_reducible apply Dev.emit_has | with_reducible apply Dev.modHp_has | with_reducible apply Dev.askWaiting_has | with_reducible apply ite_has | with_reducible apply foldS_has | with_reducible apply foldl_has | intro _ _ _ | intro _ | dsimp only | split | (fail_if_no_progress with_reducible apply Dev.Has.upd))

theorem Dev.hostAgain_has {F : Tab Word} (x0 : Dev) (x1 : Nat) (h0 : x0.Has F) :
    (Dev.hostAgain x0 x1).Has F := by
  unfold Dev.hostAgain
  repeat' (first | with_reducible assumption | with_reducible apply Dev.cancelGo_has | with_reducible apply Dev.sendPending_has | with_reducible apply Dev.flushHeld_has | with_reducible apply Dev.releasePosted_has | with_reducible apply ite_has | with_reducible apply foldS_has | with_reducible apply foldl_has | intro _ _ _ | intro _ | dsimp only | split | (fail_if_no_progress with_reducible apply Dev.Has.upd))

theorem Dev.wakeHost_has {F : Tab Word} (x0 : Dev) (x1 : Nat) (h0 : x0.Has F) :
    (Dev.wakeHost x0 x1).Has F := by
  unfold Dev.wakeHost
  repeat' (first | with_reducible assumption | with_reducible apply Dev.modHp_has | with_reducible apply Dev.hostAgain_has | with_reducible apply Dev.loseHost_has | with_reducible apply Dev.setUnit_has | with_reducible apply ite_has | with_reducible apply foldS_has | with_reducible apply foldl_has | intro _ _ _ | intro _ | dsimp only | split | (fail_if_no_progress with_reducible apply Dev.Has.upd))

theorem opHostLinkUp_has {F : Tab Word} (x0 : Nat) (x1 : BitVec 3) (x2 : BitVec 4) (x3 : Bool) (x4 : Byte) (x5 : Dev) (h5 : x5.Has F) :
    (opHostLinkUp x0 x1 x2 x3 x4 x5).Has F := by
  unfold opHostLinkUp
  repeat' (first | with_reducible assumption | with_reducible apply Dev.modHp_has | with_reducible apply Dev.setUnit_has | with_reducible apply ite_has | with_reducible apply foldS_has | with_reducible apply foldl_has | intro _ _ _ | intro _ | dsimp only | split | (fail_if_no_progress with_reducible apply Dev.Has.upd))

theorem opHostLinkDown_has {F : Tab Word} (x0 : Nat) (x1 : Dev) (h1 : x1.Has F) :
    (opHostLinkDown x0 x1).Has F := by
  unfold opHostLinkDown
  repeat' (first | with_reducible assumption | with_reducible apply Dev.hostLost_has | with_reducible apply ite_has | with_reducible apply foldS_has | with_reducible apply foldl_has | intro _ _ _ | intro _ | dsimp only | split | (fail_if_no_progress with_reducible apply Dev.Has.upd))

theorem opPerstN_has {F : Tab Word} (x0 : Nat) (x1 : Bool) (x2 : Dev) (h2 : x2.Has F) :
    (opPerstN x0 x1 x2).Has F := by
  unfold opPerstN
  repeat' (first | with_reducible assumption | with_reducible apply Dev.modHp_has | with_reducible apply Dev.hostLost_has | with_reducible apply ite_has | with_reducible apply foldS_has | with_reducible apply foldl_has | intro _ _ _ | intro _ | dsimp only | split | (fail_if_no_progress with_reducible apply Dev.Has.upd))

theorem opHotReset_has {F : Tab Word} (x0 : Nat) (x1 : Dev) (h1 : x1.Has F) :
    (opHotReset x0 x1).Has F := by
  unfold opHotReset
  repeat' (first | with_reducible assumption | with_reducible apply Dev.hostLost_has | with_reducible apply ite_has | with_reducible apply foldS_has | with_reducible apply foldl_has | intro _ _ _ | intro _ | dsimp only | split | (fail_if_no_progress with_reducible apply Dev.Has.upd))

theorem opFunctionLevelReset_has {F : Tab Word} (x0 : Nat) (x1 : Dev) (h1 : x1.Has F) :
    (opFunctionLevelReset x0 x1).Has F := by
  unfold opFunctionLevelReset
  repeat' (first | with_reducible assumption | with_reducible apply Dev.hostLost_has | with_reducible apply ite_has | with_reducible apply foldS_has | with_reducible apply foldl_has | intro _ _ _ | intro _ | dsimp only | split | (fail_if_no_progress with_reducible apply Dev.Has.upd))

theorem opHostPortParityFault_has {F : Tab Word} (x0 : Nat) (x1 : Dev) (h1 : x1.Has F) :
    (opHostPortParityFault x0 x1).Has F := by
  unfold opHostPortParityFault
  repeat' (first | with_reducible assumption | with_reducible apply Dev.loseHost_has | with_reducible apply Dev.fault_has | with_reducible apply ite_has | with_reducible apply foldS_has | with_reducible apply foldl_has | intro _ _ _ | intro _ | dsimp only | split | (fail_if_no_progress with_reducible apply Dev.Has.upd))

theorem opOrphansCleared_has {F : Tab Word} (x0 : Nat) (x1 : Dev) (h1 : x1.Has F) :
    (opOrphansCleared x0 x1).Has F := by
  unfold opOrphansCleared
  repeat' (first | with_reducible assumption | with_reducible apply Dev.modHp_has | with_reducible apply ite_has | with_reducible apply foldS_has | with_reducible apply foldl_has | intro _ _ _ | intro _ | dsimp only | split | (fail_if_no_progress with_reducible apply Dev.Has.upd))

theorem opMsixHoldoffExpiry_has {F : Tab Word} (x0 : Nat) (x1 : Nat) (x2 : Dev) (h2 : x2.Has F) :
    (opMsixHoldoffExpiry x0 x1 x2).Has F := by
  unfold opMsixHoldoffExpiry
  repeat' (first | with_reducible assumption | with_reducible apply Dev.modCq_has | with_reducible apply Dev.sendMsix_has | with_reducible apply Dev.modHp_has | with_reducible apply ite_has | with_reducible apply foldS_has | with_reducible apply foldl_has | intro _ _ _ | intro _ | dsimp only | split | (fail_if_no_progress with_reducible apply Dev.Has.upd))

theorem Dev.putMsix_has {F : Tab Word} (x0 : Dev) (x1 : Nat) (x2 : Nat) (x3 : MsixEntry → MsixEntry) (h0 : x0.Has F) :
    (Dev.putMsix x0 x1 x2 x3).Has F := by
  unfold Dev.putMsix
  repeat' (first | with_reducible assumption | with_reducible apply Dev.sendPending_has | with_reducible apply Dev.modHp_has | with_reducible apply ite_has | with_reducible apply foldS_has | with_reducible apply foldl_has | intro _ _ _ | intro _ | dsimp only | split | (fail_if_no_progress with_reducible apply Dev.Has.upd))

theorem Dev.modConf_has {F : Tab Word} (x0 : Dev) (x1 : Nat) (x2 : CfgSpace → CfgSpace) (h0 : x0.Has F) :
    (Dev.modConf x0 x1 x2).Has F := by
  unfold Dev.modConf
  repeat' (first | with_reducible assumption | with_reducible apply Dev.modHp_has | with_reducible apply ite_has | with_reducible apply foldS_has | with_reducible apply foldl_has | intro _ _ _ | intro _ | dsimp only | split | (fail_if_no_progress with_reducible apply Dev.Has.upd))

theorem Dev.setMsix_has {F : Tab Word} (x0 : Dev) (x1 : Nat) (x2 : CfgSpace → CfgSpace) (h0 : x0.Has F) :
    (Dev.setMsix x0 x1 x2).Has F := by
  unfold Dev.setMsix
  repeat' (first | with_reducible assumption | with_reducible apply Dev.sendPending_has | with_reducible apply Dev.modConf_has | with_reducible apply ite_has | with_reducible apply foldS_has | with_reducible apply foldl_has | intro _ _ _ | intro _ | dsimp only | split | (fail_if_no_progress with_reducible apply Dev.Has.upd))

theorem opMsixUnmask_has {F : Tab Word} (x0 : Nat) (x1 : Nat) (x2 : Dev) (h2 : x2.Has F) :
    (opMsixUnmask x0 x1 x2).Has F := by
  unfold opMsixUnmask
  repeat' (first | with_reducible assumption | with_reducible apply Dev.putMsix_has | with_reducible apply Dev.setMsix_has | with_reducible apply ite_has | with_reducible apply foldS_has | with_reducible apply foldl_has | intro _ _ _ | intro _ | dsimp only | split | (fail_if_no_progress with_reducible apply Dev.Has.upd))

theorem Dev.writeMsix_has {F : Tab Word} (x0 : Dev) (x1 : Nat) (x2 : Nat) (x3 : Word) (x4 : Option Word) (h0 : x0.Has F) :
    (Dev.writeMsix x0 x1 x2 x3 x4).Has F := by
  unfold Dev.writeMsix
  repeat' (first | with_reducible assumption | with_reducible apply Dev.putMsix_has | with_reducible apply ite_has | with_reducible apply foldS_has | with_reducible apply foldl_has | intro _ _ _ | intro _ | dsimp only | split | (fail_if_no_progress with_reducible apply Dev.Has.upd))

theorem Dev.writePowerControl_has {F : Tab Word} (x0 : Dev) (x1 : Nat) (x2 : BitVec 16) (h0 : x0.Has F) :
    (Dev.writePowerControl x0 x1 x2).Has F := by
  unfold Dev.writePowerControl
  repeat' (first | with_reducible assumption | with_reducible apply Dev.modConf_has | with_reducible apply Dev.hostAgain_has | with_reducible apply ite_has | with_reducible apply foldS_has | with_reducible apply foldl_has | intro _ _ _ | intro _ | dsimp only | split | (fail_if_no_progress with_reducible apply Dev.Has.upd))

theorem Dev.writeHeld_has {F : Tab Word} (x0 : Dev) (x1 : Nat) (x2 : CfgReg) (x3 : Word) (h0 : x0.Has F) :
    (Dev.writeHeld x0 x1 x2 x3).Has F := by
  unfold Dev.writeHeld
  repeat' (first | with_reducible assumption | with_reducible apply Dev.modConf_has | with_reducible apply Dev.hostAgain_has | with_reducible apply ite_has | with_reducible apply foldS_has | with_reducible apply foldl_has | intro _ _ _ | intro _ | dsimp only | split | (fail_if_no_progress with_reducible apply Dev.Has.upd))

theorem Dev.writeConfig_has {F : Tab Word} (x0 : Dev) (x1 : Nat) (x2 : CfgReg) (x3 : Word) (h0 : x0.Has F) :
    (Dev.writeConfig x0 x1 x2 x3).Has F := by
  unfold Dev.writeConfig
  repeat' (first | with_reducible assumption | with_reducible apply Dev.modConf_has | with_reducible apply Dev.writePowerControl_has | with_reducible apply Dev.setMsix_has | with_reducible apply Dev.writeHeld_has | with_reducible apply ite_has | with_reducible apply foldS_has | with_reducible apply foldl_has | intro _ _ _ | intro _ | dsimp only | split | (fail_if_no_progress with_reducible apply Dev.Has.upd))

theorem Dev.readHost_has {F : Tab Word} (x0 : Dev) (x1 : Nat) (x2 : Nat) (h0 : x0.Has F) :
    (Dev.readHost x0 x1 x2).2.Has F := by
  unfold Dev.readHost
  repeat' (first | with_reducible assumption | with_reducible apply Dev.modHp_has | with_reducible apply ite_snd_has | with_reducible apply ite_has | with_reducible apply foldS_has | with_reducible apply foldl_has | intro _ _ _ | intro _ | dsimp only | split | (fail_if_no_progress with_reducible apply Dev.Has.upd))

theorem Dev.writeHost_has {F : Tab Word} (x0 : Dev) (x1 : Nat) (x2 : Nat) (x3 : Word) (h0 : x0.Has F) :
    (Dev.writeHost x0 x1 x2 x3).Has F := by
  unfold Dev.writeHost
  repeat' (first | with_reducible assumption | with_reducible apply Dev.writeHostCtrl_has | with_reducible apply Dev.modHp_has | with_reducible apply Dev.writeBase_has | with_reducible apply Dev.writeRingCfg_has | with_reducible apply ite_has | with_reducible apply foldS_has | with_reducible apply foldl_has | intro _ _ _ | intro _ | dsimp only | split | (fail_if_no_progress with_reducible apply Dev.Has.upd))

theorem opHostDropCountRead_has {F : Tab Word} (x0 : Path) (x1 : Nat) (x2 : Dev) (h2 : x2.Has F) :
    (opHostDropCountRead x0 x1 x2).Has F := by
  unfold opHostDropCountRead
  repeat' (first | with_reducible assumption | with_reducible apply Dev.readThrough_has | with_reducible apply Dev.readHost_has | with_reducible apply snd_has ‹_ = (_, _)› (Dev.readHost_has ..) | with_reducible apply ite_has | with_reducible apply foldS_has | with_reducible apply foldl_has | intro _ _ _ | intro _ | dsimp only | split | (fail_if_no_progress with_reducible apply Dev.Has.upd))

theorem opHostEqLostRead_has {F : Tab Word} (x0 : Path) (x1 : Nat) (x2 : Dev) (h2 : x2.Has F) :
    (opHostEqLostRead x0 x1 x2).Has F := by
  unfold opHostEqLostRead
  repeat' (first | with_reducible assumption | with_reducible apply Dev.readThrough_has | with_reducible apply Dev.readHost_has | with_reducible apply snd_has ‹_ = (_, _)› (Dev.readHost_has ..) | with_reducible apply ite_has | with_reducible apply foldS_has | with_reducible apply foldl_has | intro _ _ _ | intro _ | dsimp only | split | (fail_if_no_progress with_reducible apply Dev.Has.upd))

theorem opHostLostCplRead_has {F : Tab Word} (x0 : Path) (x1 : Nat) (x2 : Dev) (h2 : x2.Has F) :
    (opHostLostCplRead x0 x1 x2).Has F := by
  unfold opHostLostCplRead
  repeat' (first | with_reducible assumption | with_reducible apply Dev.readThrough_has | with_reducible apply Dev.readHost_has | with_reducible apply snd_has ‹_ = (_, _)› (Dev.readHost_has ..) | with_reducible apply ite_has | with_reducible apply foldS_has | with_reducible apply foldl_has | intro _ _ _ | intro _ | dsimp only | split | (fail_if_no_progress with_reducible apply Dev.Has.upd))

end Sys2Proof.Machine
end

