-- ==== Sys2Proof/Laws/KeepsStream.lean ====
section
/-! SUPPORT. Every operation of Machine/Stream.lean keeps what Laws/Keeps.lean states. -/

set_option linter.unusedTactic false
set_option linter.unreachableTactic false
set_option linter.unusedVariables false

namespace Sys2Proof.Machine

theorem Dev.linkErr_has {F : Tab Word} (x0 : Dev) (x1 : Nat) (x2 : Nat) (h0 : x0.Has F) :
    (Dev.linkErr x0 x1 x2).Has F := by
  unfold Dev.linkErr
  repeat' (first | with_reducible assumption | with_reducible apply Dev.modLink_has | with_reducible apply ite_has | with_reducible apply foldS_has | with_reducible apply foldl_has | intro _ _ _ | intro _ | dsimp only | split | (fail_if_no_progress with_reducible apply Dev.Has.upd))

theorem Dev.dropWords_has {F : Tab Word} (x0 : Dev) (x1 : Nat) (x2 : Nat) (h0 : x0.Has F) :
    (Dev.dropWords x0 x1 x2).Has F := by
  unfold Dev.dropWords
  repeat' (first | with_reducible assumption | with_reducible apply Dev.modLink_has | with_reducible apply ite_has | with_reducible apply foldS_has | with_reducible apply foldl_has | intro _ _ _ | intro _ | dsimp only | split | (fail_if_no_progress with_reducible apply Dev.Has.upd))

theorem Dev.pushRxLine_has {F : Tab Word} (x0 : Dev) (x1 : Nat) (h0 : x0.Has F) :
    (Dev.pushRxLine x0 x1).Has F := by
  unfold Dev.pushRxLine
  repeat' (first | with_reducible assumption | with_reducible apply Dev.enterDirect_has | with_reducible apply Dev.modLink_has | with_reducible apply ite_has | with_reducible apply foldS_has | with_reducible apply foldl_has | intro _ _ _ | intro _ | dsimp only | split | (fail_if_no_progress with_reducible apply Dev.Has.upd))

theorem Dev.rxTake_has {F : Tab Word} (x0 : Dev) (x1 : Nat) (x2 : RxLine) (h0 : x0.Has F) :
    (Dev.rxTake x0 x1 x2).Has F := by
  unfold Dev.rxTake
  repeat' (first | with_reducible assumption | with_reducible apply Dev.dropWords_has | with_reducible apply Dev.linkErr_has | with_reducible apply Dev.pushRxLine_has | with_reducible apply Dev.modLink_has | with_reducible apply ite_has | with_reducible apply foldS_has | with_reducible apply foldl_has | intro _ _ _ | intro _ | dsimp only | split | (fail_if_no_progress with_reducible apply Dev.Has.upd))

theorem Dev.countFec_has {F : Tab Word} (x0 : Dev) (x1 : Nat) (x2 : FecCount) (h0 : x0.Has F) :
    (Dev.countFec x0 x1 x2).Has F := by
  unfold Dev.countFec
  repeat' (first | with_reducible assumption | with_reducible apply Dev.modLink_has | with_reducible apply ite_has | with_reducible apply foldS_has | with_reducible apply foldl_has | intro _ _ _ | intro _ | dsimp only | split | (fail_if_no_progress with_reducible apply Dev.Has.upd))

theorem Dev.loopBlocks_has {F : Tab Word} (x0 : Dev) (x1 : Nat) (x2 : Nat) (x3 : List DWord) (h0 : x0.Has F) :
    (Dev.loopBlocks x0 x1 x2 x3).Has F := by
  unfold Dev.loopBlocks
  repeat' (first | with_reducible assumption | with_reducible apply Dev.modLink_has | with_reducible apply Dev.emit_has | with_reducible apply ite_has | with_reducible apply foldS_has | with_reducible apply foldl_has | intro _ _ _ | intro _ | dsimp only | split | (fail_if_no_progress with_reducible apply Dev.Has.upd))

theorem opRxLine_has {F : Tab Word} (x0 : Nat) (x1 : List DWord) (x2 : List Byte) (x3 : FecCount) (x4 : Word) (x5 : Dev) (h5 : x5.Has F) :
    (opRxLine x0 x1 x2 x3 x4 x5).Has F := by
  unfold opRxLine
  repeat' (first | with_reducible assumption | with_reducible apply Dev.emit_has | with_reducible apply Dev.loopBlocks_has | with_reducible apply Dev.rxTake_has | with_reducible apply Dev.countFec_has | with_reducible apply ite_has | with_reducible apply foldS_has | with_reducible apply foldl_has | intro _ _ _ | intro _ | dsimp only | split | (fail_if_no_progress with_reducible apply Dev.Has.upd))

theorem Dev.rxAnswer_has {F : Tab Word} (x0 : Dev) (x1 : Nat) (x2 : Nat) (h0 : x0.Has F) :
    (Dev.rxAnswer x0 x1 x2).Has F := by
  unfold Dev.rxAnswer
  repeat' (first | with_reducible assumption | with_reducible apply Dev.modLink_has | with_reducible apply Dev.pushRxLine_has | with_reducible apply Dev.dropWords_has | with_reducible apply Dev.linkErr_has | with_reducible apply ite_has | with_reducible apply foldS_has | with_reducible apply foldl_has | intro _ _ _ | intro _ | dsimp only | split | (fail_if_no_progress with_reducible apply Dev.Has.upd))

theorem Dev.sendLine_has {F : Tab Word} (x0 : Dev) (x1 : Nat) (x2 : Line) (h0 : x0.Has F) :
    (Dev.sendLine x0 x1 x2).Has F := by
  unfold Dev.sendLine
  repeat' (first | with_reducible assumption | with_reducible apply Dev.rxTake_has | with_reducible apply Dev.emit_has | with_reducible apply ite_has | with_reducible apply foldS_has | with_reducible apply foldl_has | intro _ _ _ | intro _ | dsimp only | split | (fail_if_no_progress with_reducible apply Dev.Has.upd))

theorem Dev.txReport_has {F : Tab Word} (x0 : Dev) (x1 : Nat) (x2 : Line) (h0 : x0.Has F) :
    (Dev.txReport x0 x1 x2).Has F := by
  unfold Dev.txReport
  repeat' (first | with_reducible assumption | with_reducible apply Dev.rxTake_has | with_reducible apply ite_has | with_reducible apply foldS_has | with_reducible apply foldl_has | intro _ _ _ | intro _ | dsimp only | split | (fail_if_no_progress with_reducible apply Dev.Has.upd))

theorem Dev.sendFrame_has {F : Tab Word} (x0 : Dev) (x1 : Nat) (x2 : List (Line × Bool)) (x3 : Bool) (h0 : x0.Has F) :
    (Dev.sendFrame x0 x1 x2 x3).Has F := by
  unfold Dev.sendFrame
  repeat' (first | with_reducible assumption | with_reducible apply Dev.linkErr_has | with_reducible apply Dev.txReport_has | with_reducible apply Dev.sendLine_has | with_reducible apply foldS_fst_has | with_reducible apply ite_has | with_reducible apply foldS_has | with_reducible apply foldl_has | intro _ _ _ | intro _ | dsimp only | split | (fail_if_no_progress with_reducible apply Dev.Has.upd))

theorem Dev.txTake_has {F : Tab Word} (x0 : Dev) (x1 : Nat) (x2 : Line) (h0 : x0.Has F) :
    (Dev.txTake x0 x1 x2).Has F := by
  unfold Dev.txTake
  repeat' (first | with_reducible assumption | with_reducible apply Dev.modLink_has | with_reducible apply Dev.sendFrame_has | with_reducible apply ite_has | with_reducible apply foldS_has | with_reducible apply foldl_has | intro _ _ _ | intro _ | dsimp only | split | (fail_if_no_progress with_reducible apply Dev.Has.upd))

theorem opTxLinePull_has {F : Tab Word} (x0 : Nat) (x1 : Dev) (h1 : x1.Has F) :
    (opTxLinePull x0 x1).Has F := by
  unfold opTxLinePull
  repeat' (first | with_reducible assumption | with_reducible apply Dev.enterDirect_has | with_reducible apply Dev.modLink_has | with_reducible apply ite_has | with_reducible apply foldS_has | with_reducible apply foldl_has | intro _ _ _ | intro _ | dsimp only | split | (fail_if_no_progress with_reducible apply Dev.Has.upd))

theorem Dev.txAnswer_has {F : Tab Word} (x0 : Dev) (x1 : Nat) (x2 : Nat) (x3 : Line) (h0 : x0.Has F) :
    (Dev.txAnswer x0 x1 x2 x3).Has F := by
  unfold Dev.txAnswer
  repeat' (first | with_reducible assumption | with_reducible apply Dev.modLink_has | with_reducible apply opTxLinePull_has | with_reducible apply Dev.txTake_has | with_reducible apply Dev.dropWords_has | with_reducible apply Dev.linkErr_has | with_reducible apply ite_has | with_reducible apply foldS_has | with_reducible apply foldl_has | intro _ _ _ | intro _ | dsimp only | split | (fail_if_no_progress with_reducible apply Dev.Has.upd))

theorem opTxUnderrun_has {F : Tab Word} (x0 : Nat) (x1 : Dev) (h1 : x1.Has F) :
    (opTxUnderrun x0 x1).Has F := by
  unfold opTxUnderrun
  repeat' (first | with_reducible assumption | with_reducible apply Dev.sendFrame_has | with_reducible apply Dev.modLink_has | with_reducible apply Dev.linkErr_has | with_reducible apply Dev.sendLine_has | with_reducible apply ite_has | with_reducible apply foldS_has | with_reducible apply foldl_has | intro _ _ _ | intro _ | dsimp only | split | (fail_if_no_progress with_reducible apply Dev.Has.upd))

end Sys2Proof.Machine
end

