-- ==== Sys2Proof/Laws/KeepsLinks.lean ====
section
/-! SUPPORT. Every operation of Machine/Links.lean keeps what Laws/Keeps.lean states. -/

set_option linter.unusedTactic false
set_option linter.unreachableTactic false
set_option linter.unusedVariables false

namespace Sys2Proof.Machine

theorem Dev.setQuadRate_has {F : Tab Word} (x0 : Dev) (x1 : Nat) (h0 : x0.Has F) :
    (Dev.setQuadRate x0 x1).Has F := by
  unfold Dev.setQuadRate
  repeat' (first | with_reducible assumption | with_reducible apply ite_has | with_reducible apply foldS_has | with_reducible apply foldl_has | intro _ _ _ | intro _ | dsimp only | split | (fail_if_no_progress with_reducible apply Dev.Has.upd))

theorem Dev.dropLink_has {F : Tab Word} (x0 : Dev) (x1 : Nat) (h0 : x0.Has F) :
    (Dev.dropLink x0 x1).1.Has F := by
  unfold Dev.dropLink
  repeat' (first | with_reducible assumption | with_reducible apply Dev.modLink_has | with_reducible apply Dev.modDest_has | with_reducible apply Dev.answer_has | with_reducible apply ite_fst_has | with_reducible apply foldS_fst_has | with_reducible apply ite_has | with_reducible apply foldS_has | with_reducible apply foldl_has | intro _ _ _ | intro _ | dsimp only | split | (fail_if_no_progress with_reducible apply Dev.Has.upd))

theorem Dev.downLink_has {F : Tab Word} (x0 : Dev) (x1 : Nat) (x2 : UState) (x3 : Cause) (h0 : x0.Has F) :
    (Dev.downLink x0 x1 x2 x3).1.Has F := by
  unfold Dev.downLink
  repeat' (first | with_reducible assumption | with_reducible apply Dev.setUnit_has | with_reducible apply Dev.modLink_has | with_reducible apply Dev.dropLink_has | with_reducible apply fst_has ‹_ = (_, _)› (Dev.dropLink_has ..) | with_reducible apply ite_fst_has | with_reducible apply foldS_fst_has | with_reducible apply ite_has | with_reducible apply foldS_has | with_reducible apply foldl_has | intro _ _ _ | intro _ | dsimp only | split | (fail_if_no_progress with_reducible apply Dev.Has.upd))

theorem Dev.single_has {F : Tab Word} (x0 : Dev) (x1 : Nat) (x2 : Option Nat) (h0 : x0.Has F) :
    (Dev.single x0 x1 x2).Has F := by
  unfold Dev.single
  repeat' (first | with_reducible assumption | with_reducible apply Dev.event_has | with_reducible apply ite_has | with_reducible apply foldS_has | with_reducible apply foldl_has | intro _ _ _ | intro _ | dsimp only | split | (fail_if_no_progress with_reducible apply Dev.Has.upd))

theorem Dev.loseLink_has {F : Tab Word} (x0 : Dev) (x1 : Nat) (x2 : Nat) (h0 : x0.Has F) :
    (Dev.loseLink x0 x1 x2).Has F := by
  unfold Dev.loseLink
  repeat' (first | with_reducible assumption | with_reducible apply Dev.downLink_has | with_reducible apply fst_has ‹_ = (_, _)› (Dev.downLink_has ..) | with_reducible apply Dev.single_has | with_reducible apply Dev.event_has | with_reducible apply ite_has | with_reducible apply foldS_has | with_reducible apply foldl_has | intro _ _ _ | intro _ | dsimp only | split | (fail_if_no_progress with_reducible apply Dev.Has.upd))

theorem opLinkTrainStart_has {F : Tab Word} (x0 : Nat) (x1 : BitVec 4) (x2 : Dev) (h2 : x2.Has F) :
    (opLinkTrainStart x0 x1 x2).Has F := by
  unfold opLinkTrainStart
  repeat' (first | with_reducible assumption | with_reducible apply Dev.linkErr_has | with_reducible apply Dev.setQuadRate_has | with_reducible apply Dev.modLink_has | with_reducible apply Dev.emit_has | with_reducible apply ite_has | with_reducible apply foldS_has | with_reducible apply foldl_has | intro _ _ _ | intro _ | dsimp only | split | (fail_if_no_progress with_reducible apply Dev.Has.upd))

theorem Dev.sampleEnable_has {F : Tab Word} (x0 : Dev) (x1 : Nat) (h0 : x0.Has F) :
    (Dev.sampleEnable x0 x1).Has F := by
  unfold Dev.sampleEnable
  repeat' (first | with_reducible assumption | with_reducible apply Dev.modLink_has | with_reducible apply ite_has | with_reducible apply foldS_has | with_reducible apply foldl_has | intro _ _ _ | intro _ | dsimp only | split | (fail_if_no_progress with_reducible apply Dev.Has.upd))

theorem Dev.rateLost_has {F : Tab Word} (x0 : Dev) (x1 : Nat) (h0 : x0.Has F) :
    (Dev.rateLost x0 x1).Has F := by
  unfold Dev.rateLost
  repeat' (first | with_reducible assumption | with_reducible apply Dev.modLink_has | with_reducible apply Dev.linkErr_has | with_reducible apply ite_has | with_reducible apply foldS_has | with_reducible apply foldl_has | intro _ _ _ | intro _ | dsimp only | split | (fail_if_no_progress with_reducible apply Dev.Has.upd))

theorem opPcsLinkUp_has {F : Tab Word} (x0 : Nat) (x1 : Word) (x2 : Dev) (h2 : x2.Has F) :
    (opPcsLinkUp x0 x1 x2).Has F := by
  unfold opPcsLinkUp
  repeat' (first | with_reducible assumption | with_reducible apply Dev.rateLost_has | with_reducible apply Dev.modLink_has | with_reducible apply Dev.setQuadRate_has | with_reducible apply Dev.event_has | with_reducible apply Dev.setUnit_has | with_reducible apply ite_has | with_reducible apply foldS_has | with_reducible apply foldl_has | intro _ _ _ | intro _ | dsimp only | split | (fail_if_no_progress with_reducible apply Dev.Has.upd))

theorem opPcsLinkLost_has {F : Tab Word} (x0 : Nat) (x1 : LinkCause) (x2 : Dev) (h2 : x2.Has F) :
    (opPcsLinkLost x0 x1 x2).Has F := by
  unfold opPcsLinkLost
  repeat' (first | with_reducible assumption | with_reducible apply Dev.loseLink_has | with_reducible apply Dev.modLink_has | with_reducible apply ite_has | with_reducible apply foldS_has | with_reducible apply foldl_has | intro _ _ _ | intro _ | dsimp only | split | (fail_if_no_progress with_reducible apply Dev.Has.upd))

theorem opHelloSend_has {F : Tab Word} (x0 : Nat) (x1 : Dev) (h1 : x1.Has F) :
    (opHelloSend x0 x1).Has F := by
  unfold opHelloSend
  repeat' (first | with_reducible assumption | with_reducible apply Dev.emit_has | with_reducible apply ite_has | with_reducible apply foldS_has | with_reducible apply foldl_has | intro _ _ _ | intro _ | dsimp only | split | (fail_if_no_progress with_reducible apply Dev.Has.upd))

theorem Dev.raiseLink_has {F : Tab Word} (x0 : Dev) (x1 : Nat) (h0 : x0.Has F) :
    (Dev.raiseLink x0 x1).Has F := by
  unfold Dev.raiseLink
  repeat' (first | with_reducible assumption | with_reducible apply Dev.setUnit_has | with_reducible apply Dev.setQuadRate_has | with_reducible apply Dev.modLink_has | with_reducible apply Dev.event_has | with_reducible apply ite_has | with_reducible apply foldS_has | with_reducible apply foldl_has | intro _ _ _ | intro _ | dsimp only | split | (fail_if_no_progress with_reducible apply Dev.Has.upd))

theorem Dev.breraUp_has {F : Tab Word} (x0 : Dev) (x1 : Nat) (x2 : Hello) (h0 : x0.Has F) :
    (Dev.breraUp x0 x1 x2).Has F := by
  unfold Dev.breraUp
  repeat' (first | with_reducible assumption | with_reducible apply Dev.modLink_has | with_reducible apply Dev.flushLink_has | with_reducible apply Dev.raiseLink_has | with_reducible apply ite_has | with_reducible apply foldS_has | with_reducible apply foldl_has | intro _ _ _ | intro _ | dsimp only | split | (fail_if_no_progress with_reducible apply Dev.Has.upd))

theorem opHello_has {F : Tab Word} (x0 : Nat) (x1 : Hello) (x2 : Dev) (h2 : x2.Has F) :
    (opHello x0 x1 x2).Has F := by
  unfold opHello
  repeat' (first | with_reducible assumption | with_reducible apply Dev.emit_has | with_reducible apply Dev.loseLink_has | with_reducible apply Dev.modLink_has | with_reducible apply Dev.linkErr_has | with_reducible apply Dev.rateLost_has | with_reducible apply Dev.flushLink_has | with_reducible apply Dev.breraUp_has | with_reducible apply ite_has | with_reducible apply foldS_has | with_reducible apply foldl_has | intro _ _ _ | intro _ | dsimp only | split | (fail_if_no_progress with_reducible apply Dev.Has.upd))

theorem opHelloMissing_has {F : Tab Word} (x0 : Nat) (x1 : Dev) (h1 : x1.Has F) :
    (opHelloMissing x0 x1).Has F := by
  unfold opHelloMissing
  repeat' (first | with_reducible assumption | with_reducible apply Dev.loseLink_has | with_reducible apply ite_has | with_reducible apply foldS_has | with_reducible apply foldl_has | intro _ _ _ | intro _ | dsimp only | split | (fail_if_no_progress with_reducible apply Dev.Has.upd))

theorem opTrainTimeout_has {F : Tab Word} (x0 : Nat) (x1 : Dev) (h1 : x1.Has F) :
    (opTrainTimeout x0 x1).Has F := by
  unfold opTrainTimeout
  repeat' (first | with_reducible assumption | with_reducible apply opLinkTrainStart_has | with_reducible apply Dev.modLink_has | with_reducible apply Dev.linkErr_has | with_reducible apply ite_has | with_reducible apply foldS_has | with_reducible apply foldl_has | intro _ _ _ | intro _ | dsimp only | split | (fail_if_no_progress with_reducible apply Dev.Has.upd))

theorem opBreraLinkLost_has {F : Tab Word} (x0 : Nat) (x1 : LinkCause) (x2 : Dev) (h2 : x2.Has F) :
    (opBreraLinkLost x0 x1 x2).Has F := by
  unfold opBreraLinkLost
  repeat' (first | with_reducible assumption | with_reducible apply Dev.linkErr_has | with_reducible apply Dev.loseLink_has | with_reducible apply ite_has | with_reducible apply foldS_has | with_reducible apply foldl_has | intro _ _ _ | intro _ | dsimp only | split | (fail_if_no_progress with_reducible apply Dev.Has.upd))

theorem opSignalLost_has {F : Tab Word} (x0 : Nat) (x1 : Dev) (h1 : x1.Has F) :
    (opSignalLost x0 x1).Has F := by
  unfold opSignalLost
  repeat' (first | with_reducible assumption | with_reducible apply Dev.modLink_has | with_reducible apply Dev.loseLink_has | with_reducible apply ite_has | with_reducible apply foldS_has | with_reducible apply foldl_has | intro _ _ _ | intro _ | dsimp only | split | (fail_if_no_progress with_reducible apply Dev.Has.upd))

theorem Dev.loseHome_has {F : Tab Word} (x0 : Dev) (x1 : Nat) (x2 : Nat) (h0 : x0.Has F) :
    (Dev.loseHome x0 x1 x2).Has F := by
  unfold Dev.loseHome
  repeat' (first | with_reducible assumption | with_reducible apply Dev.loseLink_has | with_reducible apply ite_has | with_reducible apply foldS_has | with_reducible apply foldl_has | intro _ _ _ | intro _ | dsimp only | split | (fail_if_no_progress with_reducible apply Dev.Has.upd))

theorem Dev.takeCredits_has {F : Tab Word} (x0 : Dev) (x1 : Nat) (x2 : Nat) (x3 : Nat) (h0 : x0.Has F) :
    (Dev.takeCredits x0 x1 x2 x3).Has F := by
  unfold Dev.takeCredits
  repeat' (first | with_reducible assumption | with_reducible apply Dev.loseHome_has | with_reducible apply Dev.linkErr_has | with_reducible apply Dev.flushLink_has | with_reducible apply Dev.modLink_has | with_reducible apply ite_has | with_reducible apply foldS_has | with_reducible apply foldl_has | intro _ _ _ | intro _ | dsimp only | split | (fail_if_no_progress with_reducible apply Dev.Has.upd))

theorem Dev.replayFrom_has {F : Tab Word} (x0 : Dev) (x1 : Nat) (x2 : Nat) (h0 : x0.Has F) :
    (Dev.replayFrom x0 x1 x2).Has F := by
  unfold Dev.replayFrom
  repeat' (first | with_reducible assumption | with_reducible apply Dev.modLink_has | with_reducible apply Dev.loseHome_has | with_reducible apply Dev.linkErr_has | with_reducible apply Dev.emit_has | with_reducible apply ite_has | with_reducible apply foldS_has | with_reducible apply foldl_has | intro _ _ _ | intro _ | dsimp only | split | (fail_if_no_progress with_reducible apply Dev.Has.upd))

theorem opNak_has {F : Tab Word} (x0 : Nat) (x1 : BitVec 12) (x2 : Dev) (h2 : x2.Has F) :
    (opNak x0 x1 x2).Has F := by
  unfold opNak
  repeat' (first | with_reducible assumption | with_reducible apply Dev.emit_has | with_reducible apply Dev.replayFrom_has | with_reducible apply ite_has | with_reducible apply foldS_has | with_reducible apply foldl_has | intro _ _ _ | intro _ | dsimp only | split | (fail_if_no_progress with_reducible apply Dev.Has.upd))

theorem opLinkIdleBlock_has {F : Tab Word} (x0 : Nat) (x1 : BitVec 12) (x2 : Bool) (x3 : Byte) (x4 : Byte) (x5 : Dev) (h5 : x5.Has F) :
    (opLinkIdleBlock x0 x1 x2 x3 x4 x5).Has F := by
  unfold opLinkIdleBlock
  repeat' (first | with_reducible assumption | with_reducible apply Dev.emit_has | with_reducible apply Dev.takeCredits_has | with_reducible apply Dev.modLink_has | with_reducible apply ite_has | with_reducible apply foldS_has | with_reducible apply foldl_has | intro _ _ _ | intro _ | dsimp only | split | (fail_if_no_progress with_reducible apply Dev.Has.upd))

theorem opAckTimeout_has {F : Tab Word} (x0 : Nat) (x1 : Dev) (h1 : x1.Has F) :
    (opAckTimeout x0 x1).Has F := by
  unfold opAckTimeout
  repeat' (first | with_reducible assumption | with_reducible apply Dev.replayFrom_has | with_reducible apply ite_has | with_reducible apply foldS_has | with_reducible apply foldl_has | intro _ _ _ | intro _ | dsimp only | split | (fail_if_no_progress with_reducible apply Dev.Has.upd))

theorem opXidTimeout_has {F : Tab Word} (x0 : Nat) (x1 : Nat) (x2 : Dev) (h2 : x2.Has F) :
    (opXidTimeout x0 x1 x2).Has F := by
  unfold opXidTimeout
  repeat' (first | with_reducible assumption | with_reducible apply Dev.answer_has | with_reducible apply Dev.modLink_has | with_reducible apply ite_has | with_reducible apply foldS_has | with_reducible apply foldl_has | intro _ _ _ | intro _ | dsimp only | split | (fail_if_no_progress with_reducible apply Dev.Has.upd))

theorem opXidQuarantineEnd_has {F : Tab Word} (x0 : Nat) (x1 : Nat) (x2 : Dev) (h2 : x2.Has F) :
    (opXidQuarantineEnd x0 x1 x2).Has F := by
  unfold opXidQuarantineEnd
  repeat' (first | with_reducible assumption | with_reducible apply Dev.modLink_has | with_reducible apply ite_has | with_reducible apply foldS_has | with_reducible apply foldl_has | intro _ _ _ | intro _ | dsimp only | split | (fail_if_no_progress with_reducible apply Dev.Has.upd))

theorem Dev.remoteResponse_has {F : Tab Word} (x0 : Dev) (x1 : Packet) (h0 : x0.Has F) :
    (Dev.remoteResponse x0 x1).Has F := by
  unfold Dev.remoteResponse
  repeat' (first | with_reducible assumption | with_reducible apply Dev.modLink_has | with_reducible apply Dev.respond_has | with_reducible apply Dev.linkErr_has | with_reducible apply ite_has | with_reducible apply foldS_has | with_reducible apply foldl_has | intro _ _ _ | intro _ | dsimp only | split | (fail_if_no_progress with_reducible apply Dev.Has.upd))

theorem Dev.acceptPacket_has {F : Tab Word} (x0 : Dev) (x1 : Nat) (x2 : Packet) (h0 : x0.Has F) :
    (Dev.acceptPacket x0 x1 x2).Has F := by
  unfold Dev.acceptPacket
  repeat' (first | with_reducible assumption | with_reducible apply Dev.modLink_has | with_reducible apply Dev.remoteResponse_has | with_reducible apply Dev.transitAnswer_has | with_reducible apply fst_has ‹_ = (_, _)› (Dev.transitAnswer_has ..) | with_reducible apply Dev.queuePacket_has | with_reducible apply ite_has | with_reducible apply foldS_has | with_reducible apply foldl_has | intro _ _ _ | intro _ | dsimp only | split | (fail_if_no_progress with_reducible apply Dev.Has.upd))

theorem Dev.packetGap_has {F : Tab Word} (x0 : Dev) (x1 : Nat) (h0 : x0.Has F) :
    (Dev.packetGap x0 x1).Has F := by
  unfold Dev.packetGap
  repeat' (first | with_reducible assumption | with_reducible apply Dev.modLink_has | with_reducible apply Dev.emit_has | with_reducible apply ite_has | with_reducible apply foldS_has | with_reducible apply foldl_has | intro _ _ _ | intro _ | dsimp only | split | (fail_if_no_progress with_reducible apply Dev.Has.upd))

theorem opBreraPacket_has {F : Tab Word} (x0 : Nat) (x1 : Packet) (x2 : Dev) (h2 : x2.Has F) :
    (opBreraPacket x0 x1 x2).Has F := by
  unfold opBreraPacket
  repeat' (first | with_reducible assumption | with_reducible apply Dev.emit_has | with_reducible apply Dev.packetGap_has | with_reducible apply Dev.modLink_has | with_reducible apply Dev.linkErr_has | with_reducible apply Dev.takeCredits_has | with_reducible apply Dev.idleBlock_has | with_reducible apply Dev.acceptPacket_has | with_reducible apply ite_has | with_reducible apply foldS_has | with_reducible apply foldl_has | intro _ _ _ | intro _ | dsimp only | split | (fail_if_no_progress with_reducible apply Dev.Has.upd))

theorem opRelayBlock_has {F : Tab Word} (x0 : Nat) (x1 : Bool) (x2 : Dev) (h2 : x2.Has F) :
    (opRelayBlock x0 x1 x2).Has F := by
  unfold opRelayBlock
  repeat' (first | with_reducible assumption | with_reducible apply Dev.emit_has | with_reducible apply Dev.modLink_has | with_reducible apply ite_has | with_reducible apply foldS_has | with_reducible apply foldl_has | intro _ _ _ | intro _ | dsimp only | split | (fail_if_no_progress with_reducible apply Dev.Has.upd))

theorem opRelaySend_has {F : Tab Word} (x0 : Dev) (h0 : x0.Has F) :
    (opRelaySend x0).Has F := by
  unfold opRelaySend
  repeat' (first | with_reducible assumption | with_reducible apply Dev.emit_has | with_reducible apply Dev.modLink_has | with_reducible apply ite_has | with_reducible apply foldS_has | with_reducible apply foldl_has | intro _ _ _ | intro _ | dsimp only | split | (fail_if_no_progress with_reducible apply Dev.Has.upd))

theorem opSysStart_has {F : Tab Word} (x0 : Bool) (x1 : Dev) (h1 : x1.Has F) :
    (opSysStart x0 x1).Has F := by
  unfold opSysStart
  repeat' (first | with_reducible assumption | with_reducible apply Dev.refreshPins_has | with_reducible apply Dev.event_has | with_reducible apply ite_has | with_reducible apply foldS_has | with_reducible apply foldl_has | intro _ _ _ | intro _ | dsimp only | split | (fail_if_no_progress with_reducible apply Dev.Has.upd))

theorem opLinkParityFault_has {F : Tab Word} (x0 : Nat) (x1 : Dev) (h1 : x1.Has F) :
    (opLinkParityFault x0 x1).Has F := by
  unfold opLinkParityFault
  repeat' (first | with_reducible assumption | with_reducible apply Dev.noteFault_has | with_reducible apply Dev.event_has | with_reducible apply Dev.downLink_has | with_reducible apply fst_has ‹_ = (_, _)› (Dev.downLink_has ..) | with_reducible apply Dev.single_has | with_reducible apply Dev.setUnit_has | with_reducible apply Dev.modLink_has | with_reducible apply ite_has | with_reducible apply foldS_has | with_reducible apply foldl_has | intro _ _ _ | intro _ | dsimp only | split | (fail_if_no_progress with_reducible apply Dev.Has.upd))

theorem Dev.linkLoop_has {F : Tab Word} (x0 : Dev) (x1 : Nat) (x2 : Nat) (x3 : Cause) (h0 : x0.Has F) :
    (Dev.linkLoop x0 x1 x2 x3).Has F := by
  unfold Dev.linkLoop
  repeat' (first | with_reducible assumption | with_reducible apply Dev.setQuadRate_has | with_reducible apply Dev.modLink_has | with_reducible apply Dev.downLink_has | with_reducible apply fst_has ‹_ = (_, _)› (Dev.downLink_has ..) | with_reducible apply Dev.single_has | with_reducible apply ite_has | with_reducible apply foldS_has | with_reducible apply foldl_has | intro _ _ _ | intro _ | dsimp only | split | (fail_if_no_progress with_reducible apply Dev.Has.upd))

theorem Dev.linkUnloop_has {F : Tab Word} (x0 : Dev) (x1 : Nat) (x2 : Cause) (h0 : x0.Has F) :
    (Dev.linkUnloop x0 x1 x2).Has F := by
  unfold Dev.linkUnloop
  repeat' (first | with_reducible assumption | with_reducible apply Dev.modLink_has | with_reducible apply Dev.setUnit_has | with_reducible apply ite_has | with_reducible apply foldS_has | with_reducible apply foldl_has | intro _ _ _ | intro _ | dsimp only | split | (fail_if_no_progress with_reducible apply Dev.Has.upd))

theorem opLoopback_has {F : Tab Word} (x0 : Issuer) (x1 : Desc) (x2 : Dev) (h2 : x2.Has F) :
    (opLoopback x0 x1 x2).Has F := by
  unfold opLoopback
  repeat' (first | with_reducible assumption | with_reducible apply Dev.begin_has | with_reducible apply Dev.complete_has | with_reducible apply Dev.linkLoop_has | with_reducible apply Dev.linkUnloop_has | with_reducible apply Dev.fportLoop_has | with_reducible apply Dev.fportUnloop_has | with_reducible apply ite_has | with_reducible apply foldS_has | with_reducible apply foldl_has | intro _ _ _ | intro _ | dsimp only | split | (fail_if_no_progress with_reducible apply Dev.Has.upd))

theorem Dev.admitPacket_has {F : Tab Word} (x0 : Dev) (x1 : Nat) (x2 : Packet) (x3 : FlitErr) (h0 : x0.Has F) :
    (Dev.admitPacket x0 x1 x2 x3).Has F := by
  unfold Dev.admitPacket
  repeat' (first | with_reducible assumption | with_reducible apply Dev.modLink_has | with_reducible apply Dev.answer_has | with_reducible apply Dev.linkErr_has | with_reducible apply Dev.idleBlock_has | with_reducible apply Dev.present_has | with_reducible apply ite_has | with_reducible apply foldS_has | with_reducible apply foldl_has | intro _ _ _ | intro _ | dsimp only | split | (fail_if_no_progress with_reducible apply Dev.Has.upd))

theorem opSluiceRequest_has {F : Tab Word} (x0 : SlReq) (x1 : Dev) (h1 : x1.Has F) :
    (opSluiceRequest x0 x1).Has F := by
  unfold opSluiceRequest
  repeat' (first | with_reducible assumption | with_reducible apply Dev.panBeats_has | with_reducible apply Dev.present_has | with_reducible apply Dev.admitPacket_has | with_reducible apply Dev.setKind_has | with_reducible apply ite_has | with_reducible apply foldS_has | with_reducible apply foldl_has | intro _ _ _ | intro _ | dsimp only | split | (fail_if_no_progress with_reducible apply Dev.Has.upd))

theorem Dev.panResponse_has {F : Tab Word} (x0 : Dev) (x1 : Nat) (x2 : Nat) (x3 : List (Byte × Line)) (h0 : x0.Has F) :
    (Dev.panResponse x0 x1 x2 x3).Has F := by
  unfold Dev.panResponse
  repeat' (first | with_reducible assumption | with_reducible apply Dev.emit_has | with_reducible apply Dev.panBeats_has | with_reducible apply ite_has | with_reducible apply foldS_has | with_reducible apply foldl_has | intro _ _ _ | intro _ | dsimp only | split | (fail_if_no_progress with_reducible apply Dev.Has.upd))

theorem Dev.linkResponse_has {F : Tab Word} (x0 : Dev) (x1 : BitVec 14) (x2 : BitVec 16) (x3 : BitVec 16) (x4 : Bool) (x5 : List (Byte × Line)) (h0 : x0.Has F) :
    (Dev.linkResponse x0 x1 x2 x3 x4 x5).Has F := by
  unfold Dev.linkResponse
  repeat' (first | with_reducible assumption | with_reducible apply Dev.sendRsp_has | with_reducible apply ite_has | with_reducible apply foldS_has | with_reducible apply foldl_has | intro _ _ _ | intro _ | dsimp only | split | (fail_if_no_progress with_reducible apply Dev.Has.upd))

theorem opResponseDelivery_has {F : Tab Word} (x0 : Nat) (x1 : Dev) (h1 : x1.Has F) :
    (opResponseDelivery x0 x1).Has F := by
  unfold opResponseDelivery
  repeat' (first | with_reducible assumption | with_reducible apply Dev.modIng_has | with_reducible apply Dev.slErr_has | with_reducible apply Dev.dropReq_has | with_reducible apply Dev.panResponse_has | with_reducible apply Dev.execResponse_has | with_reducible apply Dev.linkResponse_has | with_reducible apply Dev.rxAnswer_has | with_reducible apply Dev.txAnswer_has | with_reducible apply ite_has | with_reducible apply foldS_has | with_reducible apply foldl_has | intro _ _ _ | intro _ | dsimp only | split | (fail_if_no_progress with_reducible apply Dev.Has.upd))

theorem Dev.readLink_has {F : Tab Word} (x0 : Dev) (x1 : Nat) (x2 : Nat → Word) (x3 : Nat) (h0 : x0.Has F) :
    (Dev.readLink x0 x1 x2 x3).2.Has F := by
  unfold Dev.readLink
  repeat' (first | with_reducible assumption | with_reducible apply Dev.modLink_has | with_reducible apply ite_snd_has | with_reducible apply ite_has | with_reducible apply foldS_has | with_reducible apply foldl_has | intro _ _ _ | intro _ | dsimp only | split | (fail_if_no_progress with_reducible apply Dev.Has.upd))

theorem Dev.writeRoute_has {F : Tab Word} (x0 : Dev) (x1 : Nat) (x2 : Word) (h0 : x0.Has F) :
    (Dev.writeRoute x0 x1 x2).Has F := by
  unfold Dev.writeRoute
  repeat' (first | with_reducible assumption | with_reducible apply ite_has | with_reducible apply foldS_has | with_reducible apply foldl_has | intro _ _ _ | intro _ | dsimp only | split | (fail_if_no_progress with_reducible apply Dev.Has.upd))

theorem Dev.writeLink_has {F : Tab Word} (x0 : Dev) (x1 : Nat) (x2 : Nat → Word) (x3 : Nat) (x4 : Word) (h0 : x0.Has F) :
    (Dev.writeLink x0 x1 x2 x3 x4).Has F := by
  unfold Dev.writeLink
  repeat' (first | with_reducible assumption | with_reducible apply Dev.sampleEnable_has | with_reducible apply Dev.modLink_has | with_reducible apply Dev.writeRoute_has | with_reducible apply ite_has | with_reducible apply foldS_has | with_reducible apply foldl_has | intro _ _ _ | intro _ | dsimp only | split | (fail_if_no_progress with_reducible apply Dev.Has.upd))

theorem opRouteTableWrite_has {F : Tab Word} (x0 : Path) (x1 : Nat) (x2 : Word) (x3 : Dev) (h3 : x3.Has F) :
    (opRouteTableWrite x0 x1 x2 x3).Has F := by
  unfold opRouteTableWrite
  repeat' (first | with_reducible assumption | with_reducible apply Dev.filteredIf_has | with_reducible apply Dev.writeRoute_has | with_reducible apply ite_has | with_reducible apply foldS_has | with_reducible apply foldl_has | intro _ _ _ | intro _ | dsimp only | split | (fail_if_no_progress with_reducible apply Dev.Has.upd))

theorem opLinkFecCeRead_has {F : Tab Word} (x0 : Path) (x1 : Nat) (x2 : Dev) (h2 : x2.Has F) :
    (opLinkFecCeRead x0 x1 x2).Has F := by
  unfold opLinkFecCeRead
  repeat' (first | with_reducible assumption | with_reducible apply Dev.readThrough_has | with_reducible apply Dev.readLink_has | with_reducible apply snd_has ‹_ = (_, _)› (Dev.readLink_has ..) | with_reducible apply ite_has | with_reducible apply foldS_has | with_reducible apply foldl_has | intro _ _ _ | intro _ | dsimp only | split | (fail_if_no_progress with_reducible apply Dev.Has.upd))

theorem opLinkFecUeRead_has {F : Tab Word} (x0 : Path) (x1 : Nat) (x2 : Dev) (h2 : x2.Has F) :
    (opLinkFecUeRead x0 x1 x2).Has F := by
  unfold opLinkFecUeRead
  repeat' (first | with_reducible assumption | with_reducible apply Dev.readThrough_has | with_reducible apply Dev.readLink_has | with_reducible apply snd_has ‹_ = (_, _)› (Dev.readLink_has ..) | with_reducible apply ite_has | with_reducible apply foldS_has | with_reducible apply foldl_has | intro _ _ _ | intro _ | dsimp only | split | (fail_if_no_progress with_reducible apply Dev.Has.upd))

theorem opLinkReplayRead_has {F : Tab Word} (x0 : Path) (x1 : Nat) (x2 : Dev) (h2 : x2.Has F) :
    (opLinkReplayRead x0 x1 x2).Has F := by
  unfold opLinkReplayRead
  repeat' (first | with_reducible assumption | with_reducible apply Dev.readThrough_has | with_reducible apply Dev.readLink_has | with_reducible apply snd_has ‹_ = (_, _)› (Dev.readLink_has ..) | with_reducible apply ite_has | with_reducible apply foldS_has | with_reducible apply foldl_has | intro _ _ _ | intro _ | dsimp only | split | (fail_if_no_progress with_reducible apply Dev.Has.upd))

theorem opLinkDropRead_has {F : Tab Word} (x0 : Path) (x1 : Nat) (x2 : Dev) (h2 : x2.Has F) :
    (opLinkDropRead x0 x1 x2).Has F := by
  unfold opLinkDropRead
  repeat' (first | with_reducible assumption | with_reducible apply Dev.readThrough_has | with_reducible apply Dev.readLink_has | with_reducible apply snd_has ‹_ = (_, _)› (Dev.readLink_has ..) | with_reducible apply ite_has | with_reducible apply foldS_has | with_reducible apply foldl_has | intro _ _ _ | intro _ | dsimp only | split | (fail_if_no_progress with_reducible apply Dev.Has.upd))

end Sys2Proof.Machine
end

