-- ==== Sys2Proof/Laws/KeepsTime.lean ====
section
/-! SUPPORT. Every operation of Machine/Time.lean keeps what Laws/Keeps.lean states. -/

set_option linter.unusedTactic false
set_option linter.unreachableTactic false
set_option linter.unusedVariables false

namespace Sys2Proof.Machine

theorem Dev.setQuality_has {F : Tab Word} (x0 : Dev) (x1 : BitVec 3) (h0 : x0.Has F) :
    (Dev.setQuality x0 x1).Has F := by
  unfold Dev.setQuality
  repeat' (first | with_reducible assumption | with_reducible apply Dev.event_has | with_reducible apply ite_has | with_reducible apply foldS_has | with_reducible apply foldl_has | intro _ _ _ | intro _ | dsimp only | split | (fail_if_no_progress with_reducible apply Dev.Has.upd))

theorem Dev.ringAlarm_has {F : Tab Word} (x0 : Dev) (h0 : x0.Has F) :
    (Dev.ringAlarm x0).Has F := by
  unfold Dev.ringAlarm
  repeat' (first | with_reducible assumption | with_reducible apply Dev.refreshPins_has | with_reducible apply Dev.event_has | with_reducible apply ite_has | with_reducible apply foldS_has | with_reducible apply foldl_has | intro _ _ _ | intro _ | dsimp only | split | (fail_if_no_progress with_reducible apply Dev.Has.upd))

theorem Dev.fireAlarm_has {F : Tab Word} (x0 : Dev) (h0 : x0.Has F) :
    (Dev.fireAlarm x0).Has F := by
  unfold Dev.fireAlarm
  repeat' (first | with_reducible assumption | with_reducible apply Dev.ringAlarm_has | with_reducible apply ite_has | with_reducible apply foldS_has | with_reducible apply foldl_has | intro _ _ _ | intro _ | dsimp only | split | (fail_if_no_progress with_reducible apply Dev.Has.upd))

theorem Dev.stepTime_has {F : Tab Word} (x0 : Dev) (x1 : Int) (h0 : x0.Has F) :
    (Dev.stepTime x0 x1).Has F := by
  unfold Dev.stepTime
  repeat' (first | with_reducible assumption | with_reducible apply Dev.fireAlarm_has | with_reducible apply Dev.event_has | with_reducible apply ite_has | with_reducible apply foldS_has | with_reducible apply foldl_has | intro _ _ _ | intro _ | dsimp only | split | (fail_if_no_progress with_reducible apply Dev.Has.upd))

theorem Dev.tick_has {F : Tab Word} (x0 : Dev) (h0 : x0.Has F) :
    (Dev.tick x0).Has F := by
  unfold Dev.tick
  repeat' (first | with_reducible assumption | with_reducible apply ite_has | with_reducible apply foldS_has | with_reducible apply foldl_has | intro _ _ _ | intro _ | dsimp only | split | (fail_if_no_progress with_reducible apply Dev.Has.upd))

theorem Dev.edgeQuality_has {F : Tab Word} (x0 : Dev) (h0 : x0.Has F) :
    (Dev.edgeQuality x0).Has F := by
  unfold Dev.edgeQuality
  repeat' (first | with_reducible assumption | with_reducible apply Dev.setQuality_has | with_reducible apply ite_has | with_reducible apply foldS_has | with_reducible apply foldl_has | intro _ _ _ | intro _ | dsimp only | split | (fail_if_no_progress with_reducible apply Dev.Has.upd))

theorem Dev.correctPps_has {F : Tab Word} (x0 : Dev) (x1 : Int) (h0 : x0.Has F) :
    (Dev.correctPps x0 x1).Has F := by
  unfold Dev.correctPps
  repeat' (first | with_reducible assumption | with_reducible apply Dev.stepTime_has | with_reducible apply Dev.setQuality_has | with_reducible apply ite_has | with_reducible apply foldS_has | with_reducible apply foldl_has | intro _ _ _ | intro _ | dsimp only | split | (fail_if_no_progress with_reducible apply Dev.Has.upd))

theorem Dev.timeSetTo_has {F : Tab Word} (x0 : Dev) (x1 : Int) (h0 : x0.Has F) :
    (Dev.timeSetTo x0 x1).1.Has F := by
  unfold Dev.timeSetTo
  repeat' (first | with_reducible assumption | with_reducible apply Dev.setQuality_has | with_reducible apply Dev.stepTime_has | with_reducible apply ite_fst_has | with_reducible apply ite_has | with_reducible apply foldS_has | with_reducible apply foldl_has | intro _ _ _ | intro _ | dsimp only | split | (fail_if_no_progress with_reducible apply Dev.Has.upd))

theorem opPpsEdge_has {F : Tab Word} (x0 : Nat) (x1 : Dev) (h1 : x1.Has F) :
    (opPpsEdge x0 x1).Has F := by
  unfold opPpsEdge
  repeat' (first | with_reducible assumption | with_reducible apply Dev.timeSetTo_has | with_reducible apply fst_has ‹_ = (_, _)› (Dev.timeSetTo_has ..) | with_reducible apply Dev.complete_has | with_reducible apply Dev.edgeQuality_has | with_reducible apply Dev.correctPps_has | with_reducible apply ite_has | with_reducible apply foldS_has | with_reducible apply foldl_has | intro _ _ _ | intro _ | dsimp only | split | (fail_if_no_progress with_reducible apply Dev.Has.upd))

theorem opPpsLost_has {F : Tab Word} (x0 : Dev) (h0 : x0.Has F) :
    (opPpsLost x0).Has F := by
  unfold opPpsLost
  repeat' (first | with_reducible assumption | with_reducible apply Dev.event_has | with_reducible apply Dev.setQuality_has | with_reducible apply ite_has | with_reducible apply foldS_has | with_reducible apply foldl_has | intro _ _ _ | intro _ | dsimp only | split | (fail_if_no_progress with_reducible apply Dev.Has.upd))

theorem Dev.switchSource_has {F : Tab Word} (x0 : Dev) (x1 : Bool) (h0 : x0.Has F) :
    (Dev.switchSource x0 x1).Has F := by
  unfold Dev.switchSource
  repeat' (first | with_reducible assumption | with_reducible apply Dev.event_has | with_reducible apply Dev.setQuality_has | with_reducible apply ite_has | with_reducible apply foldS_has | with_reducible apply foldl_has | intro _ _ _ | intro _ | dsimp only | split | (fail_if_no_progress with_reducible apply Dev.Has.upd))

theorem opRefLost_has {F : Tab Word} (x0 : Dev) (h0 : x0.Has F) :
    (opRefLost x0).Has F := by
  unfold opRefLost
  repeat' (first | with_reducible assumption | with_reducible apply Dev.switchSource_has | with_reducible apply ite_has | with_reducible apply foldS_has | with_reducible apply foldl_has | intro _ _ _ | intro _ | dsimp only | split | (fail_if_no_progress with_reducible apply Dev.Has.upd))

theorem opRefReturn_has {F : Tab Word} (x0 : Dev) (h0 : x0.Has F) :
    (opRefReturn x0).Has F := by
  unfold opRefReturn
  repeat' (first | with_reducible assumption | with_reducible apply Dev.switchSource_has | with_reducible apply ite_has | with_reducible apply foldS_has | with_reducible apply foldl_has | intro _ _ _ | intro _ | dsimp only | split | (fail_if_no_progress with_reducible apply Dev.Has.upd))

theorem opCoarseCalibration_has {F : Tab Word} (x0 : Dev) (h0 : x0.Has F) :
    (opCoarseCalibration x0).Has F := by
  unfold opCoarseCalibration
  repeat' (first | with_reducible assumption | with_reducible apply ite_has | with_reducible apply foldS_has | with_reducible apply foldl_has | intro _ _ _ | intro _ | dsimp only | split | (fail_if_no_progress with_reducible apply Dev.Has.upd))

theorem opHoldoverTick_has {F : Tab Word} (x0 : Dev) (h0 : x0.Has F) :
    (opHoldoverTick x0).Has F := by
  unfold opHoldoverTick
  repeat' (first | with_reducible assumption | with_reducible apply ite_has | with_reducible apply foldS_has | with_reducible apply foldl_has | intro _ _ _ | intro _ | dsimp only | split | (fail_if_no_progress with_reducible apply Dev.Has.upd))

theorem opPpsOutPulse_has {F : Tab Word} (x0 : Dev) (h0 : x0.Has F) :
    (opPpsOutPulse x0).Has F := by
  unfold opPpsOutPulse
  repeat' (first | with_reducible assumption | with_reducible apply Dev.refreshPins_has | with_reducible apply Dev.emit_has | with_reducible apply ite_has | with_reducible apply foldS_has | with_reducible apply foldl_has | intro _ _ _ | intro _ | dsimp only | split | (fail_if_no_progress with_reducible apply Dev.Has.upd))

theorem Dev.ppsFall_has {F : Tab Word} (x0 : Dev) (h0 : x0.Has F) :
    (Dev.ppsFall x0).Has F := by
  unfold Dev.ppsFall
  repeat' (first | with_reducible assumption | with_reducible apply Dev.refreshPins_has | with_reducible apply Dev.emit_has | with_reducible apply ite_has | with_reducible apply foldS_has | with_reducible apply foldl_has | intro _ _ _ | intro _ | dsimp only | split | (fail_if_no_progress with_reducible apply Dev.Has.upd))

theorem opPpsOutFall_has {F : Tab Word} (x0 : Dev) (h0 : x0.Has F) :
    (opPpsOutFall x0).Has F := by
  unfold opPpsOutFall
  repeat' (first | with_reducible assumption | with_reducible apply Dev.ppsFall_has | with_reducible apply ite_has | with_reducible apply foldS_has | with_reducible apply foldl_has | intro _ _ _ | intro _ | dsimp only | split | (fail_if_no_progress with_reducible apply Dev.Has.upd))

theorem opAlarmFire_has {F : Tab Word} (x0 : Dev) (h0 : x0.Has F) :
    (opAlarmFire x0).Has F := by
  unfold opAlarmFire
  repeat' (first | with_reducible assumption | with_reducible apply Dev.fireAlarm_has | with_reducible apply Dev.ringAlarm_has | with_reducible apply ite_has | with_reducible apply foldS_has | with_reducible apply foldl_has | intro _ _ _ | intro _ | dsimp only | split | (fail_if_no_progress with_reducible apply Dev.Has.upd))

theorem Dev.writeTimeCtrl_has {F : Tab Word} (x0 : Dev) (x1 : Word) (h0 : x0.Has F) :
    (Dev.writeTimeCtrl x0 x1).Has F := by
  unfold Dev.writeTimeCtrl
  repeat' (first | with_reducible assumption | with_reducible apply Dev.switchSource_has | with_reducible apply ite_has | with_reducible apply foldS_has | with_reducible apply foldl_has | intro _ _ _ | intro _ | dsimp only | split | (fail_if_no_progress with_reducible apply Dev.Has.upd))

theorem Dev.writeTime_has {F : Tab Word} (x0 : Dev) (x1 : Nat) (x2 : Word) (h0 : x0.Has F) :
    (Dev.writeTime x0 x1 x2).Has F := by
  unfold Dev.writeTime
  repeat' (first | with_reducible assumption | with_reducible apply Dev.writeTimeCtrl_has | with_reducible apply Dev.refreshPins_has | with_reducible apply ite_has | with_reducible apply foldS_has | with_reducible apply foldl_has | intro _ _ _ | intro _ | dsimp only | split | (fail_if_no_progress with_reducible apply Dev.Has.upd))

theorem opAlarmArm_has {F : Tab Word} (x0 : Path) (x1 : Word) (x2 : Dev) (h2 : x2.Has F) :
    (opAlarmArm x0 x1 x2).Has F := by
  unfold opAlarmArm
  repeat' (first | with_reducible assumption | with_reducible apply Dev.filtered_has | with_reducible apply Dev.writeTime_has | with_reducible apply ite_has | with_reducible apply foldS_has | with_reducible apply foldl_has | intro _ _ _ | intro _ | dsimp only | split | (fail_if_no_progress with_reducible apply Dev.Has.upd))

theorem opTimeIncFracWrite_has {F : Tab Word} (x0 : Path) (x1 : Word) (x2 : Dev) (h2 : x2.Has F) :
    (opTimeIncFracWrite x0 x1 x2).Has F := by
  unfold opTimeIncFracWrite
  repeat' (first | with_reducible assumption | with_reducible apply Dev.filtered_has | with_reducible apply Dev.writeTime_has | with_reducible apply ite_has | with_reducible apply foldS_has | with_reducible apply foldl_has | intro _ _ _ | intro _ | dsimp only | split | (fail_if_no_progress with_reducible apply Dev.Has.upd))

theorem opTimeCtrlWrite_has {F : Tab Word} (x0 : Path) (x1 : Word) (x2 : Dev) (h2 : x2.Has F) :
    (opTimeCtrlWrite x0 x1 x2).Has F := by
  unfold opTimeCtrlWrite
  repeat' (first | with_reducible assumption | with_reducible apply Dev.filtered_has | with_reducible apply Dev.writeTime_has | with_reducible apply ite_has | with_reducible apply foldS_has | with_reducible apply foldl_has | intro _ _ _ | intro _ | dsimp only | split | (fail_if_no_progress with_reducible apply Dev.Has.upd))

theorem opTimeSecLoRead_has {F : Tab Word} (x0 : Path) (x1 : Dev) (h1 : x1.Has F) :
    (opTimeSecLoRead x0 x1).Has F := by
  unfold opTimeSecLoRead
  repeat' (first | with_reducible assumption | with_reducible apply Dev.readThrough_has | with_reducible apply ite_has | with_reducible apply foldS_has | with_reducible apply foldl_has | intro _ _ _ | intro _ | dsimp only | split | (fail_if_no_progress with_reducible apply Dev.Has.upd))

theorem opTimeSet_has {F : Tab Word} (x0 : Issuer) (x1 : Desc) (x2 : Dev) (h2 : x2.Has F) :
    (opTimeSet x0 x1 x2).Has F := by
  unfold opTimeSet
  repeat' (first | with_reducible assumption | with_reducible apply Dev.begin_has | with_reducible apply Dev.complete_has | with_reducible apply Dev.setKind_has | with_reducible apply Dev.timeSetTo_has | with_reducible apply fst_has ‹_ = (_, _)› (Dev.timeSetTo_has ..) | with_reducible apply ite_has | with_reducible apply foldS_has | with_reducible apply foldl_has | intro _ _ _ | intro _ | dsimp only | split | (fail_if_no_progress with_reducible apply Dev.Has.upd))

theorem opTimeSetPpsTimeout_has {F : Tab Word} (x0 : Dev) (h0 : x0.Has F) :
    (opTimeSetPpsTimeout x0).Has F := by
  unfold opTimeSetPpsTimeout
  repeat' (first | with_reducible assumption | with_reducible apply Dev.complete_has | with_reducible apply ite_has | with_reducible apply foldS_has | with_reducible apply foldl_has | intro _ _ _ | intro _ | dsimp only | split | (fail_if_no_progress with_reducible apply Dev.Has.upd))

theorem opTimeAdj_has {F : Tab Word} (x0 : Issuer) (x1 : Desc) (x2 : Dev) (h2 : x2.Has F) :
    (opTimeAdj x0 x1 x2).Has F := by
  unfold opTimeAdj
  repeat' (first | with_reducible assumption | with_reducible apply Dev.begin_has | with_reducible apply Dev.complete_has | with_reducible apply Dev.setQuality_has | with_reducible apply Dev.stepTime_has | with_reducible apply Dev.setKind_has | with_reducible apply ite_has | with_reducible apply foldS_has | with_reducible apply foldl_has | intro _ _ _ | intro _ | dsimp only | split | (fail_if_no_progress with_reducible apply Dev.Has.upd))

theorem opSlewEnd_has {F : Tab Word} (x0 : Dev) (h0 : x0.Has F) :
    (opSlewEnd x0).Has F := by
  unfold opSlewEnd
  repeat' (first | with_reducible assumption | with_reducible apply Dev.complete_has | with_reducible apply Dev.fireAlarm_has | with_reducible apply ite_has | with_reducible apply foldS_has | with_reducible apply foldl_has | intro _ _ _ | intro _ | dsimp only | split | (fail_if_no_progress with_reducible apply Dev.Has.upd))

theorem Dev.endTimeCmd_has {F : Tab Word} (x0 : Dev) (h0 : x0.Has F) :
    (Dev.endTimeCmd x0).Has F := by
  unfold Dev.endTimeCmd
  repeat' (first | with_reducible assumption | with_reducible apply Dev.complete_has | with_reducible apply ite_has | with_reducible apply foldS_has | with_reducible apply foldl_has | intro _ _ _ | intro _ | dsimp only | split | (fail_if_no_progress with_reducible apply Dev.Has.upd))

theorem opTimeUnitParityFault_has {F : Tab Word} (x0 : Dev) (h0 : x0.Has F) :
    (opTimeUnitParityFault x0).Has F := by
  unfold opTimeUnitParityFault
  repeat' (first | with_reducible assumption | with_reducible apply Dev.fault_has | with_reducible apply Dev.setQuality_has | with_reducible apply Dev.endTimeCmd_has | with_reducible apply ite_has | with_reducible apply foldS_has | with_reducible apply foldl_has | intro _ _ _ | intro _ | dsimp only | split | (fail_if_no_progress with_reducible apply Dev.Has.upd))

theorem Dev.timeStop_has {F : Tab Word} (x0 : Dev) (x1 : BitVec 48) (h0 : x0.Has F) :
    (Dev.timeStop x0 x1).Has F := by
  unfold Dev.timeStop
  repeat' (first | with_reducible assumption | with_reducible apply Dev.ppsFall_has | with_reducible apply Dev.setUnit_has | with_reducible apply ite_has | with_reducible apply foldS_has | with_reducible apply foldl_has | intro _ _ _ | intro _ | dsimp only | split | (fail_if_no_progress with_reducible apply Dev.Has.upd))

theorem Dev.timeReload_has {F : Tab Word} (x0 : Dev) (x1 : BitVec 48) (h0 : x0.Has F) :
    (Dev.timeReload x0 x1).Has F := by
  unfold Dev.timeReload
  split
  · exact h0
  · extract_lets ratio el elapsed stab grow bound x src t1 d1
    have h1 : d1.Has F := Dev.Has.upd h0
    clear_value d1 bound el grow x
    refine ite_has (Dev.fireAlarm_has _ h1) (ite_has (Dev.fireAlarm_has _ (Dev.setQuality_has _ _ h1)) ?_)
    rename_i d2 _ d3
    have h2 : d2.Has F := Dev.setQuality_has _ _ h1
    have h3 : d3.Has F := Dev.Has.upd h2
    clear_value d3
    split
    · exact Dev.fireAlarm_has _ h3
    · exact ite_has (Dev.fireAlarm_has _ (Dev.Has.upd h3)) (Dev.fireAlarm_has _ h3)

end Sys2Proof.Machine
end

