-- ==== Sys2Proof/Laws/KeepsPower.lean ====
section
/-! SUPPORT. Every operation of Machine/Power.lean keeps what Laws/Keeps.lean states. -/

set_option linter.unusedTactic false
set_option linter.unreachableTactic false
set_option linter.unusedVariables false

namespace Sys2Proof.Machine

theorem Dev.askUnit_has {F : Tab Word} (x0 : Dev) (x1 : Nat) (h0 : x0.Has F) :
    (Dev.askUnit x0 x1).Has F := by
  unfold Dev.askUnit
  repeat' (first | with_reducible assumption | with_reducible apply Dev.setQreq_has | with_reducible apply Dev.emit_has | with_reducible apply Dev.modLink_has | with_reducible apply ite_has | with_reducible apply foldS_has | with_reducible apply foldl_has | intro _ _ _ | intro _ | dsimp only | split | (fail_if_no_progress with_reducible apply Dev.Has.upd))

theorem Dev.goToSleep_has {F : Tab Word} (x0 : Dev) (x1 : Nat) (h0 : x0.Has F) :
    (Dev.goToSleep x0 x1).Has F := by
  unfold Dev.goToSleep
  repeat' (first | with_reducible assumption | with_reducible apply Dev.setUnit_has | with_reducible apply Dev.abandonBank_has | with_reducible apply ite_has | with_reducible apply foldS_has | with_reducible apply foldl_has | intro _ _ _ | intro _ | dsimp only | split | (fail_if_no_progress with_reducible apply Dev.Has.upd))

theorem Dev.sleepUnits_has {F : Tab Word} (x0 : Dev) (x1 : List Nat) (h0 : x0.Has F) :
    (Dev.sleepUnits x0 x1).Has F := by
  unfold Dev.sleepUnits
  repeat' (first | with_reducible assumption | with_reducible apply Dev.shutPans_has | with_reducible apply Dev.keepSinks_has | with_reducible apply Dev.setUnit_has | with_reducible apply Dev.goToSleep_has | with_reducible apply ite_has | with_reducible apply foldS_has | with_reducible apply foldl_has | intro _ _ _ | intro _ | dsimp only | split | (fail_if_no_progress with_reducible apply Dev.Has.upd))

theorem Dev.stopPlls_has {F : Tab Word} (x0 : Dev) (x1 : Bool) (h0 : x0.Has F) :
    (Dev.stopPlls x0 x1).Has F := by
  unfold Dev.stopPlls
  repeat' (first | with_reducible assumption | with_reducible apply ite_has | with_reducible apply foldS_has | with_reducible apply foldl_has | intro _ _ _ | intro _ | dsimp only | split | (fail_if_no_progress with_reducible apply Dev.Has.upd))

theorem Dev.unpower_has {F : Tab Word} (x0 : Dev) (h0 : x0.Has F) :
    (Dev.unpower x0).Has F := by
  unfold Dev.unpower
  repeat' (first | with_reducible assumption | with_reducible apply Dev.refreshPins_has | with_reducible apply Dev.modHp_has | with_reducible apply ite_has | with_reducible apply foldS_has | with_reducible apply foldl_has | intro _ _ _ | intro _ | dsimp only | split | (fail_if_no_progress with_reducible apply Dev.Has.upd))

theorem Dev.beginWake_has {F : Tab Word} (x0 : Dev) (x1 : Bool) (x2 : Nat) (x3 : Nat) (x4 : Straps) (x5 : StartCells) (h0 : x0.Has F) :
    (Dev.beginWake x0 x1 x2 x3 x4 x5).Has F := by
  unfold Dev.beginWake
  repeat' (first | with_reducible assumption | with_reducible apply Dev.startUp_has | with_reducible apply Dev.clearedWarm_has | with_reducible apply ite_has | with_reducible apply foldS_has | with_reducible apply foldl_has | intro _ _ _ | intro _ | dsimp only | split | (fail_if_no_progress with_reducible apply Dev.Has.upd))

theorem Dev.powerDrop_has {F : Tab Word} (x0 : Dev) (h0 : x0.Has F) :
    (Dev.powerDrop x0).Has F := by
  unfold Dev.powerDrop
  repeat' (first | with_reducible assumption | with_reducible apply Dev.saveAll_has | with_reducible apply fst_has ‹_ = (_, _)› (Dev.saveAll_has ..) | with_reducible apply Dev.sleepUnits_has | with_reducible apply Dev.stopPlls_has | with_reducible apply Dev.unpower_has | with_reducible apply Dev.refreshPins_has | with_reducible apply Dev.beginWake_has | with_reducible apply ite_has | with_reducible apply foldS_has | with_reducible apply foldl_has | intro _ _ _ | intro _ | dsimp only | split | (fail_if_no_progress with_reducible apply Dev.Has.upd))

theorem Dev.askStep_has {F : Tab Word} (x0 : Dev) (x1 : Nat) (x2 : Nat) (h0 : x0.Has F) :
    (Dev.askStep x0 x1 x2).Has F := by
  induction x1 generalizing x0 x2 with
  | zero =>
    unfold Dev.askStep
    repeat' (first | with_reducible assumption | with_reducible apply Dev.powerDrop_has | with_reducible apply Dev.askUnit_has | with_reducible apply ite_has | with_reducible apply foldS_has | with_reducible apply foldl_has | intro _ _ _ | intro _ | dsimp only | split | (fail_if_no_progress with_reducible apply Dev.Has.upd))
  | succ k ih =>
    unfold Dev.askStep
    repeat' (first | with_reducible assumption | with_reducible apply ih | with_reducible apply Dev.powerDrop_has | with_reducible apply Dev.askUnit_has | with_reducible apply ite_has | with_reducible apply foldS_has | with_reducible apply foldl_has | intro _ _ _ | intro _ | dsimp only | split | (fail_if_no_progress with_reducible apply Dev.Has.upd))

theorem Dev.abortSleep_has {F : Tab Word} (x0 : Dev) (h0 : x0.Has F) :
    (Dev.abortSleep x0).Has F := by
  unfold Dev.abortSleep
  repeat' (first | with_reducible assumption | with_reducible apply Dev.setQreq_has | with_reducible apply Dev.emit_has | with_reducible apply Dev.modLink_has | with_reducible apply Dev.resumeRake_has | with_reducible apply Dev.complete_has | with_reducible apply ite_has | with_reducible apply foldS_has | with_reducible apply foldl_has | intro _ _ _ | intro _ | dsimp only | split | (fail_if_no_progress with_reducible apply Dev.Has.upd))

theorem Dev.stepEnd_has {F : Tab Word} (x0 : Dev) (h0 : x0.Has F) :
    (Dev.stepEnd x0).Has F := by
  unfold Dev.stepEnd
  repeat' (first | with_reducible assumption | with_reducible apply Dev.askStep_has | with_reducible apply Dev.abortSleep_has | with_reducible apply ite_has | with_reducible apply foldS_has | with_reducible apply foldl_has | intro _ _ _ | intro _ | dsimp only | split | (fail_if_no_progress with_reducible apply Dev.Has.upd))

theorem Dev.restoreSlots_has {F : Tab Word} (x0 : Dev) (h0 : x0.Has F) :
    (Dev.restoreSlots x0).Has F := by
  unfold Dev.restoreSlots
  repeat' (first | with_reducible assumption | with_reducible apply Dev.modBank_has | with_reducible apply ite_has | with_reducible apply foldS_has | with_reducible apply foldl_has | intro _ _ _ | intro _ | dsimp only | split | (fail_if_no_progress with_reducible apply Dev.Has.upd))

theorem Dev.onAccept_has {F : Tab Word} (x0 : Dev) (x1 : Nat) (h0 : x0.Has F) :
    (Dev.onAccept x0 x1).Has F := by
  unfold Dev.onAccept
  repeat' (first | with_reducible assumption | with_reducible apply Dev.abortPst_has | with_reducible apply Dev.restoreSlots_has | with_reducible apply Dev.abandonPre_has | with_reducible apply Dev.modBank_has | with_reducible apply Dev.emit_has | with_reducible apply ite_has | with_reducible apply foldS_has | with_reducible apply foldl_has | intro _ _ _ | intro _ | dsimp only | split | (fail_if_no_progress with_reducible apply Dev.Has.upd))

theorem Dev.acceptUnit_has {F : Tab Word} (x0 : Dev) (x1 : Nat) (h0 : x0.Has F) :
    (Dev.acceptUnit x0 x1).Has F := by
  unfold Dev.acceptUnit
  repeat' (first | with_reducible assumption | with_reducible apply Dev.onAccept_has | with_reducible apply Dev.stepEnd_has | with_reducible apply ite_has | with_reducible apply foldS_has | with_reducible apply foldl_has | intro _ _ _ | intro _ | dsimp only | split | (fail_if_no_progress with_reducible apply Dev.Has.upd))

theorem Dev.refuseUnit_has {F : Tab Word} (x0 : Dev) (x1 : Nat) (x2 : Nat) (h0 : x0.Has F) :
    (Dev.refuseUnit x0 x1 x2).Has F := by
  unfold Dev.refuseUnit
  repeat' (first | with_reducible assumption | with_reducible apply Dev.stepEnd_has | with_reducible apply ite_has | with_reducible apply foldS_has | with_reducible apply foldl_has | intro _ _ _ | intro _ | dsimp only | split | (fail_if_no_progress with_reducible apply Dev.Has.upd))

theorem opUnitStopAccept_has {F : Tab Word} (x0 : Nat) (x1 : Dev) (h1 : x1.Has F) :
    (opUnitStopAccept x0 x1).Has F := by
  unfold opUnitStopAccept
  repeat' (first | with_reducible assumption | with_reducible apply Dev.acceptUnit_has | with_reducible apply ite_has | with_reducible apply foldS_has | with_reducible apply foldl_has | intro _ _ _ | intro _ | dsimp only | split | (fail_if_no_progress with_reducible apply Dev.Has.upd))

theorem opUnitStopRefuse_has {F : Tab Word} (x0 : Nat) (x1 : Dev) (h1 : x1.Has F) :
    (opUnitStopRefuse x0 x1).Has F := by
  unfold opUnitStopRefuse
  repeat' (first | with_reducible assumption | with_reducible apply Dev.refuseUnit_has | with_reducible apply ite_has | with_reducible apply foldS_has | with_reducible apply foldl_has | intro _ _ _ | intro _ | dsimp only | split | (fail_if_no_progress with_reducible apply Dev.Has.upd))

theorem opPwrStopTimeout_has {F : Tab Word} (x0 : Dev) (h0 : x0.Has F) :
    (opPwrStopTimeout x0).Has F := by
  unfold opPwrStopTimeout
  repeat' (first | with_reducible assumption | with_reducible apply Dev.stepEnd_has | with_reducible apply ite_has | with_reducible apply foldS_has | with_reducible apply foldl_has | intro _ _ _ | intro _ | dsimp only | split | (fail_if_no_progress with_reducible apply Dev.Has.upd))

theorem opWait_has {F : Tab Word} (x0 : Issuer) (x1 : Desc) (x2 : Dev) (h2 : x2.Has F) :
    (opWait x0 x1 x2).Has F := by
  unfold opWait
  repeat' (first | with_reducible assumption | with_reducible apply Dev.beginAt_has | with_reducible apply Dev.complete_has | with_reducible apply Dev.setKind_has | with_reducible apply Dev.askStep_has | with_reducible apply ite_has | with_reducible apply foldS_has | with_reducible apply foldl_has | intro _ _ _ | intro _ | dsimp only | split | (fail_if_no_progress with_reducible apply Dev.Has.upd))

theorem Dev.sleepAnswer_has {F : Tab Word} (x0 : Dev) (x1 : Nat) (x2 : Bool) (h0 : x0.Has F) :
    (Dev.sleepAnswer x0 x1 x2).Has F := by
  unfold Dev.sleepAnswer
  repeat' (first | with_reducible assumption | with_reducible apply Dev.modLink_has | with_reducible apply Dev.acceptUnit_has | with_reducible apply Dev.refuseUnit_has | with_reducible apply ite_has | with_reducible apply foldS_has | with_reducible apply foldl_has | intro _ _ _ | intro _ | dsimp only | split | (fail_if_no_progress with_reducible apply Dev.Has.upd))

theorem opSleepBlock_has {F : Tab Word} (x0 : Nat) (x1 : SleepKind) (x2 : Dev) (h2 : x2.Has F) :
    (opSleepBlock x0 x1 x2).Has F := by
  unfold opSleepBlock
  repeat' (first | with_reducible assumption | with_reducible apply Dev.emit_has | with_reducible apply Dev.modLink_has | with_reducible apply Dev.sleepAnswer_has | with_reducible apply Dev.flushLink_has | with_reducible apply ite_has | with_reducible apply foldS_has | with_reducible apply foldl_has | intro _ _ _ | intro _ | dsimp only | split | (fail_if_no_progress with_reducible apply Dev.Has.upd))

theorem opSleepAnswerTimeout_has {F : Tab Word} (x0 : Nat) (x1 : Dev) (h1 : x1.Has F) :
    (opSleepAnswerTimeout x0 x1).Has F := by
  unfold opSleepAnswerTimeout
  repeat' (first | with_reducible assumption | with_reducible apply Dev.sleepAnswer_has | with_reducible apply ite_has | with_reducible apply foldS_has | with_reducible apply foldl_has | intro _ _ _ | intro _ | dsimp only | split | (fail_if_no_progress with_reducible apply Dev.Has.upd))

theorem opWakeEvent_has {F : Tab Word} (x0 : BitVec 4) (x1 : Nat) (x2 : Straps) (x3 : StartCells) (x4 : Dev) (h4 : x4.Has F) :
    (opWakeEvent x0 x1 x2 x3 x4).Has F := by
  unfold opWakeEvent
  repeat' (first | with_reducible assumption | with_reducible apply Dev.beginWake_has | with_reducible apply ite_has | with_reducible apply foldS_has | with_reducible apply foldl_has | intro _ _ _ | intro _ | dsimp only | split | (fail_if_no_progress with_reducible apply Dev.Has.upd))

theorem Dev.wakeUnit_has {F : Tab Word} (x0 : Dev) (x1 : Nat) (h0 : x0.Has F) :
    (Dev.wakeUnit x0 x1).Has F := by
  unfold Dev.wakeUnit
  repeat' (first | with_reducible assumption | with_reducible apply Dev.fportToIdle_has | with_reducible apply Dev.setUnit_has | with_reducible apply Dev.modFport_has | with_reducible apply ite_has | with_reducible apply foldS_has | with_reducible apply foldl_has | intro _ _ _ | intro _ | dsimp only | split | (fail_if_no_progress with_reducible apply Dev.Has.upd))

theorem Dev.wakeUnits_has {F : Tab Word} (x0 : Dev) (x1 : Nat → Bool) (h0 : x0.Has F) :
    (Dev.wakeUnits x0 x1).Has F := by
  unfold Dev.wakeUnits
  repeat' (first | with_reducible assumption | with_reducible apply Dev.wakeUnit_has | with_reducible apply Dev.noteFault_has | with_reducible apply ite_has | with_reducible apply foldS_has | with_reducible apply foldl_has | intro _ _ _ | intro _ | dsimp only | split | (fail_if_no_progress with_reducible apply Dev.Has.upd))

theorem Dev.noteWoken_has {F : Tab Word} (x0 : Dev) (x1 : Dev) (h0 : x0.Has F) (h1 : x1.Has F) :
    (Dev.noteWoken x0 x1).Has F := by
  unfold Dev.noteWoken
  repeat' (first | with_reducible assumption | with_reducible apply Dev.modMg_has | with_reducible apply ite_has | with_reducible apply foldS_has | with_reducible apply foldl_has | intro _ _ _ | intro _ | dsimp only | split | (fail_if_no_progress with_reducible apply Dev.Has.upd))

theorem Dev.afterWake_has {F : Tab Word} (x0 : Dev) (x1 : List Nat) (h0 : x0.Has F) :
    (Dev.afterWake x0 x1).Has F := by
  unfold Dev.afterWake
  repeat' (first | with_reducible assumption | with_reducible apply Dev.pushRxLine_has | with_reducible apply Dev.refreshPins_has | with_reducible apply Dev.settle_has | with_reducible apply ite_has | with_reducible apply foldS_has | with_reducible apply foldl_has | intro _ _ _ | intro _ | dsimp only | split | (fail_if_no_progress with_reducible apply Dev.Has.upd))

theorem Dev.wakePans_has {F : Tab Word} (x0 : Dev) (x1 : List Nat) (h0 : x0.Has F) :
    (Dev.wakePans x0 x1).Has F := by
  unfold Dev.wakePans
  repeat' (first | with_reducible assumption | with_reducible apply Dev.setQreq_has | with_reducible apply Dev.modPan_has | with_reducible apply Dev.sourcesOf_has | with_reducible apply ite_has | with_reducible apply foldS_has | with_reducible apply foldl_has | intro _ _ _ | intro _ | dsimp only | split | (fail_if_no_progress with_reducible apply Dev.Has.upd))

theorem Dev.wakeLink_has {F : Tab Word} (x0 : Dev) (x1 : List Nat) (x2 : Nat) (h0 : x0.Has F) :
    (Dev.wakeLink x0 x1 x2).Has F := by
  unfold Dev.wakeLink
  repeat' (first | with_reducible assumption | with_reducible apply Dev.downLink_has | with_reducible apply fst_has ‹_ = (_, _)› (Dev.downLink_has ..) | with_reducible apply ite_has | with_reducible apply foldS_has | with_reducible apply foldl_has | intro _ _ _ | intro _ | dsimp only | split | (fail_if_no_progress with_reducible apply Dev.Has.upd))

theorem Dev.sleepTime_has {F : Tab Word} (x0 : Dev) (x1 : Nat) (h0 : x0.Has F) :
    (Dev.sleepTime x0 x1).Has F := by
  unfold Dev.sleepTime
  repeat' (first | with_reducible assumption | with_reducible apply Dev.setTokens_has | with_reducible apply ite_has | with_reducible apply foldS_has | with_reducible apply foldl_has | intro _ _ _ | intro _ | dsimp only | split | (fail_if_no_progress with_reducible apply Dev.Has.upd))

theorem Dev.wakeSaves_has {F : Tab Word} (x0 : Dev) (x1 : List Nat) (h0 : x0.Has F) :
    (Dev.wakeSaves x0 x1).Has F := by
  unfold Dev.wakeSaves
  repeat' (first | with_reducible assumption | with_reducible apply Dev.sourcesOf_has | with_reducible apply Dev.consume_has | with_reducible apply ite_has | with_reducible apply foldS_has | with_reducible apply foldl_has | intro _ _ _ | intro _ | dsimp only | split | (fail_if_no_progress with_reducible apply Dev.Has.upd))

theorem opWakeComplete_has {F : Tab Word} (x0 : Nat) (x1 : Dev) (h1 : x1.Has F) :
    (opWakeComplete x0 x1).Has F := by
  unfold opWakeComplete
  repeat' (first | with_reducible assumption | with_reducible apply Dev.wakeUnits_has | with_reducible apply Dev.sleepTime_has | with_reducible apply Dev.stopPlls_has | with_reducible apply Dev.wakeHost_has | with_reducible apply Dev.wakeLink_has | with_reducible apply Dev.wakePans_has | with_reducible apply Dev.wakeSaves_has | with_reducible apply Dev.setUnit_has | with_reducible apply Dev.noteWoken_has | with_reducible apply Dev.afterWake_has | with_reducible apply Dev.resumeRake_has | with_reducible apply Dev.complete_has | with_reducible apply ite_has | with_reducible apply foldS_has | with_reducible apply foldl_has | intro _ _ _ | intro _ | dsimp only | split | (fail_if_no_progress with_reducible apply Dev.Has.upd))

theorem opDeepEntryC0_has {F : Tab Word} (x0 : BitVec 48) (x1 : Dev) (h1 : x1.Has F) :
    (opDeepEntryC0 x0 x1).Has F := by
  unfold opDeepEntryC0
  repeat' (first | with_reducible assumption | with_reducible apply Dev.acceptUnit_has | with_reducible apply Dev.timeStop_has | with_reducible apply ite_has | with_reducible apply foldS_has | with_reducible apply foldl_has | intro _ _ _ | intro _ | dsimp only | split | (fail_if_no_progress with_reducible apply Dev.Has.upd))

theorem opWakeReloadC1_has {F : Tab Word} (x0 : BitVec 48) (x1 : Dev) (h1 : x1.Has F) :
    (opWakeReloadC1 x0 x1).Has F := by
  unfold opWakeReloadC1
  repeat' (first | with_reducible assumption | with_reducible apply Dev.timeReload_has | with_reducible apply Dev.noteWoken_has | with_reducible apply Dev.returnUnit_has | with_reducible apply ite_has | with_reducible apply foldS_has | with_reducible apply foldl_has | intro _ _ _ | intro _ | dsimp only | split | (fail_if_no_progress with_reducible apply Dev.Has.upd))

theorem opDomainWakeOnAccess_has {F : Tab Word} (x0 : Nat) (x1 : Dev) (h1 : x1.Has F) :
    (opDomainWakeOnAccess x0 x1).Has F := by
  unfold opDomainWakeOnAccess
  repeat' (first | with_reducible assumption | with_reducible apply ite_has | with_reducible apply foldS_has | with_reducible apply foldl_has | intro _ _ _ | intro _ | dsimp only | split | (fail_if_no_progress with_reducible apply Dev.Has.upd))

theorem opDomainReady_has {F : Tab Word} (x0 : Nat) (x1 : Dev) (h1 : x1.Has F) :
    (opDomainReady x0 x1).Has F := by
  unfold opDomainReady
  repeat' (first | with_reducible assumption | with_reducible apply Dev.wakeUnits_has | with_reducible apply Dev.modPan_has | with_reducible apply Dev.afterWake_has | with_reducible apply Dev.noteWoken_has | with_reducible apply ite_has | with_reducible apply foldS_has | with_reducible apply foldl_has | intro _ _ _ | intro _ | dsimp only | split | (fail_if_no_progress with_reducible apply Dev.Has.upd))

theorem opResleepTimeout_has {F : Tab Word} (x0 : Nat) (x1 : Dev) (h1 : x1.Has F) :
    (opResleepTimeout x0 x1).Has F := by
  unfold opResleepTimeout
  repeat' (first | with_reducible assumption | with_reducible apply Dev.shutPan_has | with_reducible apply Dev.refreshPins_has | with_reducible apply Dev.goToSleep_has | with_reducible apply ite_has | with_reducible apply foldS_has | with_reducible apply foldl_has | intro _ _ _ | intro _ | dsimp only | split | (fail_if_no_progress with_reducible apply Dev.Has.upd))

theorem Dev.pfwStart_has {F : Tab Word} (x0 : Dev) (h0 : x0.Has F) :
    (Dev.pfwStart x0).Has F := by
  unfold Dev.pfwStart
  repeat' (first | with_reducible assumption | with_reducible apply ite_has | with_reducible apply foldS_has | with_reducible apply foldl_has | intro _ _ _ | intro _ | dsimp only | split | (fail_if_no_progress with_reducible apply Dev.Has.upd))

theorem Dev.pfwFalls_has {F : Tab Word} (x0 : Dev) (h0 : x0.Has F) :
    (Dev.pfwFalls x0).Has F := by
  unfold Dev.pfwFalls
  repeat' (first | with_reducible assumption | with_reducible apply ite_has | with_reducible apply foldS_has | with_reducible apply foldl_has | intro _ _ _ | intro _ | dsimp only | split | (fail_if_no_progress with_reducible apply Dev.Has.upd))

theorem opPfwAssert_has {F : Tab Word} (x0 : Dev) (h0 : x0.Has F) :
    (opPfwAssert x0).Has F := by
  unfold opPfwAssert
  repeat' (first | with_reducible assumption | with_reducible apply Dev.pfwFalls_has | with_reducible apply Dev.pfwStart_has | with_reducible apply Dev.pfwSave_has | with_reducible apply Dev.beginWake_has | with_reducible apply ite_has | with_reducible apply foldS_has | with_reducible apply foldl_has | intro _ _ _ | intro _ | dsimp only | split | (fail_if_no_progress with_reducible apply Dev.Has.upd))

theorem opPfwReturn_has {F : Tab Word} (x0 : Dev) (h0 : x0.Has F) :
    (opPfwReturn x0).Has F := by
  unfold opPfwReturn
  repeat' (first | with_reducible assumption | with_reducible apply ite_has | with_reducible apply foldS_has | with_reducible apply foldl_has | intro _ _ _ | intro _ | dsimp only | split | (fail_if_no_progress with_reducible apply Dev.Has.upd))

theorem opPfwReturnTimeout_has {F : Tab Word} (x0 : Straps) (x1 : StartCells) (x2 : Dev) (h2 : x2.Has F) :
    (opPfwReturnTimeout x0 x1 x2).Has F := by
  unfold opPfwReturnTimeout
  repeat' (first | with_reducible assumption | with_reducible apply Dev.beginWake_has | with_reducible apply Dev.startUp_has | with_reducible apply Dev.clearedWarm_has | with_reducible apply ite_has | with_reducible apply foldS_has | with_reducible apply foldl_has | intro _ _ _ | intro _ | dsimp only | split | (fail_if_no_progress with_reducible apply Dev.Has.upd))

theorem Dev.modPll_has {F : Tab Word} (x0 : Dev) (x1 : Nat) (x2 : Pll → Pll) (h0 : x0.Has F) :
    (Dev.modPll x0 x1 x2).Has F := by
  unfold Dev.modPll
  repeat' (first | with_reducible assumption | with_reducible apply ite_has | with_reducible apply foldS_has | with_reducible apply foldl_has | intro _ _ _ | intro _ | dsimp only | split | (fail_if_no_progress with_reducible apply Dev.Has.upd))

theorem opPllLossOfLock_has {F : Tab Word} (x0 : Nat) (x1 : Dev) (h1 : x1.Has F) :
    (opPllLossOfLock x0 x1).Has F := by
  unfold opPllLossOfLock
  repeat' (first | with_reducible assumption | with_reducible apply Dev.modPll_has | with_reducible apply Dev.fault_has | with_reducible apply ite_has | with_reducible apply foldS_has | with_reducible apply foldl_has | intro _ _ _ | intro _ | dsimp only | split | (fail_if_no_progress with_reducible apply Dev.Has.upd))

theorem Dev.afterRelock_has {F : Tab Word} (x0 : Dev) (x1 : Nat) (h0 : x0.Has F) :
    (Dev.afterRelock x0 x1).Has F := by
  unfold Dev.afterRelock
  repeat' (first | with_reducible assumption | with_reducible apply Dev.resumeRake_has | with_reducible apply Dev.afterWake_has | with_reducible apply ite_has | with_reducible apply foldS_has | with_reducible apply foldl_has | intro _ _ _ | intro _ | dsimp only | split | (fail_if_no_progress with_reducible apply Dev.Has.upd))

theorem opPllRelock_has {F : Tab Word} (x0 : Nat) (x1 : Dev) (h1 : x1.Has F) :
    (opPllRelock x0 x1).Has F := by
  unfold opPllRelock
  repeat' (first | with_reducible assumption | with_reducible apply Dev.afterRelock_has | with_reducible apply Dev.modPll_has | with_reducible apply ite_has | with_reducible apply foldS_has | with_reducible apply foldl_has | intro _ _ _ | intro _ | dsimp only | split | (fail_if_no_progress with_reducible apply Dev.Has.upd))

theorem opQuadPllLossOfLock_has {F : Tab Word} (x0 : Nat) (x1 : Dev) (h1 : x1.Has F) :
    (opQuadPllLossOfLock x0 x1).Has F := by
  unfold opQuadPllLossOfLock
  repeat' (first | with_reducible assumption | with_reducible apply ite_has | with_reducible apply foldS_has | with_reducible apply foldl_has | intro _ _ _ | intro _ | dsimp only | split | (fail_if_no_progress with_reducible apply Dev.Has.upd))

theorem opLfCrystalTimeout_has {F : Tab Word} (x0 : Dev) (h0 : x0.Has F) :
    (opLfCrystalTimeout x0).Has F := by
  unfold opLfCrystalTimeout
  repeat' (first | with_reducible assumption | with_reducible apply ite_has | with_reducible apply foldS_has | with_reducible apply foldl_has | intro _ _ _ | intro _ | dsimp only | split | (fail_if_no_progress with_reducible apply Dev.Has.upd))

theorem opClkMeasStart_has {F : Tab Word} (x0 : Path) (x1 : Word) (x2 : Dev) (h2 : x2.Has F) :
    (opClkMeasStart x0 x1 x2).Has F := by
  unfold opClkMeasStart
  repeat' (first | with_reducible assumption | with_reducible apply Dev.filtered_has | with_reducible apply ite_has | with_reducible apply foldS_has | with_reducible apply foldl_has | intro _ _ _ | intro _ | dsimp only | split | (fail_if_no_progress with_reducible apply Dev.Has.upd))

theorem opClkMeasDone_has {F : Tab Word} (x0 : Nat) (x1 : Dev) (h1 : x1.Has F) :
    (opClkMeasDone x0 x1).Has F := by
  unfold opClkMeasDone
  repeat' (first | with_reducible assumption | with_reducible apply ite_has | with_reducible apply foldS_has | with_reducible apply foldl_has | intro _ _ _ | intro _ | dsimp only | split | (fail_if_no_progress with_reducible apply Dev.Has.upd))

theorem Dev.writePwr_has {F : Tab Word} (x0 : Dev) (x1 : Nat) (x2 : Word) (h0 : x0.Has F) :
    (Dev.writePwr x0 x1 x2).Has F := by
  unfold Dev.writePwr
  repeat' (first | with_reducible assumption | with_reducible apply ite_has | with_reducible apply foldS_has | with_reducible apply foldl_has | intro _ _ _ | intro _ | dsimp only | split | (fail_if_no_progress with_reducible apply Dev.Has.upd))

theorem Dev.writeClk_has {F : Tab Word} (x0 : Dev) (x1 : Nat) (x2 : Word) (h0 : x0.Has F) :
    (Dev.writeClk x0 x1 x2).Has F := by
  unfold Dev.writeClk
  repeat' (first | with_reducible assumption | with_reducible apply ite_has | with_reducible apply foldS_has | with_reducible apply foldl_has | intro _ _ _ | intro _ | dsimp only | split | (fail_if_no_progress with_reducible apply Dev.Has.upd))

end Sys2Proof.Machine
end

