-- ==== Sys2Proof/Laws/KeepsServices.lean ====
section
/-! SUPPORT. Every operation of Machine/Services.lean keeps what Laws/Keeps.lean states. -/

set_option linter.unusedTactic false
set_option linter.unreachableTactic false
set_option linter.unusedVariables false

namespace Sys2Proof.Machine

theorem Dev.scanNext_has {F : Tab Word} (x0 : Dev) (x1 : Bool) (x2 : Nat) (h0 : x0.Has F) :
    (Dev.scanNext x0 x1 x2).Has F := by
  unfold Dev.scanNext
  repeat' (first | with_reducible assumption | with_reducible apply Dev.bgsEvent_has | with_reducible apply ite_has | with_reducible apply foldS_has | with_reducible apply foldl_has | intro _ _ _ | intro _ | dsimp only | split | (fail_if_no_progress with_reducible apply Dev.Has.upd))

theorem Dev.faultAck_has {F : Tab Word} (x0 : Dev) (x1 : Nat) (h0 : x0.Has F) :
    (Dev.faultAck x0 x1).Has F := by
  unfold Dev.faultAck
  repeat' (first | with_reducible assumption | with_reducible apply Dev.opAck_has | with_reducible apply ite_has | with_reducible apply foldS_has | with_reducible apply foldl_has | intro _ _ _ | intro _ | dsimp only | split | (fail_if_no_progress with_reducible apply Dev.Has.upd))

theorem Dev.checkPan_has {F : Tab Word} (x0 : Dev) (x1 : Nat) (x2 : Option Nat) (h0 : x0.Has F) :
    (Dev.checkPan x0 x1 x2).Has F := by
  unfold Dev.checkPan
  repeat' (first | with_reducible assumption | with_reducible apply Dev.faultAck_has | with_reducible apply Dev.verifyPan_has | with_reducible apply ite_has | with_reducible apply foldS_has | with_reducible apply foldl_has | intro _ _ _ | intro _ | dsimp only | split | (fail_if_no_progress with_reducible apply Dev.Has.upd))

theorem opMarginCheck_has {F : Tab Word} (x0 : Bool) (x1 : Bool) (x2 : Dev) (h2 : x2.Has F) :
    (opMarginCheck x0 x1 x2).Has F := by
  unfold opMarginCheck
  repeat' (first | with_reducible assumption | with_reducible apply Dev.faultAck_has | with_reducible apply Dev.failVerify_has | with_reducible apply Dev.reinforce_has | with_reducible apply Dev.scanNext_has | with_reducible apply ite_has | with_reducible apply foldS_has | with_reducible apply foldl_has | intro _ _ _ | intro _ | dsimp only | split | (fail_if_no_progress with_reducible apply Dev.Has.upd))

theorem Dev.endSigPass_has {F : Tab Word} (x0 : Dev) (h0 : x0.Has F) :
    (Dev.endSigPass x0).Has F := by
  unfold Dev.endSigPass
  repeat' (first | with_reducible assumption | with_reducible apply ite_has | with_reducible apply foldS_has | with_reducible apply foldl_has | intro _ _ _ | intro _ | dsimp only | split | (fail_if_no_progress with_reducible apply Dev.Has.upd))

theorem opSignatureCheck_has {F : Tab Word} (x0 : Option Nat) (x1 : Dev) (h1 : x1.Has F) :
    (opSignatureCheck x0 x1).Has F := by
  unfold opSignatureCheck
  repeat' (first | with_reducible assumption | with_reducible apply Dev.checkPan_has | with_reducible apply Dev.endSigPass_has | with_reducible apply ite_has | with_reducible apply foldS_has | with_reducible apply foldl_has | intro _ _ _ | intro _ | dsimp only | split | (fail_if_no_progress with_reducible apply Dev.Has.upd))

theorem opDeferredVerify_has {F : Tab Word} (x0 : Option Nat) (x1 : Dev) (h1 : x1.Has F) :
    (opDeferredVerify x0 x1).Has F := by
  unfold opDeferredVerify
  repeat' (first | with_reducible assumption | with_reducible apply Dev.checkPan_has | with_reducible apply Dev.bgsEvent_has | with_reducible apply ite_has | with_reducible apply foldS_has | with_reducible apply foldl_has | intro _ _ _ | intro _ | dsimp only | split | (fail_if_no_progress with_reducible apply Dev.Has.upd))

theorem opCalibration_has {F : Tab Word} (x0 : Dev) (h0 : x0.Has F) :
    (opCalibration x0).Has F := by
  unfold opCalibration
  repeat' (first | with_reducible assumption | with_reducible apply ite_has | with_reducible apply foldS_has | with_reducible apply foldl_has | intro _ _ _ | intro _ | dsimp only | split | (fail_if_no_progress with_reducible apply Dev.Has.upd))

theorem Dev.startPst_has {F : Tab Word} (x0 : Dev) (x1 : Nat) (x2 : Bool) (h0 : x0.Has F) :
    (Dev.startPst x0 x1 x2).Has F := by
  unfold Dev.startPst
  repeat' (first | with_reducible assumption | with_reducible apply Dev.panSources_has | with_reducible apply ite_has | with_reducible apply foldS_has | with_reducible apply foldl_has | intro _ _ _ | intro _ | dsimp only | split | (fail_if_no_progress with_reducible apply Dev.Has.upd))

theorem opPanSelftestStart_has {F : Tab Word} (x0 : Dev) (h0 : x0.Has F) :
    (opPanSelftestStart x0).Has F := by
  unfold opPanSelftestStart
  repeat' (first | with_reducible assumption | with_reducible apply Dev.startPst_has | with_reducible apply ite_has | with_reducible apply foldS_has | with_reducible apply foldl_has | intro _ _ _ | intro _ | dsimp only | split | (fail_if_no_progress with_reducible apply Dev.Has.upd))

theorem opPanSelftestDone_has {F : Tab Word} (x0 : Option (Nat × Nat)) (x1 : Dev) (h1 : x1.Has F) :
    (opPanSelftestDone x0 x1).Has F := by
  unfold opPanSelftestDone
  repeat' (first | with_reducible assumption | with_reducible apply Dev.panSources_has | with_reducible apply Dev.bgsEvent_has | with_reducible apply ite_has | with_reducible apply foldS_has | with_reducible apply foldl_has | intro _ _ _ | intro _ | dsimp only | split | (fail_if_no_progress with_reducible apply Dev.Has.upd))

theorem Dev.writeBgs_has {F : Tab Word} (x0 : Dev) (x1 : Nat) (x2 : Word) (h0 : x0.Has F) :
    (Dev.writeBgs x0 x1 x2).Has F := by
  unfold Dev.writeBgs
  repeat' (first | with_reducible assumption | with_reducible apply Dev.writeWearSize_has | with_reducible apply ite_has | with_reducible apply foldS_has | with_reducible apply foldl_has | intro _ _ _ | intro _ | dsimp only | split | (fail_if_no_progress with_reducible apply Dev.Has.upd))

theorem Dev.startBist_has {F : Tab Word} (x0 : Dev) (x1 : Nat) (h0 : x0.Has F) :
    (Dev.startBist x0 x1).Has F := by
  unfold Dev.startBist
  repeat' (first | with_reducible assumption | with_reducible apply Dev.startPst_has | with_reducible apply Dev.endPst_has | with_reducible apply Dev.modBank_has | with_reducible apply ite_has | with_reducible apply foldS_has | with_reducible apply foldl_has | intro _ _ _ | intro _ | dsimp only | split | (fail_if_no_progress with_reducible apply Dev.Has.upd))

theorem Dev.writeBistSel_has {F : Tab Word} (x0 : Dev) (x1 : Word) (h0 : x0.Has F) :
    (Dev.writeBistSel x0 x1).Has F := by
  unfold Dev.writeBistSel
  repeat' (first | with_reducible assumption | with_reducible apply Dev.startBist_has | with_reducible apply ite_has | with_reducible apply foldS_has | with_reducible apply foldl_has | intro _ _ _ | intro _ | dsimp only | split | (fail_if_no_progress with_reducible apply Dev.Has.upd))

theorem Dev.checkPrbs_has {F : Tab Word} (x0 : Dev) (h0 : x0.Has F) :
    (Dev.checkPrbs x0).Has F := by
  unfold Dev.checkPrbs
  repeat' (first | with_reducible assumption | with_reducible apply ite_has | with_reducible apply foldS_has | with_reducible apply foldl_has | intro _ _ _ | intro _ | dsimp only | split | (fail_if_no_progress with_reducible apply Dev.Has.upd))

theorem Dev.writePrbs_has {F : Tab Word} (x0 : Dev) (x1 : Word) (h0 : x0.Has F) :
    (Dev.writePrbs x0 x1).Has F := by
  unfold Dev.writePrbs
  repeat' (first | with_reducible assumption | with_reducible apply Dev.checkPrbs_has | with_reducible apply ite_has | with_reducible apply foldS_has | with_reducible apply foldl_has | intro _ _ _ | intro _ | dsimp only | split | (fail_if_no_progress with_reducible apply Dev.Has.upd))

theorem Dev.writeTest_has {F : Tab Word} (x0 : Dev) (x1 : Nat) (x2 : Word) (h0 : x0.Has F) :
    (Dev.writeTest x0 x1 x2).Has F := by
  unfold Dev.writeTest
  repeat' (first | with_reducible assumption | with_reducible apply Dev.writeBistSel_has | with_reducible apply Dev.writePrbs_has | with_reducible apply ite_has | with_reducible apply foldS_has | with_reducible apply foldl_has | intro _ _ _ | intro _ | dsimp only | split | (fail_if_no_progress with_reducible apply Dev.Has.upd))

theorem Dev.readTest_has {F : Tab Word} (x0 : Dev) (x1 : Nat) (x2 : Nat) (h0 : x0.Has F) :
    (Dev.readTest x0 x1 x2).2.Has F := by
  unfold Dev.readTest
  repeat' (first | with_reducible assumption | with_reducible apply ite_snd_has | with_reducible apply ite_has | with_reducible apply foldS_has | with_reducible apply foldl_has | intro _ _ _ | intro _ | dsimp only | split | (fail_if_no_progress with_reducible apply Dev.Has.upd))

theorem opBistStart_has {F : Tab Word} (x0 : Path) (x1 : Word) (x2 : Dev) (h2 : x2.Has F) :
    (opBistStart x0 x1 x2).Has F := by
  unfold opBistStart
  repeat' (first | with_reducible assumption | with_reducible apply Dev.filtered_has | with_reducible apply Dev.writeTest_has | with_reducible apply ite_has | with_reducible apply foldS_has | with_reducible apply foldl_has | intro _ _ _ | intro _ | dsimp only | split | (fail_if_no_progress with_reducible apply Dev.Has.upd))

theorem opPrbsEnable_has {F : Tab Word} (x0 : Path) (x1 : Word) (x2 : Dev) (h2 : x2.Has F) :
    (opPrbsEnable x0 x1 x2).Has F := by
  unfold opPrbsEnable
  repeat' (first | with_reducible assumption | with_reducible apply Dev.filtered_has | with_reducible apply Dev.writeTest_has | with_reducible apply ite_has | with_reducible apply foldS_has | with_reducible apply foldl_has | intro _ _ _ | intro _ | dsimp only | split | (fail_if_no_progress with_reducible apply Dev.Has.upd))

end Sys2Proof.Machine
end

