-- ==== Sys2Proof/Laws/KeepsRegs.lean ====
section
/-! SUPPORT. Every operation of Machine/Regs.lean keeps what Laws/Keeps.lean states. -/

set_option linter.unusedTactic false
set_option linter.unreachableTactic false
set_option linter.unusedVariables false

namespace Sys2Proof.Machine

theorem Dev.readGlb_has {F : Tab Word} (x0 : Dev) (x1 : Nat) (x2 : Nat) (h0 : x0.Has F) :
    (Dev.readGlb x0 x1 x2).2.Has F := by
  unfold Dev.readGlb
  repeat' (first | with_reducible assumption | with_reducible apply ite_snd_has | with_reducible apply ite_has | with_reducible apply foldS_has | with_reducible apply foldl_has | intro _ _ _ | intro _ | dsimp only | split | (fail_if_no_progress with_reducible apply Dev.Has.upd))

theorem Dev.writePan_has {F : Tab Word} (x0 : Dev) (x1 : Nat) (x2 : Nat) (x3 : Word) (h0 : x0.Has F) :
    (Dev.writePan x0 x1 x2 x3).Has F := by
  unfold Dev.writePan
  repeat' (first | with_reducible assumption | with_reducible apply Dev.modPan_has | with_reducible apply Dev.writePanGsr_has | with_reducible apply ite_has | with_reducible apply foldS_has | with_reducible apply foldl_has | intro _ _ _ | intro _ | dsimp only | split | (fail_if_no_progress with_reducible apply Dev.Has.upd))

theorem Dev.takeCounts_has {F : Tab Word} (x0 : Dev) (h0 : x0.Has F) :
    (Dev.takeCounts x0).2.Has F := by
  unfold Dev.takeCounts
  repeat' (first | with_reducible assumption | with_reducible apply Dev.modMg_has | with_reducible apply ite_snd_has | with_reducible apply ite_has | with_reducible apply foldS_has | with_reducible apply foldl_has | intro _ _ _ | intro _ | dsimp only | split | (fail_if_no_progress with_reducible apply Dev.Has.upd))

theorem Dev.readMgmt_has {F : Tab Word} (x0 : Dev) (x1 : Nat) (h0 : x0.Has F) :
    (Dev.readMgmt x0 x1).2.Has F := by
  unfold Dev.readMgmt
  repeat' (first | with_reducible assumption | with_reducible apply Dev.takeCounts_has | with_reducible apply snd_has ‹_ = (_, _)› (Dev.takeCounts_has ..) | with_reducible apply ite_snd_has | with_reducible apply ite_has | with_reducible apply foldS_has | with_reducible apply foldl_has | intro _ _ _ | intro _ | dsimp only | split | (fail_if_no_progress with_reducible apply Dev.Has.upd))

theorem Dev.writeMgmt_has {F : Tab Word} (x0 : Dev) (x1 : Nat) (x2 : Word) (h0 : x0.Has F) :
    (Dev.writeMgmt x0 x1 x2).Has F := by
  unfold Dev.writeMgmt
  repeat' (first | with_reducible assumption | with_reducible apply ite_has | with_reducible apply foldS_has | with_reducible apply foldl_has | intro _ _ _ | intro _ | dsimp only | split | (fail_if_no_progress with_reducible apply Dev.Has.upd))

theorem Dev.setSel_has {F : Tab Word} (x0 : Dev) (x1 : Path) (x2 : Nat) (x3 : Word) (h0 : x0.Has F) :
    (Dev.setSel x0 x1 x2 x3).Has F := by
  unfold Dev.setSel
  repeat' (first | with_reducible assumption | with_reducible apply Dev.modHp_has | with_reducible apply ite_has | with_reducible apply foldS_has | with_reducible apply foldl_has | intro _ _ _ | intro _ | dsimp only | split | (fail_if_no_progress with_reducible apply Dev.Has.upd))

theorem Dev.readBlk_has {F : Tab Word} (x0 : Dev) (x1 : Path) (x2 : Nat) (x3 : Blk) (x4 : Nat) (h0 : x0.Has F) :
    (Dev.readBlk x0 x1 x2 x3 x4).2.Has F := by
  unfold Dev.readBlk
  repeat' (first | with_reducible assumption | with_reducible apply Dev.readGlb_has | with_reducible apply snd_has ‹_ = (_, _)› (Dev.readGlb_has ..) | with_reducible apply Dev.readHost_has | with_reducible apply snd_has ‹_ = (_, _)› (Dev.readHost_has ..) | with_reducible apply Dev.readLink_has | with_reducible apply snd_has ‹_ = (_, _)› (Dev.readLink_has ..) | with_reducible apply Dev.readRxdata_has | with_reducible apply snd_has ‹_ = (_, _)› (Dev.readRxdata_has ..) | with_reducible apply Dev.readFportCount_has | with_reducible apply snd_has ‹_ = (_, _)› (Dev.readFportCount_has ..) | with_reducible apply Dev.readRec0_has | with_reducible apply snd_has ‹_ = (_, _)› (Dev.readRec0_has ..) | with_reducible apply Dev.readMgmt_has | with_reducible apply snd_has ‹_ = (_, _)› (Dev.readMgmt_has ..) | with_reducible apply Dev.readTest_has | with_reducible apply snd_has ‹_ = (_, _)› (Dev.readTest_has ..) | with_reducible apply ite_snd_has | with_reducible apply ite_has | with_reducible apply foldS_has | with_reducible apply foldl_has | intro _ _ _ | intro _ | dsimp only | split | (fail_if_no_progress with_reducible apply Dev.Has.upd))

theorem Dev.writeBlk_has {F : Tab Word} (x0 : Dev) (x1 : Path) (x2 : Nat) (x3 : Blk) (x4 : Nat) (x5 : Word) (h0 : x0.Has F) :
    (Dev.writeBlk x0 x1 x2 x3 x4 x5).Has F := by
  unfold Dev.writeBlk
  repeat' (first | with_reducible assumption | with_reducible apply Dev.setSel_has | with_reducible apply Dev.writeNarrow_has | with_reducible apply Dev.writeHost_has | with_reducible apply Dev.writeRake_has | with_reducible apply Dev.writeCfg_has | with_reducible apply Dev.writeSluice_has | with_reducible apply Dev.writePool_has | with_reducible apply Dev.writePan_has | with_reducible apply Dev.modBank_has | with_reducible apply Dev.writeLink_has | with_reducible apply Dev.writeTxdata_has | with_reducible apply Dev.writeFport_has | with_reducible apply Dev.writePin_has | with_reducible apply Dev.writeTime_has | with_reducible apply Dev.writePwr_has | with_reducible apply Dev.writeClk_has | with_reducible apply Dev.writeBgs_has | with_reducible apply Dev.writeTele_has | with_reducible apply Dev.writeMgmt_has | with_reducible apply Dev.writeTest_has | with_reducible apply ite_has | with_reducible apply foldS_has | with_reducible apply foldl_has | intro _ _ _ | intro _ | dsimp only | split | (fail_if_no_progress with_reducible apply Dev.Has.upd))

theorem Dev.readReg_has {F : Tab Word} (x0 : Dev) (x1 : Path) (x2 : Word) (h0 : x0.Has F) :
    (Dev.readReg x0 x1 x2).2.Has F := by
  unfold Dev.readReg
  repeat' (first | with_reducible assumption | with_reducible apply Dev.badAccess_has | with_reducible apply Dev.readBlk_has | with_reducible apply snd_has ‹_ = (_, _)› (Dev.readBlk_has ..) | with_reducible apply ite_snd_has | with_reducible apply ite_has | with_reducible apply foldS_has | with_reducible apply foldl_has | intro _ _ _ | intro _ | dsimp only | split | (fail_if_no_progress with_reducible apply Dev.Has.upd))

theorem Dev.writeReg_has {F : Tab Word} (x0 : Dev) (x1 : Path) (x2 : Word) (x3 : Word) (h0 : x0.Has F) :
    (Dev.writeReg x0 x1 x2 x3).Has F := by
  unfold Dev.writeReg
  repeat' (first | with_reducible assumption | with_reducible apply Dev.wrote_has | with_reducible apply Dev.badAccess_has | with_reducible apply Dev.writeBlk_has | with_reducible apply Dev.dropWrite_has | with_reducible apply ite_has | with_reducible apply foldS_has | with_reducible apply foldl_has | intro _ _ _ | intro _ | dsimp only | split | (fail_if_no_progress with_reducible apply Dev.Has.upd))

theorem Dev.writeLogSel_has {F : Tab Word} (x0 : Dev) (x1 : Path) (x2 : Nat) (x3 : Word) (h0 : x0.Has F) :
    (Dev.writeLogSel x0 x1 x2 x3).Has F := by
  unfold Dev.writeLogSel
  repeat' (first | with_reducible assumption | with_reducible apply Dev.filtered_has | with_reducible apply Dev.writeBlk_has | with_reducible apply ite_has | with_reducible apply foldS_has | with_reducible apply foldl_has | intro _ _ _ | intro _ | dsimp only | split | (fail_if_no_progress with_reducible apply Dev.Has.upd))

theorem opClearCe_has {F : Tab Word} (x0 : Path) (x1 : Nat) (x2 : Word) (x3 : Dev) (h3 : x3.Has F) :
    (opClearCe x0 x1 x2 x3).Has F := by
  unfold opClearCe
  repeat' (first | with_reducible assumption | with_reducible apply Dev.writeLogSel_has | with_reducible apply ite_has | with_reducible apply foldS_has | with_reducible apply foldl_has | intro _ _ _ | intro _ | dsimp only | split | (fail_if_no_progress with_reducible apply Dev.Has.upd))

theorem opClearUe_has {F : Tab Word} (x0 : Path) (x1 : Nat) (x2 : Word) (x3 : Dev) (h3 : x3.Has F) :
    (opClearUe x0 x1 x2 x3).Has F := by
  unfold opClearUe
  repeat' (first | with_reducible assumption | with_reducible apply Dev.writeLogSel_has | with_reducible apply ite_has | with_reducible apply foldS_has | with_reducible apply foldl_has | intro _ _ _ | intro _ | dsimp only | split | (fail_if_no_progress with_reducible apply Dev.Has.upd))

theorem Dev.writeBell_has {F : Tab Word} (x0 : Dev) (x1 : Nat) (x2 : Nat) (x3 : Word) (h0 : x0.Has F) :
    (Dev.writeBell x0 x1 x2 x3).Has F := by
  unfold Dev.writeBell
  repeat' (first | with_reducible assumption | with_reducible apply Dev.badAccess_has | with_reducible apply Dev.badDoorbell_has | with_reducible apply opSqDoorbell_has | with_reducible apply opCqDoorbell_has | with_reducible apply opEqDoorbell_has | with_reducible apply ite_has | with_reducible apply foldS_has | with_reducible apply foldl_has | intro _ _ _ | intro _ | dsimp only | split | (fail_if_no_progress with_reducible apply Dev.Has.upd))

theorem Dev.writeSpace_has {F : Tab Word} (x0 : Dev) (x1 : Path) (x2 : Space) (x3 : Word) (x4 : Word) (h0 : x0.Has F) :
    (Dev.writeSpace x0 x1 x2 x3 x4).Has F := by
  unfold Dev.writeSpace
  repeat' (first | with_reducible assumption | with_reducible apply Dev.writeReg_has | with_reducible apply Dev.writeBell_has | with_reducible apply Dev.writeMsix_has | with_reducible apply Dev.writeConfig_has | with_reducible apply Dev.badAccess_has | with_reducible apply ite_has | with_reducible apply foldS_has | with_reducible apply foldl_has | intro _ _ _ | intro _ | dsimp only | split | (fail_if_no_progress with_reducible apply Dev.Has.upd))

theorem Dev.readSpace_has {F : Tab Word} (x0 : Dev) (x1 : Path) (x2 : Space) (x3 : Word) (h0 : x0.Has F) :
    (Dev.readSpace x0 x1 x2 x3).2.Has F := by
  unfold Dev.readSpace
  repeat' (first | with_reducible assumption | with_reducible apply Dev.readReg_has | with_reducible apply snd_has ‹_ = (_, _)› (Dev.readReg_has ..) | with_reducible apply Dev.badAccess_has | with_reducible apply ite_snd_has | with_reducible apply ite_has | with_reducible apply foldS_has | with_reducible apply foldl_has | intro _ _ _ | intro _ | dsimp only | split | (fail_if_no_progress with_reducible apply Dev.Has.upd))

theorem Dev.accessSpace_has {F : Tab Word} (x0 : Dev) (x1 : Path) (x2 : Space) (x3 : Dev → Dev) (h0 : x0.Has F) (h3 : ∀ (y0 : Dev), y0.Has F → (x3 y0).Has F) :
    (Dev.accessSpace x0 x1 x2 x3).Has F := by
  unfold Dev.accessSpace
  repeat' (first | with_reducible assumption | with_reducible apply Dev.access_has | with_reducible apply h3 | with_reducible apply ite_has | with_reducible apply foldS_has | with_reducible apply foldl_has | intro _ _ _ | intro _ | dsimp only | split | (fail_if_no_progress with_reducible apply Dev.Has.upd))

theorem opRegisterWrite_has {F : Tab Word} (x0 : Path) (x1 : Space) (x2 : Word) (x3 : Word) (x4 : Dev) (h4 : x4.Has F) :
    (opRegisterWrite x0 x1 x2 x3 x4).Has F := by
  unfold opRegisterWrite
  repeat' (first | with_reducible assumption | with_reducible apply Dev.accessSpace_has | with_reducible apply Dev.writeSpace_has | with_reducible apply ite_has | with_reducible apply foldS_has | with_reducible apply foldl_has | intro _ _ _ | intro _ | dsimp only | split | (fail_if_no_progress with_reducible apply Dev.Has.upd))

theorem Dev.readIn_has {F : Tab Word} (x0 : Dev) (x1 : Path) (x2 : Space) (x3 : Word) (h0 : x0.Has F) :
    (Dev.readIn x0 x1 x2 x3).Has F := by
  unfold Dev.readIn
  repeat' (first | with_reducible assumption | with_reducible apply Dev.accessSpace_has | with_reducible apply Dev.readSpace_has | with_reducible apply snd_has ‹_ = (_, _)› (Dev.readSpace_has ..) | with_reducible apply Dev.returns_has | with_reducible apply ite_has | with_reducible apply foldS_has | with_reducible apply foldl_has | intro _ _ _ | intro _ | dsimp only | split | (fail_if_no_progress with_reducible apply Dev.Has.upd))

theorem Dev.readAt_has {F : Tab Word} (x0 : Dev) (x1 : Path) (x2 : Nat) (h0 : x0.Has F) :
    (Dev.readAt x0 x1 x2).Has F := by
  unfold Dev.readAt
  repeat' (first | with_reducible assumption | with_reducible apply Dev.readIn_has | with_reducible apply ite_has | with_reducible apply foldS_has | with_reducible apply foldl_has | intro _ _ _ | intro _ | dsimp only | split | (fail_if_no_progress with_reducible apply Dev.Has.upd))

theorem opMgmtCountRead_has {F : Tab Word} (x0 : Path) (x1 : Dev) (h1 : x1.Has F) :
    (opMgmtCountRead x0 x1).Has F := by
  unfold opMgmtCountRead
  repeat' (first | with_reducible assumption | with_reducible apply Dev.readAt_has | with_reducible apply ite_has | with_reducible apply foldS_has | with_reducible apply foldl_has | intro _ _ _ | intro _ | dsimp only | split | (fail_if_no_progress with_reducible apply Dev.Has.upd))

theorem opTestCfgCountRead_has {F : Tab Word} (x0 : Path) (x1 : Dev) (h1 : x1.Has F) :
    (opTestCfgCountRead x0 x1).Has F := by
  unfold opTestCfgCountRead
  repeat' (first | with_reducible assumption | with_reducible apply Dev.readAt_has | with_reducible apply ite_has | with_reducible apply foldS_has | with_reducible apply foldl_has | intro _ _ _ | intro _ | dsimp only | split | (fail_if_no_progress with_reducible apply Dev.Has.upd))

theorem opCfgPassCountRead_has {F : Tab Word} (x0 : Path) (x1 : Dev) (h1 : x1.Has F) :
    (opCfgPassCountRead x0 x1).Has F := by
  unfold opCfgPassCountRead
  repeat' (first | with_reducible assumption | with_reducible apply Dev.readAt_has | with_reducible apply ite_has | with_reducible apply foldS_has | with_reducible apply foldl_has | intro _ _ _ | intro _ | dsimp only | split | (fail_if_no_progress with_reducible apply Dev.Has.upd))

theorem opCfgFramesRead_has {F : Tab Word} (x0 : Path) (x1 : Dev) (h1 : x1.Has F) :
    (opCfgFramesRead x0 x1).Has F := by
  unfold opCfgFramesRead
  repeat' (first | with_reducible assumption | with_reducible apply Dev.readAt_has | with_reducible apply ite_has | with_reducible apply foldS_has | with_reducible apply foldl_has | intro _ _ _ | intro _ | dsimp only | split | (fail_if_no_progress with_reducible apply Dev.Has.upd))

theorem opGlbUptimeLoRead_has {F : Tab Word} (x0 : Path) (x1 : Dev) (h1 : x1.Has F) :
    (opGlbUptimeLoRead x0 x1).Has F := by
  unfold opGlbUptimeLoRead
  repeat' (first | with_reducible assumption | with_reducible apply Dev.readAt_has | with_reducible apply ite_has | with_reducible apply foldS_has | with_reducible apply foldl_has | intro _ _ _ | intro _ | dsimp only | split | (fail_if_no_progress with_reducible apply Dev.Has.upd))

end Sys2Proof.Machine
end

