-- ==== Sys2Proof/Laws/KeepsManage.lean ====
section
/-! SUPPORT. Every operation of Machine/Manage.lean keeps what Laws/Keeps.lean states. -/

set_option linter.unusedTactic false
set_option linter.unreachableTactic false
set_option linter.unusedVariables false

namespace Sys2Proof.Machine

theorem Dev.unitResponse_has {F : Tab Word} (x0 : Dev) (x1 : MgmtIf) (x2 : Nat) (x3 : Nat) (x4 : Nat) (h0 : x0.Has F) :
    (Dev.unitResponse x0 x1 x2 x3 x4).Has F := by
  unfold Dev.unitResponse
  repeat' (first | with_reducible assumption | with_reducible apply Dev.emit_has | with_reducible apply ite_has | with_reducible apply foldS_has | with_reducible apply foldl_has | intro _ _ _ | intro _ | dsimp only | split | (fail_if_no_progress with_reducible apply Dev.Has.upd))

theorem Dev.endStop_has {F : Tab Word} (x0 : Dev) (x1 : Nat) (x2 : Nat) (x3 : Nat) (h0 : x0.Has F) :
    (Dev.endStop x0 x1 x2 x3).Has F := by
  unfold Dev.endStop
  repeat' (first | with_reducible assumption | with_reducible apply Dev.modPan_has | with_reducible apply Dev.lateReply_has | with_reducible apply Dev.modMg_has | with_reducible apply ite_has | with_reducible apply foldS_has | with_reducible apply foldl_has | intro _ _ _ | intro _ | dsimp only | split | (fail_if_no_progress with_reducible apply Dev.Has.upd))

theorem Dev.stopPan_has {F : Tab Word} (x0 : Dev) (x1 : Nat) (x2 : MgmtIf) (h0 : x0.Has F) :
    (Dev.stopPan x0 x1 x2).Has F := by
  unfold Dev.stopPan
  repeat' (first | with_reducible assumption | with_reducible apply Dev.setUnit_has | with_reducible apply Dev.modPan_has | with_reducible apply Dev.panSources_has | with_reducible apply Dev.shutPan_has | with_reducible apply ite_has | with_reducible apply foldS_has | with_reducible apply foldl_has | intro _ _ _ | intro _ | dsimp only | split | (fail_if_no_progress with_reducible apply Dev.Has.upd))

theorem opQack_has {F : Tab Word} (x0 : Nat) (x1 : Dev) (h1 : x1.Has F) :
    (opQack x0 x1).Has F := by
  unfold opQack
  repeat' (first | with_reducible assumption | with_reducible apply Dev.modPan_has | with_reducible apply Dev.opAck_has | with_reducible apply Dev.refreshPins_has | with_reducible apply Dev.endStop_has | with_reducible apply Dev.stopPan_has | with_reducible apply Dev.acceptUnit_has | with_reducible apply ite_has | with_reducible apply foldS_has | with_reducible apply foldl_has | intro _ _ _ | intro _ | dsimp only | split | (fail_if_no_progress with_reducible apply Dev.Has.upd))

theorem opQuiesceTimeout_has {F : Tab Word} (x0 : Nat) (x1 : Dev) (h1 : x1.Has F) :
    (opQuiesceTimeout x0 x1).Has F := by
  unfold opQuiesceTimeout
  repeat' (first | with_reducible assumption | with_reducible apply Dev.opTimeout_has | with_reducible apply Dev.endStop_has | with_reducible apply Dev.setQreq_has | with_reducible apply ite_has | with_reducible apply foldS_has | with_reducible apply foldl_has | intro _ _ _ | intro _ | dsimp only | split | (fail_if_no_progress with_reducible apply Dev.Has.upd))

theorem Dev.noteLate_has {F : Tab Word} (x0 : Dev) (x1 : MgmtIf) (x2 : Nat) (x3 : Nat) (x4 : BitVec 16) (h0 : x0.Has F) :
    (Dev.noteLate x0 x1 x2 x3 x4).Has F := by
  unfold Dev.noteLate
  repeat' (first | with_reducible assumption | with_reducible apply Dev.modMg_has | with_reducible apply ite_has | with_reducible apply foldS_has | with_reducible apply foldl_has | intro _ _ _ | intro _ | dsimp only | split | (fail_if_no_progress with_reducible apply Dev.Has.upd))

theorem Dev.unitCmd_has {F : Tab Word} (x0 : Dev) (x1 : MgmtIf) (x2 : BitVec 16) (x3 : Nat) (x4 : Option Nat) (x5 : BitVec 16) (x6 : Dev → Nat → Bool) (x7 : Dev → Nat → Bool) (x8 : Dev → Nat → Dev) (h0 : x0.Has F) (h8 : ∀ (y0 : Dev) (y1 : Nat), y0.Has F → (x8 y0 y1).Has F) :
    (Dev.unitCmd x0 x1 x2 x3 x4 x5 x6 x7 x8).Has F := by
  unfold Dev.unitCmd
  repeat' (first | with_reducible assumption | with_reducible apply Dev.carry_has | with_reducible apply Dev.noteLate_has | with_reducible apply Dev.modMg_has | with_reducible apply Dev.unitResponse_has | with_reducible apply h8 | with_reducible apply ite_has | with_reducible apply foldS_has | with_reducible apply foldl_has | intro _ _ _ | intro _ | dsimp only | split | (fail_if_no_progress with_reducible apply Dev.Has.upd))

theorem Dev.acting_has {F : Tab Word} (x0 : Dev) (x1 : MgmtIf) (x2 : Nat) (x3 : Nat) (x4 : Dev → Dev) (h0 : x0.Has F) (h4 : ∀ (y0 : Dev), y0.Has F → (x4 y0).Has F) :
    (Dev.acting x0 x1 x2 x3 x4).Has F := by
  unfold Dev.acting
  repeat' (first | with_reducible assumption | with_reducible apply Dev.unitResponse_has | with_reducible apply h4 | with_reducible apply ite_has | with_reducible apply foldS_has | with_reducible apply foldl_has | intro _ _ _ | intro _ | dsimp only | split | (fail_if_no_progress with_reducible apply Dev.Has.upd))

theorem Dev.stopBgs_has {F : Tab Word} (x0 : Dev) (h0 : x0.Has F) :
    (Dev.stopBgs x0).Has F := by
  unfold Dev.stopBgs
  repeat' (first | with_reducible assumption | with_reducible apply Dev.endPst_has | with_reducible apply Dev.restoreSlots_has | with_reducible apply ite_has | with_reducible apply foldS_has | with_reducible apply foldl_has | intro _ _ _ | intro _ | dsimp only | split | (fail_if_no_progress with_reducible apply Dev.Has.upd))

theorem opUnitCmdStop_has {F : Tab Word} (x0 : MgmtIf) (x1 : BitVec 16) (x2 : BitVec 16) (x3 : Byte) (x4 : Dev) (h4 : x4.Has F) :
    (opUnitCmdStop x0 x1 x2 x3 x4).Has F := by
  unfold opUnitCmdStop
  repeat' (first | with_reducible assumption | with_reducible apply Dev.unitCmd_has | with_reducible apply Dev.setQreq_has | with_reducible apply Dev.modMg_has | with_reducible apply Dev.modPan_has | with_reducible apply Dev.acting_has | with_reducible apply Dev.setUnit_has | with_reducible apply Dev.abandonPre_has | with_reducible apply Dev.stopBgs_has | with_reducible apply ite_has | with_reducible apply foldS_has | with_reducible apply foldl_has | intro _ _ _ | intro _ | dsimp only | split | (fail_if_no_progress with_reducible apply Dev.Has.upd))

theorem Dev.endRdbk_has {F : Tab Word} (x0 : Dev) (x1 : Nat) (h0 : x0.Has F) :
    (Dev.endRdbk x0 x1).Has F := by
  unfold Dev.endRdbk
  repeat' (first | with_reducible assumption | with_reducible apply Dev.modMg_has | with_reducible apply ite_has | with_reducible apply foldS_has | with_reducible apply foldl_has | intro _ _ _ | intro _ | dsimp only | split | (fail_if_no_progress with_reducible apply Dev.Has.upd))

theorem Dev.startPan_has {F : Tab Word} (x0 : Dev) (x1 : Nat) (x2 : MgmtIf) (h0 : x0.Has F) :
    (Dev.startPan x0 x1 x2).Has F := by
  unfold Dev.startPan
  repeat' (first | with_reducible assumption | with_reducible apply Dev.refreshPins_has | with_reducible apply Dev.panSources_has | with_reducible apply Dev.setUnit_has | with_reducible apply Dev.setQreq_has | with_reducible apply Dev.modPan_has | with_reducible apply Dev.endRdbk_has | with_reducible apply ite_has | with_reducible apply foldS_has | with_reducible apply foldl_has | intro _ _ _ | intro _ | dsimp only | split | (fail_if_no_progress with_reducible apply Dev.Has.upd))

theorem opUnitCmdStart_has {F : Tab Word} (x0 : MgmtIf) (x1 : BitVec 16) (x2 : BitVec 16) (x3 : Byte) (x4 : Dev) (h4 : x4.Has F) :
    (opUnitCmdStart x0 x1 x2 x3 x4).Has F := by
  unfold opUnitCmdStart
  repeat' (first | with_reducible assumption | with_reducible apply Dev.unitCmd_has | with_reducible apply Dev.acting_has | with_reducible apply Dev.startPan_has | with_reducible apply Dev.resumeRake_has | with_reducible apply Dev.setUnit_has | with_reducible apply ite_has | with_reducible apply foldS_has | with_reducible apply foldl_has | intro _ _ _ | intro _ | dsimp only | split | (fail_if_no_progress with_reducible apply Dev.Has.upd))

theorem Dev.recover_has {F : Tab Word} (x0 : Dev) (x1 : Nat) (x2 : Cause) (h0 : x0.Has F) :
    (Dev.recover x0 x1 x2).Has F := by
  unfold Dev.recover
  repeat' (first | with_reducible assumption | with_reducible apply Dev.setUnit_has | with_reducible apply Dev.modBank_has | with_reducible apply Dev.fportToIdle_has | with_reducible apply Dev.refreshPins_has | with_reducible apply Dev.loadPins_has | with_reducible apply Dev.setQuality_has | with_reducible apply Dev.resumeRake_has | with_reducible apply Dev.recoverRake_has | with_reducible apply Dev.recoverSluice_has | with_reducible apply Dev.modPll_has | with_reducible apply ite_has | with_reducible apply foldS_has | with_reducible apply foldl_has | intro _ _ _ | intro _ | dsimp only | split | (fail_if_no_progress with_reducible apply Dev.Has.upd))

theorem opUnitCmdRecover_has {F : Tab Word} (x0 : MgmtIf) (x1 : BitVec 16) (x2 : BitVec 16) (x3 : Byte) (x4 : Dev) (h4 : x4.Has F) :
    (opUnitCmdRecover x0 x1 x2 x3 x4).Has F := by
  unfold opUnitCmdRecover
  repeat' (first | with_reducible assumption | with_reducible apply Dev.unitCmd_has | with_reducible apply Dev.acting_has | with_reducible apply Dev.recover_has | with_reducible apply ite_has | with_reducible apply foldS_has | with_reducible apply foldl_has | intro _ _ _ | intro _ | dsimp only | split | (fail_if_no_progress with_reducible apply Dev.Has.upd))

theorem Dev.retireMap_has {F : Tab Word} (x0 : Dev) (x1 : Nat) (x2 : Nat → List Nat → List Nat) (h0 : x0.Has F) :
    (Dev.retireMap x0 x1 x2).Has F := by
  unfold Dev.retireMap
  repeat' (first | with_reducible assumption | with_reducible apply Dev.writeMap_has | with_reducible apply ite_has | with_reducible apply foldS_has | with_reducible apply foldl_has | intro _ _ _ | intro _ | dsimp only | split | (fail_if_no_progress with_reducible apply Dev.Has.upd))

theorem opUnitCmdRetire_has {F : Tab Word} (x0 : MgmtIf) (x1 : BitVec 16) (x2 : BitVec 16) (x3 : Byte) (x4 : Dev) (h4 : x4.Has F) :
    (opUnitCmdRetire x0 x1 x2 x3 x4).Has F := by
  unfold opUnitCmdRetire
  repeat' (first | with_reducible assumption | with_reducible apply Dev.unitCmd_has | with_reducible apply Dev.acting_has | with_reducible apply Dev.discardPre_has | with_reducible apply Dev.endPst_has | with_reducible apply Dev.modBank_has | with_reducible apply Dev.abandonBank_has | with_reducible apply Dev.retireMap_has | with_reducible apply Dev.setUnit_has | with_reducible apply ite_has | with_reducible apply foldS_has | with_reducible apply foldl_has | intro _ _ _ | intro _ | dsimp only | split | (fail_if_no_progress with_reducible apply Dev.Has.upd))

theorem Dev.comeBack_has {F : Tab Word} (x0 : Dev) (x1 : Nat) (x2 : Cause) (h0 : x0.Has F) :
    (Dev.comeBack x0 x1 x2).Has F := by
  unfold Dev.comeBack
  repeat' (first | with_reducible assumption | with_reducible apply Dev.panSources_has | with_reducible apply Dev.setUnit_has | with_reducible apply Dev.modBank_has | with_reducible apply ite_has | with_reducible apply foldS_has | with_reducible apply foldl_has | intro _ _ _ | intro _ | dsimp only | split | (fail_if_no_progress with_reducible apply Dev.Has.upd))

theorem opUnitCmdReturn_has {F : Tab Word} (x0 : MgmtIf) (x1 : BitVec 16) (x2 : BitVec 16) (x3 : Byte) (x4 : Dev) (h4 : x4.Has F) :
    (opUnitCmdReturn x0 x1 x2 x3 x4).Has F := by
  unfold opUnitCmdReturn
  repeat' (first | with_reducible assumption | with_reducible apply Dev.unitCmd_has | with_reducible apply Dev.acting_has | with_reducible apply Dev.retireMap_has | with_reducible apply Dev.comeBack_has | with_reducible apply ite_has | with_reducible apply foldS_has | with_reducible apply foldl_has | intro _ _ _ | intro _ | dsimp only | split | (fail_if_no_progress with_reducible apply Dev.Has.upd))

theorem opUnitCmdLoop_has {F : Tab Word} (x0 : MgmtIf) (x1 : BitVec 16) (x2 : BitVec 16) (x3 : Byte) (x4 : Dev) (h4 : x4.Has F) :
    (opUnitCmdLoop x0 x1 x2 x3 x4).Has F := by
  unfold opUnitCmdLoop
  repeat' (first | with_reducible assumption | with_reducible apply Dev.unitCmd_has | with_reducible apply Dev.acting_has | with_reducible apply Dev.checkPrbs_has | with_reducible apply Dev.modHp_has | with_reducible apply Dev.refreshPins_has | with_reducible apply ite_has | with_reducible apply foldS_has | with_reducible apply foldl_has | intro _ _ _ | intro _ | dsimp only | split | (fail_if_no_progress with_reducible apply Dev.Has.upd))

theorem opMirrorRead_has {F : Tab Word} (x0 : MgmtIf) (x1 : BitVec 16) (x2 : Dev) (h2 : x2.Has F) :
    (opMirrorRead x0 x1 x2).Has F := by
  unfold opMirrorRead
  repeat' (first | with_reducible assumption | with_reducible apply Dev.carry_has | with_reducible apply Dev.emit_has | with_reducible apply ite_has | with_reducible apply foldS_has | with_reducible apply foldl_has | intro _ _ _ | intro _ | dsimp only | split | (fail_if_no_progress with_reducible apply Dev.Has.upd))

theorem opRdbkStart_has {F : Tab Word} (x0 : MgmtIf) (x1 : Byte) (x2 : Byte) (x3 : Word) (x4 : Dev) (h4 : x4.Has F) :
    (opRdbkStart x0 x1 x2 x3 x4).Has F := by
  unfold opRdbkStart
  repeat' (first | with_reducible assumption | with_reducible apply Dev.carry_has | with_reducible apply Dev.modMg_has | with_reducible apply Dev.emit_has | with_reducible apply ite_has | with_reducible apply foldS_has | with_reducible apply foldl_has | intro _ _ _ | intro _ | dsimp only | split | (fail_if_no_progress with_reducible apply Dev.Has.upd))

theorem opRdbkData_has {F : Tab Word} (x0 : MgmtIf) (x1 : Dev) (h1 : x1.Has F) :
    (opRdbkData x0 x1).Has F := by
  unfold opRdbkData
  repeat' (first | with_reducible assumption | with_reducible apply Dev.carry_has | with_reducible apply Dev.emit_has | with_reducible apply Dev.modMg_has | with_reducible apply ite_has | with_reducible apply foldS_has | with_reducible apply foldl_has | intro _ _ _ | intro _ | dsimp only | split | (fail_if_no_progress with_reducible apply Dev.Has.upd))

theorem opDescSubmit_has {F : Tab Word} (x0 : MgmtIf) (x1 : Desc) (x2 : Dev) (h2 : x2.Has F) :
    (opDescSubmit x0 x1 x2).Has F := by
  unfold opDescSubmit
  repeat' (first | with_reducible assumption | with_reducible apply Dev.carryFree_has | with_reducible apply Dev.modMg_has | with_reducible apply Dev.countMgmt_has | with_reducible apply ite_has | with_reducible apply foldS_has | with_reducible apply foldl_has | intro _ _ _ | intro _ | dsimp only | split | (fail_if_no_progress with_reducible apply Dev.Has.upd))

theorem opDescResult_has {F : Tab Word} (x0 : MgmtIf) (x1 : Dev) (h1 : x1.Has F) :
    (opDescResult x0 x1).Has F := by
  unfold opDescResult
  repeat' (first | with_reducible assumption | with_reducible apply Dev.carry_has | with_reducible apply Dev.emit_has | with_reducible apply Dev.modMg_has | with_reducible apply ite_has | with_reducible apply foldS_has | with_reducible apply foldl_has | intro _ _ _ | intro _ | dsimp only | split | (fail_if_no_progress with_reducible apply Dev.Has.upd))

theorem opBufWrite_has {F : Tab Word} (x0 : MgmtIf) (x1 : BitVec 16) (x2 : List Byte) (x3 : Dev) (h3 : x3.Has F) :
    (opBufWrite x0 x1 x2 x3).Has F := by
  unfold opBufWrite
  repeat' (first | with_reducible assumption | with_reducible apply Dev.carry_has | with_reducible apply Dev.modMg_has | with_reducible apply ite_has | with_reducible apply foldS_has | with_reducible apply foldl_has | intro _ _ _ | intro _ | dsimp only | split | (fail_if_no_progress with_reducible apply Dev.Has.upd))

theorem opBufRead_has {F : Tab Word} (x0 : MgmtIf) (x1 : BitVec 16) (x2 : Byte) (x3 : Dev) (h3 : x3.Has F) :
    (opBufRead x0 x1 x2 x3).Has F := by
  unfold opBufRead
  repeat' (first | with_reducible assumption | with_reducible apply Dev.carry_has | with_reducible apply Dev.emit_has | with_reducible apply ite_has | with_reducible apply foldS_has | with_reducible apply foldl_has | intro _ _ _ | intro _ | dsimp only | split | (fail_if_no_progress with_reducible apply Dev.Has.upd))

theorem Dev.alertRead_has {F : Tab Word} (x0 : Dev) (h0 : x0.Has F) :
    (Dev.alertRead x0).Has F := by
  unfold Dev.alertRead
  repeat' (first | with_reducible assumption | with_reducible apply Dev.emit_has | with_reducible apply ite_has | with_reducible apply foldS_has | with_reducible apply foldl_has | intro _ _ _ | intro _ | dsimp only | split | (fail_if_no_progress with_reducible apply Dev.Has.upd))

theorem opRegRead_has {F : Tab Word} (x0 : RegReader) (x1 : Word) (x2 : Dev) (h2 : x2.Has F) :
    (opRegRead x0 x1 x2).Has F := by
  unfold opRegRead
  repeat' (first | with_reducible assumption | with_reducible apply Dev.readIn_has | with_reducible apply Dev.alertRead_has | with_reducible apply ite_has | with_reducible apply foldS_has | with_reducible apply foldl_has | intro _ _ _ | intro _ | dsimp only | split | (fail_if_no_progress with_reducible apply Dev.Has.upd))

theorem opRegWrite_has {F : Tab Word} (x0 : MgmtIf) (x1 : Word) (x2 : Word) (x3 : Dev) (h3 : x3.Has F) :
    (opRegWrite x0 x1 x2 x3).Has F := by
  unfold opRegWrite
  repeat' (first | with_reducible assumption | with_reducible apply Dev.access_has | with_reducible apply Dev.writeReg_has | with_reducible apply ite_has | with_reducible apply foldS_has | with_reducible apply foldl_has | intro _ _ _ | intro _ | dsimp only | split | (fail_if_no_progress with_reducible apply Dev.Has.upd))

theorem Dev.smbusNack_has {F : Tab Word} (x0 : Dev) (x1 : BitVec 6) (h0 : x0.Has F) :
    (Dev.smbusNack x0 x1).Has F := by
  unfold Dev.smbusNack
  repeat' (first | with_reducible assumption | with_reducible apply Dev.emit_has | with_reducible apply ite_has | with_reducible apply foldS_has | with_reducible apply foldl_has | intro _ _ _ | intro _ | dsimp only | split | (fail_if_no_progress with_reducible apply Dev.Has.upd))

theorem opSmbusBadCommand_has {F : Tab Word} (x0 : Byte) (x1 : Pec) (x2 : Dev) (h2 : x2.Has F) :
    (opSmbusBadCommand x0 x1 x2).Has F := by
  unfold opSmbusBadCommand
  repeat' (first | with_reducible assumption | with_reducible apply Dev.emit_has | with_reducible apply Dev.smbusNack_has | with_reducible apply ite_has | with_reducible apply foldS_has | with_reducible apply foldl_has | intro _ _ _ | intro _ | dsimp only | split | (fail_if_no_progress with_reducible apply Dev.Has.upd))

theorem opSmbusSclTimeout_has {F : Tab Word} (x0 : Dev) (h0 : x0.Has F) :
    (opSmbusSclTimeout x0).Has F := by
  unfold opSmbusSclTimeout
  repeat' (first | with_reducible assumption | with_reducible apply Dev.modMg_has | with_reducible apply ite_has | with_reducible apply foldS_has | with_reducible apply foldl_has | intro _ _ _ | intro _ | dsimp only | split | (fail_if_no_progress with_reducible apply Dev.Has.upd))

theorem Dev.tapLeave_has {F : Tab Word} (x0 : Dev) (h0 : x0.Has F) :
    (Dev.tapLeave x0).Has F := by
  unfold Dev.tapLeave
  repeat' (first | with_reducible assumption | with_reducible apply Dev.refreshPins_has | with_reducible apply ite_has | with_reducible apply foldS_has | with_reducible apply foldl_has | intro _ _ _ | intro _ | dsimp only | split | (fail_if_no_progress with_reducible apply Dev.Has.upd))

theorem Dev.irScan_has {F : Tab Word} (x0 : Dev) (h0 : x0.Has F) :
    (Dev.irScan x0).Has F := by
  unfold Dev.irScan
  repeat' (first | with_reducible assumption | with_reducible apply Dev.emit_has | with_reducible apply ite_has | with_reducible apply foldS_has | with_reducible apply foldl_has | intro _ _ _ | intro _ | dsimp only | split | (fail_if_no_progress with_reducible apply Dev.Has.upd))

theorem Dev.tap_has {F : Tab Word} (x0 : Dev) (x1 : Dev → Dev) (h0 : x0.Has F) (h1 : ∀ (y0 : Dev), y0.Has F → (x1 y0).Has F) :
    (Dev.tap x0 x1).Has F := by
  unfold Dev.tap
  repeat' (first | with_reducible assumption | with_reducible apply Dev.tapLeave_has | with_reducible apply Dev.irScan_has | with_reducible apply h1 | with_reducible apply ite_has | with_reducible apply foldS_has | with_reducible apply foldl_has | intro _ _ _ | intro _ | dsimp only | split | (fail_if_no_progress with_reducible apply Dev.Has.upd))

theorem Dev.tapDrive_has {F : Tab Word} (x0 : Dev) (x1 : BitVec 8) (h0 : x0.Has F) :
    (Dev.tapDrive x0 x1).Has F := by
  unfold Dev.tapDrive
  repeat' (first | with_reducible assumption | with_reducible apply Dev.irScan_has | with_reducible apply Dev.hostLost_has | with_reducible apply Dev.loseLink_has | with_reducible apply Dev.modLink_has | with_reducible apply Dev.refreshPins_has | with_reducible apply ite_has | with_reducible apply foldS_has | with_reducible apply foldl_has | intro _ _ _ | intro _ | dsimp only | split | (fail_if_no_progress with_reducible apply Dev.Has.upd))

theorem opJtagIdcode_has {F : Tab Word} (x0 : Dev) (h0 : x0.Has F) :
    (opJtagIdcode x0).Has F := by
  unfold opJtagIdcode
  repeat' (first | with_reducible assumption | with_reducible apply Dev.tap_has | with_reducible apply Dev.emit_has | with_reducible apply ite_has | with_reducible apply foldS_has | with_reducible apply foldl_has | intro _ _ _ | intro _ | dsimp only | split | (fail_if_no_progress with_reducible apply Dev.Has.upd))

theorem Dev.scanBoundary_has {F : Tab Word} (x0 : Dev) (x1 : BoundaryScan) (x2 : BitVec 2624) (h0 : x0.Has F) :
    (Dev.scanBoundary x0 x1 x2).Has F := by
  unfold Dev.scanBoundary
  repeat' (first | with_reducible assumption | with_reducible apply Dev.emit_has | with_reducible apply ite_has | with_reducible apply foldS_has | with_reducible apply foldl_has | intro _ _ _ | intro _ | dsimp only | split | (fail_if_no_progress with_reducible apply Dev.Has.upd))

theorem opJtagSamplePreload_has {F : Tab Word} (x0 : BoundaryScan) (x1 : BitVec 2624) (x2 : Dev) (h2 : x2.Has F) :
    (opJtagSamplePreload x0 x1 x2).Has F := by
  unfold opJtagSamplePreload
  repeat' (first | with_reducible assumption | with_reducible apply Dev.tap_has | with_reducible apply Dev.scanBoundary_has | with_reducible apply Dev.refreshPins_has | with_reducible apply ite_has | with_reducible apply foldS_has | with_reducible apply foldl_has | intro _ _ _ | intro _ | dsimp only | split | (fail_if_no_progress with_reducible apply Dev.Has.upd))

theorem opJtagExtest_has {F : Tab Word} (x0 : Dev) (h0 : x0.Has F) :
    (opJtagExtest x0).Has F := by
  unfold opJtagExtest
  repeat' (first | with_reducible assumption | with_reducible apply Dev.tapDrive_has | with_reducible apply ite_has | with_reducible apply foldS_has | with_reducible apply foldl_has | intro _ _ _ | intro _ | dsimp only | split | (fail_if_no_progress with_reducible apply Dev.Has.upd))

theorem opJtagClamp_has {F : Tab Word} (x0 : Dev) (h0 : x0.Has F) :
    (opJtagClamp x0).Has F := by
  unfold opJtagClamp
  repeat' (first | with_reducible assumption | with_reducible apply Dev.tapDrive_has | with_reducible apply ite_has | with_reducible apply foldS_has | with_reducible apply foldl_has | intro _ _ _ | intro _ | dsimp only | split | (fail_if_no_progress with_reducible apply Dev.Has.upd))

theorem opJtagHighz_has {F : Tab Word} (x0 : Dev) (h0 : x0.Has F) :
    (opJtagHighz x0).Has F := by
  unfold opJtagHighz
  repeat' (first | with_reducible assumption | with_reducible apply Dev.tapDrive_has | with_reducible apply ite_has | with_reducible apply foldS_has | with_reducible apply foldl_has | intro _ _ _ | intro _ | dsimp only | split | (fail_if_no_progress with_reducible apply Dev.Has.upd))

theorem opJtagExtestPulse_has {F : Tab Word} (x0 : Dev) (h0 : x0.Has F) :
    (opJtagExtestPulse x0).Has F := by
  unfold opJtagExtestPulse
  repeat' (first | with_reducible assumption | with_reducible apply Dev.tapDrive_has | with_reducible apply ite_has | with_reducible apply foldS_has | with_reducible apply foldl_has | intro _ _ _ | intro _ | dsimp only | split | (fail_if_no_progress with_reducible apply Dev.Has.upd))

theorem opJtagExtestTrain_has {F : Tab Word} (x0 : Dev) (h0 : x0.Has F) :
    (opJtagExtestTrain x0).Has F := by
  unfold opJtagExtestTrain
  repeat' (first | with_reducible assumption | with_reducible apply Dev.tapDrive_has | with_reducible apply ite_has | with_reducible apply foldS_has | with_reducible apply foldl_has | intro _ _ _ | intro _ | dsimp only | split | (fail_if_no_progress with_reducible apply Dev.Has.upd))

theorem opJtagInstructionExit_has {F : Tab Word} (x0 : Dev) (h0 : x0.Has F) :
    (opJtagInstructionExit x0).Has F := by
  unfold opJtagInstructionExit
  repeat' (first | with_reducible assumption | with_reducible apply Dev.tapLeave_has | with_reducible apply ite_has | with_reducible apply foldS_has | with_reducible apply foldl_has | intro _ _ _ | intro _ | dsimp only | split | (fail_if_no_progress with_reducible apply Dev.Has.upd))

theorem Dev.bypass_has {F : Tab Word} (x0 : Dev) (h0 : x0.Has F) :
    (Dev.bypass x0).Has F := by
  unfold Dev.bypass
  repeat' (first | with_reducible assumption | with_reducible apply Dev.tap_has | with_reducible apply Dev.emit_has | with_reducible apply ite_has | with_reducible apply foldS_has | with_reducible apply foldl_has | intro _ _ _ | intro _ | dsimp only | split | (fail_if_no_progress with_reducible apply Dev.Has.upd))

theorem opJtagBypass_has {F : Tab Word} (x0 : BitVec 8) (x1 : Dev) (h1 : x1.Has F) :
    (opJtagBypass x0 x1).Has F := by
  unfold opJtagBypass
  repeat' (first | with_reducible assumption | with_reducible apply Dev.bypass_has | with_reducible apply ite_has | with_reducible apply foldS_has | with_reducible apply foldl_has | intro _ _ _ | intro _ | dsimp only | split | (fail_if_no_progress with_reducible apply Dev.Has.upd))

theorem opJtagRdbkStream_has {F : Tab Word} (x0 : Nat) (x1 : Dev) (h1 : x1.Has F) :
    (opJtagRdbkStream x0 x1).Has F := by
  unfold opJtagRdbkStream
  repeat' (first | with_reducible assumption | with_reducible apply Dev.bypass_has | with_reducible apply Dev.tap_has | with_reducible apply Dev.emit_has | with_reducible apply Dev.modMg_has | with_reducible apply ite_has | with_reducible apply foldS_has | with_reducible apply foldl_has | intro _ _ _ | intro _ | dsimp only | split | (fail_if_no_progress with_reducible apply Dev.Has.upd))

theorem Dev.jtagBad_has {F : Tab Word} (x0 : Dev) (h0 : x0.Has F) :
    (Dev.jtagBad x0).Has F := by
  unfold Dev.jtagBad
  repeat' (first | with_reducible assumption | with_reducible apply Dev.carryFree_has | with_reducible apply ite_has | with_reducible apply foldS_has | with_reducible apply foldl_has | intro _ _ _ | intro _ | dsimp only | split | (fail_if_no_progress with_reducible apply Dev.Has.upd))

theorem Dev.jtagCommand_has {F : Tab Word} (x0 : Dev) (x1 : Nat) (x2 : List Byte) (h0 : x0.Has F) :
    (Dev.jtagCommand x0 x1 x2).Has F := by
  unfold Dev.jtagCommand
  repeat' (first | with_reducible assumption | with_reducible apply opMirrorRead_has | with_reducible apply Dev.jtagBad_has | with_reducible apply opUnitCmdStop_has | with_reducible apply opUnitCmdStart_has | with_reducible apply opUnitCmdRecover_has | with_reducible apply opUnitCmdRetire_has | with_reducible apply opUnitCmdReturn_has | with_reducible apply opUnitCmdLoop_has | with_reducible apply Dev.carry_has | with_reducible apply Dev.unitResponse_has | with_reducible apply opRdbkStart_has | with_reducible apply opRdbkData_has | with_reducible apply opDescSubmit_has | with_reducible apply opDescResult_has | with_reducible apply opBufWrite_has | with_reducible apply opBufRead_has | with_reducible apply opRegRead_has | with_reducible apply opRegWrite_has | with_reducible apply opFuseProgram_has | with_reducible apply opFuseLock_has | with_reducible apply opFuseRollback_has | with_reducible apply ite_has | with_reducible apply foldS_has | with_reducible apply foldl_has | intro _ _ _ | intro _ | dsimp only | split | (fail_if_no_progress with_reducible apply Dev.Has.upd))

theorem Dev.captureDr_has {F : Tab Word} (x0 : Dev) (x1 : Byte) (x2 : Nat) (h0 : x0.Has F) :
    (Dev.captureDr x0 x1 x2).Has F := by
  unfold Dev.captureDr
  repeat' (first | with_reducible assumption | with_reducible apply Dev.emit_has | with_reducible apply Dev.modMg_has | with_reducible apply ite_has | with_reducible apply foldS_has | with_reducible apply foldl_has | intro _ _ _ | intro _ | dsimp only | split | (fail_if_no_progress with_reducible apply Dev.Has.upd))

theorem opJtagMgmtAccess_has {F : Tab Word} (x0 : MgmtFrame) (x1 : Dev) (h1 : x1.Has F) :
    (opJtagMgmtAccess x0 x1).Has F := by
  unfold opJtagMgmtAccess
  repeat' (first | with_reducible assumption | with_reducible apply Dev.bypass_has | with_reducible apply Dev.tap_has | with_reducible apply Dev.captureDr_has | with_reducible apply Dev.jtagCommand_has | with_reducible apply ite_has | with_reducible apply foldS_has | with_reducible apply foldl_has | intro _ _ _ | intro _ | dsimp only | split | (fail_if_no_progress with_reducible apply Dev.Has.upd))

theorem Dev.closeVia_has {F : Tab Word} (x0 : Dev) (x1 : MgmtIf) (h0 : x0.Has F) :
    (Dev.closeVia x0 x1).Has F := by
  unfold Dev.closeVia
  repeat' (first | with_reducible assumption | with_reducible apply Dev.modMg_has | with_reducible apply Dev.endStop_has | with_reducible apply Dev.setQreq_has | with_reducible apply Dev.fuseResponse_has | with_reducible apply ite_has | with_reducible apply foldS_has | with_reducible apply foldl_has | intro _ _ _ | intro _ | dsimp only | split | (fail_if_no_progress with_reducible apply Dev.Has.upd))

theorem Dev.closeTest_has {F : Tab Word} (x0 : Dev) (h0 : x0.Has F) :
    (Dev.closeTest x0).Has F := by
  unfold Dev.closeTest
  repeat' (first | with_reducible assumption | with_reducible apply Dev.endPst_has | with_reducible apply Dev.modBank_has | with_reducible apply ite_has | with_reducible apply foldS_has | with_reducible apply foldl_has | intro _ _ _ | intro _ | dsimp only | split | (fail_if_no_progress with_reducible apply Dev.Has.upd))

theorem Dev.endClear_has {F : Tab Word} (x0 : Dev) (h0 : x0.Has F) :
    (Dev.endClear x0).Has F := by
  unfold Dev.endClear
  repeat' (first | with_reducible assumption | with_reducible apply Dev.loadFail_has | with_reducible apply Dev.passFail_has | with_reducible apply ite_has | with_reducible apply foldS_has | with_reducible apply foldl_has | intro _ _ _ | intro _ | dsimp only | split | (fail_if_no_progress with_reducible apply Dev.Has.upd))

theorem Dev.lockActs_has {F : Tab Word} (x0 : Dev) (x1 : MgmtIf) (x2 : Nat) (h0 : x0.Has F) :
    (Dev.lockActs x0 x1 x2).Has F := by
  unfold Dev.lockActs
  repeat' (first | with_reducible assumption | with_reducible apply Dev.endClear_has | with_reducible apply Dev.modMg_has | with_reducible apply Dev.closeVia_has | with_reducible apply Dev.tapLeave_has | with_reducible apply Dev.setUnit_has | with_reducible apply Dev.closeTest_has | with_reducible apply ite_has | with_reducible apply foldS_has | with_reducible apply foldl_has | intro _ _ _ | intro _ | dsimp only | split | (fail_if_no_progress with_reducible apply Dev.Has.upd))

theorem opFuseBitVerified_has {F : Tab Word} (x0 : MgmtIf) (x1 : Bool) (x2 : Dev) (h2 : x2.Has F) :
    (opFuseBitVerified x0 x1 x2).Has F := by
  unfold opFuseBitVerified
  repeat' (first | with_reducible assumption | with_reducible apply Dev.fuseStart_has | with_reducible apply Dev.fuseResponse_has | with_reducible apply Dev.lockActs_has | with_reducible apply Dev.setFuse_has | with_reducible apply ite_has | with_reducible apply foldS_has | with_reducible apply foldl_has | intro _ _ _ | intro _ | dsimp only | split | (fail_if_no_progress with_reducible apply Dev.Has.upd))

theorem opManagementParityFault_has {F : Tab Word} (x0 : MgmtIf) (x1 : Dev) (h1 : x1.Has F) :
    (opManagementParityFault x0 x1).Has F := by
  unfold opManagementParityFault
  repeat' (first | with_reducible assumption | with_reducible apply Dev.fault_has | with_reducible apply ite_has | with_reducible apply foldS_has | with_reducible apply foldl_has | intro _ _ _ | intro _ | dsimp only | split | (fail_if_no_progress with_reducible apply Dev.Has.upd))

theorem opDeviceParityFault_has {F : Tab Word} (x0 : Dev) (h0 : x0.Has F) :
    (opDeviceParityFault x0).Has F := by
  unfold opDeviceParityFault
  repeat' (first | with_reducible assumption | with_reducible apply Dev.fault_has | with_reducible apply ite_has | with_reducible apply foldS_has | with_reducible apply foldl_has | intro _ _ _ | intro _ | dsimp only | split | (fail_if_no_progress with_reducible apply Dev.Has.upd))

end Sys2Proof.Machine
end

