-- ==== Sys2Proof/Laws/Paths.lean ====
section
/-! SUPPORT. An access through a path that is open: what `access`, `carry`, `filtered` and `readThrough` come to, and what
counting the command leaves unchanged. -/

namespace Sys2Proof.Machine

/-! ### What counting a command leaves -/

@[simp] theorem Dev.countMgmt_units (d : Dev) (v : MgmtIf) : (d.countMgmt v).units = d.units := rfl
@[simp] theorem Dev.countMgmt_glb (d : Dev) (v : MgmtIf) : (d.countMgmt v).glb = d.glb := rfl
@[simp] theorem Dev.countMgmt_mblk (d : Dev) (v : MgmtIf) : (d.countMgmt v).mblk = d.mblk := rfl
@[simp] theorem Dev.countMgmt_fuse (d : Dev) (v : MgmtIf) : (d.countMgmt v).fuse = d.fuse := rfl
@[simp] theorem Dev.countMgmt_pwr (d : Dev) (v : MgmtIf) : (d.countMgmt v).pwr = d.pwr := rfl
@[simp] theorem Dev.countMgmt_cfg (d : Dev) (v : MgmtIf) : (d.countMgmt v).cfg = d.cfg := rfl
@[simp] theorem Dev.countMgmt_tele (d : Dev) (v : MgmtIf) : (d.countMgmt v).tele = d.tele := rfl
@[simp] theorem Dev.countMgmt_test (d : Dev) (v : MgmtIf) : (d.countMgmt v).test = d.test := rfl
@[simp] theorem Dev.countMgmt_time (d : Dev) (v : MgmtIf) : (d.countMgmt v).time = d.time := rfl
@[simp] theorem Dev.countMgmt_bgs (d : Dev) (v : MgmtIf) : (d.countMgmt v).bgs = d.bgs := rfl
@[simp] theorem Dev.countMgmt_pins (d : Dev) (v : MgmtIf) : (d.countMgmt v).pins = d.pins := rfl
@[simp] theorem Dev.countMgmt_rake (d : Dev) (v : MgmtIf) : (d.countMgmt v).rake = d.rake := rfl
@[simp] theorem Dev.countMgmt_routes (d : Dev) (v : MgmtIf) : (d.countMgmt v).routes = d.routes := rfl
@[simp] theorem Dev.countMgmt_pfw (d : Dev) (v : MgmtIf) : (d.countMgmt v).pfw = d.pfw := rfl
@[simp] theorem Dev.countMgmt_clk (d : Dev) (v : MgmtIf) : (d.countMgmt v).clk = d.clk := rfl
@[simp] theorem Dev.countMgmt_store (d : Dev) (v : MgmtIf) : (d.countMgmt v).store = d.store := rfl
@[simp] theorem Dev.countMgmt_out (d : Dev) (v : MgmtIf) : (d.countMgmt v).out = d.out := rfl
@[simp] theorem Dev.countMgmt_fuses (d : Dev) (v : MgmtIf) : (d.countMgmt v).fuses = d.fuses := rfl
@[simp] theorem Dev.countMgmt_hps (d : Dev) (v : MgmtIf) : (d.countMgmt v).hps = d.hps := rfl
@[simp] theorem Dev.countMgmt_links (d : Dev) (v : MgmtIf) : (d.countMgmt v).links = d.links := rfl
@[simp] theorem Dev.countMgmt_fports (d : Dev) (v : MgmtIf) : (d.countMgmt v).fports = d.fports := rfl
@[simp] theorem Dev.countMgmt_pans (d : Dev) (v : MgmtIf) : (d.countMgmt v).pans = d.pans := rfl
@[simp] theorem Dev.countMgmt_banks (d : Dev) (v : MgmtIf) : (d.countMgmt v).banks = d.banks := rfl
@[simp] theorem Dev.countMgmt_execs (d : Dev) (v : MgmtIf) : (d.countMgmt v).execs = d.execs := rfl
@[simp] theorem Dev.countMgmt_nextExec (d : Dev) (v : MgmtIf) : (d.countMgmt v).nextExec = d.nextExec := rfl
@[simp] theorem Dev.countMgmt_sl (d : Dev) (v : MgmtIf) : (d.countMgmt v).sl = d.sl := rfl
@[simp] theorem Dev.countMgmt_freeCtr (d : Dev) (v : MgmtIf) : (d.countMgmt v).freeCtr = d.freeCtr := rfl
@[simp] theorem Dev.countMgmt_nv (d : Dev) (v : MgmtIf) : (d.countMgmt v).nv = d.nv := rfl
@[simp] theorem Dev.countMgmt_storeNv (d : Dev) (v : MgmtIf) : (d.countMgmt v).storeNv = d.storeNv := rfl
@[simp] theorem Dev.ust_countMgmt (d : Dev) (v : MgmtIf) (u : Nat) : (d.countMgmt v).ust u = d.ust u := rfl
@[simp] theorem Dev.unit_countMgmt (d : Dev) (v : MgmtIf) (u : Nat) : (d.countMgmt v).unit u = d.unit u := rfl
@[simp] theorem Dev.pan_countMgmt (d : Dev) (v : MgmtIf) (u : Nat) : (d.countMgmt v).pan u = d.pan u := rfl
@[simp] theorem Dev.bank_countMgmt (d : Dev) (v : MgmtIf) (u : Nat) : (d.countMgmt v).bank u = d.bank u := rfl
@[simp] theorem Dev.hp_countMgmt (d : Dev) (v : MgmtIf) (u : Nat) : (d.countMgmt v).hp u = d.hp u := rfl
@[simp] theorem Dev.link_countMgmt (d : Dev) (v : MgmtIf) (u : Nat) : (d.countMgmt v).link u = d.link u := rfl
@[simp] theorem Dev.fport_countMgmt (d : Dev) (v : MgmtIf) (u : Nat) : (d.countMgmt v).fport u = d.fport u := rfl
@[simp] theorem Dev.pin_countMgmt (d : Dev) (v : MgmtIf) (u : Nat) : (d.countMgmt v).pin u = d.pin u := rfl
@[simp] theorem Dev.part_countMgmt (d : Dev) (v : MgmtIf) (i : Nat) : (d.countMgmt v).part i = d.part i := rfl
@[simp] theorem Dev.inPart_countMgmt (d : Dev) (v : MgmtIf) (i u : Nat) : (d.countMgmt v).inPart i u = d.inPart i u := rfl
@[simp] theorem Dev.locked_countMgmt (d : Dev) (v : MgmtIf) (n : Nat) : (d.countMgmt v).locked n = d.locked n := rfl
@[simp] theorem Dev.reaches_countMgmt (d : Dev) (v : MgmtIf) (rd : Nat) (b : Blk) (o : Nat) (w : Bool) :
    (d.countMgmt v).reaches rd b o w = d.reaches rd b o w := by
  have hp : ∀ i, (d.countMgmt v).part i = d.part i := fun _ => rfl
  have hi : ∀ i u, (d.countMgmt v).inPart i u = d.inPart i u := fun _ _ => rfl
  generalize d.countMgmt v = e at hp hi
  simp only [Dev.reaches, hp, hi]
@[simp] theorem Dev.statusWord_countMgmt (d : Dev) (v : MgmtIf) (u : Nat) : (d.countMgmt v).statusWord u = d.statusWord u := rfl
@[simp] theorem Dev.tokens_countMgmt (d : Dev) (v : MgmtIf) (p : Nat) : (d.countMgmt v).tokens p = d.tokens p := rfl

@[simp] theorem Dev.mg_countMgmt_slot (d : Dev) (v : MgmtIf) : ((d.countMgmt v).mg v).slot = (d.mg v).slot := by simp [Dev.countMgmt]
@[simp] theorem Dev.mg_countMgmt_cpl (d : Dev) (v : MgmtIf) : ((d.countMgmt v).mg v).cpl = (d.mg v).cpl := by simp [Dev.countMgmt]
@[simp] theorem Dev.mg_countMgmt_buf (d : Dev) (v : MgmtIf) : ((d.countMgmt v).mg v).buf = (d.mg v).buf := by simp [Dev.countMgmt]
@[simp] theorem Dev.mg_countMgmt_rdbk (d : Dev) (v : MgmtIf) : ((d.countMgmt v).mg v).rdbk = (d.mg v).rdbk := by simp [Dev.countMgmt]

/-! ### What entering a path leaves -/

@[simp] theorem Dev.entered_units (d : Dev) (path : Path) : (d.entered path).units = d.units := by cases path <;> rfl
@[simp] theorem Dev.entered_glb (d : Dev) (path : Path) : (d.entered path).glb = d.glb := by cases path <;> rfl
@[simp] theorem Dev.entered_mblk (d : Dev) (path : Path) : (d.entered path).mblk = d.mblk := by cases path <;> rfl
@[simp] theorem Dev.entered_fuse (d : Dev) (path : Path) : (d.entered path).fuse = d.fuse := by cases path <;> rfl
@[simp] theorem Dev.entered_fuses (d : Dev) (path : Path) : (d.entered path).fuses = d.fuses := by cases path <;> rfl
@[simp] theorem Dev.entered_pwr (d : Dev) (path : Path) : (d.entered path).pwr = d.pwr := by cases path <;> rfl
@[simp] theorem Dev.entered_cfg (d : Dev) (path : Path) : (d.entered path).cfg = d.cfg := by cases path <;> rfl
@[simp] theorem Dev.entered_tele (d : Dev) (path : Path) : (d.entered path).tele = d.tele := by cases path <;> rfl
@[simp] theorem Dev.entered_test (d : Dev) (path : Path) : (d.entered path).test = d.test := by cases path <;> rfl
@[simp] theorem Dev.entered_time (d : Dev) (path : Path) : (d.entered path).time = d.time := by cases path <;> rfl
@[simp] theorem Dev.entered_bgs (d : Dev) (path : Path) : (d.entered path).bgs = d.bgs := by cases path <;> rfl
@[simp] theorem Dev.entered_pins (d : Dev) (path : Path) : (d.entered path).pins = d.pins := by cases path <;> rfl
@[simp] theorem Dev.entered_rake (d : Dev) (path : Path) : (d.entered path).rake = d.rake := by cases path <;> rfl
@[simp] theorem Dev.entered_routes (d : Dev) (path : Path) : (d.entered path).routes = d.routes := by cases path <;> rfl
@[simp] theorem Dev.entered_pfw (d : Dev) (path : Path) : (d.entered path).pfw = d.pfw := by cases path <;> rfl
@[simp] theorem Dev.entered_clk (d : Dev) (path : Path) : (d.entered path).clk = d.clk := by cases path <;> rfl
@[simp] theorem Dev.entered_store (d : Dev) (path : Path) : (d.entered path).store = d.store := by cases path <;> rfl
@[simp] theorem Dev.entered_hps (d : Dev) (path : Path) : (d.entered path).hps = d.hps := by cases path <;> rfl
@[simp] theorem Dev.entered_links (d : Dev) (path : Path) : (d.entered path).links = d.links := by cases path <;> rfl
@[simp] theorem Dev.entered_fports (d : Dev) (path : Path) : (d.entered path).fports = d.fports := by cases path <;> rfl
@[simp] theorem Dev.entered_pans (d : Dev) (path : Path) : (d.entered path).pans = d.pans := by cases path <;> rfl
@[simp] theorem Dev.entered_banks (d : Dev) (path : Path) : (d.entered path).banks = d.banks := by cases path <;> rfl
@[simp] theorem Dev.entered_execs (d : Dev) (path : Path) : (d.entered path).execs = d.execs := by cases path <;> rfl
@[simp] theorem Dev.entered_nextExec (d : Dev) (path : Path) : (d.entered path).nextExec = d.nextExec := by cases path <;> rfl
@[simp] theorem Dev.entered_sl (d : Dev) (path : Path) : (d.entered path).sl = d.sl := by cases path <;> rfl
@[simp] theorem Dev.entered_out (d : Dev) (path : Path) : (d.entered path).out = d.out := by cases path <;> rfl
@[simp] theorem Dev.entered_freeCtr (d : Dev) (path : Path) : (d.entered path).freeCtr = d.freeCtr := by cases path <;> rfl
@[simp] theorem Dev.entered_nv (d : Dev) (path : Path) : (d.entered path).nv = d.nv := by cases path <;> rfl
@[simp] theorem Dev.entered_storeNv (d : Dev) (path : Path) : (d.entered path).storeNv = d.storeNv := by cases path <;> rfl
@[simp] theorem Dev.ust_entered (d : Dev) (path : Path) (u : Nat) : (d.entered path).ust u = d.ust u := by cases path <;> rfl
@[simp] theorem Dev.unit_entered (d : Dev) (path : Path) (u : Nat) : (d.entered path).unit u = d.unit u := by cases path <;> rfl
@[simp] theorem Dev.pan_entered (d : Dev) (path : Path) (p : Nat) : (d.entered path).pan p = d.pan p := by cases path <;> rfl
@[simp] theorem Dev.bank_entered (d : Dev) (path : Path) (n : Nat) : (d.entered path).bank n = d.bank n := by cases path <;> rfl
@[simp] theorem Dev.hp_entered (d : Dev) (path : Path) (p : Nat) : (d.entered path).hp p = d.hp p := by cases path <;> rfl
@[simp] theorem Dev.link_entered (d : Dev) (path : Path) (n : Nat) : (d.entered path).link n = d.link n := by cases path <;> rfl
@[simp] theorem Dev.fport_entered (d : Dev) (path : Path) (f : Nat) : (d.entered path).fport f = d.fport f := by cases path <;> rfl
@[simp] theorem Dev.pin_entered (d : Dev) (path : Path) (n : Nat) : (d.entered path).pin n = d.pin n := by cases path <;> rfl
@[simp] theorem Dev.part_entered (d : Dev) (path : Path) (i : Nat) : (d.entered path).part i = d.part i := by cases path <;> rfl
@[simp] theorem Dev.locked_entered (d : Dev) (path : Path) (n : Nat) : (d.entered path).locked n = d.locked n := by cases path <;> rfl
@[simp] theorem Dev.tokens_entered (d : Dev) (path : Path) (p : Nat) : (d.entered path).tokens p = d.tokens p := by cases path <;> rfl
@[simp] theorem Dev.inPart_entered (d : Dev) (path : Path) (i u : Nat) : (d.entered path).inPart i u = d.inPart i u := by cases path <;> rfl
@[simp] theorem Dev.selAt_entered (d : Dev) (path q : Path) (o : Nat) : (d.entered path).selAt q o = d.selAt q o := by cases path <;> cases q <;> rfl

/-! ### Open paths -/

/-- A command of an interface that is open is taken. -/
theorem Dev.carryFree_open {d : Dev} {via : MgmtIf} (h : d.viaOpen via) (m : Bool) (f : Dev → Dev) : d.carryFree via m f = f d := by
  cases via <;> obtain ⟨h1, h2, h3, h4, h5⟩ := h <;> simp [Dev.carryFree, h1, h2, h3, h4, h5]

/-- A command of an interface that is open is counted and performed. -/
theorem Dev.carry_open {d : Dev} {via : MgmtIf} (h : d.viaOpen via) (m : Bool) (f : Dev → Dev) : d.carry via m f = f (d.countMgmt via) :=
  Dev.carryFree_open h m _

/-- An access of an open path reaches the registers. -/
theorem Dev.access_open {d : Dev} {path : Path} (h : d.pathOpen path) (f : Dev → Dev) : d.access path f = f (d.entered path) := by
  cases path with
  | host p => obtain ⟨_, h1, h2, h3⟩ := h; simp [Dev.access, Dev.linkReaches, Dev.entered, h1, h2, h3]
  | hostPart p => exact h.elim
  | smbus => exact Dev.carry_open (via := .smbus) h false f
  | jtag => exact Dev.carry_open (via := .jtag) h false f

@[simp] theorem Dev.reaches_entered (d : Dev) (path : Path) (rd : Nat) (b : Blk) (o : Nat) (w : Bool) :
    (d.entered path).reaches rd b o w = d.reaches rd b o w := by
  cases path with
  | host p => rfl
  | hostPart p => rfl
  | smbus => exact Dev.reaches_countMgmt d .smbus rd b o w
  | jtag => exact Dev.reaches_countMgmt d .jtag rd b o w

/-- An access of an open path has the form of R349. -/
theorem Dev.pathOpen_whole {d : Dev} {path : Path} (h : d.pathOpen path) : path.whole = true := by
  cases path with
  | hostPart p => exact h.elim
  | _ => rfl

/-- A write that reaches its register is made and answered. -/
theorem Dev.filtered_can {d : Dev} {path : Path} {b : Blk} {o : Nat} (h : d.canWrite path b o) (f : Dev → Dev) :
    d.filtered path b o f = (f (d.entered path)).wrote path := by
  obtain ⟨h1, h2⟩ := h
  simp [Dev.filtered, Dev.filteredIf, Dev.access_open h1, Dev.pathOpen_whole h1, h2]

/-- The same, where the value must name only what the writer holds. -/
theorem Dev.filteredIf_can {d : Dev} {path : Path} {b : Blk} {o : Nat} (h : d.canWrite path b o) {ok : Dev → Bool}
    (hok : ok (d.entered path) = true) (f : Dev → Dev) : d.filteredIf path b o ok f = (f (d.entered path)).wrote path := by
  obtain ⟨h1, h2⟩ := h
  simp [Dev.filteredIf, Dev.access_open h1, Dev.pathOpen_whole h1, h2, hok]

/-- A read that reaches its register answers its word and leaves its effect. -/
theorem Dev.readThrough_can {d : Dev} {path : Path} {b : Blk} {o : Nat} (h : d.canRead path b o) (off : Nat) (f : Dev → Word × Dev) :
    d.readThrough path b o off f = (f (d.entered path)).2.returns path off (f (d.entered path)).1 := by
  obtain ⟨h1, h2⟩ := h
  simp [Dev.readThrough, Dev.access_open h1, Dev.pathOpen_whole h1, h2]

/-! ### A host port's function -/

/-- A doorbell acts at a RUNNING port whose function serves its BARs. -/
theorem Dev.doorbell_served {d : Dev} {p : Nat} (hr : d.ust (uHost p) = .running) (hs : (d.hp p).conf.serves = true) (f : Dev → Dev) :
    d.doorbell p f = f d := by simp [Dev.doorbell, hr, hs]

/-- A write to host memory leaves at once where the function may make requests. -/
theorem Dev.postHost_asks {d : Dev} {p : Nat} (h : (d.hp p).conf.asks = true) (a : DWord) (bs : List Byte) (r : Bool) :
    d.postHost p a bs r = d.emit (.hostWrite p a bs r) := by simp [Dev.postHost, h]

end Sys2Proof.Machine
end

