-- ==== Sys2Proof/Tests/Slice0.lean ====
section
/-! SUPPORT. The model's own tests: states that meet the hypotheses of each statement, clause by clause; commands that name
what the device does not have; the spec's worked examples. -/

set_option maxRecDepth 20000
set_option exponentiation.threshold 5000

namespace Sys2Proof.Tests

open Sys2Proof Sys2Proof.Machine

/-! ### Small states -/

/-- A device in user mode with these units in these states; every other unit is OFF and everything else as after reset. -/
def inUse (us : List (Nat × UState)) : Dev :=
  { cfg := { phase := .user, ioEnabled := true, doneReleased := true }, units := us.foldl (fun t e => t.set {} e.1 { st := e.2 }) [] }

/-- That device with no command waiting. -/
def st (d : Dev) : State := { dev := d }

theorem Takes.imp {c : Instr} {s : State} {P Q : Dev → Prop} : Takes c s P → (∀ t, P t → Q t) → Takes c s Q :=
  fun ⟨t, h1, h2, h3⟩ h => ⟨t, h1, h2, h t.dev h3⟩

theorem any {c : Instr} {s : State} {P : Dev → Prop} (h : Takes c s P) : Takes c s fun _ => True := Takes.imp h fun _ _ => trivial

/-- A one-line read by pan 0 at a stage. -/
def readBy (stage : ReqStage) : SlIn :=
  { ingress := 0, by_ := .pan 0 0, addr := 0, write := false, lines := 1, be := BitVec.allOnes 64, data := [], poison := false, flip := none
    stage := stage, tier := 5 }

/-- A device whose request number 0 is this one. -/
def asks (d : Dev) (q : SlIn) : Dev := { d with sl := { d.sl with reqs := [(0, some q)], nextReq := 1 } }

/-- A one-line full write by pan 0 at a stage. -/
def writeBy (stage : ReqStage) : SlIn := { readBy stage with write := true, data := [1] }

/-- A read of the first line of pool 0xF000. -/
def poolRead : SlReq := { ingress := 0, addr := BitVec.ofNat 64 (0xF000 * 2 ^ 34), write := false, len := 0, tid := 0, be := 0, data := [], err := .none }

/-- Pan 0 runs, its port is open, and its ingress caches that page at bank 127. -/
def cachedPan : Dev :=
  ((inUse [(uPan 0, .running)]).modPan 0 fun x => { x with port := .opened }).modIng 0 fun g =>
    { g with cache := [{ tag := 0xF000, trans := .page 0xF000 0 127 3, owner := 0, size := 1 }] }

/-- Every path is open: the links of host ports 0 and 3 are up, and the management interfaces run. -/
def linkedDev : Dev :=
  ((inUse [(uMgmt .smbus, .running), (uMgmt .jtag, .running), (uHost 0, .running), (uHost 3, .running)]).modHp 0 fun h => { h with linkUp := true }).modHp 3
    fun h => { h with linkUp := true }
def linked : State := st linkedDev

/-- Bank 127 runs, and line 63 of its page 3 is written with its guard; request 0 waits there. -/
def written : Dev :=
  (inUse [(uBank 127, .running)]).modBank 127 fun b => { b.putLine 3 63 7 with slots := b.slots.set {} 3 { written := true, t := 0 }, queue := [0] }

/-- The guards of slot 3, given for each line. -/
def guards3 (g : Nat → Word) : Tab Word := (List.range 64).map fun k => (192 + k, g k)

theorem guards3_get (g : Nat → Word) : (List.range 64).map (fun n => (guards3 g).get 0 (64 * 3 + n)) = (List.range 64).map g := rfl

/-- A bank whose pages 3 and 5 are written, without check bytes; page 3 is all zeros, and every guard of it good. -/
def bgBank : Bank :=
  { guards := guards3 fun k => guardOf k 0, slots := [(3, { written := true, t := 0 }), (5, { written := true, t := 0 })]
    zfPage := some (3, 62), recode := some 0 }

theorem bgBank_failing : bgBank.failing 3 = [] := by
  rw [Bank.failing, List.filter_eq_nil_iff]
  intro n hn
  have h : bgBank.guards.get 0 (64 * 3 + n) = guardOf n 0 := List.map_inj_left.mp (guards3_get fun k => guardOf k 0) n hn
  have hl : bgBank.line 3 n = 0 := rfl
  simp only [Bank.guardOk, h, hl, beq_self_eq_true, Bool.not_true, Bool.false_eq_true, not_false_eq_true]

/-- That bank is number 0; it and background services run. -/
def bg : Dev := { inUse [(uBank 0, .running), (uBgs, .running)] with banks := [(0, bgBank)] }

/-- There only the last line of page 3 is left to fill, and self-test has borrowed a slot. -/
def bgLast : Dev := { bg with banks := [(0, { bgBank with zfPage := some (3, 63), borrow := some { slot := 135, lines := [], guards := [], st := {} } })] }

theorem bg_failing : ((bg.bank 0).claim ((bg.bank 0).slotOf 3)).failing ((bg.bank 0).slotOf 3) = [] := bgBank_failing

/-- A descriptor by its words. -/
def desc (ws : List Nat) : Desc := BitVec.ofNat 512 (ws.foldr (fun w n => w + 2 ^ 32 * n) 0)

/-- The SMBus slot holds this descriptor. -/
def bySmbus (x : Desc) (d : Dev) : Dev := d.modMg .smbus fun m => { m with slot := 1, desc := some x }

/-- Host port 3 runs with its last submission ring, which holds this descriptor and completes into ring 0. -/
def byRing (x : Desc) (d : Dev) : Dev :=
  ({ d with units := d.units.set {} (uHost 3) { st := .running } } : Dev).modHp 3 fun h =>
    { h with ctrl := 0x03E80007, linkUp := true, sqs := [(15, { st := .running, held := [x] })], cqs := [(0, { enabled := true })] }

/-- The Rake and the Store run; module 7 is in the library, and the other units are in these states. -/
def raked (us : List (Nat × UState)) : Dev :=
  let d := inUse (us ++ [(uRake, .running), (uStore, .running)])
  { d with rake := { d.rake with mapReady := true }
           storeNv := { d.storeNv with lib := [(0x20, 0), (0x21, 0), (0x22, 0), (0x23, 0)] }
           store := { d.store with cat := [{ module := 7, keySlot := 0xFF }] } }

/-- Module 7 is placed at pan 63, which runs. -/
def placed (us : List (Nat × UState)) : Dev := (raked (us ++ [(uPan 63, .running)])).modPan 63 fun p => { p with module := 7, selected := true, port := .opened }

/-- A move of page 5 of bank 127, the one page of pool 0xFFFF, to page 9 of bank 0. -/
def moving (ph : MovePhase) (dirty : DWord) (marks : List Nat) : PageMove :=
  { handle := 0xFFFF, k := 0, dstBank := 0, phase := ph, srcBank := 127, srcPage := 5, dstPage := 9, dirty := dirty, marks := marks }

/-- A device with that move. -/
def moves (m : PageMove) : Dev :=
  let d := raked [(uBank 0, .running), (uBank 127, .running)]
  { d with rake := { d.rake with moves := [m], pools := [(0xFFFF, some { size := 1, stripe := 1, home := 0, follow := false, owner := 0xF
                                                                         set := [127], pages := [(127, 5)] })] } }

def straps : Straps := { cfgMode := 4, cfgPull := false, smbAddr := 3, lfxtEn := true }
def sound : StartCells := { weakValid := [], weakFrames := [], badFrames := [] }

/-- Before DONE: the device has read its planes and waits. -/
def beforeDone (opts : Word) : Dev := { cfg := { phase := .waitDone, opts := opts } }

/-- A record header for every device. -/
def toAll : RecHdr := { flags := 0, target := 0xFFFF }

/-- A header of an encrypted record for every device. -/
def toAllEnc : RecHdr := { flags := 1, target := 0xFFFF }

/-- A blank device takes a stream: this load is in progress. -/
def loading (l : Load) : Dev := { cfg := { phase := .waitStream, blank := true, synced := true, load := some l } }

/-- The last array frame of pan 63 as a FRAMES record. -/
def lastFrame : List Byte := leBytes 4 (devAddr (6144 * 63 + 6142)) ++ leBytes 4 1 ++ frameBytes 0 ++ leBytes 4 (frameCheckAt 63 6142 0).toNat

/-- An operation of the SMBus slot. -/
def opIn (k : OpKind) (ph : OpPhase) (dsts srcs : List Nat) : Op :=
  { kind := k, iss := .smbus, desc := 0, phase := ph, module := 7, dst := dsts.headD 0, dsts := dsts, srcs := srcs }

/-- A device whose execution record 0 is this operation. -/
def doing (o : Op) (d : Dev) : Dev :=
  { d with rake := { d.rake with ops := [(0, some o)] }, nextExec := 1
           execs := [(0, some { iss := .smbus, opcode := 1, flags := 0, tag := 0, idx := 0, kind := .rake })] }

/-- A staging pass of that operation. -/
def passOf (pan : Nat) (img : ImgSrc) : Pass :=
  { kind := .real, exec := some 0, pan := pan, anchor := pan, member := 0, module := 7, digest := 0, full := [], img := img }

/-- The header of a 1 × 1 image in clear that passes the checks, with DIGEST and the rest zeros. -/
def soundHeader : List Byte :=
  let b := leBytes 4 0x4D4C4801 ++ leBytes 2 1 ++ [0, 0] ++ leBytes 4 devType.toNat ++ List.replicate 9 0 ++ [0xFF] ++ List.replicate 230 0
  b ++ leBytes 4 (crc32c b).toNat

/-- Pan 63's pass of a library image in unit 0 with that header, and a device with it. -/
def libraryPass (x : Pass) (us : List (Nat × UState)) : Dev :=
  let d := doing (opIn .place .staging [63] []) (inUse (us ++ [(uPan 63, .idle), (uStore, .running)]))
  { d with cfg := { d.cfg with passes := [x] }, storeNv := { d.storeNv with lib := Tab.setList 0xFF [] 0 soundHeader } }

/-- A pass on lane 3 whose next frame, the last array frame of pan 63, is at hand. -/
def oneFrame : Pass :=
  { passOf 63 (.host (List.replicate 256 0)) with lane := some 3, plane := 1, next := 6142, items := [.lit 0x5F3E 0 (frameCheckAt 63 6142 0)] }

/-- A pass on lane 3 that has written every frame, of an image whose header is all zeros. -/
def allFrames : Pass :=
  { passOf 63 (.host (List.replicate 256 0)) with lane := some 3, plane := 1, next := 6144, ended := true, full := sha384 [] }

/-- The time unit runs with this state; every register path is open. -/
def timed (t : TimeU) : Dev := { linkedDev with time := t, units := linkedDev.units.set {} uTime { st := .running } }

/-- The Store and host port 3 run. -/
def stored (c : StoreCtl) (n : StoreNv) (x : Desc) : Dev :=
  { byRing x (inUse [(uStore, .running)]) with store := c, storeNv := n }

/-- Sixty log units of the vault, each with one copy of record 0x100; the last is current. -/
def fullLog : Tab (List VaultRec) :=
  (List.range 60).map fun i =>
    (1988 + i, [{ id := 0x100, owner := 3, length := 1, seq := BitVec.ofNat 32 i, data := [5], dcheck := 0, hcheck := 0, valid := validMark }])

/-- A vault whose live records take all that it may hold. -/
def fullVault : Tab (List VaultRec) :=
  [(1988, (List.range 48).map fun i =>
    { id := BitVec.ofNat 16 (0x200 + i), owner := 3, length := 0xFFFF, seq := 1, data := [], dcheck := 0, hcheck := 0, valid := validMark })]

/-- A VAULT_WRITE of one byte under ID 0x100 whose data is there. -/
def vaultJob : VaultJob :=
  { exec := 9, iss := .smbus, desc := (desc [0x32, 0x100, 1, 0, 0]), write := true, readOk := true, phase := .ready, data := [5] }

/-- The device goes to sleep in this mode, and these units are asked. -/
def entering (mode : BitVec 3) (asked : List Nat) : Dev :=
  { inUse [(uHost 3, .running), (uTime, .running), (uPan 63, .running)] with pwr := { phase := .entering, modeIn := mode, asked := asked } }

/-- The device sleeps; pan 63, which was RUNNING, is ASLEEP. -/
def sleeping (p : Pwr) : Dev := { inUse [] with units := [(uPan 63, { st := .asleep, prior := .running })], pwr := { p with phase := .asleep } }

theorem planeSig_frames {n m : NvUnit} {u k : Nat} (h : n.frames = m.frames) : n.planeSig u k = m.planeSig u k := by simp only [NvUnit.planeSig, h]

/-- A unit whose record in slot A carries this signature. -/
def nvSig (g : DWord) : NvUnit := { recA := { sig := g } }

theorem nvSig_sig (g : DWord) : ((nvSig g).slot 0).sig = g := rfl

/-- Background services run, and so does the module at pan 63, whose record carries this signature. -/
def checkedWith (g : DWord) (b : Bgs) : Dev :=
  { inUse [(uBgs, .running), (uPan 63, .running)] with nv := [(63, nvSig g)], pans := [(63, { module := 7, selected := true })], bgs := b }

theorem checkedWith_signed (g : DWord) (b : Bgs) (h : NvUnit.planeSig {} 63 0 = g) : (checkedWith g b).signed 63 = true := by
  have hn : (checkedWith g b).nvu 63 = nvSig g := rfl
  have hp : ((checkedWith g b).pan 63).active = 0 := rfl
  have hf : (nvSig g).frames = NvUnit.frames {} := rfl
  simp only [Dev.signed, hn, hp, nvSig_sig, planeSig_frames hf, h, beq_self_eq_true]

/-- It carries the signature of its blank plane. -/
def checkedPan (b : Bgs) : Dev := checkedWith (NvUnit.planeSig {} 63 0) b

theorem checked_signed (b : Bgs) : (checkedPan b).signed 63 = true := checkedWith_signed _ b rfl

/-- Host port 3 runs, with its link up and these fields. -/
def hosted (h : HostPort) : Dev := { inUse [(uHost 3, .running)] with hps := [(3, { h with linkUp := true, ctrl := 0x03E80007 })] }

/-- Link port 95 is in this state. -/
def linkAt (u : UState) (l : LinkPort) : Dev := { inUse [(uLink 95, u)] with links := [(95, l)] }

/-- Host port 3 runs as well, with an event ring of 16 entries at address 0 and no event in it. -/
def notified (d : Dev) : Dev :=
  { d with units := d.units.set {} (uHost 3) { st := .running }, hps := [(3, { linkUp := true, eq := { enabled := true, cfg := 0x401 } })] }

/-- The record of an event in that ring, at time 0 of a counter that has never been set. -/
def noticeBytes (u code status : Nat) (data : DWord) : List Byte :=
  eventBytes true { unit := u, code := code, status := status, data := data, stamp := (inUse []).stampWords }

/-- It trains, enabled, with its LINK_CTRL in force. -/
def trains (l : LinkPort) : Dev := linkAt .idle { l with training := true, ctrl := 0x1000 ||| l.inForce }

/-- A peer of a Brera link at one lane. -/
def peer95 : Hello :=
  { device := 9, tandem := false, relay := true, port := 3, seen := true, lanes := 0, rate := 0, version := 1, rspCells := 255, reqCells := 255 }

/-- A request packet in order; one that is not ok was interrupted. -/
def packet (seq : BitVec 12) (ok : Bool) : Packet :=
  let p : Packet := { rsp := false, seq := seq, addr := 0, be := 0, dstDev := 0, srcDev := 9, src := 0, xid := 0, write := false, len := 0, hops := 0, status := 0
                      payload := [], crc := 0, broken := !ok, ack := 0, ackValid := false, rspCredits := 15, reqCredits := 15 }
  { p with crc := Packet.crcWord p }

/-- A line before which no FEC codeword failed. -/
def noFec : FecCount := { corrected := 0, uncorrectable := 0 }

/-- Field port 23 is in this state, with every path open. -/
def fieldAt (u : UState) (x : FPort) : Dev := { linkedDev with units := linkedDev.units.set {} (uFport 23) { st := u }, fports := [(23, x)] }

/-- That port with pins 0 to 5 feeding its first six inputs. -/
def fedAt (u : UState) (x : FPort) : Dev :=
  let d := fieldAt u x
  { d with units := d.units.set {} (uPinBank 0) { st := .running }
           pins := { pins := (List.range 6).map fun k => (k, { sel := BitVec.ofNat 32 (0x071B8002 + 4096 * k) }), enabled := [(0, true)], vccioOk := 1 } }

/-- That port in the core loop of bank 0, whose pin 0 carries its first source and feeds its first input. -/
def ownAt (u : UState) (x : FPort) : Dev :=
  let d := fieldAt u x
  { d with units := d.units.set {} (uPinBank 0) { st := .running }
           pins := { pins := [(0, { sel := 0x071B81B8 })], enabled := [(0, true)], vccioOk := 1, loop := [(0, 1)] } }

/-- Units in these states, with every path open. -/
def managed (us : List (Nat × UState)) : Dev := { linkedDev with units := us.foldl (fun t e => t.set {} e.1 { st := e.2 }) linkedDev.units }

/-- Every path is open, but the partitions of host port 3 and of management grant nothing. -/
def closed : Dev := { linkedDev with fuse := { parts := [(3, {}), (4, {})] } }

/-- A fuse command with one fuse left to program, the last of the array. -/
def fuseJob (via : MgmtIf) (left : List Nat) : FuseJob := { via := via, op := 0, word := 511, arg := 0, left := left, started := true }

/-- A view of one macrocell with this configuration and element value, where GSR and hold stand at these levels. Its block's
first input is 1 and drives the block set-reset. -/
def cellView (c : MacroCfg) (q gsr hold : Bool) : View :=
  { idx := 0, cfg := { blocks := [(0, { inputs := [(0, .one)], bsr0 := some 0, cells := [(0, c)] })] }
    p := { fab := { q := if q then [(0, true)] else [] }, softAssert := gsr, softHold := hold }, inits := [], live := [] }

/-- A device whose last fuse is programmed, and one NOP in its queue. -/
def oneNop : State := { dev := { fuses := [(511, 0x80000000)] }, pending := [.nop .smbus 0] }

/-- Host port 3 runs, its event ring at its last entry. -/
def lastEvent : Dev := hosted { eq := { enabled := true, tail := 15, head := 15 } }

/-- The device is on its way to sleep. -/
def fallingAsleep : Dev := { linkedDev with pwr := { phase := .entering } }

theorem unlisted3C (b : Blk) (o : Nat) (h : regBlock (0x3C : Word).toNat = some (b, o)) : regListed b o = false := by
  have h2 : regBlock (0x3C : Word).toNat = some (.glb, 0x3C) := by decide
  rw [h2] at h; injection h with h; injection h with h1 h3; subst h1; subst h3; decide

theorem unlisted24000 (b : Blk) (o : Nat) (h : regBlock (0x24000 : Word).toNat = some (b, o)) : regListed b o = false := by
  have h2 : regBlock (0x24000 : Word).toNat = none := by decide
  rw [h2] at h; exact nomatch h

/-- A view with one product term, of these columns, and the inputs 1. -/
def termView (cols : List Nat) : View :=
  { idx := 0, cfg := { blocks := [(0, { inputs := [(0, .one), (1, .one)], terms := [(0, cols)] })] }, p := {}, inits := [], live := [] }

/-- A multiply-add unit 0 with SAT or without it, doing this operation on these values. -/
def macView (sat : Bool) (op : BitVec 3) (p c prod : BitVec 48) : View :=
  { idx := 0, cfg := { macs := [(0, { sat := sat, regMul := true })] }
    p := { fab := { mac := [(0, { p := p, mprod := prod, mc := c, mop := op })] } }, inits := [], live := [] }

/-! ### Commands that name what the device does not have: one for each check -/

theorem test_wf_refuses_starts : [Instr.powerOnResetRelease straps { sound with weakValid := [65] }, .progN straps { sound with weakFrames := [(63, 6144)] },
    .pfwReturnTimeout straps { sound with badFrames := [(64, 2048)] }, .pinBankEnable 16 true 0, .catalogueLoaded (some 2048), .saveUnitErase 1986,
    .startCountUnitErase 1985, .brownOut false [64], .storeEraseDone 2048, .stagingFrame 4 .ok .first, .passEnd 4, .laneParityFault 4].all (fun c => !c.wf) = true := by decide

theorem test_wf_refuses_pans : [Instr.qack 64, .quiesceTimeout 64, .portDrained 64, .captureDone 64, .planeSwitch 64, .borderRelease 64, .commitPoint 65, .recordWordWritten 65,
    .close 64 .held, .open 64, .endpointRequest 64, .endpointResponse 63 32 0 [], .endpointResponse 63 0 0 (List.replicate 9 0), .fieldChannelTx 63 4 0, .panGsrWrite .smbus 64 0,
    .userGsrWire 64 true, .userClockEdge 63 [(16, true)], .signatureCheck (some 6144), .deferredVerify (some 6144), .panSelftestDone (some (4, 0))].all (fun c => !c.wf) = true := by decide

theorem test_wf_refuses_sluice : [Instr.sluiceRequest { poolRead with ingress := 92 }, .sluiceRequest { poolRead with write := true }, .sluiceRequest { poolRead with data := [0] },
    .sluiceRequest { poolRead with err := .doubleHeader 64 }, .reqStarvation 64 0, .reqStarvation 0 9, .lookup 92, .reply 92, .responseDelivery 92, .inval 64, .reserve 92 0, .reserve 0 160,
    .slotReturn 92 0, .slotReturn 0 160, .grant 160, .domainWakeOnAccess 127, .domainReady 127, .resleepTimeout 127].all (fun c => !c.wf) = true := by decide

theorem test_wf_refuses_banks : [Instr.bankRequest 128, .scrubStep 128, .zeroFillStep 128, .recodeStep 128, .bankParityFault 128, .pageCopyPass 128, .pageMoveFinish 128,
    .bankSelftestStep 128 ⟨0, 0⟩ [], .bankSelftestStep 0 ⟨0, 64⟩ [], .bankSelftestStep 0 ⟨0, 0⟩ [64], .bankCtrlWrite (.host 4) 0 0, .flipArm .smbus 128 0, .clearCe .smbus 128 0, .clearUe .smbus 128 0, .pageMark 92 0,
    .pageMark 0 128].all (fun c => !c.wf) = true := by decide

theorem test_wf_refuses_issuers : [Instr.nop (.ring 4 0) 0, .fence (.ring 0 16) 0, .vaultRead (.ring 4 0) 0 true, .badOpcode (.ring 0 16) 0, .busyRetry (.ring 4 0) 0, .busyWindowExpiry (.ring 0 16) 0,
    .hostLinkUp 4 1 1 false 0, .hostLinkUp 0 1 3 false 0, .hostLinkDown 4, .hostCtrlEnable 4 0, .sqDoorbell 0 16 0, .sqDoorbell 0 256 0, .cancelDoorbell 0 16 0, .cqDoorbell 0 4 0, .ringEnable 0 21 0,
    .ringDisable 0 21 0, .msixHoldoffExpiry 0 21, .hostReadCompletion 4 0 .timedOut, .msixUnmask 0 65].all (fun c => !c.wf) = true := by decide

theorem test_wf_refuses_paths : [Instr.wearSizeWrite (.host 4) 0, .registerWrite (.host 4) .bar0 0 0, .registerWrite .smbus .bar2 0 0, .routeTableWrite .smbus 96 0, .linkFecCeRead .smbus 96, .hostDropCountRead .smbus 4,
    .fportCountRead .smbus 24, .fportTxdataWrite .smbus 24 0, .fportRxdataRead .smbus 24, .pinSelWrite .smbus 768 0, .bufWrite .smbus 0 (List.replicate 239 0),
    .telemetrySample [] [] 0, .unitStopAccept 65536, .wakeEvent 1 65536 straps sound, .pllLossOfLock 16, .quadPllLossOfLock 24].all (fun c => !c.wf) = true := by decide

theorem test_wf_refuses_ports : [Instr.linkTrainStart 96 0, .hello 96 peer95, .breraPacket 96 (packet 0 true), .breraPacket 95 { packet 0 true with payload := List.replicate 9 0 },
    .xidTimeout 95 512, .xidQuarantineEnd 95 512, .rxLine 95 [0] [] noFec 0, .rxLine 95 (List.replicate 7 0) (List.replicate 7 0) noFec 0, .fportStart 24, .uartTxCharacter 24, .canRxFrame 23 (List.replicate 19 0) (.sent 0),
    .canTxFrame 24 (.sent 0), .pinEdge 768 ⟨true, 0⟩, .pinBankParityFault 16].all (fun c => !c.wf) = true := by decide

/-! ### Worked examples of the spec, and values worked by hand from its rules -/

/-- The device after one command. -/
def after (c : Instr) (d : Dev) : Dev := match exec c (st d) with | .next t => t.dev | _ => d

/-- The examples of R26's addresses (spec/01_architecture.md). -/
theorem test_unit_status_addresses : [0x84A8, 0x89FC, 0xB5B0].map statusUnit = [some 0x102A, some 0x207F, some 0xD06C] := by decide

/-- The addresses of the example in spec/19_register_summary.md. -/
theorem test_register_addresses : [0x231C8, 0x182808, 0x102824, 0x81D40, 0x20070C].map regBlock =
    [some (.host 3, 0x1C8), some (.link 20, 0x08), some (.bank 40, 0x24), some (.pan 29, 0x40), some (.fport 7, 0x0C)] := by decide

/-- The position latch of the example under R67: frame minor 43 of column 21, bit 2,336, is macrocell 7,001. -/
theorem test_init_example : initCells [(addrIndex 0x152B, BitVec.ofNat 4096 (2 ^ 2336))] = [7001] := by decide +kernel

/-- The trip-threshold table of the example under R84: bit 645 of frame 0x1F21 is bit 21 of word 700 of RAM 33. -/
theorem test_ram_example : (ramInit [(addrIndex 0x1F21, BitVec.ofNat 4096 (2 ^ 645))]).get 0 (1024 * 33 + 700) = 0x200000 := by decide +kernel

/-- The address of the example in spec/07_sluice.md: device 5, handle 0xF010, pool page 18, line 13. -/
theorem test_sluice_address : (slDev 0x0017C04000012345, slTag 0x0017C04000012345, pageOf 0x0017C04000012345, slOff 0x0017C04000012345 / 64 % 64) = (5, 0xF010, 18, 13) := by
  decide

/-- The bank set of that example (R244). -/
theorem test_bank_set : (inUse ((List.range 128).map fun n => (uBank n, .running))).bankSet 4 9 4 64 (fun _ => 0) = some [18, 19, 2, 3] := by decide +kernel

/-- PAN_BORDER of pan 29 in the 2 × 2 gang of the example in spec/03_interconnect.md. -/
theorem test_pan_border :
    let p (dx dy : Nat) : Pan := { module := 7, selected := true, link := BitVec.ofNat 32 (0x500 + 4096 * dx + 16384 * dy), shut := false }
    let d : Dev := inUse [(uPan 20, .running), (uPan 21, .running), (uPan 28, .running), (uPan 29, .running)]
    ({ d with pans := [(20, p 0 0), (21, p 1 0), (28, p 0 1), (29, p 1 1)] } : Dev).panBorder 29 = 0x001455C3 := by decide +kernel

/-- The wake of the example under R512: the counter is loaded with 1,700,000,060 s 249,880,000 ns, and the bound is 120,112 ns. -/
theorem test_wake_reload :
    let t := (after (.wakeReloadC1 1966080) { inUse [] with
      units := [(uTime, { st := .asleep, prior := .running })], pwr := { phase := .waking }
      time := { calValid := true, slewReg := 0x00C82710, cal := 1999996000, slept := some { c0 := 0, f0 := 1700000000250000000 * 2 ^ 40, cal := 1999996000, slewReg := 0x00C82710, holdover := 12, quality := qLocked } } }).time
    (t.sec, t.ns, t.holdover, t.quality) = (1700000060, 249880000, 120112, qHoldover) := by decide

/-- The refusal of the example in spec/14_power_and_clocks.md: pan 12 gives no answer in step 3 of an entry to NAP. -/
theorem test_last_refuser :
    (after .pwrStopTimeout { inUse [(uPan 12, .running)] with pwr := { phase := .entering, step := 3, modeIn := 2, asked := [uPan 12] } }).pwr.lastRefuser = 0x0093100C := by decide +kernel

/-- The response of the example in spec/17_management_and_test.md: QACK of pan 42 answers the STOP with DONE, epoch 0x0032, QUIESCED. -/
theorem test_stop_response :
    (after (.qack 42) ((({ managed [] with units := linkedDev.units.set {} (uPan 42) { st := .running, epoch := 0x31 } } : Dev).modPan 42 fun x =>
      { x with qreq := true, stopPend := some 0 }).modMg .smbus fun m => { m with wait := some (.stop 42) })).out.getLast? =
    some (.mgmtResponse .smbus [0x00, 0x00, 0x32, 0x00, 0x04, 0x00]) := by decide +kernel

/-- HOST_PART of the example in spec/16_security_and_fuses.md. -/
theorem test_host_part : ({ fuse := { parts := [(1, { pans := 0xFFFFFFFF00000000, banks := 0xFFFFFFFFFFFFFFFF0000000000000000, links := 0xFFFFFFFFFFFF000000000000, fports := 0xFFF000 })] } } : Dev).hostPart 1 =
    0x06304020 := by decide

/-- The conflict of the example in spec/12_field_ports_and_pins.md: sink 0x139, the lower pin 155. -/
theorem test_sink_conflict :
    ((after (.pinSelWrite (.host 3) 156 0x07139139) { linkedDev with
      hps := (linkedDev.modHp 3 fun h => { h with eq := { enabled := true, cfg := 0x600 } }).hps
      pins := { ctrl := 2, pins := [(155, { sel := 0x07139139 })] } }).out.filterMap fun o =>
      match o with | .hostWrite 3 _ bs _ => some (slice bs 24 8) | _ => none) = [leBytes 8 0x009B0139] := by decide +kernel

/-- GLB_STATUS of the example at the end of spec/19_register_summary.md. -/
theorem test_glb_status :
    ({ inUse [] with pins := { enabled := [(15, true)] }, store := { ready := true, vaultReady := true }, rake := { mapReady := true } } : Dev).glbStatus = 0xE3 := by decide +kernel

/-- CRC-32C of the digits 1 to 9, worked by hand from R120's polynomial, initial value and final XOR. -/
theorem test_crc32c : crc32c [0x31, 0x32, 0x33, 0x34, 0x35, 0x36, 0x37, 0x38, 0x39] = 0xE3069283 := by decide

/-- The epoch after 0xFFFE is 0 (R23). -/
theorem test_epoch_wraps : nextEpoch 0xFFFE = 0 := by decide

/-- IDCODE (R602). -/
theorem test_idcode : (after .jtagIdcode linkedDev).out = [.tdo (shiftOut 8 1), .tdo (shiftOut 32 0x14D161AB)] := by decide

/-- Reset: power-on reset is held and no unit runs (R17, R612). -/
theorem test_reset : State.reset.dev.cfg.phase = .held ∧ State.reset.dev.ust (uPan 63) = .off ∧ State.reset.pending = [] := by decide

/-- The table spells no command by bits. -/
theorem test_no_word_spells : decodeTableWord 32 0xFFFFFFFF = none := rfl

/-! ### Witnesses of the statements that are not about one command's effect -/

theorem witness_CommandsOnWhatExistsComplete (h : Obligations.CommandsOnWhatExistsComplete) :
    exec (.nop (.ring 4 0) 0) State.reset = .fault .noSuchUnit ∧ ∃ t : State, exec (.nop (.ring 3 15) 0) State.reset = .next t ∧ t.pending = [] :=
  ⟨(h _ _).1 (by decide), (h _ _).2 (by decide)⟩

theorem witness_IdleStepMovesOnlyTime : State.reset.dev.cfg.phase = .held := rfl

theorem witness_SafeQueueNeverStops (h : Obligations.SafeQueueNeverStops) : ∃ t : State, step oneNop = .next t ∧ t.safe ∧ t.pending = [] :=
  h oneNop (List.forall_mem_cons.mpr ⟨by decide, fun _ hc => (List.not_mem_nil hc).elim⟩)

theorem witness_ProgrammedFusesStay (h : Obligations.ProgrammedFusesStay) : (0x80000000 : Word) &&& 0x80000000 = 0x80000000 :=
  h oneNop { oneNop with pending := [] } 511 (by decide) (by decide) (fun _ => (by decide : (0 : BitVec 16) ≠ 0xFFFF)) rfl

theorem witness_EpochsNeverReserved (h : Obligations.EpochsNeverReserved) : Tab.wf (0 : Word) oneNop.dev.fuses = true :=
  (h oneNop { oneNop with pending := [] } (by decide) (by decide) (fun _ => (by decide : (0 : BitVec 16) ≠ 0xFFFF)) rfl).1

theorem witness_TransitionsAndFaultsAreNoted (h : Obligations.TransitionsAndFaultsAreNoted) :
    (({ units := [(uPan 63, { st := .idle, epoch := 0xFFFE })] } : Dev).setUnit (uPan 63) .staged .device).ust (uPan 63) = .staged ∧
    (({ units := [(uPan 63, { st := .idle, epoch := 0xFFFE })] } : Dev).fault (uPan 63) stInternal 0).ust (uPan 63) = .faulted :=
  ⟨(h.1 _ (uPan 63) 0 .staged .device (by decide)).1, (h.2 _ (uPan 63) stInternal 0 (by decide)).1⟩

theorem witness_EventWrittenAtTail (h : Obligations.EventWrittenAtTail) : ((lastEvent.eventAt 3 0 1 0 0).hp 3).eq.tail = 0 :=
  (h lastEvent 3 0 1 0 0 (by decide) (by decide) (by decide) (by decide) (by decide)).2.1

/-- One view for each clause: GSR, hold, the four kinds of set-reset, a disabled clock enable, and the three modes. -/
theorem witness_StorageElementsFollowTheirOrder (h : Obligations.StorageElementsFollowTheirOrder) :
    (cellView {} true true false).edgeQ (fun _ => true) 0 = false ∧
    (cellView { mode := 2 } true false true).edgeQ (fun _ => true) 0 = true ∧
    (cellView { mode := 2, srKind := 1, srSrc := 0 } true false false).edgeQ (fun _ => true) 0 = false ∧
    (cellView { mode := 2, srKind := 2, srSrc := 0 } false false false).edgeQ (fun _ => true) 0 = true ∧
    (cellView { mode := 2, srKind := 3, srSrc := 0 } true false false).edgeQ (fun _ => true) 0 = false ∧
    (cellView { mode := 2, srKind := 4, srSrc := 0 } false false false).edgeQ (fun _ => true) 0 = true ∧
    (cellView { mode := 1, xorSel := 1, ceSel := 1 } true false false).edgeQ (fun _ => true) 0 = true ∧
    (cellView { mode := 0, xorSel := 1 } false false false).edgeQ (fun _ => true) 0 = true ∧
    (cellView { mode := 1, xorSel := 1 } true false false).edgeQ (fun _ => true) 0 = false ∧
    (cellView { mode := 2, xorSel := 1 } true false false).edgeQ (fun _ => true) 0 = true :=
  ⟨((h (cellView {} true true false) _ 0).1 (by decide)).1,
   (((h (cellView { mode := 2 } true false true) _ 0).2 (by decide) (by decide)).1 (by decide)).1,
   (((h (cellView { mode := 2, srKind := 1, srSrc := 0 } true false false) _ 0).2 (by decide) (by decide)).2 (by decide) |>.1 (by decide) (by decide)).1,
   (((h (cellView { mode := 2, srKind := 2, srSrc := 0 } false false false) _ 0).2 (by decide) (by decide)).2 (by decide) |>.2.1 (by decide) (by decide)).1,
   (((h (cellView { mode := 2, srKind := 3, srSrc := 0 } true false false) _ 0).2 (by decide) (by decide)).2 (by decide) |>.2.2.1 (by decide) (by decide)).1,
   (((h (cellView { mode := 2, srKind := 4, srSrc := 0 } false false false) _ 0).2 (by decide) (by decide)).2 (by decide) |>.2.2.2.1 (by decide) (by decide)).1,
   (((h (cellView { mode := 1, xorSel := 1, ceSel := 1 } true false false) _ 0).2 (by decide) (by decide)).2 (by decide) |>.2.2.2.2 (Or.inr (by decide))).2.1 (by decide),
   (((h (cellView { mode := 0, xorSel := 1 } false false false) _ 0).2 (by decide) (by decide)).2 (by decide) |>.2.2.2.2 (Or.inl (by decide))).2.2 (by decide) |>.1 (by decide),
   (((h (cellView { mode := 1, xorSel := 1 } true false false) _ 0).2 (by decide) (by decide)).2 (by decide) |>.2.2.2.2 (Or.inl (by decide))).2.2 (by decide) |>.2.1 (by decide),
   (((h (cellView { mode := 2, xorSel := 1 } true false false) _ 0).2 (by decide) (by decide)).2 (by decide) |>.2.2.2.2 (Or.inl (by decide))).2.2 (by decide) |>.2.2 (by decide)⟩

/-- A term of no column, one of both columns of an input, and one of two inputs. -/
theorem witness_ProductTermsAndMultiplyAdds (h : Obligations.ProductTermsAndMultiplyAdds) :
    (termView []).term (fun s => s == .one) 0 0 = false ∧
    (termView [0, 1]).term (fun s => s == .one) 0 0 = false ∧
    (termView [0, 2]).term (fun s => s == .one) 0 0 = true ∧
    ((macView false 1 0x7FFFFFFFFFFF 0 1).mac (fun _ => false) 0 0).1.p = BitVec.ofInt 48 (2 ^ 47) ∧
    ((macView true 1 0x7FFFFFFFFFFF 0 1).mac (fun _ => false) 0 0).1.p = 0x7FFFFFFFFFFF ∧
    ((macView true 2 0x800000000000 0 1).mac (fun _ => false) 0 0).1.p = 0x800000000000 ∧
    ((macView true 4 0 (BitVec.ofInt 48 (-5)) 2).mac (fun _ => false) 0 0).1.p.toInt = -7 :=
  ⟨(h.1 (termView []) _ 0 0).1 (by decide), (h.1 (termView [0, 1]) _ 0 0).2.1 0 (by decide) (by decide),
   ((h.1 (termView [0, 2]) (fun s => s == .one) 0 0).2.2 (by decide)).2 (by decide),
   (h.2 (macView false 1 0x7FFFFFFFFFFF 0 1) (fun _ => false) 0 0 (by decide)).2.1 (by decide),
   (h.2 (macView true 1 0x7FFFFFFFFFFF 0 1) (fun _ => false) 0 0 (by decide)).2.2.1 (by decide) (by decide),
   (h.2 (macView true 2 0x800000000000 0 1) (fun _ => false) 0 0 (by decide)).2.2.2.1 (by decide) (by decide),
   (h.2 (macView true 4 0 (BitVec.ofInt 48 (-5)) 2) (fun _ => false) 0 0 (by decide)).2.2.2.2 (by decide) (by decide) (by decide)⟩

/-! ### Witnesses of the statements about commands

Each conjunct applies one clause of the statement to the state it names, at the edge of the clause's range where it has one: so
the hypotheses of that clause hold there together. -/

theorem witness_SluiceGrantsSlots (h : Obligations.SluiceGrantsSlots) :
    (Takes (.reserve 0 159) (st (asks (inUse []) (readBy (.wantSlot 159)))) fun _ => True) ∧
    (Takes (.reserve 0 159) (st (asks (linkAt .running { inForce := 5, peerAsleep := true }) (readBy (.wantSlot 159)))) fun _ => True) ∧
    (Takes (.slotReturn 91 0) (st (asks (inUse []) (readBy (.wantSlot 159)))) fun _ => True) ∧
    (Takes (.grant 63) (st ((inUse []).modDest 63 fun x => { x with table := [(0, 8)], granted := 31 })) fun _ => True) ∧
    (Takes (.grant 64) (st ((inUse []).modDest 64 fun x => { x with table := [(0, 1), (1, 2)] })) fun _ => True) ∧
    (Takes (.reqStarvation 63 8) (st (inUse [])) fun _ => True) ∧
    (Takes (.arbitrationStarvation 0 5 1) (st (inUse [])) fun _ => True) :=
  ⟨any (Takes.imp ((h.1 _ 0 159 (by decide) (by decide)).1 (by decide) (by decide) (by decide)) fun _ ht => ht.1 (Or.inr (by decide))),
   any (Takes.imp ((h.1 _ 0 159 (by decide) (by decide)).1 (by decide) (by decide) (by decide)) fun _ ht => ht.2 (by decide) (by decide) (by decide) (by decide)),
   any ((h.1 _ 91 0 (by decide) (by decide)).2 (by decide)),
   any (h.2.1 _ 0 63 8 (by decide) (by decide) (by decide) (by decide) (by decide)),
   any (h.2.1 _ 0 64 1 (by decide) (by decide) (by decide) (by decide) (by decide)),
   any ((h.2.2 _ 0 ⟨5, 1⟩ 63 8 (by decide) (by decide)).2),
   any ((h.2.2 _ 0 ⟨5, 1⟩ 63 8 (by decide) (by decide)).1)⟩

/-- The endpoint behind tag 5, a miss for it with this answer, and an INVAL of it that these routers still await. -/
def endpoint5 : TcEntry := { tag := 5, trans := .endpoint 63 1, owner := 0, size := 0 }
def miss5 (reply : Option (Option TcEntry)) : Miss := { tag := 5, k := 0, reply := reply }
def inval5 (left : List Nat) : Inval := { kind := .tags [5], left := left, exec := none }

/-- A miss for page 0 of pool 0xF000 is outstanding at pan 0's ingress. -/
def behindMiss : Dev := cachedPan.modIng 0 fun g => { g with cache := [], misses := [{ tag := 0xF000, k := 0, reply := none }] }

theorem witness_SluiceFindsDestinations (h : Obligations.SluiceFindsDestinations) :
    (Takes (.sluiceRequest poolRead) (st cachedPan) fun _ => True) ∧
    (Takes (.sluiceRequest poolRead) (st behindMiss) fun _ => True) ∧
    (Takes (.sluiceRequest poolRead) (st { cachedPan with sl := { cachedPan.sl with ctrl := 0 } }) fun _ => True) ∧
    (Takes (.lookup 91) (st (inUse [])) fun _ => True) ∧
    (Takes (.inval 63) (st (inUse [])) fun _ => True) ∧
    (Takes (.reply 0) (st (asks ((inUse []).modIng 0 fun g => { g with misses := [miss5 (some (some endpoint5))] }) { readBy .lookup with addr := BitVec.ofNat 64 (5 * 2 ^ 34) })) fun _ => True) ∧
    (Takes (.reply 0) (st ((inUse []).modIng 0 fun g => { g with misses := [miss5 (some none)] })) fun _ => True) ∧
    (Takes (.lookup 91) (st ((inUse []).modIng 91 fun g => { g with misses := [miss5 none] })) fun _ => True) ∧
    (Takes (.reply 0) (st ((inUse []).modIng 0 fun g => { g with misses := [miss5 (some endpoint5)] })) fun _ => True) ∧
    (Takes (.inval 63) (st { inUse [] with sl := { invals := [inval5 [63]] } }) fun _ => True) ∧
    (Takes (.invalAck) (st { inUse [] with sl := { invals := [inval5 []] } }) fun _ => True) :=
  ⟨any (h.1 _ poolRead { tag := 0xF000, trans := .page 0xF000 0 127 3, owner := 0, size := 1 } 0xF000 0 127 3 (by decide) (by decide) (by decide) (by decide) (by decide) (by decide) (by decide) (by decide) (by decide) (by decide) (by decide) rfl (by decide) (by decide) (by decide) (by decide)),
   any (Takes.imp (h.2.1 _ poolRead (by decide) (by decide) (by decide) (by decide) (by decide) (by decide) (by decide) (by decide)) fun _ ht => ht.1 (by decide)),
   any (Takes.imp (h.2.1 _ poolRead (by decide) (by decide) (by decide) (by decide) (by decide) (by decide) (by decide) (by decide)) fun _ ht => ht.2 (by decide) (Or.inl (by decide))),
   any ((h.2.2.1 _ 91 63 (by decide) (by decide)).1),
   any ((h.2.2.1 _ 91 63 (by decide) (by decide)).2.1),
   any ((h.2.2.1 _ 0 63 (by decide) (by decide)).2.2.2 (miss5 (some (some endpoint5))) 0 { readBy .lookup with addr := BitVec.ofNat 64 (5 * 2 ^ 34) } (by decide) (by decide) (by decide) (by decide) (by decide) (by decide) (by decide) (by decide)),
   any ((h.2.2.1 _ 0 63 (by decide) (by decide)).2.2.1 (miss5 (some none)) (by decide) (by decide) (by decide) (by decide) (fun y hy => (List.not_mem_nil hy).elim)),
   any ((h.2.2.2.1 _ 91 (by decide) (by decide)).1 (miss5 none) (by decide)),
   any ((h.2.2.2.1 _ 0 (by decide) (by decide)).2 (miss5 (some endpoint5)) endpoint5 (by decide) (by decide) (by decide) (by decide) (by intro p l e; cases e; decide)),
   any ((h.2.2.2.2 _ 63 (inval5 [63]) [5] (by decide) (by decide) (by decide)).1 (by decide)),
   any ((h.2.2.2.2 _ 0 (inval5 []) [5] (by decide) (by decide) (by decide)).2 (by decide) (by decide))⟩

theorem witness_PanPortsCarryRequests (h : Obligations.PanPortsCarryRequests) :
    (Takes (.close 63 .held) (st (inUse [(uPan 63, .staged)])) fun _ => True) ∧
    (Takes (.close 0 .held) (st ((inUse [(uPan 0, .running)]).modPan 0 fun x => { x with srcCommitHold := true })) fun _ => True) ∧
    (Takes (.close 63 .refusing) (st (inUse [(uPan 63, .quiesced)])) fun _ => True) ∧
    (Takes (.close 0 .empty) (st (inUse [])) fun _ => True) ∧
    (Takes (.open 63) (st ((inUse [(uPan 63, .running)]).modPan 63 fun x => { x with shut := false })) fun _ => True) ∧
    (Takes (.endpointRequest 0) (st (asks (((inUse [(uPan 0, .running)]).modPan 0 fun x => { x with port := .opened }).modDest 0 fun x => { x with queue := [0] }) (readBy (.portQueue 0 0)))) fun _ => True) ∧
    (Takes (.endpointResponse 0 31 0 []) (st (asks (inUse []) (readBy (.atModule 0 31)))) fun _ => True) ∧
    (Takes (.responseDelivery 0) (st (asks (((inUse [(uPan 0, .running)]).modPan 0 fun x => { x with port := .opened }).modIng 0 fun g => { g with resp := [⟨0, [(0, 0)]⟩] }) (readBy .responding))) fun _ => True) :=
  ⟨any ((h.1 _ 63 (by decide)).1 (by decide)),
   any ((h.1 _ 0 (by decide)).1 (by decide)),
   any ((h.1 _ 63 (by decide)).2.1 (by decide)),
   any ((h.1 _ 0 (by decide)).2.2.1 (by decide)),
   any ((h.1 _ 63 (by decide)).2.2.2 (by decide) (by decide) (by decide)),
   any ((h.2.1 _ 0 (by decide)).1 0 [] (readBy (.portQueue 0 0)) 0 (by decide) (by decide) (by decide) (by decide) (by decide) (by decide) (by decide) (by decide)),
   any ((h.2.1 _ 0 (by decide)).2 31 0 [] 0 (readBy (.atModule 0 31)) (by decide) (by decide) (by decide) (by decide) (by decide) (by decide)),
   any (h.2.2 _ 0 0 0 ⟨0, [(0, 0)]⟩ [] (readBy .responding) (by decide) (by decide) (by decide) (by decide) (by decide) (by decide) (by decide) (by decide) (by decide))⟩

theorem witness_BankRegistersTakeTheirFields (h : Obligations.BankRegistersTakeTheirFields) :
    (Takes (.bankCtrlWrite (.host 0) 127 0) linked fun _ => True) ∧
    (Takes (.flipArm .smbus 0 0x100) linked fun _ => True) ∧
    (Takes (.clearCe .jtag 0 0x40000000) linked fun _ => True) ∧
    (Takes (.clearUe (.host 3) 0 0x80000000) linked fun _ => True) :=
  ⟨any ((h _ (.host 0) 127 0 (by decide) (by decide)).1 (by repeat' first | decide | apply And.intro)),
   any ((h _ .smbus 0 0x100 (by decide) (by decide)).2.1 (by repeat' first | decide | apply And.intro)),
   any ((h _ .jtag 0 0x40000000 (by decide) (by decide)).2.2 (by repeat' first | decide | apply And.intro) |>.1),
   any ((h _ (.host 3) 0 0x80000000 (by decide) (by decide)).2.2 (by repeat' first | decide | apply And.intro) |>.2)⟩

theorem witness_BankReadsAndWritesLines (h : Obligations.BankReadsAndWritesLines) :
    (Takes (.bankRequest 127) (st (asks written (readBy (.bank 127 3 63)))) fun _ => True) ∧
    (Takes (.bankRequest 127) (st (asks written (writeBy (.bank 127 3 63)))) fun _ => True) :=
  ⟨any (h.1 _ 127 0 3 63 127 [] (readBy (.bank 127 3 63)) (by decide) (by decide) (by decide) (by decide) (by decide) (by decide) (by decide) (by decide) (by decide) (by decide) (by decide) (by decide) (by decide) (by decide) (by decide)),
   any (h.2 _ 127 0 3 63 127 [] (writeBy (.bank 127 3 63)) 1 (by decide) (by decide) (by decide) (by decide) (by decide) (by decide) (by decide) (by decide) (by decide) (by decide) (by decide) (by decide) (by decide) (by decide) (by decide) (by decide) (by decide) (by decide) (by decide) (by decide))⟩

theorem witness_BanksWorkInTheBackground (h : Obligations.BanksWorkInTheBackground) :
    (Takes (.zeroFillStep 0) (st bg) fun _ => True) ∧
    (Takes (.zeroFillStep 0) (st bgLast) fun _ => True) ∧
    (Takes (.bankSelftestStep 0 ⟨0, 63⟩ []) (st bgLast) fun _ => True) ∧
    (Takes (.zeroFillStep 127) (st (inUse [])) fun _ => True) ∧
    (Takes (.scrubStep 127) (st (inUse [])) fun _ => True) ∧
    (Takes (.bankSelftestStep 127 ⟨0, 63⟩ [63]) (st (inUse [])) fun _ => True) ∧
    (Takes (.scrubStep 0) (st bg) fun _ => True) ∧
    (Takes (.bankSelftestStep 0 ⟨63, 63⟩ [63]) (st bg) fun _ => True) ∧
    (Takes (.recodeStep 0) (st bg) fun _ => True) ∧
    (Takes (.bankParityFault 127) (st (inUse [(uBank 127, .running)])) fun _ => True) :=
  ⟨any ((h.1 (st bg) 0 (by decide) (by decide)).1 3 62 (by decide) (by decide) (by decide) (by decide) (by decide)),
   any ((h.1 (st bgLast) 0 (by decide) (by decide)).2.1 3 (by decide) (by decide) (by decide) (by decide)),
   any ((h.1 (st bgLast) 0 (by decide) (by decide)).2.2.2.2.1 _ 63 (by decide) (by decide) (by decide) (by decide) rfl (by decide)),
   any ((h.2.1 _ 127 (by decide)).1),
   any ((h.2.1 _ 127 (by decide)).2.1),
   any ((h.2.1 _ 127 (by decide)).2.2 0 63 [63] (by decide) (by decide)),
   any ((h.1 (st bg) 0 (by decide) (by decide)).2.2.1 3 (by decide) (by decide) (by decide) (by decide) bg_failing (by decide) (Or.inl (by decide))),
   any ((h.1 (st bg) 0 (by decide) (by decide)).2.2.2.1 0 63 63 [63] (by decide) (by decide) (by decide) (by decide) (by decide) (by decide) (by decide)),
   any ((h.1 (st bg) 0 (by decide) (by decide)).2.2.2.2.2 3 0 5 (by decide) (by decide) (by decide) bg_failing (by decide)),
   any (h.2.2 _ 127 (by decide) (by decide))⟩

theorem witness_PoolsTakeAndMovePages (h : Obligations.PoolsTakeAndMovePages) :
    (Takes (.pageCopyPass 127) (st (moves (moving (.copy 1) 0xFFFF []))) fun _ => True) ∧
    (Takes (.pageCopyPass 127) (st (moves (moving (.copy 8) (BitVec.allOnes 64) []))) fun _ => True) ∧
    (Takes (.pageCopyPass 127) (st (moves (moving (.copy 7) 0x1FFFF []))) fun _ => True) ∧
    (Takes (.pageMark 91 127) (st (let d := moves (moving (.close) 0 []); { d with sl := { d.sl with marks := [(91, 127, 5)] } })) fun _ => True) ∧
    (Takes (.pageMoveFinish 127) (st (moves (moving (.close) 0 (List.range 92)))) fun _ => True) ∧
    (Takes (.poolCreate .smbus (desc [6, 0xFFFF, 1 + 2 ^ 16 + 63 * 2 ^ 21])) (st (bySmbus (desc [6, 0xFFFF, 1 + 2 ^ 16 + 63 * 2 ^ 21]) (raked [(uBank 127, .running)]))) fun _ => True) ∧
    (Takes (.poolFree .smbus (desc [7, 0xFFFF])) (st (bySmbus (desc [7, 0xFFFF]) { moves (moving (.copy 1) 0xFFFF []) with rake := { (moves (moving (.copy 1) 0xFFFF [])).rake with moves := [] } })) fun _ => True) ∧
    (Takes (.bind .smbus (desc [5, 7, 1, 0xEFFF + 15 * 2 ^ 16])) (st (bySmbus (desc [5, 7, 1, 0xEFFF + 15 * 2 ^ 16]) (placed []))) fun _ => True) :=
  ⟨any (((h.1 _ 127 (moving (.copy 1) 0xFFFF []) (by decide) (by decide)).1 0 (by decide) (by decide) (by decide) (by decide) (by decide) (by decide)).1 (Or.inl (by decide))),
   any (((h.1 _ 127 (moving (.copy 8) (BitVec.allOnes 64) []) (by decide) (by decide)).1 7 (by decide) (by decide) (by decide) (by decide) (by decide) (by decide)).1 (Or.inr (by decide))),
   any (((h.1 _ 127 (moving (.copy 7) 0x1FFFF []) (by decide) (by decide)).1 6 (by decide) (by decide) (by decide) (by decide) (by decide) (by decide)).2 (by decide) (by decide)),
   any ((h.1 _ 127 (moving (.close) 0 []) (by decide) (by decide)).2.1 91 (91, 127, 5) (by decide) (by decide) (fun y hy => (List.not_mem_nil hy).elim) (by decide)),
   any ((h.1 _ 127 (moving (.close) 0 (List.range 92)) (by decide) (by decide)).2.2 _ (by decide) rfl),
   any (h.2.1 _ .smbus (desc [6, 0xFFFF, 1 + 2 ^ 16 + 63 * 2 ^ 21]) [127] ⟨by decide, by decide, by decide, by decide, by decide, by first | trivial | exact fun y hy => (List.not_mem_nil hy).elim⟩ (by decide) (by decide) (by decide) (by decide) (by decide) (by decide) (by decide) (by decide) (by decide)),
   any ((h.2.2 _ .smbus (desc [7, 0xFFFF])).1 _ ⟨by decide, by decide, by decide, by decide, by decide, by first | trivial | exact fun y hy => (List.not_mem_nil hy).elim⟩ (by decide) (by decide) rfl (by decide) (by decide) (by decide)),
   any ((h.2.2 _ .smbus (desc [5, 7, 1, 0xEFFF + 15 * 2 ^ 16])).2 63 0xEFFF 15 0 ⟨by decide, by decide, by decide, by decide, by decide, by first | trivial | exact fun y hy => (List.not_mem_nil hy).elim⟩ (by decide) (by decide) (by decide) (by decide) (by decide) (by decide) (by decide) (by decide) (by decide) (by decide) (by decide) (by decide))⟩

theorem witness_PlainDescriptorsAnswer (h : Obligations.PlainDescriptorsAnswer) :
    (Takes (.nop .jtag (desc [0x00AB0000, 9, 1, 2])) (st ((inUse []).modMg .jtag fun m => { m with slot := 1, desc := some (desc [0x00AB0000, 9, 1, 2]) })) fun _ => True) ∧
    (Takes (.nop (.ring 3 15) (desc [0x00AB0000, 9, 1, 2])) (st (byRing (desc [0x00AB0000, 9, 1, 2]) (inUse []))) fun _ => True) ∧
    (Takes (.fence .smbus (desc [0x60, 0, 1])) (st (bySmbus (desc [0x60, 0, 1]) (inUse []))) fun _ => True) ∧
    (Takes (.badOpcode .smbus (desc [0xFF])) (st (bySmbus (desc [0xFF]) (inUse []))) fun _ => True) ∧
    (Takes (.hint .smbus (desc [4, 7])) (st (bySmbus (desc [4, 7]) (raked []))) fun _ => True) :=
  ⟨any ((h _ .jtag (desc [0x00AB0000, 9, 1, 2])).1 ⟨by decide, by decide, by decide, by decide, by decide, by first | trivial | exact fun y hy => (List.not_mem_nil hy).elim⟩),
   any ((h _ (.ring 3 15) (desc [0x00AB0000, 9, 1, 2])).1 ⟨by decide, by decide, by decide, by decide, by decide, by first | trivial | exact fun y hy => (List.not_mem_nil hy).elim⟩),
   any ((h _ .smbus (desc [0x60, 0, 1])).2.1 ⟨by decide, by decide, by decide, by decide, by decide, by first | trivial | exact fun y hy => (List.not_mem_nil hy).elim⟩ (fun y hy => (List.not_mem_nil hy).elim)),
   any ((h _ .smbus (desc [0xFF])).2.2.1 ⟨by decide, by decide, by decide, by decide, by decide, by first | trivial | exact fun y hy => (List.not_mem_nil hy).elim⟩ (by decide)),
   any ((h _ .smbus (desc [4, 7])).2.2.2 ⟨by decide, by decide, by decide, by decide, by decide, by first | trivial | exact fun y hy => (List.not_mem_nil hy).elim⟩ (by decide) (by decide) (by decide) (by decide) (by decide))⟩

theorem witness_BankDescriptorsAnswer (h : Obligations.BankDescriptorsAnswer) :
    (Takes (.scrub .smbus (desc [0x20, uBank 127, 127 + 2 ^ 8])) (st (bySmbus (desc [0x20, uBank 127, 127 + 2 ^ 8]) (inUse [(uBank 127, .running)]))) fun _ => True) ∧
    (Takes (.retire .smbus (desc [0x21, uBank 127, 127])) (st (bySmbus (desc [0x21, uBank 127, 127]) (inUse [(uBank 127, .running)]))) fun _ => True) ∧
    (Takes (.snapshot (.ring 3 15) (desc [0x30, 0, 1, 0x1000, 0, 16384])) (st (byRing (desc [0x30, 0, 1, 0x1000, 0, 16384]) (inUse []))) fun _ => True) :=
  ⟨any (h.1 _ .smbus (desc [0x20, uBank 127, 127 + 2 ^ 8]) 127 ⟨by decide, by decide, by decide, by decide, by decide, by first | trivial | exact fun y hy => (List.not_mem_nil hy).elim⟩ (by decide) (by decide) (by decide) (by decide) (by decide) (by decide)),
   any (h.2.1 _ .smbus (desc [0x21, uBank 127, 127]) 127 128 ⟨by decide, by decide, by decide, by decide, by decide, by first | trivial | exact fun y hy => (List.not_mem_nil hy).elim⟩ (by decide) (by decide) (by decide) (by decide) (by decide) (by decide) (by decide) (by decide)),
   any (h.2.2 _ 3 15 (desc [0x30, 0, 1, 0x1000, 0, 16384]) ⟨by decide, by decide, by decide, by decide, by decide, by first | trivial | exact fun y hy => (List.not_mem_nil hy).elim⟩ (by decide) (by decide) (by decide) (by decide +kernel))⟩

theorem witness_DataMovesLineByLine (h : Obligations.DataMovesLineByLine) :
    (Takes (.fill (.ring 3 15) (desc [0x11, 0, 0, 0, 0x3C000, 2 ^ 24, 5, 6])) (st (byRing (desc [0x11, 0, 0, 0, 0x3C000, 2 ^ 24, 5, 6]) (inUse []))) fun _ => True) ∧
    (Takes (.copy (.ring 3 15) (desc [0x10, 0, 2, 4095, 0, 0, 0x3C000, 2 ^ 24])) (st (byRing (desc [0x10, 0, 2, 4095, 0, 0, 0x3C000, 2 ^ 24]) (inUse []))) fun _ => True) ∧
    (Takes (.fliptest (.ring 3 15) (desc [0x22, 0, 16, 0, 0x3C000, 3, 1])) (st (byRing (desc [0x22, 0, 16, 0, 0x3C000, 3, 1]) (inUse []))) fun _ => True) ∧
    (Takes (.busyRetry .smbus 0) (st { inUse [] with execs := [(0, some { iss := .smbus, opcode := 0x10, flags := 0, tag := 0, idx := 0, kind := .xfer { srcSl := true, dstSl := true, src := 0, dst := 64, len := 64, rcur := 64, busy := [{ pos := 0, len := 64, read := true, data := [] }] } })], nextExec := 1 }) fun _ => True) ∧
    (Takes (.busyWindowExpiry .smbus 0) (st { inUse [] with execs := [(0, some { iss := .smbus, opcode := 0x10, flags := 0, tag := 0, idx := 0, kind := .xfer { srcSl := true, dstSl := true, src := 0, dst := 64, len := 64, rcur := 64, busyWin := true, busy := [{ pos := 0, len := 64, read := true, data := [] }] } })], nextExec := 1 }) fun _ => True) :=
  ⟨any ((h.1 _ 3 15 (desc [0x11, 0, 0, 0, 0x3C000, 2 ^ 24, 5, 6])).1 ⟨by decide, by decide, by decide, by decide, by decide, by first | trivial | exact fun y hy => (List.not_mem_nil hy).elim⟩ (by decide) (by decide)),
   any ((h.1 _ 3 15 (desc [0x10, 0, 2, 4095, 0, 0, 0x3C000, 2 ^ 24])).2.1 ⟨by decide, by decide, by decide, by decide, by decide, by first | trivial | exact fun y hy => (List.not_mem_nil hy).elim⟩ (by decide) (by decide) (by decide) (by decide) (by decide) (by decide)),
   any ((h.1 _ 3 15 (desc [0x22, 0, 16, 0, 0x3C000, 3, 1])).2.2 ⟨by decide, by decide, by decide, by decide, by decide, by first | trivial | exact fun y hy => (List.not_mem_nil hy).elim⟩ (by decide) (by decide) (by decide) (by decide)),
   any ((h.2 _ .smbus 0 { iss := .smbus, opcode := 0x10, flags := 0, tag := 0, idx := 0, kind := .xfer { srcSl := true, dstSl := true, src := 0, dst := 64, len := 64, rcur := 64, busy := [{ pos := 0, len := 64, read := true, data := [] }] } } { srcSl := true, dstSl := true, src := 0, dst := 64, len := 64, rcur := 64, busy := [{ pos := 0, len := 64, read := true, data := [] }] } (by decide) (by decide) (by decide) (by decide)).1 (by decide) (by decide)),
   any ((h.2 _ .smbus 0 { iss := .smbus, opcode := 0x10, flags := 0, tag := 0, idx := 0, kind := .xfer { srcSl := true, dstSl := true, src := 0, dst := 64, len := 64, rcur := 64, busyWin := true, busy := [{ pos := 0, len := 64, read := true, data := [] }] } } { srcSl := true, dstSl := true, src := 0, dst := 64, len := 64, rcur := 64, busyWin := true, busy := [{ pos := 0, len := 64, read := true, data := [] }] } (by decide) (by decide) (by decide) (by decide)).2 { pos := 0, len := 64, read := true, data := [] } (by decide) (by decide) (by decide) (by decide) (by decide) (by decide) (by decide) (by decide) (by decide) (by decide))⟩

theorem witness_RakeDescriptorsStart (h : Obligations.RakeDescriptorsStart) :
    (Takes (.place .smbus (desc [1, 7, 0xFFFF])) (st (bySmbus (desc [1, 7, 0xFFFF]) (raked [(uPan 63, .idle)]))) fun _ => True) ∧
    (Takes (.evict .smbus (desc [2, 7])) (st (bySmbus (desc [2, 7]) (placed []))) fun _ => True) ∧
    (Takes (.migrate .smbus (desc [3, 7])) (st (bySmbus (desc [3, 7]) (placed [(uPan 0, .idle)]))) fun _ => True) :=
  ⟨any (h.1 _ .smbus (desc [1, 7, 0xFFFF]) { module := 7, keySlot := 0xFF } 63 1 764 ⟨by decide, by decide, by decide, by decide, by decide, by first | trivial | exact fun y hy => (List.not_mem_nil hy).elim⟩ (by decide) (by decide) (by decide) (by decide) (by decide) (by decide) (by decide) (by decide) (by decide) (by decide) (by decide) (by decide +kernel) (by decide) (by decide) (by decide) (by decide) (by decide +kernel) (by decide +kernel) (by decide)),
   any (h.2.1 _ .smbus (desc [2, 7]) 63 ⟨by decide, by decide, by decide, by decide, by decide, by first | trivial | exact fun y hy => (List.not_mem_nil hy).elim⟩ (by decide) (by decide) (by decide) (by decide) (by decide) (by decide) (by decide) (by decide) (by decide +kernel) (by decide)),
   any (h.2.2 _ .smbus (desc [3, 7]) { module := 7, keySlot := 0xFF } 63 0 1 764 ⟨by decide, by decide, by decide, by decide, by decide, by first | trivial | exact fun y hy => (List.not_mem_nil hy).elim⟩ (by decide) (by decide) (by decide) (by decide) (by decide) (by decide) (by decide) (by decide) (by decide) (by decide +kernel) (by decide) (by decide) (by decide) (by decide) (by decide +kernel) (by decide +kernel) (by decide))⟩

theorem witness_StartUpsReadTheFuses (h : Obligations.StartUpsReadTheFuses) :
    (Takes (.powerOnResetRelease straps sound) State.reset fun _ => True) ∧
    (Takes (.progN straps sound) (st (inUse [])) fun _ => True) ∧
    (Takes (.brownOut false []) (st (inUse [])) fun _ => True) ∧
    (Takes (.brownOut true []) (st (doing { opIn .place .records [63] [] with jobs := [{ unit := 63, slot := 1, word := 9, value := 1 }] } (inUse []))) fun _ => True) :=
  ⟨any ((h _ straps sound (by decide)).1 (by decide)),
   any ((h _ straps sound (by decide)).2.1 (by decide)),
   any ((h _ straps sound (by decide)).2.2.1 (by decide)),
   any ((h _ straps sound (by decide)).2.2.2 63 _ _ _ (by decide) (by decide) rfl (by decide))⟩

theorem witness_DoneAndIoEnableStartTheUnits (h : Obligations.DoneAndIoEnableStartTheUnits) :
    (Takes (.doneRelease .ready) (st (beforeDone 0)) fun _ => True) ∧
    (Takes (.doneRelease .waitExpired) (st (beforeDone 2)) fun _ => True) ∧
    (Takes (.doneRelease .ready) (st { beforeDone 0 with pfw := { asserted := true } }) fun _ => True) ∧
    (Takes (.pinBankEnable 14 true 0) (st (inUse [])) fun _ => True) ∧
    (Takes (.ioEnable true) (st { cfg := { phase := .waitIo, opts := 4 } }) fun _ => True) ∧
    (Takes (.ioEnable false) (st { cfg := { phase := .waitIo } }) fun _ => True) ∧
    (Takes (.ioEnable true) (st (inUse [])) fun _ => True) ∧
    (Takes (.saveUnitErase 1984) (st { inUse [(uStore, .running)] with storeNv := { save0 := [(63, { seq := 1 })] } }) fun _ => True) ∧
    (Takes (.startCountUnitErase 1986) (st { inUse [(uStore, .running)] with storeNv := { start0 := [⟨1, 0, 0⟩], start1 := List.replicate 513 ⟨2, crc32c (leBytes 4 2), validMark⟩ } }) fun _ => True) ∧
    (Takes (.catalogueLoaded none) (st (let e : CatHalf := { seq := 1, valid := validMark }; let f : CatHalf := { seq := 2, valid := validMark }; { inUse [(uStore, .running)] with storeNv := { half0 := { e with check := e.sum }, half1 := { f with check := f.sum } } })) fun _ => True) :=
  ⟨any ((h.1 _ .ready 0 0 (by decide)).1 (by decide) (by decide)),
   any ((h.1 _ .waitExpired 0 0 (by decide)).1 (by decide) (by decide)),
   any ((h.1 _ .ready 0 0 (by decide)).1 (by decide) (by decide)),
   any ((h.1 _ .ready 14 0 (by decide)).2 (by decide) (by decide) (by decide)),
   any (h.2.1 _ true (by decide) (by decide)),
   any (h.2.1 _ false (by decide) (by decide)),
   any (h.2.2.1 _ true (by decide) (by decide)),
   any ((h.2.2.2 _).1 (by decide) (by decide) (by decide)),
   any ((h.2.2.2 _).2.1 (by decide) (by decide) (by decide +kernel) (by decide +kernel) (by decide)),
   any ((h.2.2.2 _).2.2 (by decide) (by decide) (by decide) (by decide) (by decide +kernel) (by decide +kernel) (by decide))⟩

theorem witness_StreamRecordsBuildTheLoad (h : Obligations.StreamRecordsBuildTheLoad) :
    (Takes (.syncSequence 3) (st { cfg := { phase := .waitStream, blank := true } }) fun _ => True) ∧
    (Takes (.syncSequence 3) (st (inUse [])) fun _ => True) ∧
    (Takes (.nopRecord toAll []) (st (loading {})) fun _ => True) ∧
    (Takes (.regwRecord toAll (leBytes 4 1 ++ leBytes 4 devType.toNat)) (st (loading {})) fun _ => True) ∧
    (Takes (.regwRecord toAll (leBytes 4 2 ++ leBytes 4 0xFFFFFFFF)) (st (loading {})) fun _ => True) ∧
    (Takes (.regwRecord toAll (leBytes 4 3 ++ leBytes 4 0)) (st (loading {})) fun _ => True) ∧
    (Takes (.regwRecord toAll (leBytes 4 4 ++ leBytes 4 0xFFFFFFFF)) (st (loading {})) fun _ => True) ∧
    (Takes (.keyRecord toAll (7 :: List.replicate 15 0)) (st { loading {} with fuse := { sensed := true, sensedKeys := [(87, 0xAD7A6866), (95, 3)] } }) fun _ => True) ∧
    (Takes (.tagRecord toAll (List.replicate 16 0)) (st (loading {})) fun _ => True) ∧
    (Takes (.pansetRecord toAll ([63, 1] ++ List.replicate 22 0)) (st (loading { started := true })) fun _ => True) ∧
    (Takes (.unknownRecord 0x7F toAll []) (st (loading {})) fun _ => True) ∧
    (Takes (.unknownRecord 0x7F toAll []) (st (loading { keyed := true })) fun _ => True) ∧
    (Takes (.unknownRecord 0x7F toAllEnc []) (st (loading { keyed := true })) fun _ => True) ∧
    (Takes (.chainRecord toAll (leBytes 2 255)) (st (loading {})) fun _ => True) ∧
    (Takes (.foreignRecord 0x20 ⟨0, 9⟩ []) (st (loading {})) fun _ => True) ∧
    (Takes (.cfgTimeout) (st (loading {})) fun _ => True) :=
  ⟨any ((h.1 _ toAll [] {} 0 3).1 (by decide) (by decide)),
   any ((h.1 _ toAll [] {} 0 3).2.1 (by decide) (by decide) (by decide) (by decide) (by decide) (by decide)),
   any ((((h.1 _ toAll ([]) {} 0x7F 0).2.2 (by decide) (by decide) (by decide) (by decide)).1 (by decide) (by decide)).1),
   any ((((h.1 _ toAll (leBytes 4 1 ++ leBytes 4 devType.toNat) {} 0x7F 0).2.2 (by decide) (by decide) (by decide) (by decide)).1 (by decide) (by decide)).2.1 (by decide) rfl),
   any ((((h.1 _ toAll (leBytes 4 2 ++ leBytes 4 0xFFFFFFFF) {} 0x7F 0).2.2 (by decide) (by decide) (by decide) (by decide)).1 (by decide) (by decide)).2.2.1 (by decide) 0xFFFFFFFF (by decide) (by decide) rfl),
   any ((((h.1 _ toAll (leBytes 4 3 ++ leBytes 4 0) {} 0x7F 0).2.2 (by decide) (by decide) (by decide) (by decide)).1 (by decide) (by decide)).2.2.2.1 0 (by decide) rfl),
   any ((((h.1 _ toAll (leBytes 4 4 ++ leBytes 4 0xFFFFFFFF) {} 0x7F 0).2.2 (by decide) (by decide) (by decide) (by decide)).1 (by decide) (by decide)).2.2.2.2.1 0xFFFFFFFF (by decide) rfl),
   any ((((h.1 _ toAll (7 :: List.replicate 15 0) {} 0x7F 0).2.2 (by decide) (by decide) (by decide) (by decide)).1 (by decide) (by decide)).2.2.2.2.2.1 (by decide) (by decide) (by decide +kernel)),
   any ((((h.1 _ toAll (List.replicate 16 0) {} 0x7F 0).2.2 (by decide) (by decide) (by decide) (by decide)).1 (by decide) (by decide)).2.2.2.2.2.2.1 (by decide)),
   any ((((h.1 _ toAll ([63, 1] ++ List.replicate 22 0) { started := true } 0x7F 0).2.2 (by decide) (by decide) (by decide) (by decide)).1 (by decide) (by decide)).2.2.2.2.2.2.2.2 (by decide) (by decide) (by decide) (by decide) (by decide)),
   any ((((h.1 _ toAll [] {} 0x7F 0).2.2 (by decide) (by decide) (by decide) (by decide)).1 (by decide) (by decide)).2.2.2.2.2.2.2.1),
   any ((((h.1 _ toAll [] { keyed := true } 0x7F 0).2.2 (by decide) (by decide) (by decide) (by decide)).2 (by decide) (by decide) (by decide)).1 (by decide)),
   any ((((h.1 _ toAllEnc [] { keyed := true } 0x7F 0).2.2 (by decide) (by decide) (by decide) (by decide)).2 (by decide) (by decide) (by decide)).2 (by decide)),
   any ((h.2 _ toAll (leBytes 2 255) 0 {}).1 (by decide) (by decide) (by decide) (by decide) (by decide) (by decide) (by decide) (by decide) (fun l' _ e => by cases e; decide)),
   any ((h.2 _ ⟨0, 9⟩ [] 0x20 {}).2.1 (by decide) (by decide) (by decide)),
   any ((h.2 _ toAll [] 0 {}).2.2 (by decide) (by decide) (by decide) (by decide))⟩

theorem witness_FramesAreWrittenAndCommitted (h : Obligations.FramesAreWrittenAndCommitted) :
    (Takes (.framesRecord toAll lastFrame [.first]) (st (loading { started := true, pansets := [(63, some (false, 0, 7, 0))], last := some (6144 * 63 + 6141) })) fun _ => True) ∧
    (Takes (.endRecord toAll ⟨leBytes 8 0, []⟩) (st (loading { started := true })) fun _ => True) :=
  ⟨any ((h _ toAll lastFrame { started := true, pansets := [(63, some (false, 0, 7, 0))], last := some (6144 * 63 + 6141) } 63 6142 (0, 7, 0) 0 0 (by decide) (by decide) (by decide) (by decide) (by decide) (by decide)).1 (by decide) (by decide) (by decide) (by decide) (by decide) (by decide) rfl (by decide)),
   any ((h _ toAll (leBytes 8 0) { started := true } 0 0 (0, 0, 0) 0 1 (by decide) (by decide) (by decide) (by decide) (by decide) (by decide)).2 (by decide) (by decide) (by decide) (by decide) [])⟩

theorem staging_starts (h : Obligations.StagingPassRunsOnALane) :
    (Takes (.passStart) (st (let d := doing (opIn .place .staging [63] []) (inUse [(uLane 3, .idle), (uPan 63, .idle)]); { d with cfg := { d.cfg with passes := [(passOf 63 (.host []))] } })) fun _ => True) ∧
    (Takes (.passStart) (st (libraryPass (passOf 63 (.store 0 256)) [(uLane 3, .idle)])) fun _ => True) ∧
    (Takes (.stagingFrame 3 (.storeFail 1) .first) (st (libraryPass { oneFrame with img := .store 0 256 } [(uLane 3, .running)])) fun _ => True) ∧
    (Takes (.stagingFrame 3 .ok .first) (st (let d := doing (opIn .place .staging [63] []) (inUse [(uLane 3, .running), (uPan 63, .idle)]); { d with cfg := { d.cfg with passes := [oneFrame] } })) fun _ => True) :=
  ⟨any ((h.1 _ (passOf 63 (.host [])) 3 0 (opIn .place .staging [63] []) (by decide) (by decide) (by decide) (by decide) (by decide) (by decide) (by decide)).1 (by decide) (by decide) (by decide) (by decide) (by decide) (Or.inr (by decide)) (Or.inl (by decide))),
   any ((h.1 _ (passOf 63 (.store 0 256)) 3 0 (opIn .place .staging [63] []) (by decide) (by decide) (by decide) (by decide) (by decide) (by decide) (by decide)).1 (by decide) (by decide) (by decide) (by decide) (by decide) (Or.inr (by decide)) (Or.inr ⟨⟨soundHeader⟩, by decide +kernel, by decide +kernel⟩)),
   any ((h.1 _ { oneFrame with img := .store 0 256 } 3 0 (opIn .place .staging [63] []) (by decide) (by decide) (by decide) (by decide) (by decide) (by decide) (by decide)).2.1 (.storeFail 1) ⟨soundHeader⟩ 0x5F3E 0 [] (by decide) (by decide) (by decide +kernel) (by decide +kernel) rfl (by decide) (by decide) (by decide) (by decide)),
   any ((h.1 _ oneFrame 3 0 (opIn .place .staging [63] []) (by decide) (by decide) (by decide) (by decide) (by decide) (by decide) (by decide)).2.1 .ok ⟨List.replicate 256 0⟩ 0x5F3E 0 [] (by decide +kernel) trivial (by decide +kernel) (by decide +kernel) rfl (by decide) (by decide) (by decide) (by decide))⟩

theorem witness_StagingPassRunsOnALane (h : Obligations.StagingPassRunsOnALane) :
    (Takes (.passStart) (st (let d := doing (opIn .place .staging [63] []) (inUse [(uLane 3, .idle), (uPan 63, .idle)]); { d with cfg := { d.cfg with passes := [(passOf 63 (.host []))] } })) fun _ => True) ∧
    (Takes (.passStart) (st (libraryPass (passOf 63 (.store 0 256)) [(uLane 3, .idle)])) fun _ => True) ∧
    (Takes (.stagingFrame 3 (.storeFail 1) .first) (st (libraryPass { oneFrame with img := .store 0 256 } [(uLane 3, .running)])) fun _ => True) ∧
    (Takes (.stagingFrame 3 .ok .first) (st (let d := doing (opIn .place .staging [63] []) (inUse [(uLane 3, .running), (uPan 63, .idle)]); { d with cfg := { d.cfg with passes := [oneFrame] } })) fun _ => True) ∧
    (Takes (.passEnd 3) (st (let d := doing (opIn .place .staging [63] []) (inUse [(uLane 3, .running), (uPan 63, .idle)]); { d with cfg := { d.cfg with passes := [allFrames, passOf 62 (.host [])] } })) fun _ => True) ∧
    (Takes (.prestageStart) (st (let d := raked [(uLane 3, .idle), (uPan 63, .idle)]; { d with rake := { d.rake with hints := [(7, 4)] } })) fun _ => True) ∧
    (Takes (.tokenRefill) (st (inUse [])) fun _ => True) :=
  ⟨(staging_starts h).1, (staging_starts h).2.1, (staging_starts h).2.2.1, (staging_starts h).2.2.2,
   any ((h.1 _ allFrames 3 0 (opIn .place .staging [63] []) (by decide) (by decide) (by decide) (by decide) (by decide) (by decide) (by decide)).2.2 (by decide) (by decide +kernel) (by decide +kernel) (by decide +kernel) (by decide) (by decide) (by decide) ⟨passOf 62 (.host []), (by decide +kernel), (by decide), (by decide)⟩ (by decide +kernel) (by decide +kernel)),
   any ((h.2 _).1 7 4 [] _ (by decide) (by decide) (by decide) (by decide) (by decide) (by decide) (by decide) (by decide) rfl),
   any ((h.2 _).2 (by decide) (by decide) (fun e => absurd e (by decide)))⟩

theorem witness_CommitFollowsQuiesce (h : Obligations.CommitFollowsQuiesce) :
    (Takes (.qack 63) (st (inUse [])) fun _ => True) ∧
    (Takes (.qack 63) (st ((doing { opIn .evict .quiesce [] [63, 0] with needAck := [63, 0] } (inUse [])).modPan 63 fun x => { x with qreq := true })) fun _ => True) ∧
    (Takes (.qack 63) (st ((doing { opIn .evict .quiesce [] [63] with needAck := [63] } (inUse [])).modPan 63 fun x => { x with qreq := true })) fun _ => True) ∧
    (Takes (.portDrained 63) (st ((doing { opIn .evict .records [] [63] with toDrain := [63] } (inUse [])).modPan 63 fun x => { x with qreq := true })) fun _ => True) ∧
    (Takes (.quiesceTimeout 63) (st ((doing { opIn .evict .quiesce [] [63] with needAck := [63] } (inUse [])).modPan 63 fun x => { x with qreq := true })) fun _ => True) ∧
    (Takes (.recordWordWritten 63) (st (doing { opIn .place .records [63] [] with jobs := [{ unit := 63, slot := 1, word := 7, value := 1 }] } (inUse [(uPan 63, .staged)]))) fun _ => True) ∧
    (Takes (.captureDone 63) (st (doing (opIn .migrate .capture [0] [63]) (inUse [(uPan 63, .staged)]))) fun _ => True) ∧
    (Takes (.commitPoint 63) (st (doing { opIn .place .records [63] [] with root := 63 } (inUse [(uPan 63, .staged)]))) fun _ => True) ∧
    (Takes (.planeSwitch 63) (st (doing { opIn .place .release [63] [] with committed := true } (inUse [(uPan 63, .staged)]))) fun _ => True) ∧
    (Takes (.borderRelease 63) (st (doing { opIn .place .release [63] [] with committed := true, switched := true, invalDone := true } (inUse [(uPan 63, .staged)]))) fun _ => True) :=
  ⟨any ((h.1 _ 63 0 (opIn .evict .quiesce [] []) (by decide)).1 (by decide) (by decide)),
   any ((h.1 _ 63 0 { opIn .evict .quiesce [] [63, 0] with needAck := [63, 0] } (by decide)).2.2.1 (by decide) (by decide) (by decide) (Or.inl (by decide)) (by decide) (by decide) (by decide)),
   any ((h.1 _ 63 0 { opIn .evict .quiesce [] [63] with needAck := [63] } (by decide)).2.2.2.1 (by decide) (by decide) (by decide) (Or.inl (by decide)) (by decide) (by decide) (by decide)),
   any ((h.1 _ 63 0 { opIn .evict .records [] [63] with toDrain := [63] } (by decide)).2.2.2.2.1 (by decide) (by decide) (by decide)),
   any ((h.1 _ 63 0 { opIn .evict .quiesce [] [63] with needAck := [63] } (by decide)).2.2.2.2.2 (by decide) (by decide) (by decide)),
   any ((h.2 _ 63 0 { opIn .place .records [63] [] with jobs := [{ unit := 63, slot := 1, word := 7, value := 1 }] } (by decide) (by decide)).1 { unit := 63, slot := 1, word := 7, value := 1 } [] (by decide) (by decide) (by decide) (by decide) (by decide) (by decide) (by decide)),
   any ((h.2 _ 63 0 (opIn .migrate .capture [0] [63]) (by decide) (by decide)).2.1 0 (by decide) (by decide) (by decide)),
   any ((h.2 _ 63 0 { opIn .place .records [63] [] with root := 63 } (by decide) (by decide)).2.2.1 (by decide) (by decide)),
   any ((h.2 _ 63 0 { opIn .place .release [63] [] with committed := true } (by decide) (by decide)).2.2.2.1 (by decide) (by decide)),
   any ((h.2 _ 63 0 { opIn .place .release [63] [] with committed := true, switched := true, invalDone := true } (by decide) (by decide)).2.2.2.2 _ (by decide) (by decide) rfl)⟩

theorem witness_TimeCommandsSetTheCounter (h : Obligations.TimeCommandsSetTheCounter) :
    (Takes (.timeSet .smbus (desc [0x40, 0x7000, 0, 5, 0, 999999999])) (st (bySmbus (desc [0x40, 0x7000, 0, 5, 0, 999999999]) (timed {}))) fun _ => True) ∧
    (Takes (.timeSet .smbus (desc [0x40, 0x7000, 1, 5, 0, 999999999])) (st (bySmbus (desc [0x40, 0x7000, 1, 5, 0, 999999999]) (timed {}))) fun _ => True) ∧
    (Takes (.timeAdj .smbus (desc [0x41, 0x7000, 1, 5, 0, 0])) (st (bySmbus (desc [0x41, 0x7000, 1, 5, 0, 0]) (timed {}))) fun _ => True) ∧
    (Takes (.timeAdj .smbus (desc [0x41, 0x7000, 0, 5, 0, 0])) (st (bySmbus (desc [0x41, 0x7000, 0, 5, 0, 0]) (timed {}))) fun _ => True) ∧
    (Takes (.timeSetPpsTimeout) (st (timed { cmd := some (.setPps 0 5 0 0) })) fun _ => True) ∧
    (Takes (.slewEnd) (st (timed { cmd := some (.slew 0 (2 ^ 40) 10 0) })) fun _ => True) ∧
    (Takes (.alarmArm (.host 3) 0x80000000) (st (timed {})) fun _ => True) ∧
    (Takes (.timeIncFracWrite .smbus 7) (st (timed { ctrl := 0x100, incPend := true })) fun _ => True) ∧
    (Takes (.timeCtrlWrite .jtag 0x8A) (st (timed {})) fun _ => True) ∧
    (Takes (.timeSecLoRead (.host 0)) (st (timed {})) fun _ => True) :=
  ⟨any (((h.1 _ .smbus (desc [0x40, 0x7000, 0, 5, 0, 999999999])).1 (by decide) (by decide) (by decide) (by decide)).1 ⟨by decide, by decide, by decide, by decide, by decide, by first | trivial | exact fun y hy => (List.not_mem_nil hy).elim⟩ (by decide) |>.1 (by decide)),
   any (((h.1 _ .smbus (desc [0x40, 0x7000, 1, 5, 0, 999999999])).1 (by decide) (by decide) (by decide) (by decide)).1 ⟨by decide, by decide, by decide, by decide, by decide, by first | trivial | exact fun y hy => (List.not_mem_nil hy).elim⟩ (by decide) |>.2 (by decide)),
   any (((h.1 _ .smbus (desc [0x41, 0x7000, 1, 5, 0, 0])).1 (by decide) (by decide) (by decide) (by decide)).2 ⟨by decide, by decide, by decide, by decide, by decide, by first | trivial | exact fun y hy => (List.not_mem_nil hy).elim⟩ |>.1 (by decide)),
   any (((h.1 _ .smbus (desc [0x41, 0x7000, 0, 5, 0, 0])).1 (by decide) (by decide) (by decide) (by decide)).2 ⟨by decide, by decide, by decide, by decide, by decide, by first | trivial | exact fun y hy => (List.not_mem_nil hy).elim⟩ |>.2 (by decide)),
   any ((h.1 _ .smbus 0).2.1 _ _ _ _ rfl),
   any ((h.1 _ .smbus 0).2.2 _ _ _ _ (by decide) rfl),
   any ((h.2 _ (.host 3) 0x80000000 (by decide)).1 (by repeat' first | decide | apply And.intro)),
   any ((h.2 _ .smbus 7 (by decide)).2.1 (by repeat' first | decide | apply And.intro) (by decide) (by decide)),
   any ((h.2 _ .jtag 0x8A (by decide)).2.2.1 (by repeat' first | decide | apply And.intro) (by decide)),
   any ((h.2 _ (.host 0) 0 (by decide)).2.2.2 (by repeat' first | decide | apply And.intro))⟩

theorem witness_PpsAndSourcesSteerTheCounter (h : Obligations.PpsAndSourcesSteerTheCounter) :
    (Takes (.ppsEdge 3) (st (timed { quality := qLocked, ctrl := 1 })) fun _ => True) ∧
    (Takes (.ppsEdge 0) (st (timed { ctrl := 1 })) fun _ => True) ∧
    (Takes (.ppsEdge 3) (st (timed { quality := qLocked, ctrl := 1, ns := 500000 })) fun _ => True) ∧
    (Takes (.ppsLost) (st (timed { quality := qLocked, ppsOk := true })) fun _ => True) ∧
    (Takes (.refLost) (st (timed { srcInt := false, quality := qLocked })) fun _ => True) ∧
    (Takes (.refReturn) (st (timed { ctrl := 0xA0 })) fun _ => True) ∧
    (Takes (.refReturn) (st (timed { ctrl := 0xA0, refOk := true })) fun _ => True) ∧
    (Takes (.coarseCalibration) (st (timed { quality := qLocked, calStart := some (0, 0) })) fun _ => True) ∧
    (Takes (.holdoverTick) (st (timed { quality := qHoldover })) fun _ => True) ∧
    (Takes (.ppsOutPulse) (st (timed { quality := qLocked, sec := 1 })) fun _ => True) ∧
    (Takes (.ppsOutFall) (st (timed { ppsLevel := true })) fun _ => True) ∧
    (Takes (.alarmFire) (st (timed { sec := 5, alarmSec := 5, alarmNs := 0x80000000 })) fun _ => True) :=
  ⟨any (((h.1 _ 3 (by decide) (by decide)).1 (by decide) (by decide)).1 (by decide) (by decide)),
   any (((h.1 _ 0 (by decide) (by decide)).1 (by decide) (by decide)).2.1 (by decide)),
   any (((h.1 _ 3 (by decide) (by decide)).1 (by decide) (by decide)).2.2 (by decide) (by decide)),
   any ((h.1 _ 0 (by decide) (by decide)).2 (by decide) (by decide)),
   any ((h.2 _ (by decide)).1 (by decide) (by decide)),
   any (((h.2 _ (by decide)).2.1 (by decide)).1 (by decide)),
   any (((h.2 _ (by decide)).2.1 (by decide)).2 (by decide) (by decide) (by decide)),
   any ((h.2 _ (by decide)).2.2.1 _ _ rfl (by decide) (by decide)),
   any ((h.2 _ (by decide)).2.2.2.1 (by decide)),
   any ((h.2 _ (by decide)).2.2.2.2.1 (by decide) (by decide) (by decide)),
   any ((h.2 _ (by decide)).2.2.2.2.2.1 (by decide)),
   any ((h.2 _ (by decide)).2.2.2.2.2.2 (by decide))⟩

theorem witness_TimeAcrossSleepAndFault (h : Obligations.TimeAcrossSleepAndFault) :
    (Takes (.deepEntryC0 9) (st (entering 3 [uTime, uHost 3])) fun _ => True) ∧
    (Takes (.wakeReloadC1 9) (st { inUse [] with units := [(uTime, { st := .asleep, prior := .running })], pwr := { phase := .waking }, time := { slept := some { c0 := 0, quality := qLocked }, calValid := true } }) fun _ => True) ∧
    (Takes (.timeUnitParityFault) (st (timed {})) fun _ => True) :=
  ⟨any ((h _ 9).1 (by decide) (by decide) (by decide) ⟨uHost 3, (by decide), (by decide)⟩),
   any ((h _ 9).2.1 _ rfl (by decide) (by decide) (by decide) (by decide) (by decide) (by decide)),
   any ((h _ 9).2.2 (by decide) (by decide))⟩

theorem witness_StoreDoesItsWork (h : Obligations.StoreDoesItsWork) :
    (Takes (.storeImage (.ring 3 15) (desc [0x31, 7, 2])) (st (stored { jobs := [{ exec := some 9, phase := .programming }] } {} (desc [0x31, 7, 2]))) fun _ => True) ∧
    (Takes (.storeImage (.ring 3 15) (desc [0x31, 7, 2])) (st (stored { ready := true, cat := [{ module := 7, keySlot := 0xFF }] } {} (desc [0x31, 7, 2]))) fun _ => True) ∧
    (Takes (.vaultWrite (.ring 3 15) (desc [0x32, 0x100, 4032, 0, 0])) (st (stored {} {} (desc [0x32, 0x100, 4032, 0, 0]))) fun _ => True) ∧
    (Takes (.vaultWrite (.ring 3 15) (desc [0x32, 0xFFFE, 0, 0, 0])) (st (stored { vaultReady := true } {} (desc [0x32, 0xFFFE, 0, 0, 0]))) fun _ => True) ∧
    (Takes (.vaultRead (.ring 3 15) (desc [0x33, 0x100, 16, 0, 0]) true) (st (stored { vaultReady := true } { log := [(1988, [{ id := 0x100, owner := 3, length := 1, seq := 1, data := [5], dcheck := 0, hcheck := 0, valid := validMark }])] } (desc [0x33, 0x100, 16, 0, 0]))) fun _ => True) ∧
    (Takes (.storeEraseDone 2047) (st (stored { jobs := [{ exec := some 9, phase := .erasing [2047, 100] }] } {} 0)) fun _ => True) ∧
    (Takes (.storeProgramDone true) (st (stored { jobs := [{ exec := some 9, phase := .programming }] } {} 0)) fun _ => True) ∧
    (Takes (.storeProgramDone true) (st (stored { vjobs := [vaultJob] } {} 0)) fun _ => True) ∧
    (Takes (.storeProgramDone true) (st (stored { vjobs := [vaultJob] } { log := fullVault } 0)) fun _ => True) ∧
    (Takes (.vaultIndexBuilt) (st (stored {} {} 0)) fun _ => True) ∧
    (Takes (.vaultCompaction) (st (stored { vaultReady := true } { log := fullLog } 0)) fun _ => True) ∧
    (Takes (.storeParityFault) (st (stored {} {} 0)) fun _ => True) :=
  ⟨any (((h.1 _ 3 15 (desc [0x31, 7, 2]) (by decide) (by decide)).1 ⟨by decide, by decide, by decide, by decide, by decide, by first | trivial | exact fun y hy => (List.not_mem_nil hy).elim⟩ (by decide) (by decide)).1 _ _ rfl (by decide)),
   any (((h.1 _ 3 15 (desc [0x31, 7, 2]) (by decide) (by decide)).1 ⟨by decide, by decide, by decide, by decide, by decide, by first | trivial | exact fun y hy => (List.not_mem_nil hy).elim⟩ (by decide) (by decide)).2 _ (by decide) (by decide) rfl (by decide)),
   any (((h.1 _ 3 15 (desc [0x32, 0x100, 4032, 0, 0]) (by decide) (by decide)).2.1 ⟨by decide, by decide, by decide, by decide, by decide, by first | trivial | exact fun y hy => (List.not_mem_nil hy).elim⟩ (by decide) (by decide) (fun _ => (by decide))).1 (by decide)),
   any (((h.1 _ 3 15 (desc [0x32, 0xFFFE, 0, 0, 0]) (by decide) (by decide)).2.1 ⟨by decide, by decide, by decide, by decide, by decide, by first | trivial | exact fun y hy => (List.not_mem_nil hy).elim⟩ (by decide) (by decide) (fun _ => (by decide))).2 (by decide) (by decide) (by decide) (fun r e => ((nofun : (none : Option (Nat × VaultRec)) ≠ some r) e).elim) (by decide)),
   any ((h.1 _ 3 15 (desc [0x33, 0x100, 16, 0, 0]) (by decide) (by decide)).2.2 1988 { id := 0x100, owner := 3, length := 1, seq := 1, data := [5], dcheck := 0, hcheck := 0, valid := validMark } ⟨by decide, by decide, by decide, by decide, by decide, by first | trivial | exact fun y hy => (List.not_mem_nil hy).elim⟩ (by decide) (by decide) (by decide) (by decide) (by decide +kernel) (by decide)),
   any ((h.2 _).1 _ _ 2047 [2047, 100] (by decide) rfl (by decide) (by decide) (by decide) (by decide)),
   any ((h.2 _).2.1 _ _ (by decide) rfl (by decide)),
   any ((h.2 _).2.2.1 _ _ (by decide) (by decide) rfl (by decide) (by decide) rfl),
   any ((h.2 _).2.2.2.1 _ (by decide) (by decide) rfl (by decide +kernel)),
   any ((h.2 _).2.2.2.2.1 (by decide) (by decide) (by decide) (by decide) (fun j hj => (List.not_mem_nil hj).elim)),
   any ((h.2 _).2.2.2.2.2.1 1989 (by decide) (by decide) (by decide +kernel) (by decide +kernel) (by decide +kernel)),
   any ((h.2 _).2.2.2.2.2.2 (by decide) (by decide) (by decide))⟩

theorem witness_SleepAndWakeStepByStep (h : Obligations.SleepAndWakeStepByStep) :
    (Takes (.wait .smbus (desc [0x50, 0, 0xFFFF])) (st { bySmbus (desc [0x50, 0, 0xFFFF]) (inUse [(0, .running), (uBgs, .running)]) with pwr := { mode := 4 } }) fun _ => True) ∧
    (Takes (.unitStopAccept (uPan 63)) (st ((entering 4 [uPan 63, uHost 3]).modPan 63 fun x => { x with qreq := true })) fun _ => True) ∧
    (Takes (.unitStopRefuse (uHost 3)) (st (entering 2 [uPan 63, uHost 3])) fun _ => True) ∧
    (Takes (.pwrStopTimeout) (st (entering 3 [uHost 3, uTime])) fun _ => True) ∧
    (Takes (.wakeEvent 6 0 straps sound) (st { sleeping { modeIn := 3 } with time := { alarmRang := true } }) fun _ => True) ∧
    (Takes (.wakeEvent 2 0 straps sound) (st (entering 4 [])) fun _ => True) ∧
    (Takes (.wakeComplete 0) (st { inUse [] with pwr := { phase := .waking, modeIn := 1, waitExec := some 0 }, execs := [(0, some { iss := .smbus, opcode := 0x50, flags := 0, tag := 0, idx := 0, kind := .wait })], nextExec := 1 }) fun _ => True) :=
  ⟨any ((h.1 _ .smbus (desc [0x50, 0, 0xFFFF]) 0 (by decide)).1 ⟨by decide, by decide, by decide, by decide, by decide, by first | trivial | exact fun y hy => (List.not_mem_nil hy).elim⟩ (by decide) (by decide) (by decide) (by decide) (by decide) (by decide) (by decide) (by decide)),
   any (((h.1 _ .smbus 0 (uPan 63) (by decide)).2.1 (by decide) (by decide) ⟨uHost 3, (by decide)⟩).1 (by decide) (fun e => absurd e (by decide)) (by decide) (by decide)),
   any (((h.1 _ .smbus 0 (uHost 3) (by decide)).2.1 (by decide) (by decide) ⟨uPan 63, (by decide)⟩).2 (by decide) (by decide)),
   any ((h.1 _ .smbus 0 0 (by decide)).2.2 (by decide) (by decide) (by decide)),
   any (((h.2 _ 6 uTime 0 0 straps sound (by decide) (by decide)).1 (by decide) (by decide)).1 (by decide) (by decide)),
   any (((h.2 _ 2 uTime 0 0 straps sound (by decide) (by decide)).1 (by decide) (by decide)).2 (by decide) (by decide)),
   any ((h.2 _ 1 0 0 0 straps sound (by decide) (by decide)).2 0 _ (by decide) (by decide) (by decide) rfl ((List.forall_mem_cons (l := [])).mpr ⟨(fun z => (nofun : ExecKind.wait ≠ .waitRake z)), fun y hy => (List.not_mem_nil hy).elim⟩))⟩

theorem witness_DomainsAndPowerFail (h : Obligations.DomainsAndPowerFail) :
    (Takes (.domainWakeOnAccess 63) (st (sleeping { modeIn := 2, slept := [63] })) fun _ => True) ∧
    (Takes (.domainReady 63) (st (sleeping { modeIn := 2, slept := [63], waking := [63] })) fun _ => True) ∧
    (Takes (.resleepTimeout 63) (st (Dev.modPan { sleeping { modeIn := 1, resleepIn := 1, awoken := [63] } with units := [(uPan 63, { st := .running })] } 63 fun x => { x with qreq := true })) fun _ => True) ∧
    (Takes (.pfwAssert) (st (inUse [])) fun _ => True) ∧
    (Takes (.pfwReturn) (st { inUse [] with pfw := { asserted := true } }) fun _ => True) ∧
    (Takes (.pfwReturnTimeout straps sound) (st (let d := inUse []; { d with pfw := { returnWait := true }, cfg := { d.cfg with pfwStops := true } })) fun _ => True) :=
  ⟨any ((h.1 _ 63 (by decide) (by decide)).1 (by decide) (by decide) (by decide)),
   any ((h.1 _ 63 (by decide) (by decide)).2.1 (by decide) (by decide) (by decide) (by decide)),
   any ((h.1 _ 63 (by decide) (by decide)).2.2 (by decide) (by decide) (by decide) (by decide) (by decide)),
   any ((h.2 _ straps sound (by decide)).1 (by decide) (by decide) (by decide) (by decide)),
   any ((h.2 _ straps sound (by decide)).2.1 (by decide)),
   any ((h.2 _ straps sound (by decide)).2.2 (by decide) (by decide) (by decide) (by decide) (by decide))⟩

theorem witness_ClocksNoteTheirLosses (h : Obligations.ClocksNoteTheirLosses) :
    (Takes (.pllLossOfLock 15) (st (let d := linkedDev; { d with clk := { plls := [(15, { cfg := 1, locked := true })] }, units := Tab.set {} d.units (uClk 15) { st := .running } })) fun _ => True) ∧
    (Takes (.pllRelock 2) (st (let d := linkedDev; { d with clk := { plls := [(2, { cfg := 1, gated := true })] }, units := Tab.set {} d.units (uClk 15) { st := .running } })) fun _ => True) ∧
    (Takes (.quadPllLossOfLock 23) (st (let d := linkedDev; { d with clk := { qpll := 0x800000 }, units := Tab.set {} d.units (uClk 15) { st := .running } })) fun _ => True) ∧
    (Takes (.lfCrystalTimeout) (st (let d := linkedDev; { d with clk := { lfXtal := true }, units := Tab.set {} d.units (uClk 15) { st := .running } })) fun _ => True) ∧
    (Takes (.clkMeasStart .smbus 0x37F) (st (let d := linkedDev; { d with clk := {}, units := Tab.set {} d.units (uClk 15) { st := .running } })) fun _ => True) ∧
    (Takes (.clkMeasDone 0x80000000) (st (let d := linkedDev; { d with clk := { measBusy := true }, units := Tab.set {} d.units (uClk 15) { st := .running } })) fun _ => True) ∧
    (Takes (.calibration) (st { inUse [(uBgs, .running)] with time := { refOk := true } }) fun _ => True) :=
  ⟨any (((h _ .smbus 15 0 0).1 (by decide) (by decide) (by decide)).1 (by decide) (by decide)),
   any (((h _ .smbus 2 0 0).1 (by decide) (by decide) (by decide)).2 (by decide) (by decide)),
   any ((h _ .smbus 23 0 0).2.1 (by decide) (by decide)),
   any ((h _ .smbus 0 0 0).2.2.1 (by decide)),
   any ((h _ .smbus 0 0x37F 0).2.2.2.1 (by decide) (by repeat' first | decide | apply And.intro)),
   any ((h _ .smbus 0 0 0x80000000).2.2.2.2.1 (by decide)),
   any ((h _ .smbus 0 0 0).2.2.2.2.2 (by decide) (by decide) (by decide) (by decide))⟩

theorem witness_BackgroundServicesCheckPans (h : Obligations.BackgroundServicesCheckPans) :
    (Takes (.marginCheck true false) (st (checkedPan { refreshPos := 395262 })) fun _ => True) ∧
    (Takes (.signatureCheck none) (st (checkedPan { sigQueue := [63] })) fun _ => True) ∧
    (Takes (.deferredVerify none) (st (checkedPan { deferTodo := [63, 0] })) fun _ => True) ∧
    (Takes (.panSelftestStart) (st (inUse [(uBgs, .running), (uPan 63, .idle)])) fun _ => True) ∧
    (Takes (.panSelftestDone none) (st (checkedPan { pstRun := some 63 })) fun _ => True) :=
  ⟨any ((h _ 0 64 2046 (by decide)).1 (by decide) (by decide) (by decide) (by decide) (by decide)),
   any ((h _ 63 0 0 (by decide)).2.1 (by decide) (by decide) (by decide) (by decide) (checked_signed _)),
   any ((h _ 63 0 0 (by decide)).2.2.1 (by decide) (by decide) (by decide) (checked_signed _)),
   any ((h _ 63 0 0 (by decide)).2.2.2.1 (by decide) (by decide) (by decide)),
   any ((h _ 63 0 0 (by decide)).2.2.2.2 (by decide) (by decide) (by decide))⟩

theorem witness_TelemetryAndTestRegistersAct (h : Obligations.TelemetryAndTestRegistersAct) :
    (Takes (.telemetrySample (List.replicate 72 0) (List.replicate 12 0) 0xFFFF) linked fun _ => True) ∧
    (Takes (.teleClear (.host 3) 0x200) linked fun _ => True) ∧
    (Takes (.activityWindowEnd) linked fun _ => True) ∧
    (Takes (.wearSizeWrite .jtag 5) linked fun _ => True) ∧
    (Takes (.prbsEnable .smbus 4) linked fun _ => True) ∧
    (Takes (.bistStart .smbus 0x80000FFF) linked fun _ => True) ∧
    (Takes (.bistStart .smbus 0x8000207F) (st (managed [(uBank 127, .running)])) fun _ => True) :=
  ⟨any ((h _ (List.replicate 72 0) (List.replicate 12 0) 0xFFFF .smbus 0 (by decide)).1 (by decide) (by decide)),
   any ((h _ (List.replicate 72 0) (List.replicate 12 0) 0xFFFF (.host 3) 0x200 (by decide)).2.1 (by repeat' first | decide | apply And.intro)),
   any ((h _ (List.replicate 72 0) (List.replicate 12 0) 0xFFFF .smbus 0 (by decide)).2.2.1),
   any ((h _ (List.replicate 72 0) (List.replicate 12 0) 0xFFFF .jtag 5 (by decide)).2.2.2.1 (by repeat' first | decide | apply And.intro)),
   any ((h _ (List.replicate 72 0) (List.replicate 12 0) 0xFFFF .smbus 4 (by decide)).2.2.2.2.1 (by repeat' first | decide | apply And.intro) (by decide) (by decide) (by decide)),
   any ((h _ (List.replicate 72 0) (List.replicate 12 0) 0xFFFF .smbus 0x80000FFF (by decide)).2.2.2.2.2 (by repeat' first | decide | apply And.intro) (by decide) (by decide) (by decide) |>.1 (by decide)),
   any ((h _ (List.replicate 72 0) (List.replicate 12 0) 0xFFFF .smbus 0x8000207F (by decide)).2.2.2.2.2 (by repeat' first | decide | apply And.intro) (by decide) (by decide) (by decide) |>.2 (by decide) (by decide) (by decide) (by decide))⟩

theorem witness_HostPortsComeAndGo (h : Obligations.HostPortsComeAndGo) :
    (Takes (.hostLinkUp 3 5 8 true 255) (st { hosted { perst := true } with units := [(uHost 3, { st := .idle })] }) fun _ => True) ∧
    (Takes (.hostLinkUp 3 5 8 true 255) (st ((inUse [(uHost 3, .idle)]).modHp 3 fun h => { h with perst := false })) fun _ => True) ∧
    (Takes (.hostLinkUp 3 1 1 false 0) (st (hosted {})) fun _ => True) ∧
    (Takes (.hostLinkDown 3) (st (hosted {})) fun _ => True) ∧
    (Takes (.perstN ⟨3, false⟩) (st (hosted {})) fun _ => True) ∧
    (Takes (.hotReset 3) (st (hosted {})) fun _ => True) ∧
    (Takes (.functionLevelReset 3) (st (hosted {})) fun _ => True) ∧
    (Takes (.perstN ⟨3, true⟩) (st (hosted { perst := true })) fun _ => True) ∧
    (Takes (.hostLinkDown 3) (st { hosted {} with units := [(uHost 3, { st := .asleep, prior := .running })] }) fun _ => True) ∧
    (Takes (.orphansCleared 3) (st (hosted { orphans := true })) fun _ => True) ∧
    (Takes (.hostPortParityFault 3) (st (inUse [(uHost 3, .idle)])) fun _ => True) :=
  ⟨any ((h _ 3 5 8 true 255 (by decide)).1 (by decide) (by decide) (by decide) (by decide) |>.1 (by decide)),
   any ((h _ 3 5 8 true 255 (by decide)).1 (by decide) (by decide) (by decide) (by decide) |>.2.1 (by decide) (by decide) (by decide) (by decide)),
   any ((h _ 3 1 1 false 0 (by decide)).1 (by decide) (by decide) (by decide) (by decide) |>.2.2 (by decide) (by decide) (by decide)),
   any (((h _ 3 0 0 false 0 (by decide)).2.1 (by decide) (by decide) (by decide) (by decide)).1),
   any (((h _ 3 0 0 false 0 (by decide)).2.1 (by decide) (by decide) (by decide) (by decide)).2.1 (by decide)),
   any (((h _ 3 0 0 false 0 (by decide)).2.1 (by decide) (by decide) (by decide) (by decide)).2.2.1),
   any (((h _ 3 0 0 false 0 (by decide)).2.1 (by decide) (by decide) (by decide) (by decide)).2.2.2),
   any ((h _ 3 0 0 false 0 (by decide)).2.2.1),
   any ((h _ 3 0 0 false 0 (by decide)).2.2.2.1 (by decide) (by decide) (by decide)),
   any ((h _ 3 0 0 false 0 (by decide)).2.2.2.2.1 (by decide) (by decide)),
   any ((h _ 3 0 0 false 0 (by decide)).2.2.2.2.2 (by decide))⟩

theorem witness_DoorbellsAndVectorsMove (h : Obligations.DoorbellsAndVectorsMove) :
    (Takes (.sqDoorbell 3 15 15) (st (hosted { sqs := [(15, { st := .stopped })] })) fun _ => True) ∧
    (Takes (.cancelDoorbell 3 15 0x80000000) (st (hosted { sqs := [(15, { st := .running, head := 15, tail := 14 })] })) fun _ => True) ∧
    (Takes (.cqDoorbell 3 3 1) (st (hosted { cqs := [(3, { enabled := true, tail := 1 })] })) fun _ => True) ∧
    (Takes (.eqDoorbell 3 1) (st (hosted { eq := { enabled := true, tail := 1 } })) fun _ => True) ∧
    (Takes (.eqDoorbell 3 2) (st (hosted { eq := { enabled := true, tail := 1 }, err := 1 })) fun _ => True) ∧
    (Takes (.msixHoldoffExpiry 3 19) (st (inUse [])) fun _ => True) ∧
    (Takes (.msixHoldoffExpiry 3 19) (st (hosted { cqs := [(3, { holding := true, owed := true })], table := [(0, { masked := false })], conf := { msixOn := true } })) fun _ => True) ∧
    (Takes (.msixHoldoffExpiry 3 19) (st (hosted { cqs := [(3, { holding := true, owed := true })] })) fun _ => True) ∧
    (Takes (.msixUnmask 3 63) (st (hosted { pendBits := [(63, true)], conf := { msixOn := true } })) fun _ => True) ∧
    (Takes (.msixUnmask 3 63) (st (hosted { pendBits := [(63, true)], conf := { msixOn := true, fmask := true } })) fun _ => True) ∧
    (Takes (.msixUnmask 3 64) (st (hosted { pendBits := [(63, true)], conf := { msixOn := true, fmask := true }, table := [(63, { masked := false })] })) fun _ => True) :=
  ⟨any (((h.1 _ 3 15 3 15 (by decide) (by decide) (by decide) (by decide) (by decide)).1 (by decide) (Or.inr (by decide)) (by decide)).1 (by decide) (by decide)),
   any (((h.1 _ 3 15 3 0x80000000 (by decide) (by decide) (by decide) (by decide) (by decide)).1 (by decide) (Or.inl (by decide)) (by decide)).2 (by decide) (by decide) (by decide)),
   any ((h.1 _ 3 0 3 1 (by decide) (by decide) (by decide) (by decide) (by decide)).2.1 (by decide) (fun q => rfl)),
   any ((h.1 _ 3 0 0 1 (by decide) (by decide) (by decide) (by decide) (by decide)).2.2.1 (by decide) (by decide)),
   any ((h.1 _ 3 0 0 2 (by decide) (by decide) (by decide) (by decide) (by decide)).2.2.2 (by decide) (by decide)),
   any ((h.2 _ 3 3 0 (by decide) (by decide) (by decide)).1 (by decide)),
   any ((h.2 _ 3 3 0 (by decide) (by decide) (by decide)).2.1 (by decide) (by decide) (by decide) |>.1 (by decide) (by decide)),
   any ((h.2 _ 3 3 0 (by decide) (by decide) (by decide)).2.1 (by decide) (by decide) (by decide) |>.2 (Or.inl (by decide))),
   any ((h.2 _ 3 0 63 (by decide) (by decide) (by decide)).2.2 (by decide) (by decide) |>.1 (by decide)),
   any ((h.2 _ 3 0 63 (by decide) (by decide) (by decide)).2.2 (by decide) (by decide) |>.2.1 (by decide)),
   any ((h.2 _ 3 0 63 (by decide) (by decide) (by decide)).2.2 (by decide) (by decide) |>.2.2 (by decide) (by decide) (by decide))⟩

/-- Port 3's submission ring 15 drains, and `HOST_ERR` holds a flag already. -/
def drainingRing : State := st (hosted { sqs := [(15, { st := .draining, cfg := 0x401 })], err := 1 })

/-- Port 3's event ring is enabled. -/
def eventRing : State := st (hosted { eq := { enabled := true } })

theorem witness_RingsAreEnabledAndDisabled (h : Obligations.RingsAreEnabledAndDisabled) :
    (Takes (.ringEnable 3 15 0x400) (st (hosted { cqs := [(0, { enabled := true })] })) fun _ => True) ∧
    (Takes (.ringEnable 3 19 0x400) (st (hosted {  })) fun _ => True) ∧
    (Takes (.ringDisable 3 15 0x400) (st (hosted { sqs := [(15, { st := .running, cfg := 0x401 })] })) fun _ => True) ∧
    (Takes (.hostCtrlEnable 3 1) (st (hosted {  })) fun _ => True) ∧
    (drainingRing.dev.writeHost 3 0x13C 0x500 = drainingRing.dev.writeHost 3 0x17C 0x500) ∧
    (Takes (.ringEnable 3 15 0x500) drainingRing fun _ => True) ∧
    (Takes (.ringDisable 3 19 0x500) (st (hosted { cqs := [(3, { enabled := true, cfg := 0x401 })] })) fun _ => True) ∧
    (eventRing.dev.writeHost 3 0x244 0 = eventRing.dev.writeHost 3 0x240 0) :=
  ⟨any ((h _ 3 0x400 ⟨(by decide), (by decide), (by decide)⟩).1 15 (by decide) (by decide) (by decide) (by decide) (by decide)),
   any ((h _ 3 0x400 ⟨(by decide), (by decide), (by decide)⟩).2.1 3 (by decide) (by decide) (by decide) (by decide)),
   any ((h _ 3 0x400 ⟨(by decide), (by decide), (by decide)⟩).2.2.1 15 (by decide) (by decide) (by decide) (by decide) (fun y hy => (List.not_mem_nil hy).elim)),
   any ((h _ 3 1 ⟨(by decide), (by decide), (by decide)⟩).2.2.2.2 (Or.inr (by decide))),
   (fun c => c.1.trans c.2.symm) (((h drainingRing 3 0x500 ⟨(by decide), (by decide), (by decide)⟩).2.2.2.1).1 15 (by decide) (by decide)).1,
   any ((((h _ 3 0x500 ⟨(by decide), (by decide), (by decide)⟩).2.2.2.1).1 15 (by decide) (by decide)).2 (by decide)).1,
   any ((((h _ 3 0x500 ⟨(by decide), (by decide), (by decide)⟩).2.2.2.1).2.1 3 (by decide) (by decide)).2 (by decide)).2,
   (fun c => c.2.trans c.1.symm) (((h eventRing 3 0 ⟨(by decide), (by decide), (by decide)⟩).2.2.2.1).2.2 (by decide))⟩

theorem witness_DescriptorsAreFetchedAhead (h : Obligations.DescriptorsAreFetchedAhead) :
    (Takes (.descriptorFetch 3 15) (st (hosted { sqs := [(15, { st := .running, head := 15, tail := 14 })] })) fun _ => True) ∧
    (Takes (.hostReadCompletion 3 0 (.data (List.replicate 64 0))) (st (hosted { sqs := [(15, { st := .running, fetching := 1 })], reads := [(0, some { why := .fetch 15 0 1 0, addr := 0, len := 64, sent := true })] })) fun _ => True) ∧
    (Takes (.preread 3 15) (st (hosted { sqs := [(15, { st := .running, held := [(desc [0x10, 0, 2, 4095, 0, 0, 0x3C000, 64])] })], pfLo := [(7, 97)] })) fun _ => True) ∧
    (Takes (.descriptorFetch 3 15) (st (hosted { sqs := [(15, { st := .running, head := 15, tail := 14 })], orphans := true })) fun _ => True) ∧
    (Takes (.hostReadCompletion 3 0 (.data (List.replicate 64 0))) (st (hosted { sqs := [(15, { st := .running, fetching := 1 })], reads := [(0, some { why := .fetch 15 0 1 0, addr := 0, len := 64, sent := true }), (9, some { why := .dropped, addr := 7, len := 64, sent := false })] })) fun _ => True) :=
  ⟨any (((h _ 3 15 (by decide) (by decide)).2 (by decide) (by decide) (by decide) (by decide)).1 (by decide) (by decide) (by decide) (by decide) (by decide) (by decide)),
   any (((h _ 3 15 (by decide) (by decide)).2 (by decide) (by decide) (by decide) (by decide)).2.1 0 0 1 0 _ (by decide) (by decide) (List.forall_mem_cons.mpr ⟨fun x e => by cases e; rfl, fun y hy => (List.not_mem_nil hy).elim⟩)),
   any (((h _ 3 15 (by decide) (by decide)).2 (by decide) (by decide) (by decide) (by decide)).2.2.2 0 (desc [0x10, 0, 2, 4095, 0, 0, 0x3C000, 64]) (by decide) (by decide) (by decide)),
   any ((h _ 3 15 (by decide) (by decide)).1 (by decide)).1,
   any (((h _ 3 15 (by decide) (by decide)).2 (by decide) (by decide) (by decide) (by decide)).2.2.1 0 0 1 0 _ 9 { why := .dropped, addr := 7, len := 64, sent := false } (by decide) (by decide) (by decide) (by decide))⟩

theorem witness_ReadsThatClearOrLatch (h : Obligations.ReadsThatClearOrLatch) :
    (Takes (.hostDropCountRead (.host 3) 3) linked fun _ => True) ∧
    (Takes (.hostEqLostRead (.host 0) 0) linked fun _ => True) ∧
    (Takes (.hostLostCplRead .smbus 3) linked fun _ => True) ∧
    (Takes (.linkFecCeRead .jtag 95) linked fun _ => True) ∧
    (Takes (.linkFecUeRead (.host 3) 95) linked fun _ => True) ∧
    (Takes (.linkReplayRead (.host 3) 0) linked fun _ => True) ∧
    (Takes (.linkDropRead (.host 3) 95) linked fun _ => True) ∧
    (Takes (.fportCountRead (.host 3) 23) linked fun _ => True) ∧
    (Takes (.cfgPassCountRead (.host 3)) linked fun _ => True) ∧
    (Takes (.cfgFramesRead .smbus) linked fun _ => True) ∧
    (Takes (.mgmtCountRead .jtag) linked fun _ => True) ∧
    (Takes (.testCfgCountRead .smbus) linked fun _ => True) ∧
    (Takes (.glbUptimeLoRead (.host 3)) linked fun _ => True) ∧
    (Takes (.teleRec0Read .smbus) linked fun _ => True) :=
  ⟨any (((h.1 _ (.host 3) 3 (by decide)).1 (by decide)).1 (by repeat' first | decide | apply And.intro)),
   any (((h.1 _ (.host 0) 0 (by decide)).1 (by decide)).2.1 (by repeat' first | decide | apply And.intro)),
   any (((h.1 _ .smbus 3 (by decide)).1 (by decide)).2.2 (by repeat' first | decide | apply And.intro)),
   any (((h.1 _ .jtag 95 (by decide)).2.1 (by decide)).1 (by repeat' first | decide | apply And.intro)),
   any (((h.1 _ (.host 3) 95 (by decide)).2.1 (by decide)).2.1 (by repeat' first | decide | apply And.intro)),
   any (((h.1 _ (.host 3) 0 (by decide)).2.1 (by decide)).2.2.1 (by repeat' first | decide | apply And.intro)),
   any (((h.1 _ (.host 3) 95 (by decide)).2.1 (by decide)).2.2.2 (by repeat' first | decide | apply And.intro)),
   any ((h.1 _ (.host 3) 23 (by decide)).2.2.1 (by decide) (by repeat' first | decide | apply And.intro)),
   any ((h.1 _ (.host 3) 0 (by decide)).2.2.2.1 (by repeat' first | decide | apply And.intro)),
   any ((h.1 _ .smbus 0 (by decide)).2.2.2.2.1 (by repeat' first | decide | apply And.intro)),
   any ((h.1 _ .jtag 0 (by decide)).2.2.2.2.2.1 (by repeat' first | decide | apply And.intro)),
   any ((h.1 _ .smbus 0 (by decide)).2.2.2.2.2.2 (by repeat' first | decide | apply And.intro) (by decide)),
   any ((h.2 _ (.host 3) (by decide)).1 (by repeat' first | decide | apply And.intro)),
   any ((h.2 _ .smbus (by decide)).2 (by repeat' first | decide | apply And.intro))⟩

theorem witness_LinksTrainAndComeUp (h : Obligations.LinksTrainAndComeUp) :
    (Takes (.linkTrainStart 95 15) (st (linkAt .idle { ctrl := 0x1005 })) fun _ => True) ∧
    (Takes (.linkTrainStart 95 15) (st { linkAt .idle { ctrl := 0x1005 } with links := [(92, { ctrl := 0x1004 }), (95, { ctrl := 0x1005 })] }) fun _ => True) ∧
    (Takes (.pcsLinkUp 95 1) (st (trains { inForce := 1 })) fun _ => True) ∧
    (Takes (.helloSend 95) (st (trains { inForce := 5 })) fun _ => True) ∧
    (Takes (.helloSend 95) (st (linkAt .running { inForce := 5 })) fun _ => True) ∧
    (Takes (.trainTimeout 95) (st (linkAt .idle { inForce := 5, training := true })) fun _ => True) ∧
    (Takes (.trainTimeout 95) (st (trains { inForce := 5 })) fun _ => True) ∧
    (Takes (.hello 95 { peer95 with version := 2 }) (st (trains { inForce := 5 })) fun _ => True) ∧
    (Takes (.hello 95 peer95) (st (trains { inForce := 5 })) fun _ => True) ∧
    (Takes (.hello 95 peer95) (st (trains { inForce := 5, helloRun := 2, lastHello := some peer95 })) fun _ => True) ∧
    (Takes (.pcsLinkUp 95 1) (st (notified (trains { inForce := 1 }))) fun t => .hostWrite 3 0 (noticeBytes (uLink 95) 1 0 1) false ∈ t.out) ∧
    (Takes (.hello 95 peer95) (st (notified (trains { inForce := 5, helloRun := 2, lastHello := some peer95 }))) fun t =>
      .hostWrite 3 0 (noticeBytes (uLink 95) 1 0 (pack64 [(5, 0, 3), (peer95.device.toNat, 16, 14), (peer95.port.toNat, 32, 7)])) false ∈ t.out) :=
  ⟨any (((h _ 95 15 0 peer95 (by decide)).1 (by decide) (by decide) (by decide) (by decide) (by decide) (by decide) (by decide)).1 (by decide)),
   any (((h _ 95 15 0 peer95 (by decide)).1 (by decide) (by decide) (by decide) (by decide) (by decide) (by decide) (by decide)).2 (by decide)),
   any ((h _ 95 15 1 peer95 (by decide)).2.1 (by decide) (by decide) (by decide) (by decide) (by decide)),
   any (((h _ 95 15 0 peer95 (by decide)).2.2 (by decide) (by decide)).1 (Or.inl (by decide))),
   any (((h _ 95 15 0 peer95 (by decide)).2.2 (by decide) (by decide)).1 (Or.inr (by decide))),
   any (((((h _ 95 15 0 peer95 (by decide)).2.2 (by decide) (by decide)).2 (by decide) (by decide) (by decide)).1).1 (by decide)),
   any (((((h _ 95 15 0 peer95 (by decide)).2.2 (by decide) (by decide)).2 (by decide) (by decide) (by decide)).1).2 (by decide)),
   any ((((h _ 95 15 0 { peer95 with version := 2 } (by decide)).2.2 (by decide) (by decide)).2 (by decide) (by decide) (by decide)).2 (by decide) |>.1 (by decide)),
   any (((((h _ 95 15 0 peer95 (by decide)).2.2 (by decide) (by decide)).2 (by decide) (by decide) (by decide)).2 (by decide) |>.2 (by decide)).1 (by decide)),
   any (((((h _ 95 15 0 peer95 (by decide)).2.2 (by decide) (by decide)).2 (by decide) (by decide) (by decide)).2 (by decide) |>.2 (by decide)).2 (by decide) (by decide) (by decide) (by decide)),
   Takes.imp ((h _ 95 15 1 peer95 (by decide)).2.1 (by decide) (by decide) (by decide) (by decide) (by decide)) (fun _ ht => ht.2.1 3 (by decide) (by decide) (by decide) (by decide) (by decide) (by decide) (by decide)),
   Takes.imp (((((h _ 95 15 0 peer95 (by decide)).2.2 (by decide) (by decide)).2 (by decide) (by decide) (by decide)).2 (by decide) |>.2 (by decide)).2 (by decide) (by decide) (by decide) (by decide)) (fun _ ht => ht.2.2.2.1 3 (by decide) (by decide) (by decide) (by decide) (by decide) (by decide) (by decide))⟩

theorem witness_LinksAreLost (h : Obligations.LinksAreLost) :
    (Takes (.pcsLinkLost 95 .pcsLoss) (st (linkAt .running { inForce := 1 })) fun _ => True) ∧
    (Takes (.pcsLinkLost 95 .lockLost) (st (linkAt .running { inForce := 1 })) fun _ => True) ∧
    (Takes (.breraLinkLost 95 .replayLimit) (st (linkAt .running { inForce := 5 })) fun _ => True) ∧
    (Takes (.breraLinkLost 95 .creditError) (st (linkAt .running { inForce := 5 })) fun _ => True) ∧
    (Takes (.helloMissing 95) (st (linkAt .running { inForce := 5 })) fun _ => True) ∧
    (Takes (.signalLost 95) (st (linkAt .running { inForce := 5 })) fun _ => True) ∧
    (Takes (.linkParityFault 95) (st (linkAt .running { inForce := 5 })) fun _ => True) ∧
    (Takes (.pcsLinkLost 95 .lockLost) (st (notified (linkAt .running { inForce := 1 }))) fun t =>
      .hostWrite 3 0 (noticeBytes (uLink 95) 2 stLinkDown 1) false ∈ t.out) ∧
    (Takes (.helloMissing 95) (st (notified (linkAt .running { inForce := 5 }))) fun t =>
      .hostWrite 3 0 (noticeBytes (uLink 95) 2 stLinkDown 4) false ∈ t.out) :=
  ⟨any (((h _ 95 .pcsLoss (by decide) (by decide)).1 (by decide)).1 (by decide)),
   any (((h _ 95 .lockLost (by decide) (by decide)).1 (by decide)).2 (by decide)),
   any (((h (st (linkAt .running { inForce := 5 })) 95 .replayLimit (by decide) (by decide)).2 (by decide) (by decide) (by decide) (fun i _ r => (nofun : XidSt.free ≠ XidSt.used r)) (fun y hy => (List.not_mem_nil hy).elim)).1),
   any (((h (st (linkAt .running { inForce := 5 })) 95 .creditError (by decide) (by decide)).2 (by decide) (by decide) (by decide) (fun i _ r => (nofun : XidSt.free ≠ XidSt.used r)) (fun y hy => (List.not_mem_nil hy).elim)).1),
   any ((((h (st (linkAt .running { inForce := 5 })) 95 .helloMissing (by decide) (by decide)).2 (by decide) (by decide) (by decide) (fun i _ r => (nofun : XidSt.free ≠ XidSt.used r)) (fun y hy => (List.not_mem_nil hy).elim)).2.1 (by decide)).1),
   any ((((h (st (linkAt .running { inForce := 5 })) 95 .signalLost (by decide) (by decide)).2 (by decide) (by decide) (by decide) (fun i _ r => (nofun : XidSt.free ≠ XidSt.used r)) (fun y hy => (List.not_mem_nil hy).elim)).2.1 (by decide)).2 (by decide)),
   any (((h (st (linkAt .running { inForce := 5 })) 95 .signalLost (by decide) (by decide)).2 (by decide) (by decide) (by decide) (fun i _ r => (nofun : XidSt.free ≠ XidSt.used r)) (fun y hy => (List.not_mem_nil hy).elim)).2.2),
   Takes.imp (((h _ 95 .lockLost (by decide) (by decide)).1 (by decide)).2 (by decide)) (fun _ ht => ht.2.1 3 (by decide) (by decide) (by decide) (by decide) (by decide) (by decide) (by decide)),
   Takes.imp ((((h (st (notified (linkAt .running { inForce := 5 }))) 95 .helloMissing (by decide) (by decide)).2 (by decide) (by decide) (by decide) (fun i _ r => (nofun : XidSt.free ≠ XidSt.used r)) (fun y hy => (List.not_mem_nil hy).elim)).2.1 (by decide)).1) (fun _ ht => ht.1.2.2 3 (by decide) (by decide) (by decide) (by decide) (by decide) (by decide) (by decide))⟩

theorem witness_PacketsAcknowledgeAndReplay (h : Obligations.PacketsAcknowledgeAndReplay) :
    (Takes (.breraPacket 95 (packet 4095 true)) (st (linkAt .running { inForce := 5, peer := some peer95, credRsp := 241, credReq := 241, rxSeq := 4095 })) fun _ => True) ∧
    (Takes (.breraPacket 95 (packet 0 false)) (st (linkAt .running { inForce := 5, peer := some peer95, credRsp := 241, credReq := 241 })) fun _ => True) ∧
    (Takes (.linkIdleBlock 95 0 true 15 15) (st (linkAt .running { inForce := 5, peer := some peer95, credRsp := 241, credReq := 241 })) fun _ => True) ∧
    (Takes (.nak 95 7) (st (linkAt .running { inForce := 5, unacked := [⟨packet 7 true, 14⟩] })) fun _ => True) ∧
    (Takes (.ackTimeout 95) (st (linkAt .running { inForce := 5, unacked := [⟨packet 7 true, 14⟩] })) fun _ => True) ∧
    (Takes (.xidTimeout 95 511) (st (linkAt .running { xids := [(511, .used 0)] })) fun _ => True) ∧
    (Takes (.xidQuarantineEnd 95 511) (st (linkAt .running { xids := [(511, .quarantine)] })) fun _ => True) :=
  ⟨any ((h.1 _ 95 (packet 4095 true) (by decide) (by decide) (by decide) (by decide) (by decide)).1 (by decide +kernel) (by decide) (by decide) (by decide) (by decide) (fun g e => by cases e; decide) (by decide)),
   any ((h.1 _ 95 (packet 0 false) (by decide) (by decide) (by decide) (by decide) (by decide)).2 (by decide) (by decide)),
   any (((h.2 _ 95 0 0 true 15 15 0 (by decide) (by decide)).1 (by decide) (by decide) (by decide)).1 (by decide) (by decide) (fun g e => by cases e; decide)),
   any ((((h.2 _ 95 0 7 true 0 0 0 (by decide) (by decide)).1 (by decide) (by decide) (by decide)).2 (by decide)).1 0 (by decide)),
   any ((((h.2 _ 95 0 7 true 0 0 0 (by decide) (by decide)).1 (by decide) (by decide) (by decide)).2 (by decide)).2 (by decide)),
   any ((h.2 _ 95 0 0 true 0 0 511 (by decide) (by decide)).2.1 0 (by decide)),
   any ((h.2 _ 95 0 0 true 0 0 511 (by decide) (by decide)).2.2 (by decide))⟩

theorem witness_RelayAndSleepBlocks (h : Obligations.RelayAndSleepBlocks) :
    (Takes (.relayBlock 95 true) (st (linkAt .running { inForce := 0x805, peer := some peer95, relayIn := true })) fun _ => True) ∧
    (Takes (.relaySend) (st (linkAt .running { inForce := 0x805, peer := some peer95, relayIn := true })) fun _ => True) ∧
    (Takes (.relaySend) (st (let d := linkAt .running { inForce := 0x805, peer := some peer95 }; { d with cfg := { d.cfg with opts := 8 } })) fun _ => True) ∧
    (Takes (.sysStart true) (st (let d := linkAt .running { inForce := 0x805, peer := some peer95, relayIn := true }; { d with cfg := { d.cfg with wireHigh := true, opts := 2 } })) fun _ => True) ∧
    (Takes (.sleepBlock 95 .request) (st (linkAt .running { inForce := 5 })) fun _ => True) ∧
    (Takes (.sleepBlock 95 .request) (st (linkAt .running { inForce := 5, sendQ := [packet 0 true] })) fun _ => True) ∧
    (Takes (.sleepBlock 95 .accept) (st (linkAt .running { inForce := 5, sleepAsked := true })) fun _ => True) ∧
    (Takes (.sleepBlock 95 .refuse) (st (linkAt .running { inForce := 5, sleepAsked := true })) fun _ => True) ∧
    (Takes (.sleepAnswerTimeout 95) (st (linkAt .running { inForce := 5, sleepAsked := true })) fun _ => True) :=
  ⟨any ((h.1 _ 95 true false (by decide)).1 (by decide) (by decide)),
   any ((h.1 _ 95 true false (by decide)).2.1 (by decide)),
   any ((h.1 _ 95 true false (by decide)).2.2.1 (by decide)),
   any ((h.1 _ 95 true true (by decide)).2.2.2 (by decide) (by decide) (by decide)),
   any (((h.2 _ 95 (by decide)).1 (by decide) (by decide)).1 (by decide)),
   any (((h.2 _ 95 (by decide)).1 (by decide) (by decide)).2.1 (by decide)),
   any ((((h.2 _ 95 (by decide)).1 (by decide) (by decide)).2.2 (by decide)).1),
   any ((((h.2 _ 95 (by decide)).1 (by decide) (by decide)).2.2 (by decide)).2),
   any ((h.2 _ 95 (by decide)).2 (by decide))⟩

theorem witness_StreamPortsMoveLines (h : Obligations.StreamPortsMoveLines) :
    (Takes (.rxLine 95 (List.replicate 6 0) (List.replicate 6 0) noFec 0) (st (linkAt .running { inForce := 4 })) fun _ => True) ∧
    (Takes (.rxLine 95 [1] [0] noFec 0) (st (linkAt .running { inForce := 1, bound := some (63, 63, 15), rxBusy := true })) fun _ => True) ∧
    (Takes (.txLinePull 95) (st (linkAt .running { inForce := 1, bound := some (63, 63, 15), txOut := 15 })) fun _ => True) ∧
    (Takes (.txUnderrun 95) (st (linkAt .running { inForce := 1, txMid := true })) fun _ => True) :=
  ⟨any ((h _ 95 (List.replicate 6 0) (List.replicate 6 0) noFec 0 (by decide) (by decide) (by decide) (by decide) (by decide) (by decide)).2.1 (by decide)),
   any ((h _ 95 [1] [0] noFec 0 (by decide) (by decide) (by decide) (by decide) (by decide) (by decide)).2.2.1 (by decide) (by decide) (by decide)),
   any ((h _ 95 [] [] noFec 0 (by decide) (by decide) (by decide) (by decide) (by decide) (by decide)).2.2.2.1 63 63 15 (by decide) (by decide) (by decide)),
   any ((h _ 95 [] [] noFec 0 (by decide) (by decide) (by decide) (by decide) (by decide) (by decide)).2.2.2.2 (by decide) (by decide))⟩

/-- Link port 95 echoes at D4. -/
def echo95 : Dev := linkAt .quiesced { loop := some 4 }

def echoes (h : Obligations.RoutesAndLoops) := h.2 (st echo95) 95 peer95 (packet 0 false) 0 7 true true 15 15 .request [0] [0] noFec 0 (by decide) (by decide) (by decide)
  (by decide) (by decide)

theorem witness_RoutesAndLoops (h : Obligations.RoutesAndLoops) :
    (Takes (.routeTableWrite (.host 3) 95 0xDFDF) linked fun _ => True) ∧
    (Takes (.loopback .smbus (desc [0x70, uLink 95, 786432])) (st (bySmbus (desc [0x70, uLink 95, 786432]) (linkAt .idle { signal := 1 }))) fun _ => True) ∧
    (Takes (.loopback .smbus (desc [0x70, uLink 95, 0])) (st (bySmbus (desc [0x70, uLink 95, 0]) (linkAt .quiesced { loop := some 0 }))) fun _ => True) ∧
    (Takes (.loopback .smbus (desc [0x70, uFport 23, 720896])) (st (bySmbus (desc [0x70, uFport 23, 720896]) (let d := inUse [(uFport 23, .running)]; { d with pins := { d.pins with pins := [(767, { sel := 0x1B8 })] } }))) fun _ => True) ∧
    (Takes (.loopback .smbus (desc [0x70, uFport 23, 0])) (st (bySmbus (desc [0x70, uFport 23, 0]) { inUse [(uFport 23, .quiesced)] with fports := [(23, { loop := some 0 })] })) fun _ => True) ∧
    (Takes (.hello 95 peer95) (st echo95) fun _ => True) ∧
    (Takes (.breraPacket 95 (packet 0 false)) (st echo95) fun _ => True) ∧
    (Takes (.nak 95 7) (st echo95) fun _ => True) ∧
    (Takes (.linkIdleBlock 95 0 true 15 15) (st echo95) fun _ => True) ∧
    (Takes (.relayBlock 95 true) (st echo95) fun _ => True) ∧
    (Takes (.sleepBlock 95 .request) (st echo95) fun _ => True) ∧
    (Takes (.rxLine 95 [0] [0] noFec 0) (st echo95) fun _ => True) :=
  ⟨any ((h.1 _ (.host 3) 0xDFDF .smbus 0).1 95 (by decide) (by repeat' first | decide | apply And.intro) (by decide) (by decide)),
   any ((((h.1 _ .smbus 0 .smbus (desc [0x70, uLink 95, 786432])).2 ⟨by decide, by decide, by decide, by decide, by decide, by first | trivial | exact fun y hy => (List.not_mem_nil hy).elim⟩ (by decide) (by decide) (by decide) (by decide)).1 (by decide) (Or.inr (by decide)) (by decide)).1 (by decide) (Or.inl (by decide))),
   any ((((h.1 _ .smbus 0 .smbus (desc [0x70, uLink 95, 0])).2 ⟨by decide, by decide, by decide, by decide, by decide, by first | trivial | exact fun y hy => (List.not_mem_nil hy).elim⟩ (by decide) (by decide) (by decide) (by decide)).1 (by decide) (Or.inl (by decide)) (by decide)).2 (by decide) (by decide) (by decide)),
   any ((((h.1 _ .smbus 0 .smbus (desc [0x70, uFport 23, 720896])).2 ⟨by decide, by decide, by decide, by decide, by decide, by first | trivial | exact fun y hy => (List.not_mem_nil hy).elim⟩ (by decide) (by decide) (by decide) (by decide)).2 (by decide) (Or.inr (by decide))).1 (by decide) (Or.inr (by decide))),
   any ((((h.1 _ .smbus 0 .smbus (desc [0x70, uFport 23, 0])).2 ⟨by decide, by decide, by decide, by decide, by decide, by first | trivial | exact fun y hy => (List.not_mem_nil hy).elim⟩ (by decide) (by decide) (by decide) (by decide)).2 (by decide) (Or.inl (by decide))).2 (by decide) (by decide) (by decide)),
   any (echoes h).1,
   any (echoes h).2.1,
   any (echoes h).2.2.1,
   any (echoes h).2.2.2.1,
   any (echoes h).2.2.2.2.1,
   any (echoes h).2.2.2.2.2.1,
   any (echoes h).2.2.2.2.2.2⟩

theorem witness_FieldPortsRunAndQueue (h : Obligations.FieldPortsRunAndQueue) :
    (Takes (.fportStart 23) (st (fieldAt .idle { ctrl := 0x10 })) fun _ => True) ∧
    (Takes (.fportStart 23) (st (fedAt .running { ctrl := 0x13, kind := 3, integrating := true, loop := some 3 })) fun _ => True) ∧
    (Takes (.fportStart 23) (st (fedAt .quiesced { ctrl := 0x13, kind := 3, bus := 2, tecErr := 256, loop := some 0 })) fun _ => True) ∧
    (Takes (.uartRxCharacter 23 511 false true true) (st (fedAt .running { fifo := 0, rx := List.replicate 255 0 })) fun _ => True) ∧
    (Takes (.uartRxCharacter 23 0 false false false) (st (fedAt .running { fifo := 0, rx := List.replicate 255 0 })) fun _ => True) ∧
    (Takes (.uartRxCharacter 23 511 true true true) (st (fedAt .running { fmtUse := 0x28, fifo := 0, rx := List.replicate 256 0, protoSeen := true })) fun _ => True) ∧
    (Takes (.uartTxCharacter 23) (st (fieldAt .running { tx := [65] })) fun _ => True) ∧
    (Takes (.uartTxCharacter 23) (st (ownAt .running { tx := [65] })) fun _ => True) ∧
    (Takes (.fportParityFault 23) (st (fieldAt .running {  })) fun _ => True) ∧
    (Takes (.fieldChannelTx 63 3 9) (st { fieldAt .running { tx := List.replicate 255 0, bound := some (63, 63, 3) } with units := [(uPan 63, { st := .running })] }) fun _ => True) ∧
    ((FPort.queueTx { tx := [1] } 9).tx = [1, 9]) ∧
    ((FPort.queueTx { i2cDrop := true } 0x200).i2cDrop = false) ∧
    (Takes (.fportTxdataWrite .jtag 23 9) (st (fieldAt .idle { tx := List.replicate 255 0 })) fun _ => True) ∧
    (Takes (.fportRxdataRead (.host 3) 23) (st (fieldAt .idle { rx := [5] })) fun _ => True) :=
  ⟨any ((h _ 23 0 false .smbus 0 (by decide) (by decide)).1 (by decide) (by decide) (by decide) (by decide +kernel) (by decide)),
   any ((h _ 23 0 false .smbus 0 (by decide) (by decide)).2.1 (by decide) (Or.inr (by decide)) |>.1 (by decide) (by decide)),
   any ((h _ 23 0 false .smbus 0 (by decide) (by decide)).2.1 (by decide) (Or.inr (by decide)) |>.2 (by decide)),
   any (((h _ 23 511 false .smbus 0 (by decide) (by decide)).2.2.1 (by decide) (by decide) (by decide +kernel) (by decide +kernel) (by decide) (Or.inl (by decide))).1 (by decide) (by decide)).1,
   any (((h _ 23 0 false .smbus 0 (by decide) (by decide)).2.2.1 (by decide) (by decide) (by decide +kernel) (by decide +kernel) (by decide) (Or.inl (by decide))).1 (by decide) (by decide) |>.2 (by decide) (by decide)),
   any (((h _ 23 511 true .smbus 0 (by decide) (by decide)).2.2.1 (by decide) (by decide) (by decide +kernel) (by decide +kernel) (by decide) (Or.inr (by decide))).2 (by decide) (by decide)),
   any ((h _ 23 0 false .smbus 0 (by decide) (by decide)).2.2.2.1 65 [] (by decide) (by decide) (by decide) (by decide) |>.1 (by decide +kernel)),
   any ((h _ 23 0 false .smbus 0 (by decide) (by decide)).2.2.2.1 65 [] (by decide) (by decide) (by decide) (by decide) |>.2 (by decide +kernel) (by decide) (by decide)),
   any ((h _ 23 0 false .smbus 0 (by decide) (by decide)).2.2.2.2.1 (Or.inr (by decide))),
   any ((h _ 23 0 false .smbus 9 (by decide) (by decide)).2.2.2.2.2.1 63 3 (by decide) (by decide) (by decide) (by decide) (by decide)),
   congrArg FPort.tx ((h (st (fieldAt .idle { tx := [1] })) 23 0 false .smbus 9 (by decide) (by decide)).2.2.2.2.2.2.1 (by decide)),
   congrArg FPort.i2cDrop ((h (st (fieldAt .idle { i2cDrop := true })) 23 0 false .smbus 0x200 (by decide) (by decide)).2.2.2.2.2.2.2.1 (by decide)),
   any ((h _ 23 0 false .jtag 9 (by decide) (by decide)).2.2.2.2.2.2.2.2.1 (by repeat' first | decide | apply And.intro) (by decide) (by decide)),
   any ((h _ 23 0 false (.host 3) 0 (by decide) (by decide)).2.2.2.2.2.2.2.2.2 (by repeat' first | decide | apply And.intro) (by decide))⟩

theorem witness_SpiAndI2cMoveBytes (h : Obligations.SpiAndI2cMoveBytes) :
    (Takes (.spiByte 23 5) (st (fieldAt .running { kind := 1, fifo := 0, rx := List.replicate 255 0, tx := [0x755] })) fun _ => True) ∧
    (Takes (.spiByte 23 5) (st (fieldAt .running { kind := 1, fifo := 0, rx := List.replicate 255 0, tx := [0xB55] })) fun _ => True) ∧
    (Takes (.spiByte 23 5) (st (fedAt .running { kind := 1, fifo := 0, rx := List.replicate 255 0, fmtUse := 0x4008, tx := [0x1055] })) fun _ => True) ∧
    (Takes (.spiCsEnd 23) (st (fedAt .running { kind := 1, fifo := 0, rx := List.replicate 255 0, fmtUse := 0x4008, heldRx := some 7, selected := true })) fun _ => True) ∧
    (Takes (.i2cByte 23 0 .ack true false false) (st (fedAt .running { kind := 2, tx := [0x355] })) fun _ => True) ∧
    (Takes (.i2cByte 23 0 .nack true false false) (st (fedAt .running { kind := 2, protoSeen := true, tx := [0x155, 0x255] })) fun _ => True) ∧
    (Takes (.i2cByte 23 9 .ack true false false) (st (fedAt .running { kind := 2, fifo := 0, rx := List.replicate 255 0, tx := [0xE00] })) fun _ => True) ∧
    (Takes (.i2cStretchTimeout 23) (st (fieldAt .running { kind := 2, protoSeen := true, tx := [0x155] })) fun _ => True) ∧
    (Takes (.i2cByte 23 9 .ack false false true) (st (fedAt .running { kind := 2, fmtUse := 0x4008, selected := true, reading := true })) fun _ => True) ∧
    (Takes (.i2cByte 23 9 .ack false false true) (st (fedAt .running { kind := 2, fifo := 0, rx := List.replicate 255 0, fmtUse := 0x4008, selected := true })) fun _ => True) ∧
    (Takes (.i2cByte 23 9 (.address 0x3FF false) true false false) (st (fedAt .running { kind := 2, fmtUse := 0x4008, idMask := 0xFFFFFFFF })) fun _ => True) :=
  ⟨any (((h.1 _ 23 5 (by decide) (by decide) (by decide) (by decide)).1 0x755 [] (by decide) (by decide) (by decide) (by decide)).1 (by decide)),
   any (((h.1 _ 23 5 (by decide) (by decide) (by decide) (by decide)).1 0xB55 [] (by decide) (by decide) (by decide) (by decide)).2 (by decide)),
   any (((h.1 _ 23 5 (by decide) (by decide) (by decide) (by decide)).2 (by decide) (by decide)).1 0x1055 [] (by decide) (by decide) (by decide +kernel) (by decide +kernel) (Or.inl (by decide))),
   any (((h.1 _ 23 5 (by decide) (by decide) (by decide) (by decide)).2 (by decide) (by decide)).2 7 (by decide)),
   any (((h.2 _ 23 0 true false .ack (by decide)).1 0x355 [] (by decide) (by decide) (by decide) (by decide) (by decide +kernel) (by decide +kernel)).1 (by decide) |>.1),
   any (((h.2 _ 23 0 true false .ack (by decide)).1 0x155 [0x255] (by decide) (by decide) (by decide) (by decide) (by decide +kernel) (by decide +kernel)).1 (by decide) |>.2 (by decide)),
   any (((h.2 _ 23 9 true false .ack (by decide)).1 0xE00 [] (by decide) (by decide) (by decide) (by decide) (by decide +kernel) (by decide +kernel)).2 (by decide) (by decide) (by decide) (by decide)),
   any ((h.2 _ 23 0 true false .ack (by decide)).2.1 (by decide) (by decide) (by decide) (by decide)),
   any ((h.2 _ 23 9 false true .ack (by decide)).2.2.1 (by decide) (by decide) (by decide)),
   any (((h.2 _ 23 9 false true .ack (by decide)).2.2.2 (by decide) (by decide) (by decide +kernel) (by decide +kernel) (by decide)).1 (by decide) (by decide) (by decide) (by decide)),
   any (((h.2 _ 23 9 true false (.address 0x3FF false) (by decide)).2.2.2 (by decide) (by decide) (by decide +kernel) (by decide +kernel) (by decide)).2 (by decide))⟩

theorem witness_CanMovesFrames (h : Obligations.CanMovesFrames) :
    (Takes (.canRxFrame 23 [0x40000005, 0x40000002, 7] (.sent 9)) (st (fedAt .running { kind := 3, fmtUse := 0x80000, fifo := 0 })) fun _ => True) ∧
    (Takes (.canRxFrame 23 [5, 0x40000002, 7] (.sent 9)) (st (fedAt .running { kind := 3, fifo := 0, rx := List.replicate 253 0, recErr := 128 })) fun _ => True) ∧
    (Takes (.canRxFrame 23 [] (.error .crc true)) (st (fedAt .running { kind := 3, fifo := 0, recErr := 127 })) fun _ => True) ∧
    (Takes (.canBusOff 23) (st (fieldAt .running { kind := 3, fifo := 0, tecErr := 256 })) fun t => t.ust (uFport 23) = .idle) ∧
    (Takes (.canBusOff 23) (st (fieldAt .quiesced { kind := 3, fifo := 0, tecErr := 256, loop := some 3 })) fun t => t.ust (uFport 23) = .quiesced) ∧
    (Takes (.canBusOff 23) (st (notified (fieldAt .running { kind := 3, fifo := 0, tecErr := 256 }))) fun t => ∃ e : Dev,
      t = (e.fportToIdle 23 .device).refreshPins ∧ .hostWrite 3 0 (noticeBytes (uFport 23) 2 0 0xFF) false ∈ e.out) ∧
    (Takes (.canTxFrame 23 (.sent 9)) (st (ownAt .running { kind := 3, fifo := 0, tx := [5, 0x4, 7] })) fun _ => True) ∧
    (Takes (.canTxFrame 23 (.sent 9)) (st (fieldAt .running { kind := 3, fifo := 0, tx := [5, 0x4, 7] })) fun _ => True) ∧
    (Takes (.canTxFrame 23 (.error .ack false)) (st (fieldAt .running { kind := 3, fifo := 0, tx := [5, 0x4, 7], tecErr := 128, bus := 1 })) fun _ => True) :=
  ⟨any (((h _ 23 [0x40000005, 0x40000002, 7] 9 .ack false (by decide) (by decide)).1 (by decide) (by decide)).1 (by decide +kernel) (by decide) (by decide)),
   any (((h _ 23 [5, 0x40000002, 7] 9 .ack false (by decide) (by decide)).1 (by decide) (by decide)).2.1 ⟨by decide +kernel, Or.inl (by decide)⟩ (by decide) (by decide) (by decide) (by decide)),
   any (((h _ 23 [] 9 .crc true (by decide) (by decide)).1 (by decide) (by decide)).2.2.1 ⟨by decide +kernel, Or.inl (by decide)⟩),
   Takes.imp (((h _ 23 [] 9 .ack false (by decide) (by decide)).1 (by decide) (by decide)).2.2.2 (by decide)) (fun _ ⟨_, _, _, h3, _⟩ => (h3 (by decide)).2.1),
   Takes.imp (((h _ 23 [] 9 .ack false (by decide) (by decide)).1 (by decide) (by decide)).2.2.2 (by decide)) (fun _ ⟨_, _, _, _, h4⟩ => (h4 (by decide)).2.1),
   Takes.imp (((h _ 23 [] 9 .ack false (by decide) (by decide)).1 (by decide) (by decide)).2.2.2 (by decide)) (fun _ ⟨e, _, h2, h3, _⟩ =>
     ⟨e, (h3 (by decide)).1, h2 3 (by decide) (by decide) (by decide) (by decide) (by decide) (by decide) (by decide)⟩),
   any (((h _ 23 [] 9 .ack false (by decide) (by decide)).2 5 4 [7] (by decide) (by decide) (by decide) (by decide) (by decide) (by decide) (by decide) (by decide)).1 (by decide +kernel) (by decide)),
   any (((h _ 23 [] 9 .ack false (by decide) (by decide)).2 5 4 [7] (by decide) (by decide) (by decide) (by decide) (by decide) (by decide) (by decide) (by decide)).2.1 (by decide +kernel)),
   any (((h _ 23 [] 9 .ack false (by decide) (by decide)).2 5 4 [7] (by decide) (by decide) (by decide) (by decide) (by decide) (by decide) (by decide) (by decide)).2.2 (by decide) (by decide +kernel))⟩

/-- Pin 767 is in this state; its bank runs. -/
def pinAt (p : Pin) : Dev :=
  let d := managed [(uPinBank 15, .running)]
  { d with pins := { d.pins with pins := [(767, p)], enabled := [(15, true)], vccioOk := 0x8000 } }

theorem witness_PinsFollowTheirEntries (h : Obligations.PinsFollowTheirEntries) :
    (Takes (.pinSelWrite (.host 3) 767 0x01000002) linked fun _ => True) ∧
    (Takes (.pinEdge 767 ⟨true, 0⟩) (st (pinAt {})) fun _ => True) ∧
    (Takes (.pinEdge 767 ⟨true, 1⟩) (st (pinAt { sel := 0x46000002, evCfg := 1 })) fun _ => True) ∧
    (Takes (.pinEdge 767 ⟨false, 0⟩) (st (pinAt { evCfg := 2, level := true, filtered := true })) fun _ => True) ∧
    (Takes (.pinEdge 767 ⟨true, 0⟩) (st (notified { pinAt { evCfg := 1 } with pins := { (pinAt { evCfg := 1 }).pins with ctrl := 1 } })) fun t =>
      ∃ e : Dev, t = e.refreshPins ∧ .hostWrite 3 0 (noticeBytes (uPinBank 15) 1 0 (767 + 3 * 2 ^ 16)) false ∈ e.out) ∧
    (Takes (.pinBankParityFault 15) (st (pinAt {})) fun _ => True) :=
  ⟨any ((h _ (.host 3) 767 0x01000002 ⟨false, 0⟩ (by decide) (by decide)).1 (by repeat' first | decide | apply And.intro) (by decide +kernel) (by decide +kernel)),
   any (((h _ .smbus 767 0 ⟨true, 0⟩ (by decide) (by decide)).2.1 (by decide) (by decide)).1 (Or.inr (Or.inr (Or.inl (by decide))))),
   any (((h _ .smbus 767 0 ⟨true, 1⟩ (by decide) (by decide)).2.1 (by decide) (by decide)).1 (Or.inl (by decide))),
   any (((h _ .smbus 767 0 ⟨false, 0⟩ (by decide) (by decide)).2.1 (by decide) (by decide)).2 (by decide) (by decide) (by decide) (by decide)),
   Takes.imp (((h _ .smbus 767 0 ⟨true, 0⟩ (by decide) (by decide)).2.1 (by decide) (by decide)).2 (by decide) (by decide) (by decide) (by decide)) (fun _ ⟨e, _, h2, h3⟩ =>
     ⟨e, h2, h3 (by decide) 3 (by decide) (by decide) (by decide) (by decide) (by decide) (by decide) (by decide)⟩),
   any ((h _ .smbus 767 0 ⟨false, 0⟩ (by decide) (by decide)).2.2 (by decide))⟩

theorem placed_clock (p k : Nat) : (placed []).clockDead p k = false := by
  have h (j : Nat) : (placed []).pllDead j = false := rfl
  simp [Dev.clockDead, h]

theorem witness_PansFollowClocksAndGsr (h : Obligations.PansFollowClocksAndGsr) :
    (Takes (.userClockEdge 63 [(15, true)]) (st (inUse [])) fun _ => True) ∧
    (Takes (.userClockEdge 63 [(15, true), (0, false)]) (st (placed [])) fun _ => True) ∧
    (Takes (.panGsrWrite (.host 3) 63 7) linked fun _ => True) ∧
    (Takes (.userGsrWire 63 true) linked fun _ => True) :=
  ⟨any (((h _ 63 [(15, true)] .smbus 0 false (by decide) (by decide)).1 (by decide)).1 (Or.inl (by decide))),
   any (((h _ 63 [(15, true), (0, false)] .smbus 0 false (by decide) (by decide)).1 (by decide)).2 (by decide) (Or.inl (by decide)) (by decide) (by simp [st, placed_clock])),
   any ((h _ 63 [] (.host 3) 7 false (by decide) (by decide)).2.1 (by repeat' first | decide | apply And.intro)),
   any ((h _ 63 [] .smbus 0 true (by decide) (by decide)).2.2)⟩

theorem witness_FuseCommandsProgramBits (h : Obligations.FuseCommandsProgramBits) :
    (Takes (.fuseNarrow (.host 3) 0x7F13) linked fun _ => True) ∧
    (Takes (.fuseNarrow (.host 3) 7) linked fun _ => True) ∧
    (Takes (.fuseProgram .smbus 0 1) linked fun _ => True) ∧
    (Takes (.fuseProgram .jtag 511 0x80000001) linked fun _ => True) ∧
    (Takes (.fuseLock .smbus 11) linked fun _ => True) ∧
    (Takes (.fuseLock .jtag 10) linked fun _ => True) ∧
    (Takes (.fuseRollback .smbus 0) linked fun _ => True) ∧
    (Takes (.fuseRollback .jtag 2) linked fun _ => True) ∧
    (Takes (.fuseBitVerified .smbus true) (st { managed [(0, .faulted)] with fuse := { jobs := [fuseJob .smbus [16383]] } }) fun _ => True) ∧
    (Takes (.fuseBitVerified .smbus false) (st { linkedDev with fuse := { jobs := [fuseJob .smbus [16383]] } }) fun _ => True) ∧
    (Takes (.fuseBitVerified .smbus true) (st { linkedDev with fuse := { jobs := [fuseJob .smbus [16383]] } }) fun _ => True) ∧
    (Takes (.fuseBitVerified .smbus true) (st { linkedDev with fuse := { jobs := [fuseJob .smbus [16383, 16352]] } }) fun _ => True) ∧
    (Takes (.fuseBitVerified .smbus true) (st { linkedDev with fuse := { jobs := [{ fuseJob .smbus [16383, 16352] with cut := true }] } }) fun _ => True) ∧
    (Takes (.fuseLock .jtag 10) (st { linkedDev with pfw := { asserted := true } }) fun _ => True) :=
  ⟨any (((h _ (.host 3) 0x7F13 .smbus).1 (by repeat' first | decide | apply And.intro) (by decide)).1 _ _ rfl),
   any (((h _ (.host 3) 7 .smbus).1 (by repeat' first | decide | apply And.intro) (by decide)).2 (by decide +kernel)),
   any (((h _ .smbus 0 .smbus).2.1 (by repeat' first | decide | apply And.intro) (by decide)).1 0 1 |>.1 (by decide +kernel)),
   any (((h _ .smbus 0 .jtag).2.1 (by repeat' first | decide | apply And.intro) (by decide)).1 511 0x80000001 |>.2 [16352, 16383] (by decide +kernel) (by decide) |>.1 (by decide) (by decide)),
   any (((h _ .smbus 0 .smbus).2.1 (by repeat' first | decide | apply And.intro) (by decide)).2.1 11 |>.1 (by decide +kernel)),
   any (((h _ .smbus 0 .jtag).2.1 (by repeat' first | decide | apply And.intro) (by decide)).2.1 10 |>.2 [286, 287, 288] (by decide +kernel) (by decide) |>.1 (by decide) (by decide)),
   any (((h _ .smbus 0 .smbus).2.1 (by repeat' first | decide | apply And.intro) (by decide)).2.2 0 |>.1 (by decide +kernel)),
   any (((h _ .smbus 0 .jtag).2.1 (by repeat' first | decide | apply And.intro) (by decide)).2.2 2 |>.2 [3072, 3073] (by decide +kernel) (by decide) |>.1 (by decide) (by decide)),
   any ((h _ .smbus 0 .smbus).2.2.1 _ 16383 [] true rfl (by decide) (by decide) (by decide) (by decide)),
   any (((h _ .smbus 0 .smbus).2.2.2 _ 16383 [] rfl (by decide) (by decide) (by decide) (by decide)).1),
   any (((h _ .smbus 0 .smbus).2.2.2 _ 16383 [] rfl (by decide) (by decide) (by decide) (by decide)).2.2.2.1 (by decide) (by decide)),
   any (((h _ .smbus 0 .smbus).2.2.2 _ 16383 [16352] rfl (by decide) (by decide) (by decide) (by decide)).2.2.2.2.2 (by decide) (by decide)),
   any (((h _ .smbus 0 .smbus).2.2.2 _ 16383 [16352] rfl (by decide) (by decide) (by decide) (by decide)).2.2.2.2.1 (by decide)),
   any (((h _ .smbus 0 .jtag).2.1 (by repeat' first | decide | apply And.intro) (by decide)).2.1 10 |>.2 [286, 287, 288] (by decide +kernel) (by decide) |>.2 (Or.inl (by decide)))⟩

theorem witness_MirrorSlotAndBufferAnswer (h : Obligations.MirrorSlotAndBufferAnswer) :
    (Takes (.mirrorRead .smbus 0x103F) linked fun _ => True) ∧
    (Takes (.descSubmit .jtag 5) linked fun _ => True) ∧
    (Takes (.descSubmit .smbus 5) (st (linkedDev.modMg .smbus fun m => { m with slot := 1 })) fun _ => True) ∧
    (Takes (.descResult .jtag) (st (linkedDev.modMg .jtag fun m => { m with slot := 2 })) fun _ => True) ∧
    (Takes (.descResult .smbus) (st (linkedDev.modMg .smbus fun m => { m with slot := 1 })) fun _ => True) ∧
    (Takes (.bufWrite .smbus 16 [1, 2]) linked fun _ => True) ∧
    (Takes (.bufRead .jtag 16 255) linked fun _ => True) ∧
    (Takes (.smbusBadCommand 1 .wrong) linked fun _ => True) ∧
    (Takes (.smbusBadCommand 1 .missing) (st { linkedDev with mblk := { ctrl := 4 } }) fun _ => True) ∧
    (Takes (.smbusBadCommand 0x63 .missing) linked fun _ => True) ∧
    (Takes (.smbusBadCommand 0x62 .right) (st { linkedDev with fuse := { mirror := [(8, 0x1C0000)] } }) fun _ => True) ∧
    (Takes (.smbusSclTimeout) linked fun _ => True) ∧
    (Takes (.smbusBadCommand 1 .wrong) (st (linkedDev.modMg .smbus fun m => { m with wait := some .fuse })) fun _ => True) :=
  ⟨any ((h.1 _ .smbus 0x103F 16 5 [1, 2] 255 (by repeat' first | decide | apply And.intro) (by decide) (by decide)).1),
   any ((h.1 _ .jtag 0x103F 16 5 [1, 2] 255 (by repeat' first | decide | apply And.intro) (by decide) (by decide)).2.1 (by decide)),
   any ((h.1 _ .smbus 0x103F 16 5 [1, 2] 255 (by repeat' first | decide | apply And.intro) (by decide) (by decide)).2.2.1 (by decide)),
   any ((h.1 _ .jtag 0x103F 16 5 [1, 2] 255 (by repeat' first | decide | apply And.intro) (by decide) (by decide)).2.2.2.1 (by decide)),
   any ((h.1 _ .smbus 0x103F 16 5 [1, 2] 255 (by repeat' first | decide | apply And.intro) (by decide) (by decide)).2.2.2.2.1 (by decide)),
   any ((h.1 _ .smbus 0x103F 16 5 [1, 2] 255 (by repeat' first | decide | apply And.intro) (by decide) (by decide)).2.2.2.2.2.1),
   any ((h.1 _ .jtag 0x103F 16 5 [1, 2] 255 (by repeat' first | decide | apply And.intro) (by decide) (by decide)).2.2.2.2.2.2),
   any ((h.2 _ 1 .wrong (by decide) (by decide) (by decide)).2.1 (by decide) (Or.inl rfl)),
   any ((h.2 _ 1 .missing (by decide) (by decide) (by decide)).2.1 (by decide) (Or.inr ⟨rfl, by decide⟩)),
   any (((h.2 _ 0x63 .missing (by decide) (by decide) (by decide)).2.2.1 (by decide) (Or.inr ⟨rfl, by decide⟩)).1 (by decide) (by decide)),
   any (((h.2 _ 0x62 .right (by decide) (by decide) (by decide)).2.2.1 (by decide) (Or.inl rfl)).2 (by decide) (by decide) (by decide +kernel)),
   any ((h.2 _ 1 .right (by decide) (by decide) (by decide)).2.2.2),
   any ((h.2 _ 1 .wrong (by decide) (by decide) (by decide)).1 (by decide))⟩

/-- A START of pan 63 with epoch 6 met epoch 5 while the device slept; the wake has moved the epoch on. -/
def lateStart : Dev := ({ linkedDev with units := linkedDev.units.set {} (uPan 63) { st := .idle, epoch := 6 } } : Dev).modMg .smbus fun m => { m with late := some { unit := 0x103F, action := 2, expected := 6, held := 5, woken := some 6 } }

/-- Pan 63 sleeps, and so does the SMBus interface, which a command wakes. -/
def sleepingSmbus : Dev := sleeping { modeIn := 1 }

theorem no_late {o : Option LateCmd} {P : LateCmd → Prop} (h : o = none) (l : LateCmd) (e : o = some l) : P l := nomatch h.symm.trans e

theorem witness_UnitCommandsAct (h : Obligations.UnitCommandsAct) :
    (Takes (.unitCmdStop .smbus 0x103F 0 0) (st (managed [(uPan 63, .running)])) fun _ => True) ∧
    (Takes (.unitCmdStop .jtag 0xC000 0 0) (st (managed [(uBgs, .running)])) fun _ => True) ∧
    (Takes (.unitCmdStop .smbus 0x9000 0 0) (st (managed [(uRake, .running)])) fun _ => True) ∧
    (Takes (.unitCmdRecover .smbus 0x305F 0 0) (st (managed [(uLink 95, .faulted)])) fun _ => True) ∧
    (Takes (.unitCmdRecover .smbus 0x5003 0 0) (st (managed [(uHost 3, .faulted)])) fun _ => True) ∧
    (Takes (.unitCmdRetire .jtag 0x305F 0 0) (st (managed [(uLink 95, .idle)])) fun _ => True) ∧
    (Takes (.unitCmdRetire .jtag 0x103F 0 0) (st (managed [(uPan 63, .idle)])) fun _ => True) ∧
    (Takes (.unitCmdReturn .jtag 0x103F 0 0) (st (managed [(uPan 63, .retired)])) fun _ => True) ∧
    (Takes (.unitCmdLoop .smbus 0x5003 0 11) (st (managed [(uHost 3, .idle)])) fun _ => True) ∧
    (Takes (.unitCmdLoop .smbus 0x600F 0 11) (st (managed [(uPinBank 15, .running)])) fun _ => True) ∧
    (Takes (.unitCmdStart .smbus 0xC000 0 0) (st (managed [(uBgs, .quiesced)])) fun _ => True) ∧
    (Takes (.unitCmdStart .smbus 0x9000 0 0) (st (managed [(uRake, .quiesced)])) fun _ => True) ∧
    (Takes (.unitCmdStart .jtag 0x103F 0 0) (st (managed [(uPan 63, .quiesced)])) fun _ => True) ∧
    (Takes (.unitCmdStop .smbus 0x1040 0 0) linked fun _ => True) ∧
    (Takes (.unitCmdStart .jtag 0x103F 0 0) (st closed) fun _ => True) ∧
    (Takes (.unitCmdRecover .smbus 0x103F 5 0) (st (managed [(uPan 63, .running)])) fun _ => True) ∧
    (Takes (.unitCmdRetire .smbus 0x103F 5 0) (st (managed [(uPan 63, .idle)])) fun _ => True) ∧
    (Takes (.unitCmdReturn .smbus 0x103F 5 0) (st (managed [(uPan 63, .idle)])) fun _ => True) ∧
    (Takes (.unitCmdLoop .jtag 0x5003 5 11) (st (managed [(uHost 3, .idle)])) fun _ => True) ∧
    (Takes (.unitCmdStop .smbus 0x103F 0xFFFF 0) (st fallingAsleep) fun _ => True) ∧
    (Takes (.unitCmdStart .smbus 0x103F 6 0) (st lateStart) fun _ => True) ∧
    (Takes (.unitCmdStart .smbus 0x103F 6 0) (st sleepingSmbus) fun _ => True) ∧
    (Takes (.unitCmdStart .jtag 0x103F 6 0) (st (sleeping { modeIn := 1 })) fun _ => True) :=
  ⟨any (((h.1 _ .smbus 0x103F 0 0 (by repeat' first | decide | apply And.intro) (by decide) (by decide) (by decide) (by decide) (by decide +kernel)).1 (by decide)).1 (by decide) |>.1 (by decide)),
   any (((h.1 _ .jtag 0xC000 0 0 (by repeat' first | decide | apply And.intro) (by decide) (by decide) (by decide) (by decide) (by decide +kernel)).1 (by decide)).1 (by decide) |>.2.1 (by decide)),
   any (((h.1 _ .smbus 0x9000 0 0 (by repeat' first | decide | apply And.intro) (by decide) (by decide) (by decide) (by decide) (by decide +kernel)).1 (by decide)).1 (by decide) |>.2.2 (by decide) (by decide +kernel)),
   any (((h.1 _ .smbus 0x305F 0 0 (by repeat' first | decide | apply And.intro) (by decide) (by decide) (by decide) (by decide) (by decide +kernel)).1 (by decide)).2.1 (by decide)),
   any (((h.1 _ .smbus 0x5003 0 0 (by repeat' first | decide | apply And.intro) (by decide) (by decide) (by decide) (by decide) (by decide +kernel)).1 (by decide)).2.2.1 (by decide) (by decide)),
   any (((h.1 _ .jtag 0x305F 0 0 (by repeat' first | decide | apply And.intro) (by decide) (by decide) (by decide) (by decide) (by decide +kernel)).1 (by decide)).2.2.2.1 (by decide) (by decide)),
   any (((h.1 _ .jtag 0x103F 0 0 (by repeat' first | decide | apply And.intro) (by decide) (by decide) (by decide) (by decide) (by decide +kernel)).1 (by decide)).2.2.2.2.1 (by decide) (by decide)),
   any (((h.1 _ .jtag 0x103F 0 0 (by repeat' first | decide | apply And.intro) (by decide) (by decide) (by decide) (by decide) (by decide +kernel)).1 (by decide)).2.2.2.2.2.1 (by decide)),
   any (((h.1 _ .smbus 0x5003 0 11 (by repeat' first | decide | apply And.intro) (by decide) (by decide) (by decide) (by decide) (by decide +kernel)).1 (by decide)).2.2.2.2.2.2 (by decide) (by decide) (by decide)),
   any ((h.1 _ .smbus 0x600F 0 11 (by repeat' first | decide | apply And.intro) (by decide) (by decide) (by decide) (by decide) (by decide +kernel)).2.1 (by decide) (by decide) (Or.inr (by decide))),
   any (((h.1 _ .smbus 0xC000 0 0 (by repeat' first | decide | apply And.intro) (by decide) (by decide) (by decide) (by decide) (by decide +kernel)).2.2 (by decide)).1 (by decide)),
   any (((h.1 _ .smbus 0x9000 0 0 (by repeat' first | decide | apply And.intro) (by decide) (by decide) (by decide) (by decide) (by decide +kernel)).2.2 (by decide)).2.1 (by decide)),
   any (((h.1 _ .jtag 0x103F 0 0 (by repeat' first | decide | apply And.intro) (by decide) (by decide) (by decide) (by decide) (by decide +kernel)).2.2 (by decide)).2.2 (by decide) (by decide) (by decide)),
   any ((h.2.1 _ .smbus 0x1040 0 0 (.unitCmdStop .smbus 0x1040 0 0) 1 (by repeat' first | decide | apply And.intro) (by decide)).1 (by decide)),
   any ((h.2.1 _ .jtag 0x103F 0 0 (.unitCmdStart .jtag 0x103F 0 0) 2 (by repeat' first | decide | apply And.intro) (by decide)).2.1 (by decide) (by decide)),
   any ((h.2.1 _ .smbus 0x103F 5 0 (.unitCmdRecover .smbus 0x103F 5 0) 3 (by repeat' first | decide | apply And.intro) (by decide)).2.2 (by decide) (by decide) (fun e => absurd e (by decide)) 0 (Or.inl ⟨no_late (by decide), rfl⟩) |>.1 (by decide) (by decide)),
   any ((h.2.1 _ .smbus 0x103F 5 0 (.unitCmdRetire .smbus 0x103F 5 0) 4 (by repeat' first | decide | apply And.intro) (by decide)).2.2 (by decide) (by decide) (fun e => absurd e (by decide)) 0 (Or.inl ⟨no_late (by decide), rfl⟩) |>.1 (by decide) (by decide)),
   any ((h.2.1 _ .smbus 0x103F 5 0 (.unitCmdReturn .smbus 0x103F 5 0) 5 (by repeat' first | decide | apply And.intro) (by decide)).2.2 (by decide) (by decide) (fun e => absurd e (by decide)) 0 (Or.inl ⟨no_late (by decide), rfl⟩) |>.1 (by decide) (by decide)),
   any ((h.2.1 _ .jtag 0x5003 5 11 (.unitCmdLoop .jtag 0x5003 5 11) 6 (by repeat' first | decide | apply And.intro) (by decide)).2.2 (by decide) (by decide) (fun _ => (by decide)) 0 (Or.inl ⟨no_late (by decide), rfl⟩) |>.1 (by decide) (by decide)),
   any ((h.2.1 _ .smbus 0x103F 0xFFFF 0 (.unitCmdStop .smbus 0x103F 0xFFFF 0) 1 (by repeat' first | decide | apply And.intro) (by decide)).2.2 (by decide) (by decide) (fun e => absurd e (by decide)) 0 (Or.inl ⟨no_late (by decide), rfl⟩) |>.2 (Or.inl (by decide)) (by decide)),
   any ((h.2.1 _ .smbus 0x103F 6 0 (.unitCmdStart .smbus 0x103F 6 0) 2 (by repeat' first | decide | apply And.intro) (by decide)).2.2 (by decide) (by decide) (fun e => absurd e (by decide)) 5 (Or.inr ⟨{ unit := 0x103F, action := 2, expected := 6, held := 5, woken := some 6 }, by decide, ⟨by decide, by decide, by decide, by decide⟩, by decide⟩) |>.1 (by decide) (by decide)),
   any ((h.2.2 _ .smbus 0x103F 6 0 (.unitCmdStart .smbus 0x103F 6 0) 2 (by decide) (by decide)).1 (by decide) (by decide) (by decide)),
   any ((h.2.2 _ .jtag 0x103F 6 0 (.unitCmdStart .jtag 0x103F 6 0) 2 (by decide) (by decide)).2 (by decide))⟩

theorem witness_ReadbackGivesItsBytes (h : Obligations.ReadbackGivesItsBytes) :
    (Takes (.rdbkStart .smbus 0 1 0) linked fun _ => True) ∧
    (Takes (.rdbkStart .jtag 1 0 0x103F) (st (managed [(uPan 63, .running)])) fun _ => True) ∧
    (Takes (.rdbkStart .jtag 1 0 0x103F) (st (managed [(uPan 63, .quiesced)])) fun _ => True) ∧
    (Takes (.rdbkData .smbus) (st (linkedDev.modMg .smbus fun m => { m with rdbk := some { bytes := List.replicate 241 0xA5, pan := none } })) fun _ => True) ∧
    (Takes (.rdbkData .smbus) linked fun _ => True) ∧
    (Takes (.jtagRdbkStream 9) linked fun _ => True) ∧
    (Takes (.rdbkStart .smbus 0 1 0) (st { linkedDev with test := { ctrl := 1 } }) fun _ => True) ∧
    (Takes (.jtagRdbkStream 9) (st (linkedDev.modMg .jtag fun m => { m with rdbk := some { bytes := List.replicate 241 0xA5, pan := none } })) fun _ => True) :=
  ⟨any (((h _ .smbus 0 1 0 0).1 (by repeat' first | decide | apply And.intro)).1 (.frame 0 0) (by decide +kernel) |>.1 (by decide +kernel)),
   any (((h _ .jtag 1 0 0x103F 0).1 (by repeat' first | decide | apply And.intro)).1 (.pan 63) (by decide +kernel) |>.2 (by decide +kernel)),
   any (((h _ .jtag 1 0 0x103F 0).1 (by repeat' first | decide | apply And.intro)).1 (.pan 63) (by decide +kernel) |>.1 (by decide +kernel)),
   any (((h _ .smbus 0 0 0 0).1 (by repeat' first | decide | apply And.intro)).2.1 { bytes := List.replicate 241 0xA5, pan := none } (by decide) (by decide)),
   any (((h _ .smbus 0 0 0 0).1 (by repeat' first | decide | apply And.intro)).2.2 (by decide)),
   any (((h _ .smbus 0 0 0 9).2 (by decide) (by decide) (by decide) (by decide)).1 (by decide)),
   any (((h _ .smbus 0 1 0 0).1 (by repeat' first | decide | apply And.intro)).1 (.frame 0 0) (by decide +kernel) |>.1 (by decide +kernel)),
   any (((h _ .smbus 0 0 0 9).2 (by decide) (by decide) (by decide) (by decide)).2 { bytes := List.replicate 241 0xA5, pan := none } (by decide))⟩

def barOf (h : Obligations.RegisterAccessesReachBlocks) (off v : Word) (hi : Option Word) :=
  h.2.2 linked 3 off v hi 0x38 (by repeat' first | decide | apply And.intro)

theorem witness_RegisterAccessesReachBlocks (h : Obligations.RegisterAccessesReachBlocks) :
    (Takes (.registerWrite (.host 3) .bar0 0x83F30 7) linked fun _ => True) ∧
    (Takes (.registerWrite (.host 3) .bar0 0x83F30 7) (st closed) fun _ => True) ∧
    (Takes (.registerWrite (.hostPart 3) .bar0 0x83F30 7) linked fun _ => True) ∧
    (Takes (.registerWrite .jtag .bar0 0x38 7) linked fun _ => True) ∧
    (Takes (.regWrite .smbus 0x83F30 7) linked fun _ => True) ∧
    (Takes (.regRead (.mgmt .jtag) 0x83F30) linked fun _ => True) ∧
    (Takes (.regRead (.mgmt .jtag) 0x83F30) (st closed) fun _ => True) ∧
    (Takes (.registerWrite (.host 3) .bar0 0x3C 7) linked fun _ => True) ∧
    (Takes (.regWrite .jtag 0x24000 7) linked fun _ => True) ∧
    (Takes (.regRead (.mgmt .smbus) 0x3C) linked fun _ => True) ∧
    (Takes (.registerWrite (.host 3) .bar2 0xF000 0) linked fun _ => True) ∧
    (Takes (.registerWrite (.host 3) .bar2 0x13000 0) linked fun _ => True) ∧
    (Takes (.registerWrite (.host 3) .bar2 0x14000 0) linked fun _ => True) ∧
    (Takes (.registerWrite (.host 3) .bar2 0xFF000 0) linked fun _ => True) ∧
    (Takes (.registerWrite (.host 3) .bar2 4 0) linked fun _ => True) ∧
    (Takes (.registerWrite (.host 3) .bar2 1 0) linked fun _ => True) ∧
    (Takes (.registerWrite (.hostPart 3) .bar2 0 0) linked fun _ => True) ∧
    (Takes (.registerWrite (.host 3) (.bar4 none) 0x3F0 7) linked fun _ => True) ∧
    (Takes (.registerWrite (.host 3) (.bar4 none) 0x3F4 7) linked fun _ => True) ∧
    (Takes (.registerWrite (.host 3) (.bar4 none) 0x3F8 7) linked fun _ => True) ∧
    (Takes (.registerWrite (.host 3) (.bar4 none) 0x3FC 0) linked fun _ => True) ∧
    (Takes (.registerWrite (.host 3) (.bar4 (some 9)) 0x3F0 7) linked fun _ => True) ∧
    (Takes (.registerWrite (.host 3) (.bar4 (some 0)) 0x3F8 7) linked fun _ => True) ∧
    (Takes (.registerWrite (.host 3) (.bar4 none) 0x400 7) linked fun _ => True) ∧
    (Takes (.registerWrite (.host 3) (.config .deviceControl) 0 0x10) linked fun _ => True) ∧
    (Takes (.registerWrite (.host 3) (.config .msixControl) 0 0xC000) linked fun _ => True) ∧
    (Takes (.registerWrite (.host 3) (.config .powerControl) 0 3) linked fun _ => True) ∧
    (Takes (.regRead (.host (.hostPart 3) .bar0) 0x38) linked fun _ => True) ∧
    (Takes (.regRead (.host (.host 3) .bar2) 8) linked fun _ => True) ∧
    (Takes (.regRead (.host (.host 3) .bar2) 9) linked fun _ => True) ∧
    (Takes (.regRead (.host (.host 3) (.bar4 none)) 0x400) linked fun _ => True) ∧
    (Takes (.regRead (.host (.host 3) (.bar4 none)) 0x3F8) linked fun _ => True) ∧
    (Takes (.regRead (.host (.host 3) (.bar4 (some 7))) 0x3F0) linked fun _ => True) ∧
    (Takes (.regRead (.host (.host 3) (.config .deviceControl)) 0) linked fun _ => True) :=
  ⟨any (((h.1 _ (.host 3) 0x83F30 7 .smbus (.pan 63) 0x30 (by decide) (by decide) (by decide +kernel) (by decide)).1 (by repeat' first | decide | apply And.intro)).1 (by decide +kernel) (by decide +kernel)),
   any (((h.1 _ (.host 3) 0x83F30 7 .smbus (.pan 63) 0x30 (by decide) (by decide) (by decide +kernel) (by decide)).1 (by repeat' first | decide | apply And.intro)).2.1 (by decide +kernel)),
   any (((h.1 _ (.host 3) 0x83F30 7 .smbus (.pan 63) 0x30 (by decide) (by decide) (by decide +kernel) (by decide)).1 (by repeat' first | decide | apply And.intro)).2.2.1 3 (by decide)),
   any (((h.1 _ .jtag 0x38 7 .smbus .glb 0x38 (by decide) (by decide) (by decide +kernel) (by decide)).1 (by repeat' first | decide | apply And.intro)).2.2.2 (by decide) (by decide) (by decide +kernel)),
   any (((h.1 _ .smbus 0x83F30 7 .smbus (.pan 63) 0x30 (by decide) (by decide) (by decide +kernel) (by decide)).2 (by repeat' first | decide | apply And.intro)).1 (by decide +kernel) (by decide +kernel)),
   any (((h.1 _ .smbus 0x83F30 7 .jtag (.pan 63) 0x30 (by decide) (by decide) (by decide +kernel) (by decide)).2 (by repeat' first | decide | apply And.intro)).2.1 (by decide +kernel)),
   any (((h.1 _ .smbus 0x83F30 7 .jtag (.pan 63) 0x30 (by decide) (by decide) (by decide +kernel) (by decide)).2 (by repeat' first | decide | apply And.intro)).2.2 (by decide +kernel)),
   any (((h.2.1 _ (.host 3) 0x3C 7 .smbus (by decide) (by decide) unlisted3C).2.1 (by repeat' first | decide | apply And.intro))),
   any (((h.2.1 _ (.host 3) 0x24000 7 .jtag (by decide) (by decide) unlisted24000).2.2 (by repeat' first | decide | apply And.intro)).1),
   any (((h.2.1 _ (.host 3) 0x3C 7 .smbus (by decide) (by decide) unlisted3C).2.2 (by repeat' first | decide | apply And.intro)).2),
   any ((barOf h 0xF000 0 none).2.1 (by decide) (by decide) |>.1 (by decide)),
   any ((barOf h 0x13000 0 none).2.1 (by decide) (by decide) |>.2.1 (by decide) (by decide)),
   any ((barOf h 0x14000 0 none).2.1 (by decide) (by decide) |>.2.2.1 (by decide)),
   any ((barOf h 0xFF000 0 none).2.1 (by decide) (by decide) |>.2.2.2 (by decide)),
   any ((barOf h 4 0 none).2.2.1 (by decide) (by decide)),
   any ((barOf h 1 0 none).2.2.2.1 (by decide)),
   any ((barOf h 0 0 none).2.2.2.2.1),
   any ((barOf h 0x3F0 7 none).2.2.2.2.2.1 (by decide) (by decide) |>.1 (by decide) (by decide)),
   any ((barOf h 0x3F4 7 none).2.2.2.2.2.1 (by decide) (by decide) |>.2.1 (by decide) (by decide)),
   any ((barOf h 0x3F8 7 none).2.2.2.2.2.1 (by decide) (by decide) |>.2.2.1 (by decide) (by decide)),
   any ((barOf h 0x3FC 0 none).2.2.2.2.2.1 (by decide) (by decide) |>.2.2.2.1 (by decide) (by decide)),
   any ((barOf h 0x3F0 7 (some 9)).2.2.2.2.2.1 (by decide) (by decide) |>.2.2.2.2.1 9 (by decide) (by decide)),
   any ((barOf h 0x3F8 7 (some 0)).2.2.2.2.2.1 (by decide) (by decide) |>.2.2.2.2.2 0 (by decide) (by decide)),
   any ((barOf h 0x400 7 none).2.2.2.2.2.2.1 (by decide)),
   any ((barOf h 0 0x10 none).2.2.2.2.2.2.2.1),
   any ((barOf h 0 0xC000 none).2.2.2.2.2.2.2.2.1 (by decide)),
   any ((barOf h 0 3 none).2.2.2.2.2.2.2.2.2.1 (by decide) (by decide)),
   any (barOf h 0x38 0 none).1,
   any ((barOf h 8 0 none).2.2.2.2.2.2.2.2.2.2.1 (by decide)),
   any ((barOf h 9 0 none).2.2.2.2.2.2.2.2.2.2.2.1 (by decide)),
   any ((barOf h 0x400 0 none).2.2.2.2.2.2.2.2.2.2.2.2.1 (by decide) (by decide) (by decide)),
   any ((barOf h 0x3F8 0 none).2.2.2.2.2.2.2.2.2.2.2.2.2.1 (by decide) (by decide)),
   any ((barOf h 0x3F0 7 none).2.2.2.2.2.2.2.2.2.2.2.2.2.2.1 (by decide) (by decide)),
   any (barOf h 0 0 none).2.2.2.2.2.2.2.2.2.2.2.2.2.2.2⟩

theorem witness_JtagInstructionsAct (h : Obligations.JtagInstructionsAct) :
    (Takes (.jtagIdcode) linked fun _ => True) ∧
    (Takes (.jtagSamplePreload { update := none, extest := false } 0) linked fun _ => True) ∧
    (Takes (.jtagMgmtAccess { code := 1, data := leBytes 2 (0x103F : BitVec 16).toNat }) linked fun _ => True) ∧
    (Takes (.jtagExtest) (st (inUse [])) fun _ => True) ∧
    (Takes (.jtagClamp) (st (inUse [])) fun _ => True) ∧
    (Takes (.jtagHighz) (st (inUse [])) fun _ => True) ∧
    (Takes (.jtagExtestPulse) (st (inUse [])) fun _ => True) ∧
    (Takes (.jtagExtestTrain) (st (inUse [])) fun _ => True) ∧
    (Takes (.jtagInstructionExit) (st { inUse [] with mblk := { jtagOver := some 5 } }) fun _ => True) ∧
    (Takes (.jtagSamplePreload { update := some 1, extest := true } 0) (st { inUse [] with mblk := { jtagOver := some 6 } }) fun _ => True) ∧
    (Takes (.jtagBypass 255) (st { inUse [] with mblk := { jtagOver := some 5 } }) fun _ => True) :=
  ⟨any ((h _ none 0 0 0x103F (by decide)).1 (by decide) |>.1),
   any ((h _ none 0 0 0x103F (by decide)).1 (by decide) |>.2.1),
   any ((h _ none 0 0 0x103F (by decide)).1 (by decide) |>.2.2 (by decide) (by repeat' first | decide | apply And.intro)),
   any ((h _ none 0 0 0x103F (by decide)).2.1 (by decide) (by decide) |>.1),
   any ((h _ none 0 0 0x103F (by decide)).2.1 (by decide) (by decide) |>.2.1),
   any ((h _ none 0 0 0x103F (by decide)).2.1 (by decide) (by decide) |>.2.2.1),
   any ((h _ none 0 0 0x103F (by decide)).2.1 (by decide) (by decide) |>.2.2.2.1),
   any ((h _ none 0 0 0x103F (by decide)).2.1 (by decide) (by decide) |>.2.2.2.2),
   any ((h _ none 0 0 0x103F (by decide)).2.2 5 (by decide) |>.1),
   any ((h _ (some 1) 0 0 0x103F (by decide)).2.2 6 (by decide) |>.2.1 (Or.inr (Or.inl rfl))),
   any ((h _ none 0 255 0x103F (by decide)).2.2 5 (by decide) |>.2.2 (by decide))⟩

theorem witness_ParityFaultsEnterFaulted (h : Obligations.ParityFaultsEnterFaulted) :
    (Takes (.deviceParityFault) (st (managed [(0, .running)])) fun _ => True) ∧
    (Takes (.managementParityFault .jtag) linked fun _ => True) ∧
    (Takes (.laneParityFault 3) (st (managed [(uLane 3, .running)])) fun _ => True) ∧
    (Takes (.rakeParityFault) (st (managed [(uRake, .running)])) fun _ => True) ∧
    (Takes (.portControllerParityFault) (st (managed [(uCfgPort, .running)])) fun _ => True) :=
  ⟨any ((h _ .smbus 0 (by decide)).1 (by decide)),
   any ((h _ .jtag 0 (by decide)).2.1 (by decide)),
   any ((h _ .jtag 3 (by decide)).2.2.1 (Or.inr (by decide)) (by decide)),
   any ((h _ .jtag 3 (by decide)).2.2.2.1 (by decide) (by decide)),
   any ((h _ .jtag 3 (by decide)).2.2.2.2 (by decide) (by decide) (by decide))⟩

end Sys2Proof.Tests
end

section

-- One proof after another: elaborated at the same time they would not fit into the check's memory beside the tests above.
set_option Elab.async false

/-! ### The queue: a step runs the front command -/

namespace Sys2Proof.Machine

/-- Every command is the run of an operation on the device: no arm of `exec` touches the queue by itself. -/
theorem exec_eq_runCmd (c : Instr) (s : State) : ∃ f, exec c s = runCmd c f s := by
  cases c <;> exact ⟨_, rfl⟩

theorem exec_fault_of_not_wf {c : Instr} (s : State) (h : c.wf = false) : exec c s = .fault .noSuchUnit := by
  obtain ⟨f, hf⟩ := exec_eq_runCmd c s
  rw [hf, runCmd_fault h]

theorem exec_next_of_wf {c : Instr} (s : State) (h : c.wf = true) : ∃ t, exec c s = .next t ∧ t.pending = s.pending := by
  obtain ⟨f, hf⟩ := exec_eq_runCmd c s
  exact ⟨_, hf.trans (runCmd_next h), rfl⟩

@[simp] theorem step_nil (d : Dev) : step { dev := d, pending := [] } = .next { dev := d.tick, pending := [] } := rfl

@[simp] theorem step_cons (c : Instr) (rest : List Instr) (d : Dev) :
    step { dev := d, pending := c :: rest } = exec c { dev := d, pending := rest } := rfl

/-- Settles O1: the front command runs on the rest of the queue. -/
theorem stepRunsFrontCommand : Obligations.StepRunsFrontCommand :=
  step_cons

/-- Settles O3, since every command is the run of an operation on the device. -/
theorem commandsOnWhatExistsComplete : Obligations.CommandsOnWhatExistsComplete :=
  fun _ s => ⟨exec_fault_of_not_wf s, exec_next_of_wf s⟩

/-- Settles O4: an empty queue lets a cycle pass, and a front command that names what exists leaves the rest as it is. -/
theorem safeQueueNeverStops : Obligations.SafeQueueNeverStops := by
  rintro ⟨d, pending⟩ hsafe
  cases pending with
  | nil => exact ⟨_, step_nil d, hsafe, rfl⟩
  | cons c rest =>
    have hc : c.wf = true := hsafe c List.mem_cons_self
    have hrest : ∀ x ∈ rest, x.wf = true := fun x hx => hsafe x (List.mem_cons_of_mem c hx)
    obtain ⟨t, ht, hq⟩ := exec_next_of_wf { dev := d, pending := rest } hc
    refine ⟨t, ht, fun x hx => hrest x ?_, hq⟩
    rwa [hq] at hx

end Sys2Proof.Machine

/-! ### Accesses of the spaces of a path (R10, R348, R349, R352, R593, R630)

Through an open path an access comes to one read or one write of BAR0, of the doorbells, of the MSI-X table or of the
configuration space; what each of these does is said once here. -/

namespace Sys2Proof.Machine

/-- A command takes effect, and exactly this one, where its operation gives this device. -/
theorem takes_eq {c : Instr} {f : Dev → Dev} {s : State} {t : Dev} (he : exec c s = runCmd c f s) (hc : c.wf = true)
    (ht : f s.dev = t) : Takes c s fun u => u = t :=
  takes_of_runCmd he hc ht

section Bar0

variable {d : Dev} {path : Path} {off v : Word} {b : Blk} {o : Nat}

@[simp] theorem Dev.entered_mgPath (d : Dev) (via : MgmtIf) : d.entered (mgPath via) = d.countMgmt via := by
  cases via <;> rfl

theorem Dev.pathOpen_mgPath {via : MgmtIf} (h : d.viaOpen via) : d.pathOpen (mgPath via) := by
  cases via <;> exact h

@[simp] theorem mgPath_wf (via : MgmtIf) : (mgPath via).wf = true := by cases via <;> rfl

@[simp] theorem mgPath_whole (via : MgmtIf) : (mgPath via).whole = true := by cases via <;> rfl

@[simp] theorem Path.has_bar0 (path : Path) : path.has .bar0 = true := by cases path <;> rfl

/-- A write of a listed register is made where the writer reaches it and may write the value, else dropped. -/
theorem Dev.writeReg_listed (hw : path.whole = true) (hal : off.toNat % 4 = 0) (hb : regBlock off.toNat = some (b, o))
    (hl : regListed b o = true) :
    d.writeReg path off v =
      if d.opens path.reader b o true && d.valueOk path.reader b o v then (d.writeBlk path off.toNat b o v).wrote path
      else d.dropWrite path := by
  simp [Dev.writeReg, hw, hal, hb, hl]

/-- A read of a listed register gives it where the reader reaches it, and else 0. -/
theorem Dev.readReg_listed (hw : path.whole = true) (hal : off.toNat % 4 = 0) (hb : regBlock off.toNat = some (b, o))
    (hl : regListed b o = true) :
    d.readReg path off = if d.opens path.reader b o false then d.readBlk path off.toNat b o else (0, d) := by
  simp [Dev.readReg, hw, hal, hb, hl]

/-- A write of an offset that no table lists changes nothing (R630). -/
theorem Dev.writeReg_unlisted (hw : path.whole = true) (hal : off.toNat % 4 = 0)
    (hn : ∀ b o, regBlock off.toNat = some (b, o) → regListed b o = false) : d.writeReg path off v = d.wrote path := by
  rcases hb : regBlock off.toNat with _ | ⟨b, o⟩
  · simp [Dev.writeReg, hw, hal, hb]
  · simp [Dev.writeReg, hw, hal, hb, hn b o hb]

/-- An offset that no table lists reads 0 (R630). -/
theorem Dev.readReg_unlisted (hw : path.whole = true) (hal : off.toNat % 4 = 0)
    (hn : ∀ b o, regBlock off.toNat = some (b, o) → regListed b o = false) : d.readReg path off = (0, d) := by
  rcases hb : regBlock off.toNat with _ | ⟨b, o⟩
  · simp [Dev.readReg, hw, hal, hb]
  · simp [Dev.readReg, hw, hal, hb, hn b o hb]

/-- A write of BAR0 that is not one aligned DW is a bad access (R349). -/
theorem Dev.writeReg_hostPart (d : Dev) (p : Nat) (off v : Word) : d.writeReg (.hostPart p) off v = d.badAccess (.host p) := by
  simp [Dev.writeReg, Path.whole, Dev.badAccess, Dev.wrote]

theorem Dev.writeBlk_scratch (d : Dev) (path : Path) (off : Nat) (v : Word) :
    d.writeBlk path off .glb 0x38 v = { d with glb := { d.glb with scratch := v } } := rfl

theorem opRegisterWrite_bar0 (h : d.pathOpen path) :
    opRegisterWrite path .bar0 off v d = (d.entered path).writeReg path off v := by
  have hb : opRegisterWrite path .bar0 off v d = d.access path fun d => d.writeReg path off v := by cases path <;> rfl
  rw [hb, Dev.access_open h]

theorem opRegWrite_open {via : MgmtIf} (h : d.viaOpen via) :
    opRegWrite via off v d = (d.countMgmt via).writeReg (mgPath via) off v := by
  rw [opRegWrite, Dev.access_open (Dev.pathOpen_mgPath h), Dev.entered_mgPath]

theorem Dev.readIn_bar0 (h : d.pathOpen path) :
    d.readIn path .bar0 off = ((d.entered path).readReg path off).2.returns path off.toNat ((d.entered path).readReg path off).1 := by
  have hb : d.readIn path .bar0 off =
      d.access path fun d => (d.readReg path off).2.returns path off.toNat (((d.readReg path off).1.setWidth 64).setWidth 32) := by
    cases path <;> rfl
  rw [hb, Dev.access_open h, BitVec.setWidth_setWidth_of_le _ (by decide), BitVec.setWidth_eq]

end Bar0

/-! #### The other spaces of a host port -/

section HostSpaces

variable {d : Dev} {p : Nat}

theorem Dev.linkReaches_of_open (h : d.pathOpen (.host p)) : d.linkReaches p = true := by
  obtain ⟨-, hlink, hawake, -⟩ := h
  simp [Dev.linkReaches, hlink, hawake]

/-- Any access of a host whose path is open acts, the configuration space's as well as the BARs'. -/
theorem Dev.accessSpace_host (h : d.pathOpen (.host p)) (sp : Space) (f : Dev → Dev) : d.accessSpace (.host p) sp f = f d := by
  cases sp with
  | config r => exact if_pos (Dev.linkReaches_of_open h)
  | _ => exact Dev.access_open h f

/-- The same for an access of another form (R349). -/
theorem Dev.access_hostPart (h : d.pathOpen (.host p)) (f : Dev → Dev) : d.access (.hostPart p) f = f d :=
  Dev.access_open h f

theorem opRegisterWrite_host (h : d.pathOpen (.host p)) (sp : Space) (off v : Word) :
    opRegisterWrite (.host p) sp off v d = d.writeSpace (.host p) sp off v :=
  Dev.accessSpace_host h sp _

/-- An access of an unsupported form of BAR0 or BAR2 is a bad access, whichever register it would name (R349). -/
theorem opRegisterWrite_hostPart (h : d.pathOpen (.host p)) {sp : Space} (hsp : sp = .bar0 ∨ sp = .bar2) (off v : Word) :
    opRegisterWrite (.hostPart p) sp off v d = d.badAccess (.host p) := by
  rcases hsp with rfl | rfl
  · exact (Dev.access_hostPart h fun d => d.writeReg (.hostPart p) off v).trans (Dev.writeReg_hostPart d p off v)
  · exact Dev.access_hostPart h fun d => d.badAccess (.hostPart p)

theorem Dev.readIn_hostPart (h : d.pathOpen (.host p)) (off : Word) :
    d.readIn (.hostPart p) .bar0 off = (d.badAccess (.host p)).returns (.host p) off.toNat 0 := by
  have hacc : d.readIn (.hostPart p) .bar0 off = d.access (.hostPart p) fun d =>
      ((d.readReg (.hostPart p) off).2.returns (.hostPart p) off.toNat (((d.readReg (.hostPart p) off).1.setWidth 64).setWidth 32)) := rfl
  rw [hacc, Dev.access_hostPart h]
  simp [Dev.readReg, Path.whole, Dev.badAccess, Dev.returns]

/-- A read of a space of a host port that is a DW. -/
theorem Dev.readIn_host (h : d.pathOpen (.host p)) {sp : Space} (hsp : ∀ v, sp ≠ .bar4 (some v)) (off : Word) :
    d.readIn (.host p) sp off =
      (d.readSpace (.host p) sp off).2.returns (.host p) off.toNat ((d.readSpace (.host p) sp off).1.setWidth 32) := by
  refine (Dev.accessSpace_host h sp _).trans ?_
  rcases sp with _ | _ | hi | r
  · rfl
  · rfl
  · cases hi with
    | none => rfl
    | some v => exact absurd rfl (hsp v)
  · rfl

theorem Dev.readIn_bar2 (h : d.pathOpen (.host p)) (off : Word) :
    d.readIn (.host p) .bar2 off = (if off.toNat % 4 = 0 then d else d.badAccess (.host p)).returns (.host p) off.toNat 0 :=
  Dev.readIn_host h (by simp) off

theorem Dev.readIn_bar4 (h : d.pathOpen (.host p)) (off : Word) :
    d.readIn (.host p) (.bar4 none) off = d.returns (.host p) off.toNat ((d.hp p).msixWord off.toNat) := by
  rw [Dev.readIn_host h (by simp)]
  simp [Dev.readSpace]

theorem qword_low (hi lo : BitVec 32) : (hi ++ lo).setWidth 32 = lo := by
  rw [BitVec.setWidth_append, dif_pos le_rfl, BitVec.setWidth_eq]

theorem qword_high (hi lo : BitVec 32) : ((hi ++ lo) >>> 32).setWidth 32 = hi := by
  ext i h
  rw [BitVec.getElem_setWidth, BitVec.getLsbD_ushiftRight, BitVec.getLsbD_append]
  simp [h]

/-- A QW of BAR4 is returned as its two DWs, the lower first (R349). -/
theorem Dev.readIn_bar4_qword (h : d.pathOpen (.host p)) (off v : Word) :
    d.readIn (.host p) (.bar4 (some v)) off =
      (d.returns (.host p) off.toNat ((d.hp p).msixWord off.toNat)).returns (.host p) (off.toNat + 4)
        ((d.hp p).msixWord (off.toNat + 4)) := by
  refine (Dev.accessSpace_host h _ _).trans ?_
  simp only [Dev.readSpace, qword_low, qword_high]

theorem Dev.readIn_config (h : d.pathOpen (.host p)) (r : CfgReg) (off : Word) :
    d.readIn (.host p) (.config r) off = d.returns (.host p) off.toNat (d.readConfig p r) := by
  rw [Dev.readIn_host h (by simp)]
  simp [Dev.readSpace]

end HostSpaces

end Sys2Proof.Machine

/-! ### What a write of BAR2, BAR4 and the configuration space does (R343, R348, R357) -/

namespace Sys2Proof.Machine

section Doorbells

variable {d : Dev} {p off : Nat} {v : Word}

/-- The DW at offset 0 of a submission ring's page is that ring's doorbell. -/
theorem Dev.writeBell_sq (hoff : off % 4096 = 0) (hpage : off / 4096 % 256 < 16) (hr : d.ust (uHost p) = .running)
    (hs : (d.hp p).conf.serves = true) : d.writeBell p off v = d.sqBell p (off / 4096 % 256) v := by
  have hal : off % 4 = 0 := by omega
  simp [Dev.writeBell, hal, hoff, hpage, opSqDoorbell, Dev.doorbell_served hr hs, Nat.not_le.2 hpage]

theorem Dev.writeBell_cq (hoff : off % 4096 = 0) (hlo : 16 ≤ off / 4096 % 256) (hhi : off / 4096 % 256 < 20) :
    d.writeBell p off v = opCqDoorbell p (off / 4096 % 256 - 16) v d := by
  have hal : off % 4 = 0 := by omega
  simp [Dev.writeBell, hal, hoff, hhi, Nat.not_lt.2 hlo]

theorem Dev.writeBell_eq (hoff : off % 4096 = 0) (hpage : off / 4096 % 256 = 20) :
    d.writeBell p off v = opEqDoorbell p v d := by
  have hal : off % 4 = 0 := by omega
  simp [Dev.writeBell, hal, hoff, hpage]

/-- Any other DW is a bad doorbell: past the pages of the rings, or beside offset 0 of a page (assumption 30). -/
theorem Dev.writeBell_bad (hal : off % 4 = 0) (h : off % 4096 = 0 → 21 ≤ off / 4096 % 256) :
    d.writeBell p off v = d.badDoorbell p 0x1F v := by
  by_cases hoff : off % 4096 = 0
  · have hpage := h hoff
    have h16 : ¬ off / 4096 % 256 < 16 := by omega
    have h20 : ¬ off / 4096 % 256 < 20 := by omega
    have hne : off / 4096 % 256 ≠ 20 := by omega
    simp [Dev.writeBell, hal, hoff, h16, h20, hne]
  · simp [Dev.writeBell, hal, hoff]

theorem Dev.writeBell_unaligned (hal : off % 4 ≠ 0) : d.writeBell p off v = d.badAccess (.host p) := by
  simp [Dev.writeBell, hal]

end Doorbells

section MsixTable

variable {d : Dev} {p off : Nat} {v : Word} {hi : Option Word}

/-- Past the table BAR4 takes no write. -/
theorem Dev.writeMsix_past (h : 1024 ≤ off) : d.writeMsix p off v hi = d := by
  simp [Dev.writeMsix, h]

/-- An aligned DW of the table: word `w` of its entry. -/
theorem Dev.writeMsix_dword {w : Nat} (h : off < 1024) (hal : off % 4 = 0) (hw : off % 16 / 4 = w) :
    d.writeMsix p off v none = d.putMsix p (off / 16) fun m => m.write w v := by
  simp [Dev.writeMsix, hal, Nat.not_le.2 h, hw]

/-- An aligned QW of the table: words `w` and `w + 1` of its entry. -/
theorem Dev.writeMsix_qword {w : Nat} (h : off < 1024) (hal : off % 8 = 0) (hw : off % 16 / 4 = w) (u : Word) :
    d.writeMsix p off v (some u) = d.putMsix p (off / 16) fun m => (m.write w v).write (w + 1) u := by
  simp [Dev.writeMsix, hal, Nat.not_le.2 h, hw]

/-- The two halves of an address written as one QW. -/
theorem MsixEntry.write_address (m : MsixEntry) (lo hi : Word) :
    (m.write 0 lo).write (0 + 1) hi = { m with addr := hi ++ (lo &&& 0xFFFFFFFC) } := by
  simp only [MsixEntry.write, qword_low]

theorem HostPort.msixWord_past {h : HostPort} (ht : 1024 ≤ off) (h0 : off ≠ 0x1000) (h1 : off ≠ 0x1004) : h.msixWord off = 0 := by
  simp [HostPort.msixWord, Nat.not_lt.2 ht, h0, h1]

theorem HostPort.msixWord_addressLow (h : HostPort) (ht : off < 1024) (hw : off % 16 = 0) :
    h.msixWord off = (h.table.get {} (off / 16)).addr.setWidth 32 := by
  simp [HostPort.msixWord, ht, hw]

theorem HostPort.msixWord_addressHigh (h : HostPort) (ht : off < 1024) (hw : off % 16 = 4) :
    h.msixWord off = ((h.table.get {} (off / 16)).addr >>> 32).setWidth 32 := by
  simp [HostPort.msixWord, ht, hw]

theorem HostPort.msixWord_data (h : HostPort) (ht : off < 1024) (hw : off % 16 = 8) :
    h.msixWord off = (h.table.get {} (off / 16)).data := by
  simp [HostPort.msixWord, ht, hw]

end MsixTable

section Config

variable {d : Dev} {p : Nat} {v : Word}

/-- A function that sends no messages lets none go. -/
theorem Dev.sendPending_silent (h : (d.hp p).conf.sends = false) (n : Nat) : d.sendPending p n = d := by
  simp [Dev.sendPending, h]

/-- A change of the configuration space that leaves the function silent is all that happens. -/
theorem Dev.setMsix_silent (f : CfgSpace → CfgSpace) (h : (f (d.hp p).conf).sends = false) : d.setMsix p f = d.modConf p f := by
  have hs : ((d.modConf p f).hp p).conf.sends = false := by simpa [Dev.modConf] using h
  have hfold : ∀ l : List Nat, foldS (fun (d : Dev) n => d.sendPending p n) (d.modConf p f) l = d.modConf p f := by
    intro l
    induction l with
    | nil => rfl
    | cons n l ih => rw [foldS, List.foldl_cons, Dev.sendPending_silent hs]; exact ih
  exact hfold _

/-- D3hot entered from a state that serves its BARs, which is not D3hot: the bits are written, and nothing goes on (R343). -/
theorem Dev.writePowerControl_d3 (hd : (d.hp p).conf.d3 = false) {w : BitVec 16} (h0 : w.getLsbD 0 = true)
    (h1 : w.getLsbD 1 = true) (h15 : w.getLsbD 15 = false) :
    d.writePowerControl p w = d.modConf p fun c => { c with pmcsr := merge 0x0103 c.pmcsr w } := by
  have hmask : (0x0100 ||| 0x0003 : BitVec 16) = 0x0103 := by decide
  have hstatus : w &&& 0x8000 = 0 := by
    rw [show (0x8000 : BitVec 16) = BitVec.twoPow 16 15 by decide, BitVec.and_twoPow, h15]
    rfl
  have hkeep : ∀ x : BitVec 16, x &&& ~~~0 = x := fun x => by
    rw [show (~~~0 : BitVec 16) = BitVec.allOnes 16 by decide, BitVec.and_allOnes]
  simp only [Dev.writePowerControl, hd, h0, h1, if_true, hmask, hstatus, hkeep, Bool.false_eq_true, if_false]

theorem fld_two_eq_three (h : fld v 0 2 = 3) : v.getLsbD 0 = true ∧ v.getLsbD 1 = true := by
  have hmod : v.toNat % 4 = 3 := h
  constructor <;> (rw [BitVec.getLsbD, Nat.testBit_eq_decide_div_mod_eq]; simp; omega)

theorem Dev.writeConfig_deviceControl (d : Dev) (p : Nat) (v : Word) :
    d.writeConfig p .deviceControl v = d.modConf p fun c => { c with devCtl := v.setWidth 16 &&& 0x70F0 } := rfl

/-- With the function mask set no pending message goes, whatever MSI-X Enable becomes. -/
theorem Dev.writeConfig_msixMasked (h : bit v 14 = true) :
    d.writeConfig p .msixControl v = d.modConf p fun c => { c with msixOn := bit v 15, fmask := true } := by
  have hw : d.writeConfig p .msixControl v = d.setMsix p fun c => { c with msixOn := bit v 15, fmask := bit v 14 } := rfl
  rw [hw, h, Dev.setMsix_silent _ (by simp [CfgSpace.sends])]

theorem Dev.writeConfig_d3 (hd : (d.hp p).conf.d3 = false) (h : fld v 0 2 = 3) (h15 : bit v 15 = false) :
    d.writeConfig p .powerControl v = d.modConf p fun c => { c with pmcsr := merge 0x0103 c.pmcsr (v.setWidth 16) } := by
  have hw : d.writeConfig p .powerControl v = d.writePowerControl p (v.setWidth 16) := rfl
  obtain ⟨h0, h1⟩ := fld_two_eq_three h
  rw [hw, Dev.writePowerControl_d3 hd (by simpa using h0) (by simpa using h1) (by simpa [bit] using h15)]

end Config

end Sys2Proof.Machine

/-! ### Register accesses reach blocks -/

namespace Sys2Proof.Machine

theorem Dev.port_of_open {d : Dev} {p : Nat} (h : d.pathOpen (.host p)) : p < 4 := by
  obtain ⟨hp, -, -, -⟩ := h
  exact hp

theorem Dev.serves_of_open {d : Dev} {p : Nat} (h : d.pathOpen (.host p)) : (d.hp p).conf.serves = true := by
  obtain ⟨-, -, -, hserves⟩ := h
  exact hserves

theorem Dev.not_d3_of_open {d : Dev} {p : Nat} (h : d.pathOpen (.host p)) : (d.hp p).conf.d3 = false := by
  have hserves := Dev.serves_of_open h
  simp only [CfgSpace.serves, Bool.and_eq_true, Bool.not_eq_true'] at hserves
  exact hserves.1

/-- A host's write of a space takes effect as that space's write. -/
theorem takes_hostWrite {s : State} {p : Nat} (h : s.dev.pathOpen (.host p)) (sp : Space) (off v : Word) {t : Dev}
    (ht : s.dev.writeSpace (.host p) sp off v = t) : Takes (.registerWrite (.host p) sp off v) s fun u => u = t := by
  have hp := Dev.port_of_open h
  exact takes_eq (f := opRegisterWrite (.host p) sp off v) rfl (Bool.and_eq_true_iff.2 ⟨decide_eq_true hp, rfl⟩)
    ((opRegisterWrite_host h sp off v).trans ht)

/-- A host's write of another form than one aligned DW is a bad access of BAR0 and BAR2. -/
theorem takes_hostPartWrite {s : State} {p : Nat} (h : s.dev.pathOpen (.host p)) {sp : Space} (hsp : sp = .bar0 ∨ sp = .bar2)
    (off v : Word) : Takes (.registerWrite (.hostPart p) sp off v) s fun u => u = s.dev.badAccess (.host p) := by
  have hp := Dev.port_of_open h
  refine takes_eq (f := opRegisterWrite (.hostPart p) sp off v) rfl ?_ (opRegisterWrite_hostPart h hsp off v)
  rcases hsp with rfl | rfl <;> exact Bool.and_eq_true_iff.2 ⟨decide_eq_true hp, rfl⟩

theorem Instr.wf_hostRead (path : Path) (sp : Space) (off : Word) :
    (Instr.regRead (.host path sp) off).wf = (path.wf && decide (path ≠ .smbus) && decide (path ≠ .jtag)) := rfl

/-- A host's read of a space takes effect as that space's read. -/
theorem takes_hostRead {s : State} {path : Path} {sp : Space} {off : Word} {t : Dev} (hwf : path.wf = true)
    (hs : path ≠ .smbus) (hj : path ≠ .jtag) (ht : s.dev.readIn path sp off = t) :
    Takes (.regRead (.host path sp) off) s fun u => u = t :=
  takes_eq (f := opRegRead (.host path sp) off) rfl (by rw [Instr.wf_hostRead, hwf, decide_eq_true hs, decide_eq_true hj]; rfl) ht

/-- A write of BAR0 through an open path takes effect as the write of its register. -/
theorem takes_registerWrite {s : State} {path : Path} {off v : Word} {t : Dev} (hwf : path.wf = true) (h : s.dev.pathOpen path)
    (ht : (s.dev.entered path).writeReg path off v = t) : Takes (.registerWrite path .bar0 off v) s fun u => u = t :=
  takes_eq (f := opRegisterWrite path .bar0 off v) rfl (Bool.and_eq_true_iff.2 ⟨hwf, Path.has_bar0 path⟩) ((opRegisterWrite_bar0 h).trans ht)

theorem takes_regWrite {s : State} {via : MgmtIf} {off v : Word} {t : Dev} (h : s.dev.viaOpen via)
    (ht : (s.dev.countMgmt via).writeReg (mgPath via) off v = t) : Takes (.regWrite via off v) s fun u => u = t :=
  takes_eq (f := opRegWrite via off v) rfl rfl ((opRegWrite_open h).trans ht)

theorem takes_regRead {s : State} {via : MgmtIf} {off : Word} {t : Dev} (h : s.dev.viaOpen via)
    (ht : (((s.dev.countMgmt via).readReg (mgPath via) off).2.returns (mgPath via) off.toNat
      ((s.dev.countMgmt via).readReg (mgPath via) off).1) = t) : Takes (.regRead (.mgmt via) off) s fun u => u = t := by
  refine takes_eq (f := opRegRead (.mgmt via) off) rfl rfl ?_
  rw [opRegRead, Dev.readIn_bar0 (Dev.pathOpen_mgPath h), Dev.entered_mgPath, ht]

/-- Settles O58: an access through an open path comes to one read or write of the space it names. -/
theorem registerAccessesReachBlocks : Obligations.RegisterAccessesReachBlocks := by
  refine ⟨?_, ?_, ?_⟩
  · intro s path off v via b o hwf hal hb hl
    refine ⟨fun hopen => ?_, fun hvia => ?_⟩
    · have hw := Dev.pathOpen_whole hopen
      refine ⟨fun hr hv => ?_, fun hr => ?_, fun p hp => ?_, fun hglb ho hr => ?_⟩
      · exact takes_registerWrite hwf hopen (by simp [Dev.writeReg_listed hw hal hb hl, hr, hv])
      · exact takes_registerWrite hwf hopen (by simp [Dev.writeReg_listed hw hal hb hl, hr])
      · subst hp
        exact takes_hostPartWrite hopen (.inl rfl) off v
      · subst hglb ho
        exact takes_registerWrite hwf hopen
          (by simp [Dev.writeReg_listed hw hal hb hl, hr, Dev.valueOk, Dev.writeBlk_scratch])
    · have hw := mgPath_whole via
      refine ⟨fun hr hv => ?_, fun hr => ?_, fun hr => ?_⟩
      · exact takes_regWrite hvia (by simp [Dev.writeReg_listed hw hal hb hl, hr, hv])
      · exact takes_regRead hvia (by simp [Dev.readReg_listed hw hal hb hl, hr])
      · exact takes_regRead hvia (by simp [Dev.readReg_listed hw hal hb hl, hr])
  · intro s path off v via hwf hal hn
    have hw := mgPath_whole via
    refine ⟨fun hw => Dev.readReg_unlisted hw hal hn, fun hopen => ?_, fun hvia => ⟨?_, ?_⟩⟩
    · exact takes_registerWrite hwf hopen (Dev.writeReg_unlisted (Dev.pathOpen_whole hopen) hal hn)
    · exact takes_regWrite hvia (Dev.writeReg_unlisted hw hal hn)
    · exact takes_regRead hvia (by rw [Dev.readReg_unlisted hw hal hn])
  · intro s p off v hi x hopen
    have hwf : (Path.host p).wf = true := by simp [Path.wf, Dev.port_of_open hopen]
    have read : ∀ {sp : Space} {t : Dev}, s.dev.readIn (.host p) sp off = t →
        Takes (.regRead (.host (.host p) sp) off) s fun u => u = t := takes_hostRead hwf (by simp) (by simp)
    have bell : ∀ {t : Dev}, s.dev.writeBell p off.toNat v = t → Takes (.registerWrite (.host p) .bar2 off v) s fun u => u = t :=
      takes_hostWrite hopen .bar2 off v
    have table : ∀ {t : Dev}, s.dev.writeMsix p off.toNat v hi = t →
        Takes (.registerWrite (.host p) (.bar4 hi) off v) s fun u => u = t := takes_hostWrite hopen (.bar4 hi) off v
    have config : ∀ (r : CfgReg) {t : Dev}, s.dev.writeConfig p r v = t →
        Takes (.registerWrite (.host p) (.config r) off v) s fun u => u = t := fun r => takes_hostWrite hopen (.config r) off v
    refine ⟨?_, fun hoff hrun => ⟨?_, ?_, ?_, ?_⟩, ?_, ?_, ?_, fun ht hal => ⟨?_, ?_, ?_, ?_, ?_, ?_⟩, ?_, ?_, ?_, ?_, ?_, ?_, ?_, ?_, ?_, ?_⟩
    · exact takes_hostRead hwf (by simp) (by simp) (Dev.readIn_hostPart hopen x)
    · exact fun hpage => bell (Dev.writeBell_sq hoff hpage hrun (Dev.serves_of_open hopen))
    · exact fun hlo hhi => bell (Dev.writeBell_cq hoff hlo hhi)
    · exact fun hpage => bell (Dev.writeBell_eq hoff hpage)
    · exact fun hpage => bell (Dev.writeBell_bad (by omega) fun _ => hpage)
    · exact fun hal hne => bell (Dev.writeBell_bad hal fun hoff => absurd hoff hne)
    · exact fun hal => bell (Dev.writeBell_unaligned hal)
    · exact takes_hostPartWrite hopen (.inr rfl) off v
    · rintro rfl hw
      exact table ((Dev.writeMsix_dword ht hal hw).trans rfl)
    · rintro rfl hw
      exact table ((Dev.writeMsix_dword ht hal hw).trans rfl)
    · rintro rfl hw
      exact table ((Dev.writeMsix_dword ht hal hw).trans rfl)
    · rintro rfl hw
      exact table ((Dev.writeMsix_dword ht hal hw).trans rfl)
    · rintro u rfl hw
      exact table ((Dev.writeMsix_qword ht hal hw u).trans (by simp only [MsixEntry.write_address, Dev.putMsix]))
    · rintro u rfl hw
      exact table ((Dev.writeMsix_qword ht hal hw u).trans rfl)
    · exact fun ht => table (Dev.writeMsix_past ht)
    · exact config .deviceControl (Dev.writeConfig_deviceControl ..)
    · exact fun hmask => config .msixControl (Dev.writeConfig_msixMasked hmask)
    · exact fun hd3 hstatus => config .powerControl (Dev.writeConfig_d3 (Dev.not_d3_of_open hopen) hd3 hstatus)
    · exact fun hal => read (by rw [Dev.readIn_bar2 hopen, if_pos hal])
    · exact fun hal => read (by rw [Dev.readIn_bar2 hopen, if_neg hal])
    · exact fun ht h0 h1 => read (by rw [Dev.readIn_bar4 hopen, HostPort.msixWord_past ht h0 h1])
    · exact fun ht hw => read (by rw [Dev.readIn_bar4 hopen, HostPort.msixWord_data _ ht hw])
    · intro ht hw
      have hdiv : (off.toNat + 4) / 16 = off.toNat / 16 := by omega
      exact read (by rw [Dev.readIn_bar4_qword hopen, HostPort.msixWord_addressLow _ ht hw,
        HostPort.msixWord_addressHigh _ (by omega) (by omega), hdiv])
    · exact read (Dev.readIn_config hopen .deviceControl off)

end Sys2Proof.Machine

/-! ### Reads that clear or latch (R10, R378, R561, R638) -/

namespace Sys2Proof.Machine

section ReadValues

variable (d : Dev) (n : Nat)

theorem Dev.readHost_dropCount :
    d.readHost n 0x18 = ((d.hp n).dropBad ++ (d.hp n).dropFiltered, d.modHp n fun h => { h with dropBad := 0, dropFiltered := 0 }) := rfl

theorem Dev.readHost_eqLost :
    d.readHost n 0x1C = ((d.hp n).eqDisabled ++ (d.hp n).eqFull, d.modHp n fun h => { h with eqDisabled := 0, eqFull := 0 }) := rfl

theorem Dev.readHost_lostCpl : d.readHost n 0x24 = ((d.hp n).lostCpl, d.modHp n fun h => { h with lostCpl := 0 }) := rfl

theorem Dev.readLink_fecCe (sel : Nat → Word) :
    d.readLink n sel 0x14 = ((d.link n).fecCe, d.modLink n fun l => { l with fecCe := 0 }) := rfl

theorem Dev.readLink_fecUe (sel : Nat → Word) :
    d.readLink n sel 0x18 = ((d.link n).fecUe, d.modLink n fun l => { l with fecUe := 0 }) := rfl

theorem Dev.readLink_replays (sel : Nat → Word) :
    d.readLink n sel 0x2C = ((d.link n).crcErrs ++ (d.link n).replays, d.modLink n fun l => { l with crcErrs := 0, replays := 0 }) := rfl

theorem Dev.readLink_drops (sel : Nat → Word) :
    d.readLink n sel 0x3C = ((d.link n).dropLate ++ (d.link n).dropRx, d.modLink n fun l => { l with dropLate := 0, dropRx := 0 }) := rfl

end ReadValues

/-- A read of BAR0 at a listed offset, through a path that reaches the register. -/
theorem Dev.readAt_can {d : Dev} {path : Path} {b : Blk} {o n : Nat} (h : d.canRead path b o) (hn : n < 2 ^ 32) (hal : n % 4 = 0)
    (hb : regBlock n = some (b, o)) (hl : regListed b o = true) (hpin : b ≠ .pin) :
    d.readAt path n = ((d.entered path).readBlk path n b o).2.returns path n ((d.entered path).readBlk path n b o).1 := by
  obtain ⟨hopen, hreach⟩ := h
  have hoff : (BitVec.ofNat 32 n).toNat = n := by rw [BitVec.toNat_ofNat, Nat.mod_eq_of_lt hn]
  have hopens : (d.entered path).opens path.reader b o false = true := by simp [Dev.opens, hreach, hpin]
  rw [Dev.readAt, Dev.readIn_bar0 hopen, Dev.readReg_listed (Dev.pathOpen_whole hopen) (hoff.symm ▸ hal) (hoff.symm ▸ hb) hl,
    if_pos hopens, hoff]

/-- A command that is a read of one register takes effect as that read, where the path reaches the register. -/
theorem takes_readThrough {s : State} {c : Instr} {path : Path} {b : Blk} {o off : Nat} {f : Dev → Word × Dev} {w : Word} {t : Dev}
    (he : exec c s = runCmd c (fun d => d.readThrough path b o off f) s) (hc : c.wf = true) (h : s.dev.canRead path b o)
    (hf : f (s.dev.entered path) = (w, t)) : Takes c s fun u => u = t.returns path off w :=
  takes_eq he hc (by rw [Dev.readThrough_can h, hf])

theorem takes_readAt {s : State} {c : Instr} {path : Path} {b : Blk} {o n : Nat} {w : Word} {t : Dev}
    (he : exec c s = runCmd c (fun d => d.readAt path n) s) (hc : c.wf = true) (h : s.dev.canRead path b o) (hn : n < 2 ^ 32)
    (hb : regBlock n = some (b, o)) (hl : regListed b o = true) (hal : n % 4 = 0) (hpin : b ≠ .pin)
    (hr : (s.dev.entered path).readBlk path n b o = (w, t)) : Takes c s fun u => u = t.returns path n w :=
  takes_eq he hc (by rw [Dev.readAt_can h hn hal hb hl hpin, hr])

/-- The form of a command's condition that names a path and a port. -/
theorem wf_and_lt {b : Bool} {n m : Nat} (hb : b = true) (h : n < m) : (b && decide (n < m)) = true :=
  Bool.and_eq_true_iff.2 ⟨hb, decide_eq_true h⟩

/-- Settles O40: each read is made through an open path that reaches its register, and gives what the block's read gives. -/
theorem readsThatClearOrLatch : Obligations.ReadsThatClearOrLatch := by
  refine ⟨fun s path p hwf => ⟨fun hp => ⟨fun h => ?_, fun h => ?_, fun h => ?_⟩,
    fun hp => ⟨fun h => ?_, fun h => ?_, fun h => ?_, fun h => ?_⟩, fun hp h => ?_, fun h => ?_, fun h => ?_, fun h => ?_,
    fun h hopen => ?_⟩, fun s path hwf => ⟨fun h => ?_, fun h => ?_⟩⟩
  · exact takes_readThrough rfl (wf_and_lt hwf hp) h (by rw [Dev.readHost_dropCount, Dev.hp_entered])
  · exact takes_readThrough rfl (wf_and_lt hwf hp) h (by rw [Dev.readHost_eqLost, Dev.hp_entered])
  · exact takes_readThrough rfl (wf_and_lt hwf hp) h (by rw [Dev.readHost_lostCpl, Dev.hp_entered])
  · exact takes_readThrough rfl (wf_and_lt hwf hp) h (by rw [Dev.readLink_fecCe, Dev.link_entered])
  · exact takes_readThrough rfl (wf_and_lt hwf hp) h (by rw [Dev.readLink_fecUe, Dev.link_entered])
  · exact takes_readThrough rfl (wf_and_lt hwf hp) h (by rw [Dev.readLink_replays, Dev.link_entered])
  · exact takes_readThrough rfl (wf_and_lt hwf hp) h (by rw [Dev.readLink_drops, Dev.link_entered])
  · exact takes_readThrough rfl (wf_and_lt hwf hp) h (by rw [Dev.readFportCount, Dev.fport_entered])
  · exact takes_readAt rfl hwf h (by decide) rfl rfl rfl (by simp) (by simp [Dev.readBlk])
  · exact takes_readAt rfl hwf h (by decide) rfl rfl rfl (by simp) (by simp [Dev.readBlk])
  · exact takes_readAt rfl hwf h (by decide) rfl rfl rfl (by simp) rfl
  · have htest : ((s.dev.entered path).testClosed) = false := by rw [Dev.testClosed, Dev.locked_entered]; exact hopen
    exact takes_readAt rfl hwf h (by decide) rfl rfl rfl (by simp) (by simp [Dev.readBlk, Dev.readTest, htest])
  · exact takes_readAt rfl hwf h (by decide) rfl rfl rfl (by simp) (by simp [Dev.readBlk, Dev.readGlb])
  · exact takes_readThrough rfl hwf h (by simp [Dev.readRec0])

end Sys2Proof.Machine

/-! ### A descriptor that may start (R361, R391)

What the start of a descriptor leaves, and what an operation comes to once its descriptor passes the checks. -/

namespace Sys2Proof.Machine

section Start

variable (d : Dev) (iss : Issuer) (x : Desc)

@[simp] theorem Dev.inPart_start (i u : Nat) : (d.start iss x).inPart i u = d.inPart i u := by cases iss <;> rfl
@[simp] theorem Dev.ust_start (u : Nat) : (d.start iss x).ust u = d.ust u := by cases iss <;> rfl
@[simp] theorem Dev.link_start (n : Nat) : (d.start iss x).link n = d.link n := by cases iss <;> rfl
@[simp] theorem Dev.fport_start (f : Nat) : (d.start iss x).fport f = d.fport f := by cases iss <;> rfl
@[simp] theorem Dev.carried_start (f : Nat) : (d.start iss x).carried f = d.carried f := by cases iss <;> rfl
@[simp] theorem Dev.start_pwr : (d.start iss x).pwr = d.pwr := by cases iss <;> rfl

theorem Dev.linkCfg_start : (d.start iss x).linkCfg = d.linkCfg := by
  funext n
  simp only [Dev.linkCfg, Dev.link_start, Dev.ust_start]

@[simp] theorem Dev.leadOf_start (n : Nat) : (d.start iss x).leadOf n = d.leadOf n := by
  unfold Dev.leadOf
  rw [Dev.linkCfg_start]

end Start

/-- The operation of a descriptor that may start goes on from its start. -/
theorem Dev.begin_mayStart {d : Dev} {iss : Issuer} {x : Desc} {op : Nat} {force pinned : Bool} {masks : List (Nat × Nat)}
    (h : d.mayStart iss x op force pinned masks) (k : Dev → Nat → Dev) :
    d.begin iss x op force pinned masks k = k (d.start iss x) d.nextExec := by
  obtain ⟨-, hop, hready, hflags, hres, -⟩ := h
  simp [Dev.begin, hop, hready, hflags, hres]

/-! ### What transitions and events leave -/

theorem Dev.Events.links {a b : Dev} (h : a.Events b) : b.links = a.links := by
  rw [h.1]

theorem Dev.setUnit_links (d : Dev) (u : Nat) (n : UState) (c : Cause) : (d.setUnit u n c).links = d.links := by
  by_cases h : d.ust u = n
  · rw [Dev.setUnit_same d u n c h]
  · exact (Dev.setUnit_events d u n c h).links

theorem Dev.single_links (d : Dev) (n : Nat) (o : Option Nat) : (d.single n o).links = d.links := by
  cases o with
  | none => rfl
  | some m => exact (Dev.event_events d _ _ _ _).links

theorem Dev.link_of_links {a b : Dev} (h : b.links = a.links) (n : Nat) : b.link n = a.link n := by
  unfold Dev.link
  rw [h]

/-! ### Loops of link ports (R422, R456) -/

/-- A link port that enters its loop is looped at the depth asked. -/
theorem Dev.linkLoop_loop (d : Dev) (n depth : Nat) (c : Cause) : ((d.linkLoop n depth c).link n).loop = some depth := by
  unfold Dev.linkLoop
  rw [Dev.link_of_links (Dev.single_links _ _ _), Dev.link_modLink_same]

/-- A link port that leaves its loop has none, whichever of its members go with it. -/
theorem Dev.linkUnloop_loop (d : Dev) (n : Nat) (c : Cause) : ((d.linkUnloop n c).link n).loop = none := by
  let open_ := d.modLink n fun l => { l with loop := none, loopHist := 0, loopGood := 0, loopLocked := false, loopErrs := 0 }
  have hlinks : (d.linkUnloop n c).links = open_.links := by
    refine foldS_inv (fun e : Dev => e.links = open_.links) _ _ _ (fun e m he => ?_) rfl
    split
    · exact (Dev.setUnit_links e _ _ _).trans he
    · exact he
  rw [Dev.link_of_links hlinks, Dev.link_modLink_same]

section Loopback

variable {d : Dev} {iss : Issuer} {x : Desc} {u depth : Nat} {on : Bool} {e : Dev}

/-- LOOPBACK of a link port that leads its link, at a depth that its line allows. -/
theorem opLoopback_link (hs : d.mayStart iss x 0x70 false false ([(1, 0xFFFF0000), (2, 0xFFF00000)] ++ resFrom 3))
    (hu : fld (dword x 1) 0 16 = u) (hd : fld (dword x 2) 16 3 = depth) (hon : bit (dword x 2) 19 = on)
    (hex : unitExists u = true) (hin : d.inPart iss.reader u = true) (hawake : d.pwr.phase = .awake)
    (hep : (d.start iss x).epochCheck u (BitVec.ofNat 16 (fld (dword x 2) 0 16)) false true = none) (hclass : unitClass u = 3)
    (hdepth : depth ≤ 3 ∨ (depth = 4 ∧ (d.link (unitIdx u)).signal.getLsbD 0 = true)) (hlead : d.leadOf (unitIdx u) = unitIdx u)
    (hstate : if on then d.ust u = .idle ∨ d.ust u = .running else d.ust u = .quiesced ∧ (d.link (unitIdx u)).loop.isSome = true)
    (he : (if on then (d.start iss x).linkLoop (unitIdx u) depth iss.cause else (d.start iss x).linkUnloop (unitIdx u) iss.cause) = e) :
    opLoopback iss x d = e.complete d.nextExec stDone u (e.epochInfo u) := by
  have hdeep : ¬ 4 < depth := by omega
  subst he
  rw [opLoopback, Dev.begin_mayStart hs]
  cases on with
  | false =>
    simp only [Bool.false_eq_true, if_false] at hstate
    simp [hu, hd, hon, hex, hclass, hdeep, hin, hawake, hlead, hstate, hep]
  | true =>
    have hlegal : (d.ust u == .idle || d.ust u == .running) = true := by simpa using hstate
    have hlit : depth = 4 → (d.link (unitIdx u)).signal[0] = true := by
      intro h4
      rcases hdepth with h | ⟨-, h⟩
      · omega
      · exact h
    simp [hu, hd, hon, hex, hclass, hdeep, hin, hawake, hlead, hlegal, hep]
    intro h4 hdark
    exact absurd (hlit h4) (by simp [hdark])

/-- LOOPBACK of a field port: its far-end loop wants a pin that carries it. -/
theorem opLoopback_fport (hs : d.mayStart iss x 0x70 false false ([(1, 0xFFFF0000), (2, 0xFFF00000)] ++ resFrom 3))
    (hu : fld (dword x 1) 0 16 = u) (hd : fld (dword x 2) 16 3 = depth) (hon : bit (dword x 2) 19 = on)
    (hex : unitExists u = true) (hin : d.inPart iss.reader u = true) (hawake : d.pwr.phase = .awake)
    (hep : (d.start iss x).epochCheck u (BitVec.ofNat 16 (fld (dword x 2) 0 16)) false true = none) (hclass : unitClass u = 4)
    (hdepth : depth = 0 ∨ (depth = 3 ∧ d.carried (unitIdx u) = true))
    (hstate : if on then d.ust u = .idle ∨ d.ust u = .running else d.ust u = .quiesced ∧ (d.fport (unitIdx u)).loop.isSome = true)
    (he : (if on then (d.start iss x).fportLoop (unitIdx u) depth iss.cause else (d.start iss x).fportUnloop (unitIdx u) iss.cause) = e) :
    opLoopback iss x d = e.complete d.nextExec stDone u (e.epochInfo u) := by
  have hknown : ¬(depth ≠ 0 ∧ depth ≠ 3) := by omega
  have hclosable : (depth == 0 || d.carried (unitIdx u)) = true := by
    rcases hdepth with h | ⟨-, h⟩ <;> simp [h]
  subst he
  rw [opLoopback, Dev.begin_mayStart hs]
  cases on with
  | false =>
    simp only [Bool.false_eq_true, if_false] at hstate
    simp [hu, hd, hon, hex, hclass, hknown, hin, hawake, hstate, hep]
  | true =>
    have hlegal : (d.ust u == .idle || d.ust u == .running) = true := by simpa using hstate
    simp [hu, hd, hon, hex, hclass, hknown, hin, hawake, hlegal, hclosable, hep]

end Loopback

end Sys2Proof.Machine

/-! ### Routes and loops -/

namespace Sys2Proof.Machine

/-- Settles O46: the route is written through an open path, LOOPBACK acts on what its start leaves of the unit, and what a
far-end loop receives it sends back before it looks at anything else. -/
theorem routesAndLoops : Obligations.RoutesAndLoops := by
  refine ⟨fun s path v iss x => ⟨fun n hn hcan hwf hok => ?_, fun hs => ?_⟩, ?_⟩
  · exact takes_eq (f := opRouteTableWrite path n v) rfl (Bool.and_eq_true_iff.2 ⟨hwf, decide_eq_true hn⟩)
      (by rw [opRouteTableWrite, Dev.filteredIf_can hcan hok, Dev.writeRoute, Dev.selAt_entered])
  · intro d0 u k depth done hex hin hawake hep
    have takes : ∀ {e : Dev}, opLoopback iss x s.dev = e.complete s.dev.nextExec stDone u (e.epochInfo u) →
        Takes (.loopback iss x) s fun t => done e t := fun he => takes_eq (f := opLoopback iss x) rfl hs.1 he
    have takes_done : ∀ {e : Dev} {P : Prop}, opLoopback iss x s.dev = e.complete s.dev.nextExec stDone u (e.epochInfo u) → P →
        Takes (.loopback iss x) s fun t => done e t ∧ P := fun he hP => takes_of_runCmd (f := opLoopback iss x) rfl hs.1 ⟨he, hP⟩
    refine ⟨fun hclass hdepth hlead => ⟨fun hon hst => ?_, fun hoff hst hloop => ?_⟩,
      fun hclass hdepth => ⟨fun hon hst => ?_, fun hoff hst hloop => ?_⟩⟩
    · exact takes_done (opLoopback_link hs rfl rfl hon hex hin hawake hep hclass hdepth hlead hst rfl) (Dev.linkLoop_loop ..)
    · exact takes_done (opLoopback_link hs rfl rfl hoff hex hin hawake hep hclass hdepth hlead ⟨hst, hloop⟩ rfl) (Dev.linkUnloop_loop ..)
    · exact takes (opLoopback_fport hs rfl rfl hon hex hin hawake hep hclass hdepth hst rfl)
    · exact takes (opLoopback_fport hs rfl rfl hoff hex hin hawake hep hclass hdepth ⟨hst, hloop⟩ rfl)
  · intro s n h p ack seq valid st rsp req k words ctrl fec age hn hp hlen hwords hloop
    have hfar : s.dev.farLoop n = true := by simp [Dev.farLoop, hloop]
    have hline : (Instr.rxLine n words ctrl fec age).wf = true :=
      Bool.and_eq_true_iff.2 ⟨Bool.and_eq_true_iff.2 ⟨decide_eq_true hn, beq_iff_eq.2 hlen.symm⟩, decide_eq_true hwords⟩
    refine ⟨?_, ?_, ?_, ?_, ?_, ?_, ?_⟩
    · exact takes_eq (f := opHello n h) rfl (decide_eq_true hn) (if_pos hfar)
    · exact takes_eq (f := opBreraPacket n p) rfl (Bool.and_eq_true_iff.2 ⟨decide_eq_true hn, hp⟩) (if_pos hfar)
    · exact takes_eq (f := opNak n seq) rfl (decide_eq_true hn) (if_pos hfar)
    · exact takes_eq (f := opLinkIdleBlock n ack valid rsp req) rfl (decide_eq_true hn) (if_pos hfar)
    · exact takes_eq (f := opRelayBlock n st) rfl (decide_eq_true hn) (if_pos hfar)
    · exact takes_eq (f := opSleepBlock n k) rfl (decide_eq_true hn) (if_pos hfar)
    · exact takes_eq (f := opRxLine n words ctrl fec age) rfl hline (if_pos hfar)

end Sys2Proof.Machine

/-! ### What a start-up leaves of the device (R12, R201, R571)

The steps of a start-up select records, load pans, pins and hard blocks, and write non-volatile words. None of them touches
the fuses and their mirror, the executing descriptors, the time unit, or the straps and the cause of the start. -/

namespace Sys2Proof.Machine

/-- What only the beginning of a start-up and fuse sense set. -/
structure StartCore where
  fuses : Tab Word
  mirror : Tab Word
  sensed : Bool
  execs : Tab (Option Exec)
  time : TimeU
  cause : StartCause
  mode : BitVec 3
  smbAddr : BitVec 2
  blank : Bool

/-- The start core of a device. -/
def Dev.startCore (d : Dev) : StartCore where
  fuses := d.fuses
  mirror := d.fuse.mirror
  sensed := d.fuse.sensed
  execs := d.execs
  time := d.time
  cause := d.cfg.cause
  mode := d.cfg.mode
  smbAddr := d.cfg.smbAddr
  blank := d.cfg.blank

section Core

variable (d : Dev)

theorem Dev.fields_of_startCore {d : Dev} {k : StartCore} (h : d.startCore = k) :
    d.fuses = k.fuses ∧ d.fuse.mirror = k.mirror ∧ d.fuse.sensed = k.sensed ∧ d.execs = k.execs ∧ d.time = k.time ∧
      d.cfg.cause = k.cause ∧ d.cfg.mode = k.mode ∧ d.cfg.smbAddr = k.smbAddr ∧ d.cfg.blank = k.blank := by
  subst h
  exact ⟨rfl, rfl, rfl, rfl, rfl, rfl, rfl, rfl, rfl⟩

/-! #### Folds, branches and events -/

theorem startCore_foldS {α : Type} (f : Dev → α → Dev) (l : List α) (hf : ∀ e a, (f e a).startCore = e.startCore) :
    (foldS f d l).startCore = d.startCore :=
  foldS_inv (fun e : Dev => e.startCore = d.startCore) f d l (fun e a he => (hf e a).trans he) rfl

theorem startCore_ite {c : Prop} [Decidable c] {a b : Dev} {k : StartCore} (ha : a.startCore = k) (hb : b.startCore = k) :
    (if c then a else b).startCore = k := by
  split <;> assumption

theorem Dev.Events.startCore {a b : Dev} (h : a.Events b) : b.startCore = a.startCore := by
  rw [h.1]
  rfl

@[simp] theorem Dev.startCore_event (u code status : Nat) (data : DWord) :
    (d.event u code status data).startCore = d.startCore :=
  (Dev.event_events d u code status data).startCore

@[simp] theorem Dev.startCore_emit (o : Output) : (d.emit o).startCore = d.startCore := rfl
@[simp] theorem Dev.startCore_modPan (p : Nat) (f : Pan → Pan) : (d.modPan p f).startCore = d.startCore := rfl
@[simp] theorem Dev.startCore_modPin (n : Nat) (f : Pin → Pin) : (d.modPin n f).startCore = d.startCore := rfl
@[simp] theorem Dev.startCore_modFport (n : Nat) (f : FPort → FPort) : (d.modFport n f).startCore = d.startCore := rfl
@[simp] theorem Dev.startCore_modNv (u : Nat) (f : NvUnit → NvUnit) : (d.modNv u f).startCore = d.startCore := rfl

/-! #### Pans -/

@[simp] theorem Dev.startCore_putViews (vs : Views) (n : Nat) : (d.putViews vs n).startCore = d.startCore := rfl

@[simp] theorem Dev.startCore_settle (i : Nat) : (d.settle i).startCore = d.startCore :=
  Dev.startCore_putViews d _ _

theorem Dev.startCore_sourcesOf (ps : List Nat) (f : Pan → Pan) : (d.sourcesOf ps f).startCore = d.startCore :=
  (startCore_foldS _ _ _ Dev.startCore_settle).trans (startCore_foldS _ _ _ fun _ _ => rfl)

theorem Dev.startCore_reborder (ps : List Nat) (f : Dev → Dev) (hf : ∀ e, (f e).startCore = e.startCore) :
    (d.reborder ps f).startCore = d.startCore := by
  unfold Dev.reborder
  extract_lets near before d1 clamped d2
  have h1 : d1.startCore = d.startCore := hf _
  have h2 : d2.startCore = d1.startCore := startCore_foldS d1 _ _ fun e _ => Dev.startCore_modPan e _ _
  exact (startCore_foldS d2 _ _ Dev.startCore_settle).trans (h2.trans h1)

@[simp] theorem Dev.startCore_shutPan (p : Nat) : (d.shutPan p).startCore = d.startCore := by
  rw [Dev.shutPan, Dev.shutPans]
  exact Dev.startCore_reborder d _ _ fun e => startCore_foldS e _ _ fun e _ => Dev.startCore_modPan e _ _

theorem Dev.startCore_markFail (p : Nat) (r : Option Nat) : (d.markFail p r).startCore = d.startCore := by
  simp [Dev.markFail]

/-- During start-up a pan that fails verification is only marked: its transition waits for the enabling of I/O (R17). -/
theorem Dev.startCore_verifyPan (p : Nat) (bad : Option Nat) : (d.verifyPan true p bad).startCore = d.startCore :=
  startCore_ite (Dev.startCore_markFail d p bad) (startCore_ite rfl (Dev.startCore_markFail d p none))

theorem Dev.startCore_restorePan (p : Nat) : (d.restorePan p).startCore = d.startCore := by
  unfold Dev.restorePan
  split
  · rfl
  · exact startCore_ite rfl rfl

/-! #### Pins -/

theorem Dev.startCore_clampPin (n : Nat) : (d.clampPin n).startCore = d.startCore :=
  startCore_ite rfl (startCore_ite rfl rfl)

theorem Dev.startCore_padLevel (n : Nat) (l : Bool) (held : Nat) : (d.padLevel n l held).startCore = d.startCore :=
  startCore_ite rfl (startCore_ite rfl (startCore_ite (Dev.startCore_event _ _ _ _ _) rfl))

theorem Dev.startCore_drivePin (n : Nat) : (d.drivePin n).startCore = d.startCore :=
  startCore_ite ((Dev.startCore_padLevel _ _ _ _).trans (Dev.startCore_clampPin d n)) (Dev.startCore_clampPin d n)

theorem Dev.startCore_drivePins (ns : List Nat) (k : Nat) : (Dev.drivePins ns k d).startCore = d.startCore := by
  induction k generalizing d with
  | zero => rfl
  | succ k ih =>
    have hround : (foldS Dev.drivePin d ns).startCore = d.startCore := startCore_foldS d _ _ Dev.startCore_drivePin
    exact startCore_ite hround ((ih _).trans hround)

theorem Dev.startCore_refreshSinks : d.refreshSinks.startCore = d.startCore := by
  unfold Dev.refreshSinks
  extract_lets c keys ins
  refine startCore_foldS d _ _ fun e p => ?_
  exact startCore_ite rfl (by simp)

theorem Dev.startCore_flushChannel (f : Nat) : (d.flushChannel f).startCore = d.startCore := by
  unfold Dev.flushChannel
  split
  · rfl
  · refine startCore_ite ?_ rfl
    exact (startCore_foldS _ _ _ fun _ _ => Dev.startCore_emit _ _).trans (Dev.startCore_modFport d f _)

theorem Dev.startCore_refreshPins : d.refreshPins.startCore = d.startCore := by
  unfold Dev.refreshPins
  extract_lets all ns
  have hflush (e : Dev) (l : List (Nat × FPort)) : (foldS (fun e x => e.flushChannel x.1) e l).startCore = e.startCore :=
    startCore_foldS e _ _ fun e x => Dev.startCore_flushChannel e x.1
  rw [hflush, Dev.startCore_refreshSinks, Dev.startCore_drivePins]

theorem Dev.startCore_withClaims (f : Dev → Dev) (hf : (f d).startCore = d.startCore) : (d.withClaims f).startCore = d.startCore := by
  unfold Dev.withClaims
  extract_lets old d1 d2
  have h2 : d2.startCore = d1.startCore :=
    startCore_foldS d1 _ _ fun _ _ => startCore_ite rfl (startCore_ite (Dev.startCore_event _ _ _ _ _) rfl)
  rw [Dev.startCore_refreshPins, h2]
  exact hf

theorem Dev.startCore_setPins (p : Pins) : ({ d with pins := p } : Dev).startCore = d.startCore := rfl

theorem Dev.startCore_loadPins : (d.loadPins none).startCore = d.startCore := by
  unfold Dev.loadPins
  extract_lets c
  refine Dev.startCore_withClaims d _ ?_
  extract_lets d1
  have h1 : d1.startCore = d.startCore := startCore_foldS d _ _ fun e n => Dev.startCore_modPin e n _
  exact (Dev.startCore_setPins d1 _).trans h1

/-! #### Records and hard blocks -/

theorem Dev.startCore_selectUnit (u : Nat) : (d.selectUnit u).startCore = d.startCore := by
  unfold Dev.selectUnit
  split <;> rfl

theorem Dev.startCore_completeRecord (weak : List Nat) (u : Nat) : (d.completeRecord weak u).startCore = d.startCore := by
  unfold Dev.completeRecord
  extract_lets k d1 r
  have h1 : d1.startCore = d.startCore := startCore_ite (by simp [Dev.countRecord]) rfl
  exact startCore_ite rfl (startCore_ite (by simp [Dev.countRecord, Dev.putRecWord, h1]) h1)

theorem Dev.startCore_selectAll (weak : List Nat) : (d.selectAll weak).startCore = d.startCore :=
  (startCore_foldS _ _ _ fun e => Dev.startCore_completeRecord e weak).trans (startCore_foldS d _ _ Dev.startCore_selectUnit)

@[simp] theorem Dev.startCore_loadHard : d.loadHard.startCore = d.startCore := rfl

/-- The record words that a reset lets complete. -/
theorem Dev.startCore_finishWords : d.finishWords.startCore = d.startCore :=
  startCore_foldS d _ _ fun e _ => (Dev.startCore_modNv _ _ _).trans (startCore_ite (Dev.startCore_modNv e _ _) rfl)

/-! #### The steps of a start-up (R201) -/

/-- Fuse sense: the mirror takes every fuse. -/
theorem Dev.startCore_senseFuses :
    d.senseFuses.startCore = { d.startCore with mirror := d.startCore.fuses, sensed := true } := rfl

theorem Dev.startCore_verifyStart : d.verifyStart.startCore = d.startCore := by
  unfold Dev.verifyStart
  extract_lets mods full d1 cfg1 bgs1 d2
  have h1 : d1.startCore = d.startCore := startCore_ite (startCore_foldS d _ _ fun _ _ => startCore_ite rfl rfl) rfl
  have h2 : d2.startCore = d.startCore :=
    startCore_ite ((startCore_foldS d1 _ _ fun e p => Dev.startCore_verifyPan e p _).trans h1) h1
  exact startCore_ite h2 h2

@[simp] theorem Dev.startCore_writeStart : d.writeStart.startCore = d.startCore := rfl

theorem Dev.startCore_loadPans : d.loadPans.startCore = d.startCore := by
  unfold Dev.loadPans
  extract_lets d1 d2
  have h1 : d1.startCore = d.startCore := startCore_foldS d _ _ fun e p => by
    rw [Dev.startCore_restorePan, Dev.countPersist, Dev.startCore_modPan, Dev.loadRam, Dev.startCore_modPan]
  rw [Dev.startCore_writeStart, Dev.startCore_sourcesOf, h1]

theorem Dev.startCore_finishStart : d.finishStart.startCore = d.startCore :=
  startCore_ite (Dev.startCore_verifyStart d) ((Dev.startCore_loadPans _).trans (Dev.startCore_verifyStart d))

theorem Dev.startCore_setBlank (b : Bool) (o : Word) :
    ({ d with cfg := { d.cfg with blank := b, opts := o } } : Dev).startCore = { d.startCore with blank := b } := rfl

theorem Dev.startCore_setPhase (p : StartPhase) : ({ d with cfg := { d.cfg with phase := p } } : Dev).startCore = d.startCore := rfl

/-- A start-up senses every fuse, notes its cause and its straps, and keeps the rest of the core; it ends in the wait for a
stream where it finds the device blank, or where PROG_N asks for one by its straps (R169, R195, R202). -/
theorem Dev.startUp_outcome {d : Dev} {k : StartCore} (hd : d.startCore = k) (cause : StartCause) (st : Straps) (cells : StartCells) :
    ∃ blank, (d.startUp cause st cells).startCore = { k with
      mirror := k.fuses, sensed := true, cause := cause, mode := st.cfgMode, blank := blank } ∧
    ((blank || (cause == .progN && st.cfgMode.getLsbD 2 && !echoMode st.cfgMode)) = true →
      (d.startUp cause st cells).cfg.phase = .waitStream) := by
  subst hd
  unfold Dev.startUp
  extract_lets cfg store d1 d2 d3 blank cfg3 d4 cfg4
  have h2 : d2.startCore = { d1.startCore with mirror := d.fuses, sensed := true } := by
    rw [Dev.startCore_selectAll, Dev.startCore_senseFuses, Dev.startCore_refreshPins]
    rfl
  have h3 : d3.startCore = d2.startCore := Dev.startCore_loadHard d2
  have h4 : d4.startCore = { d3.startCore with blank := blank } :=
    (Dev.startCore_loadPins _).trans (Dev.startCore_setBlank d3 blank d3.options)
  rw [h3, h2] at h4
  refine ⟨blank, startCore_ite ((Dev.startCore_setPhase d4 _).trans h4) ((Dev.startCore_finishStart d4).trans h4), fun hwait => ?_⟩
  rw [if_pos hwait]

end Core

/-! #### The resets (R12, R500, R612) -/

section Resets

variable (d : Dev)

/-- The start core of a device that a reset has cleared, with the time unit and the address strap that it leaves. -/
def Dev.resetCore (time : TimeU) (smbAddr : BitVec 2) : StartCore where
  fuses := d.fuses
  mirror := []
  sensed := false
  execs := []
  time := time
  cause := .cold
  mode := 0
  smbAddr := smbAddr
  blank := false

/-- The device that a cold start starts up. -/
def Dev.coldReset (st : Straps) : Dev :=
  { d.cleared with
    cfg := { d.cleared.cfg with lfxtEn := st.lfxtEn, smbAddr := st.smbAddr }
    clk := { d.cleared.clk with lfXtal := st.lfxtEn } }

theorem Dev.coldStart_eq (st : Straps) (cells : StartCells) : d.coldStart st cells = (d.coldReset st).startUp .cold st cells := rfl

theorem Dev.startCore_coldReset (st : Straps) : (d.coldReset st).startCore = d.resetCore {} st.smbAddr := rfl

theorem Dev.startCore_clearedWarm : d.clearedWarm.startCore = d.resetCore { d.time with cmd := none } d.cfg.smbAddr := rfl

/-- PROG_N clears what the record words in progress leave; they touch neither the fuses nor the time unit. -/
theorem Dev.startCore_progReset :
    d.finishWords.clearedWarm.startCore = d.resetCore { d.time with cmd := none } d.cfg.smbAddr := by
  obtain ⟨hfuses, -, -, -, htime, -, -, haddr, -⟩ := Dev.fields_of_startCore (Dev.startCore_finishWords d)
  rw [Dev.startCore_clearedWarm, Dev.resetCore, hfuses, htime, haddr]
  rfl

end Resets

end Sys2Proof.Machine

/-! ### Start-ups and resets -/

namespace Sys2Proof.Machine

/-- One index below `n` at which `f` answers. -/
theorem filterMap_range_single {α : Type} {f : Nat → Option α} {n p : Nat} {y : α} (hp : p < n) (hy : f p = some y)
    (hothers : ∀ u, u < n → u ≠ p → f u = none) : (List.range n).filterMap f = [y] := by
  induction n with
  | zero => omega
  | succ n ih =>
    rw [List.range_succ, List.filterMap_append]
    by_cases hpn : p = n
    · have hbelow : (List.range n).filterMap f = [] :=
        List.filterMap_eq_nil_iff.2 fun u hu => hothers u (by simp at hu; omega) (by simp at hu; omega)
      subst hpn
      simp [hbelow, hy]
    · rw [ih (by omega) fun u hu => hothers u (by omega)]
      simp [hothers n (by omega) (by omega)]

/-- One record word in progress is all that a reset lets complete. -/
theorem Dev.finishWords_single {d : Dev} {p e : Nat} {o : Op} {j : RecJob} (hp : p < 65) (hj : d.recordOp p = some (e, o, j))
    (hothers : ∀ u, u < 65 → u ≠ p → d.recordOp u = none) :
    d.finishWords = (if j.startsRecord then d.countRecord j.unit else d).putRecWord j := by
  rw [Dev.finishWords, filterMap_range_single hp hj hothers]
  rfl

theorem Dev.running_of_execs_nil {d : Dev} (h : d.execs = []) : d.running = [] := by
  rw [Dev.running, h]
  rfl

theorem opPowerOnResetRelease_held {d : Dev} (h : d.cfg.phase = .held) (st : Straps) (cells : StartCells) :
    opPowerOnResetRelease st cells d = d.coldStart st cells := by
  simp [opPowerOnResetRelease, h]

theorem opProgN_started {d : Dev} (h : d.cfg.phase ≠ .held) (st : Straps) (cells : StartCells) :
    opProgN st cells d = d.finishWords.clearedWarm.startUp .progN st cells := by
  simp [opProgN, h]

theorem opBrownOut_started {d : Dev} (h : d.cfg.phase ≠ .held) (completes : Bool) :
    opBrownOut completes [] d = (if completes then d.finishWords else d).cleared := by
  simp [opBrownOut, h, foldS]

/-- Settles O21: each start-up runs from cleared volatile state, and only fuse sense and its beginning set what the
statement tells of; a brown-out only clears. -/
theorem startUpsReadTheFuses : Obligations.StartUpsReadTheFuses := by
  intro s st cells hwf
  refine ⟨fun hheld => ?_, fun hon => ?_, fun hon => ?_, fun p e o j hon hp hj hothers => ?_⟩
  · obtain ⟨blank, hcore, hwait⟩ := Dev.startUp_outcome (Dev.startCore_coldReset s.dev st) .cold st cells
    refine takes_of_runCmd (f := opPowerOnResetRelease st cells) rfl hwf ?_
    rw [opPowerOnResetRelease_held hheld, Dev.coldStart_eq]
    obtain ⟨hfuses, hmirror, hsensed, hexecs, -, hcause, hmode, haddr, hblank⟩ := Dev.fields_of_startCore hcore
    refine ⟨hfuses, hmirror, hsensed, hcause, hmode, haddr, Dev.running_of_execs_nil hexecs, fun hb => ?_⟩
    have hfound : blank = true := hblank.symm.trans hb
    exact hwait (by simp [hfound])
  · obtain ⟨blank, hcore, hwait⟩ := Dev.startUp_outcome (Dev.startCore_progReset s.dev) .progN st cells
    refine takes_of_runCmd (f := opProgN st cells) rfl hwf ?_
    rw [opProgN_started hon]
    obtain ⟨hfuses, hmirror, hsensed, hexecs, htime, hcause, hmode, -, -⟩ := Dev.fields_of_startCore hcore
    exact ⟨hfuses, hmirror, hsensed, hcause, hmode, Dev.running_of_execs_nil hexecs, htime,
      fun hasks hecho => hwait (by simp [hasks, hecho])⟩
  · refine takes_of_runCmd (f := opBrownOut false []) rfl rfl ?_
    rw [opBrownOut_started hon]
    exact ⟨rfl, rfl, rfl, rfl, rfl⟩
  · exact takes_eq (f := opBrownOut true []) rfl rfl
      (by rw [opBrownOut_started hon, if_pos rfl, Dev.finishWords_single hp hj hothers])

end Sys2Proof.Machine

end

section

-- One proof after another, for the memory of the check.
set_option Elab.async false

/-! ### Storage elements (R61, R65, R66, R70) -/

namespace Sys2Proof.Machine

section Cells

variable {v : View} {ev : Src → Bool} {m : Nat}

/-- Under GSR an element stands at its initial value, whatever else acts on it. -/
theorem View.levelQ_gsr (h : v.cellGsr m = true) : v.levelQ ev m = v.initial m := by
  simp [View.levelQ, h]

theorem View.edgeQ_gsr (h : v.cellGsr m = true) : v.edgeQ ev m = v.initial m := by
  simp [View.edgeQ, h, View.levelQ_gsr h]

/-- Hold keeps what a storage element has. -/
theorem View.levelQ_hold (hg : v.cellGsr m = false) (hm : (v.cfg.cell m).mode < 3) (hh : v.cellHold m = true) :
    v.levelQ ev m = v.p.fab.q.get false m := by
  have hm4 : ¬ (4 ≤ (v.cfg.cell m).mode) := by omega
  simp [View.levelQ, hg, hm4, hh]

theorem View.edgeQ_hold (hg : v.cellGsr m = false) (hm : (v.cfg.cell m).mode < 3) (hh : v.cellHold m = true) :
    v.edgeQ ev m = v.p.fab.q.get false m := by
  simp [View.edgeQ, hh, View.levelQ_hold hg hm hh]

/-- An element that neither GSR nor hold stops, and that is no latch, follows only its asynchronous set-reset between edges. -/
theorem View.levelQ_free (hg : v.cellGsr m = false) (hm : (v.cfg.cell m).mode < 3) (hh : v.cellHold m = false) :
    v.levelQ ev m =
      if (v.cfg.cell m).srKind = 1 ∧ v.srOn ev m = true then false
      else if (v.cfg.cell m).srKind = 2 ∧ v.srOn ev m = true then true else v.p.fab.q.get false m := by
  have hm4 : ¬ (4 ≤ (v.cfg.cell m).mode) := by omega
  have hm3 : (v.cfg.cell m).mode ≠ 3 := by omega
  simp [View.levelQ, hg, hm4, hm3, hh]

/-- The value that the enabled element takes by its mode. -/
def View.taken (v : View) (ev : Src → Bool) (m : Nat) : Bool :=
  match (v.cfg.cell m).mode with
  | 0 => v.s ev m
  | 1 => v.p.fab.q.get false m ^^ v.s ev m
  | _ => (v.s ev m && !v.p.fab.q.get false m) || (!v.control ev m && v.p.fab.q.get false m)

/-- At an edge such an element follows its set-reset first, and then takes its value where it is enabled. -/
theorem View.edgeQ_free (hg : v.cellGsr m = false) (hm : (v.cfg.cell m).mode < 3) (hh : v.cellHold m = false) :
    v.edgeQ ev m =
      if (v.cfg.cell m).srKind = 1 ∧ v.srOn ev m = true then false
      else if (v.cfg.cell m).srKind = 2 ∧ v.srOn ev m = true then true
      else if (v.cfg.cell m).srKind = 3 ∧ v.srOn ev m = true then false
      else if (v.cfg.cell m).srKind = 4 ∧ v.srOn ev m = true then true
      else if v.ceOn ev m = true then v.taken ev m else v.p.fab.q.get false m := by
  have hm3 : ¬ (3 ≤ (v.cfg.cell m).mode) := by omega
  simp only [View.edgeQ, hg, hh, hm3, View.levelQ_free hg hm hh]
  by_cases h1 : (v.cfg.cell m).srKind = 1 ∧ v.srOn ev m = true
  · simp [h1]
  by_cases h2 : (v.cfg.cell m).srKind = 2 ∧ v.srOn ev m = true
  · simp [h2]
  cases v.ceOn ev m <;> simp [h1, h2, or_and_right, View.taken] <;> rfl

/-- A set-reset that is off, or that the cell does not use, is of no kind that acts. -/
theorem View.not_srKind_of_idle {k : Nat} (h : v.srOn ev m = false ∨ (v.cfg.cell m).srKind = 0) (hk : k ≠ 0) :
    ¬ ((v.cfg.cell m).srKind = k ∧ v.srOn ev m = true) := by
  rintro ⟨hkind, hon⟩
  rcases h with h | h
  · exact absurd (h.symm.trans hon) (by decide)
  · exact hk (hkind.symm.trans h)

end Cells

/-- Settles O51: the influences act in the order of R66, GSR before hold, hold before set-reset, and set-reset before the
enabled edge. -/
theorem storageElementsFollowTheirOrder : Obligations.StorageElementsFollowTheirOrder := by
  intro v ev m
  dsimp only
  refine ⟨fun hg => ⟨View.edgeQ_gsr hg, View.levelQ_gsr hg⟩, fun hg hm =>
    ⟨fun hh => ⟨View.edgeQ_hold hg hm hh, View.levelQ_hold hg hm hh⟩, fun hh => ?_⟩⟩
  rw [View.edgeQ_free hg hm hh, View.levelQ_free hg hm hh]
  refine ⟨fun hk hs => ?_, fun hk hs => ?_, fun hk hs => ?_, fun hk hs => ?_, fun hidle => ?_⟩
  · simp [hk, hs]
  · simp [hk, hs]
  · simp [hk, hs]
  · simp [hk, hs]
  · have hoff : ∀ k, k ≠ 0 → ¬ ((v.cfg.cell m).srKind = k ∧ v.srOn ev m = true) := fun k => View.not_srKind_of_idle hidle
    simp only [if_neg (hoff 1 (by decide)), if_neg (hoff 2 (by decide)), if_neg (hoff 3 (by decide)), if_neg (hoff 4 (by decide))]
    refine ⟨trivial, fun hce => ?_, fun hce => ⟨fun hmode => ?_, fun hmode => ?_, fun hmode => ?_⟩⟩
    · simp [hce]
    · simp [hce, View.taken, hmode]
    · simp [hce, View.taken, hmode]
    · simp [hce, View.taken, hmode]

end Sys2Proof.Machine

/-! ### Product terms and multiply-adds (R54, R85, R87, R88) -/

namespace Sys2Proof.Machine

section Terms

variable {v : View} {ev : Src → Bool} {blk t : Nat}

/-- The value of an array column: input `c / 2` of the block, or its complement (R54). -/
def View.column (v : View) (ev : Src → Bool) (blk c : Nat) : Bool :=
  if c % 2 = 0 then v.input ev blk (c / 2) else !v.input ev blk (c / 2)

/-- A term is 1 exactly where it has columns and all of them are 1. -/
theorem View.term_iff :
    v.term ev blk t = true ↔
      (v.cfg.blocks.get {} blk).terms.get [] t ≠ [] ∧ ∀ c ∈ (v.cfg.blocks.get {} blk).terms.get [] t, v.column ev blk c = true := by
  simp [View.term, View.column]

/-- The two columns of an input are never 1 together. -/
theorem View.column_odd (v : View) (ev : Src → Bool) (blk i : Nat) : v.column ev blk (2 * i + 1) = !v.column ev blk (2 * i) := by
  have hdiv : (2 * i + 1) / 2 = i := by omega
  simp [View.column, hdiv]

end Terms

/-! ### Multiply-adds (R85, R87, R88) -/

section MultiplyAdd

variable {x : Int} (low : Nat)

theorem macNarrow_ovf (sat : Bool) : (macNarrow sat x low).ovf = true ↔ 2 ^ 47 - 1 < x ∨ x < -(2 ^ 47) := by
  have hedge : 2 ^ 47 ≤ x ↔ 2 ^ 47 - 1 < x := by omega
  simp only [macNarrow, ge_iff_le, hedge, Bool.or_eq_true, decide_eq_true_eq]

theorem macNarrow_wraps : (macNarrow false x low).p = BitVec.ofInt 48 x := rfl

theorem macNarrow_above (h : 2 ^ 47 - 1 < x) : (macNarrow true x low).p = 0x7FFFFFFFFFFF := by
  have hx : x ≥ 2 ^ 47 := by omega
  simp only [macNarrow, hx, decide_true, Bool.and_self, if_true]

theorem macNarrow_below (h : x < -(2 ^ 47)) : (macNarrow true x low).p = 0x800000000000 := by
  have hx : ¬ x ≥ 2 ^ 47 := by omega
  simp only [macNarrow, hx, h, decide_true, decide_false, Bool.and_self, Bool.and_false, if_true, Bool.false_eq_true, if_false]

/-- Within 48 bits saturation changes nothing. -/
theorem macNarrow_exact (hu : x ≤ 2 ^ 47 - 1) (hl : -(2 ^ 47) ≤ x) : (macNarrow true x low).p.toInt = x := by
  have hhi : ¬ x ≥ 2 ^ 47 := by omega
  have hlo : ¬ x < -(2 ^ 47) := by omega
  have hp : (macNarrow true x low).p = BitVec.ofInt 48 x := by
    simp only [macNarrow, hhi, hlo, decide_false, Bool.and_false, Bool.false_eq_true, if_false]
  rw [hp, BitVec.toInt_ofInt_eq_self (by decide) (by omega) (by omega)]

/-- The exact result of each operation. -/
theorem macExact_result (op shift : Nat) (prod pReg pcin c : Int) (pcinN : Nat) :
    (macExact op shift prod pReg pcin c pcinN).1 =
      if op = 0 then prod else if op = 1 then pReg + prod else if op = 2 then pReg - prod
      else if op = 3 then c + prod else if op = 4 then c - prod
      else if op = 5 then pcin + prod else if op = 6 then pcin / (2 ^ shift : Nat) + prod else c := by
  match op with
  | 0 | 1 | 2 | 3 | 4 | 5 | 6 => rfl
  | n + 7 => simp [macExact]

/-- The carry input of a unit: 0 at the start of a column, else P of the unit before (R87). -/
def View.pcin (v : View) (ev : Src → Bool) (g i : Nat) : BitVec 48 := if i = 0 then 0 else (v.mac ev g (i - 1)).2.p

theorem View.mac_eq_fin (v : View) (ev : Src → Bool) (g i : Nat) : v.mac ev g i = View.mac.fin v ev g i (v.pcin ev g i) := by
  cases i <;> rfl

theorem View.toInt_pcin (v : View) (ev : Src → Bool) (g i : Nat) :
    (v.pcin ev g i).toInt = if i = 0 then 0 else (v.mac ev g (i - 1)).2.p.toInt := by
  cases i <;> simp [View.pcin]

/-- The exact sum of unit `i` of column `g`, by its operation (R85). -/
def View.macSum (v : View) (ev : Src → Bool) (g i : Nat) : Int :=
  let m := v.macMid ev (8 * g + i)
  (macExact m.2.2.toNat (v.cfg.macs.get {} (8 * g + i)).shift m.1.toInt (v.p.fab.mac.get {} (8 * g + i)).p.toInt
    (v.pcin ev g i).toInt m.2.1.toInt (v.pcin ev g i).toNat).1

/-- The result of a unit is its exact sum, narrowed. -/
theorem View.mac_narrow (v : View) (ev : Src → Bool) (g i : Nat) :
    ∃ low, (v.mac ev g i).1 = macNarrow (v.cfg.macs.get {} (8 * g + i)).sat (v.macSum ev g i) low := by
  rw [View.mac_eq_fin]
  exact ⟨_, rfl⟩

end MultiplyAdd

/-- Settles O52: a term is the AND of its columns, and a unit's result is the narrowed exact sum of its operation. -/
theorem productTermsAndMultiplyAdds : Obligations.ProductTermsAndMultiplyAdds := by
  refine ⟨fun v ev blk t => ?_, fun v ev g i _ => ?_⟩
  · have hterm : v.term ev blk t = true ↔ _ := View.term_iff
    refine ⟨fun hnone => ?_, fun i heven hodd => ?_, fun hsome => ?_⟩
    · refine Bool.eq_false_iff.2 fun h => ?_
      obtain ⟨hsome, -⟩ := hterm.1 h
      exact hsome hnone
    · refine Bool.eq_false_iff.2 fun h => ?_
      obtain ⟨-, hall⟩ := hterm.1 h
      have h0 := hall _ heven
      have h1 := hall _ hodd
      rw [View.column_odd, h0] at h1
      exact absurd h1 (by decide)
    · exact hterm.trans (and_iff_right hsome)
  · obtain ⟨low, hy⟩ := View.mac_narrow v ev g i
    have hx := macExact_result (v.macMid ev (8 * g + i)).2.2.toNat (v.cfg.macs.get {} (8 * g + i)).shift
      (v.macMid ev (8 * g + i)).1.toInt (v.p.fab.mac.get {} (8 * g + i)).p.toInt (v.pcin ev g i).toInt
      (v.macMid ev (8 * g + i)).2.1.toInt (v.pcin ev g i).toNat
    intro u k m p pcin y x
    have hsum : v.macSum ev g i = x := by
      refine hx.trans ?_
      rw [View.toInt_pcin]
      simp only [x, ← BitVec.toNat_inj]
      rfl
    have hy : y = macNarrow k.sat x low := hsum ▸ hy
    rw [hy]
    refine ⟨macNarrow_ovf low k.sat, fun hw => ?_, fun hs h => ?_, fun hs h => ?_, fun hs hu hl => ?_⟩
    · rw [hw, macNarrow_wraps]
    · rw [hs, macNarrow_above low h]
    · rw [hs, macNarrow_below low h]
    · rw [hs, macNarrow_exact low hu hl]

end Sys2Proof.Machine

/-! ### User clock edges and the GSR of a pan (R70, R72, R76, R475, R541) -/

namespace Sys2Proof.Machine

section UserClock

variable {d : Dev} {p : Nat} {edges : List (Nat × Bool)}

/-- A pan that holds no module, or that no edge reaches, stands still. -/
theorem opUserClockEdge_still (h : (d.pan p).occupied = false ∨ (edges.filter fun x => !d.clockDead p x.1) = []) :
    opUserClockEdge p edges d = d := by
  rcases h with h | h <;> simp [opUserClockEdge, h]

/-- The edges that reach a pan whose clocks run are one clocking of it (R541). -/
theorem opUserClockEdge_clocks (hocc : (d.pan p).occupied = true) (hst : d.ust (uPan p) = .running ∨ d.ust (uPan p) = .quiesced)
    (hg : d.panGated p = false) (hlive : (edges.filter fun x => !d.clockDead p x.1) ≠ []) :
    opUserClockEdge p edges d =
      let outs := fun (e : Dev) => (e.gangWith p).map fun q => (e.pan q).fab.pinOut
      let live := edges.filter fun x => !d.clockDead p x.1
      let e := (d.channelTakes p live).foldl (fun (e : Dev) x => (e.modFport x.1 FPort.popRx).emit (.channelRx x.2.1 x.2.2.1 x.2.2.2))
        ((d.clockPan p live).panCycles p (live.countP fun x => x.2))
      if outs e = outs d ∧ d.channelTakes p live = [] then e else e.refreshPins := by
  have hacts : (!(d.pan p).occupied || (d.ust (uPan p) != .running && d.ust (uPan p) != .quiesced) || d.panGated p ||
      (edges.filter fun x => !d.clockDead p x.1).isEmpty) = false := by
    rcases hst with h | h <;> simpa [hocc, h, hg] using hlive
  simp only [opUserClockEdge, hacts]
  rfl

end UserClock

/-- The level of the user GSR wire, as its image chooses (R72, R76). -/
theorem Dev.userLevel_eq (d : Dev) (p : Nat) (level : Bool) :
    d.userLevel p level = match (d.view p).cfg.userGsr with
      | none => level
      | some src => (d.views p).ev d.freeCtr (d.view p) src := by
  unfold Dev.userLevel
  cases (d.view p).cfg.userGsr <;> rfl

/-- Settles O53: the edges of a command are one clocking of a pan that runs, and both GSR commands are one change of its
sources. -/
theorem pansFollowClocksAndGsr : Obligations.PansFollowClocksAndGsr := by
  intro s p edges path v level hp hwf
  refine ⟨fun hedges => ?_, fun hcan => ?_, ?_⟩
  · have hclock : (Instr.userClockEdge p edges).wf = true :=
      Bool.and_eq_true_iff.2 ⟨decide_eq_true hp, List.all_eq_true.2 fun x hx => decide_eq_true (hedges x hx)⟩
    refine ⟨fun hstill => ?_, fun hocc hst hg hlive => ?_⟩
    · exact takes_eq (f := opUserClockEdge p edges) rfl hclock (opUserClockEdge_still hstill)
    · exact takes_eq (f := opUserClockEdge p edges) rfl hclock (opUserClockEdge_clocks hocc hst hg hlive)
  · exact takes_eq (f := opPanGsrWrite path p v) rfl (wf_and_lt hwf hp) (Dev.filtered_can hcan _)
  · intro l
    have hlevel : s.dev.userLevel p level = l := Dev.userLevel_eq s.dev p level
    exact takes_eq (f := opUserGsrWire p level) rfl (decide_eq_true hp) (by rw [← hlevel]; rfl)

end Sys2Proof.Machine

/-! ### What settling and the pins leave of a device (R65, R70, R469, R475)

A pan that settles changes its fabric and USER_SEEN; pins that follow their sources change pins, field ports and, through the
sinks, what pans settle to. Neither touches the non-volatile planes, the units' states, the operations of the Rake, or the
registers of a pan. -/

namespace Sys2Proof.Machine

/-- A property of the device that every step of settling and of the pins keeps. -/
structure PinStable (Q : Dev → Prop) : Prop where
  modPin : ∀ d n f, Q d → Q (d.modPin n f)
  modFport : ∀ d n f, Q d → Q (d.modFport n f)
  emit : ∀ d o, Q d → Q (d.emit o)
  event : ∀ d u code status data, Q d → Q (d.event u code status data)
  pinIn : ∀ d p ins, Q d → Q (d.modPan p fun x => { x with fab := { x.fab with pinIn := ins } })
  settle : ∀ d i, Q d → Q (d.settle i)

namespace PinStable

variable {Q : Dev → Prop} (hQ : PinStable Q) {d : Dev}

include hQ

theorem clampPin (n : Nat) (h : Q d) : Q (d.clampPin n) := by
  unfold Dev.clampPin
  extract_lets now p
  split_ifs
  · exact h
  · exact hQ.modPin _ _ _ h
  · exact hQ.modPin _ _ _ h

theorem padLevel (n : Nat) (l : Bool) (held : Nat) (h : Q d) : Q (d.padLevel n l held) := by
  unfold Dev.padLevel
  extract_lets p seen d1 hit d2
  have h1 : Q d1 := hQ.modPin _ _ _ h
  have h2 : Q d2 := hQ.modPin _ _ _ h1
  split_ifs
  · exact h1
  · exact h1
  · exact hQ.event _ _ _ _ _ h2
  · exact h2

theorem drivePin (n : Nat) (h : Q d) : Q (d.drivePin n) := by
  unfold Dev.drivePin
  have hpin (f : Pin → Pin) : Q ((d.clampPin n).modPin n f) := hQ.modPin _ _ _ (hQ.clampPin n h)
  dsimp only
  split
  · exact hQ.padLevel _ _ _ (hpin _)
  · exact hpin _

theorem drivePins (ns : List Nat) (k : Nat) (h : Q d) : Q (Dev.drivePins ns k d) := by
  induction k generalizing d with
  | zero => exact h
  | succ k ih =>
    have hround : Q (foldS Dev.drivePin d ns) := foldS_inv Q _ _ _ (fun _ n he => hQ.drivePin n he) h
    unfold Dev.drivePins
    dsimp only
    split_ifs
    · exact hround
    · exact ih hround

theorem refreshSinks (h : Q d) : Q d.refreshSinks := by
  unfold Dev.refreshSinks
  extract_lets c keys ins
  refine foldS_inv Q _ _ _ (fun e p he => ?_) h
  extract_lets new
  split_ifs
  · exact he
  · exact hQ.settle _ _ (hQ.pinIn _ _ _ he)

theorem flushChannel (f : Nat) (h : Q d) : Q (d.flushChannel f) := by
  unfold Dev.flushChannel
  split
  · exact h
  · split_ifs
    · exact foldS_inv Q _ _ _ (fun _ _ he => hQ.emit _ _ he) (hQ.modFport _ _ _ h)
    · exact h

theorem refreshPins (h : Q d) : Q d.refreshPins := by
  unfold Dev.refreshPins
  exact foldS_inv Q _ _ _ (fun _ x he => hQ.flushChannel x.1 he) (hQ.refreshSinks (hQ.drivePins _ _ h))

end PinStable

/-! #### What a pan keeps while it settles -/

/-- A pan without what settling changes. -/
def Pan.controls (x : Pan) : Pan := { x with fab := {}, userSeen := false }

/-- Pans that differ in what settles have the same registers, port and borders. -/
theorem Pan.regs_of_controls {x y : Pan} (h : x.controls = y.controls) :
    x.active = y.active ∧ x.module = y.module ∧ x.port = y.port ∧ x.handover = y.handover ∧ x.shut = y.shut ∧
      x.srcCommitHold = y.srcCommitHold :=
  ⟨(congrArg Pan.active h :), (congrArg Pan.module h :), (congrArg Pan.port h :), (congrArg Pan.handover h :),
    (congrArg Pan.shut h :), (congrArg Pan.srcCommitHold h :)⟩

/-- One pass over a pan changes its fabric and USER_SEEN. -/
theorem Views.pass_keeps (vs : Views) (ctr : Nat) (v : View) :
    (vs.pass ctr v).idx = v.idx ∧ (vs.pass ctr v).p.controls = v.p.controls := by
  unfold Views.pass
  split_ifs
  · exact ⟨rfl, rfl⟩
  · exact ⟨rfl, rfl⟩
  · exact ⟨rfl, rfl⟩

theorem Views.settle_keeps (g : Nat → Pan) (ctr n : Nat) (vs : Views) (h : ∀ v ∈ vs, v.p.controls = g v.idx) :
    ∀ v ∈ Views.settle ctr n vs, v.p.controls = g v.idx := by
  have hpass : ∀ w ∈ vs.map (vs.pass ctr), w.p.controls = g w.idx := by
    intro w hw
    obtain ⟨v, hv, rfl⟩ := List.mem_map.1 hw
    obtain ⟨hidx, hctl⟩ := Views.pass_keeps vs ctr v
    rw [hidx, hctl, h v hv]
  induction n generalizing vs with
  | zero =>
    intro x hx
    obtain ⟨⟨v, w⟩, hvw, rfl⟩ := List.mem_map.1 hx
    exact hpass w (List.of_mem_zip hvw).2
  | succ n ih =>
    unfold Views.settle
    dsimp only
    split_ifs
    · exact h
    · refine ih _ hpass fun w hw => ?_
      obtain ⟨v, hv, rfl⟩ := List.mem_map.1 hw
      obtain ⟨hidx, hctl⟩ := Views.pass_keeps (vs.map (vs.pass ctr)) ctr v
      rw [hidx, hctl, hpass v hv]

/-- What settling and the pins leave of a device. -/
structure CommitCore where
  nv : Tab NvUnit
  units : Tab UnitSt
  ops : Tab (Option Op)
  pan : Nat → Pan

/-- The commit core of a device. -/
def Dev.commitCore (d : Dev) : CommitCore where
  nv := d.nv
  units := d.units
  ops := d.rake.ops
  pan p := (d.pan p).controls

section Core

variable {d t : Dev}

theorem Dev.nv_of_core (h : t.commitCore = d.commitCore) : t.nv = d.nv := congrArg CommitCore.nv h

theorem Dev.unit_of_core (h : t.commitCore = d.commitCore) (u : Nat) : t.unit u = d.unit u :=
  congrArg (fun c : CommitCore => Tab.get ({} : UnitSt) c.units u) h

theorem Dev.ust_of_core (h : t.commitCore = d.commitCore) (u : Nat) : t.ust u = d.ust u :=
  congrArg UnitSt.st (Dev.unit_of_core h u)

theorem Dev.op_of_core (h : t.commitCore = d.commitCore) (e : Nat) : t.op e = d.op e :=
  congrArg (fun c : CommitCore => Tab.get none c.ops e) h

theorem Dev.controls_of_core (h : t.commitCore = d.commitCore) (p : Nat) : (t.pan p).controls = (d.pan p).controls :=
  congrArg (fun c : CommitCore => c.pan p) h

theorem Dev.regs_of_core (h : t.commitCore = d.commitCore) (p : Nat) :
    (t.pan p).active = (d.pan p).active ∧ (t.pan p).module = (d.pan p).module ∧ (t.pan p).port = (d.pan p).port ∧
      (t.pan p).handover = (d.pan p).handover ∧ (t.pan p).shut = (d.pan p).shut ∧
      (t.pan p).srcCommitHold = (d.pan p).srcCommitHold :=
  Pan.regs_of_controls (Dev.controls_of_core h p)

theorem Dev.Events.commitCore (h : d.Events t) : t.commitCore = d.commitCore := by
  rw [h.1]
  rfl

theorem Dev.Replied.commitCore (h : d.Replied t) : t.commitCore = d.commitCore := by
  rw [h.1]
  rfl

theorem commitCore_foldS {α : Type} (f : Dev → α → Dev) (l : List α) (hf : ∀ e a, (f e a).commitCore = e.commitCore) :
    (foldS f d l).commitCore = d.commitCore :=
  foldS_inv (fun e : Dev => e.commitCore = d.commitCore) f d l (fun e a he => (hf e a).trans he) rfl

/-- A change of a pan changes the core at that pan. -/
theorem Dev.commitCore_modPan (d : Dev) (p : Nat) (f : Pan → Pan) :
    (d.modPan p f).commitCore = { d.commitCore with pan := Function.update d.commitCore.pan p (f (d.pan p)).controls } := by
  refine congrArg (CommitCore.mk d.nv d.units d.rake.ops) (funext fun q => ?_)
  by_cases hq : q = p
  · rw [hq, Dev.pan_modPan_same, Function.update_self]
  · rw [Dev.pan_modPan_other d p f q hq, Function.update_of_ne hq]
    rfl

/-- A change of a pan that its settling could make leaves the core. -/
theorem Dev.commitCore_modPan_self (d : Dev) (p : Nat) (f : Pan → Pan) (hf : (f (d.pan p)).controls = (d.pan p).controls) :
    (d.modPan p f).commitCore = d.commitCore := by
  have hself : Function.update d.commitCore.pan p (d.pan p).controls = d.commitCore.pan := Function.update_eq_self ..
  rw [Dev.commitCore_modPan, hf, hself]

theorem Dev.commitCore_modFab (d : Dev) (p : Nat) (g : Fabric → Fabric) :
    (d.modPan p fun x => { x with fab := g x.fab }).commitCore = d.commitCore :=
  Dev.commitCore_modPan_self d p _ rfl

/-- Two changes of a pan that differ in what settles have one core. -/
theorem Dev.commitCore_modPan_congr (d : Dev) (p : Nat) {f g : Pan → Pan} (h : (f (d.pan p)).controls = (g (d.pan p)).controls) :
    (d.modPan p f).commitCore = (d.modPan p g).commitCore := by
  rw [Dev.commitCore_modPan, Dev.commitCore_modPan, h]

theorem Dev.commitCore_emit (d : Dev) (o : Output) : (d.emit o).commitCore = d.commitCore := rfl

theorem Dev.commitCore_setOp (d : Dev) (e : Nat) (o : Option Op) :
    (d.setOp e o).commitCore = { d.commitCore with ops := d.commitCore.ops.set none e o } := rfl

theorem Dev.commitCore_settle (d : Dev) (i : Nat) : (d.settle i).commitCore = d.commitCore := by
  have hviews : ∀ v ∈ Views.settle d.freeCtr 65536 (d.views i), v.p.controls = (d.pan v.idx).controls := by
    refine Views.settle_keeps (fun q => (d.pan q).controls) _ _ _ fun v hv => ?_
    obtain ⟨q, -, rfl⟩ := List.mem_map.1 hv
    rfl
  refine congrArg (CommitCore.mk d.nv d.units d.rake.ops) (funext fun q => ?_)
  refine List.foldlRecOn (motive := fun t : Tab Pan => (t.get {} q).controls = (d.pan q).controls) _ _ rfl ?_
  intro t ht v hv
  rw [Tab.get_set]
  split_ifs with hq
  · rw [hviews v hv, hq]
  · exact ht

theorem pinStable_commitCore (k : CommitCore) : PinStable fun d => d.commitCore = k where
  modPin _ _ _ h := h
  modFport _ _ _ h := h
  emit _ _ h := h
  event _ _ _ _ _ h := (Dev.event_events ..).commitCore.trans h
  pinIn d p ins h := (Dev.commitCore_modFab d p fun g => { g with pinIn := ins }).trans h
  settle d i h := (Dev.commitCore_settle d i).trans h

theorem Dev.commitCore_refreshPins (d : Dev) : d.refreshPins.commitCore = d.commitCore :=
  (pinStable_commitCore _).refreshPins rfl

theorem Dev.commitCore_flushChannel (d : Dev) (f : Nat) : (d.flushChannel f).commitCore = d.commitCore :=
  (pinStable_commitCore _).flushChannel f rfl

/-- A change of the GSR and hold sources of one pan is a change of that pan, past what settles. -/
theorem Dev.commitCore_panSources (d : Dev) (p : Nat) (f : Pan → Pan) :
    (d.panSources p f).commitCore = (d.modPan p f).commitCore := by
  refine (commitCore_foldS _ _ Dev.commitCore_settle).trans ?_
  rw [foldS, List.foldl_cons, List.foldl_nil]
  exact Dev.commitCore_modPan_congr d p rfl

/-- QREQ of a pan and what it sampled of QACK are all that raising or withdrawing it changes, past what settles. -/
theorem Dev.commitCore_setQreq (d : Dev) (p : Nat) (l : Bool) :
    ∃ a, (d.setQreq p l).commitCore = (d.modPan p fun x => { x with qreq := l, qack := a }).commitCore := by
  unfold Dev.setQreq
  split_ifs with h
  · refine ⟨(d.pan p).qack, (Dev.commitCore_modPan_self d p _ ?_).symm⟩
    rw [← h]
  · refine ⟨(d.pan p).qack && l, ?_⟩
    rw [Dev.commitCore_emit, Dev.commitCore_settle]
    exact Dev.commitCore_modPan_congr d p rfl

theorem Dev.setUnit_ust_same (d : Dev) (u : Nat) (n : UState) (c : Cause) : (d.setUnit u n c).ust u = n := by
  by_cases h : d.ust u = n
  · rw [Dev.setUnit_same d u n c h, h]
  · rw [(Dev.setUnit_events d u n c h).ust, Dev.ust_putUnit_same]

/-- A transition of a unit leaves the pans and the Rake. -/
theorem Dev.setUnit_frame (d : Dev) (u : Nat) (n : UState) (c : Cause) :
    (d.setUnit u n c).pans = d.pans ∧ (d.setUnit u n c).rake = d.rake := by
  by_cases h : d.ust u = n
  · rw [Dev.setUnit_same d u n c h]
    exact ⟨rfl, rfl⟩
  · rw [(Dev.setUnit_events d u n c h).1]
    exact ⟨rfl, rfl⟩

end Core

end Sys2Proof.Machine

/-! ### Quiesce (R223, R225, R254, R284) -/

namespace Sys2Proof.Machine

section Quiesce

variable {d : Dev} {p e : Nat} {o : Op}

theorem Dev.modOp_some (h : d.op e = some o) (f : Op → Op) : d.modOp e f = d.setOp e (some (f o)) := by
  rw [Dev.modOp, h]
  rfl

/-- An acknowledge that is not yet given changes nothing. -/
theorem opQack_low (hlow : d.qackHigh p = false) (hst : d.ust (uPan p) ≠ .faulted) : opQack p d = d := by
  simp [opQack, hlow, hst]

/-- Where the image chooses no wire, QACK follows QREQ (R223). -/
theorem Dev.qackHigh_unwired (h : (d.view p).cfg.qack = none) : d.qackHigh p = (d.pan p).qreq := by
  rw [Dev.qackHigh, h]

/-- A pan's acknowledge goes to the operation that waits for it. -/
theorem opQack_asked (hreq : (d.pan p).qreq = true) (hack : (d.pan p).qack = false) (hclk : d.pllDead 0 = false)
    (hhigh : d.qackHigh p = true ∨ d.ust (uPan p) = .faulted)
    (hfind : d.findOp (fun o => o.needAck.contains p) = some (e, o)) :
    opQack p d = (d.modPan p fun x => { x with qack := true }).opAck e p := by
  have hgiven : (d.qackHigh p || d.ust (uPan p) == .faulted) = true := by simpa using hhigh
  have hfind' : (d.modPan p fun x => { x with qack := true }).findOp (fun o => o.needAck.contains p) = some (e, o) := hfind
  simp only [opQack, hreq, hack, hclk, hgiven, hfind']
  rfl

/-- An acknowledge that others follow is taken off the list. -/
theorem Dev.opAck_more (h : d.op e = some o) (hmore : o.needAck.erase p ≠ []) :
    d.opAck e p = d.setOp e (some { o with needAck := o.needAck.erase p }) := by
  simp [Dev.opAck, Dev.modOp_some h, hmore]

/-- The last acknowledge holds the operation's pans. -/
theorem Dev.opAck_last (h : d.op e = some o) (hlast : o.needAck = [p]) :
    d.opAck e p = (d.setOp e (some { o with needAck := [] })).holdAll e [] := by
  simp [Dev.opAck, Dev.modOp_some h, hlast]

theorem opPortDrained_found (hfind : d.findOp (fun o => o.toDrain.contains p) = some (e, o)) (h : d.op e = some o)
    (hdrained : d.portDrainedOk p = true) : opPortDrained p d = d.setOp e (some { o with toDrain := o.toDrain.erase p }) := by
  simp only [opPortDrained, hfind, hdrained, if_true, Dev.modOp_some h]

/-- A quiesce that nothing forces ends the operation with TIMEOUT. -/
theorem opQuiesceTimeout_unforced (hfind : d.findOp (fun o => o.needAck.contains p) = some (e, o)) (h : d.op e = some o)
    (hforce : bit (dword o.desc 0) 12 = false) :
    opQuiesceTimeout p d = (d.undoOp e o).complete e stTimeout (uPan o.dst) 0 := by
  simp only [opQuiesceTimeout, hfind, Dev.opTimeout, h, hforce, Bool.and_false, Bool.false_eq_true, if_false, Dev.failOp, Op.unit]

end Quiesce

end Sys2Proof.Machine

/-! ### The steps of a commit (R73, R111, R127, R145, R250) -/

namespace Sys2Proof.Machine

section Commit

variable {d : Dev} {p e : Nat} {o : Op}

/-- A record word that opens no record is programmed into its slot and leaves the list. -/
theorem opRecordWordWritten_word {j : RecJob} {rest : List RecJob} (hnv : d.nvStopped = false) (hclk : d.pllDead 0 = false)
    (hrec : d.recordOp p = some (e, o, j)) (hop : d.op e = some o) (hphase : o.phase = .records) (hjobs : o.jobs = j :: rest)
    (h0 : j.word ≠ 0) (h8 : j.word ≠ 8) :
    opRecordWordWritten p d = (d.putRecWord j).setOp e (some { o with jobs := rest }) := by
  have hstarts : j.startsRecord = false := by simp [RecJob.startsRecord, h0, h8]
  have hop' : (d.putRecWord j).op e = some o := hop
  simp [opRecordWordWritten, hnv, hclk, hrec, hstarts, hphase, Dev.modOp_some hop', hjobs]

/-- A MIGRATE's operation with what has been read of member `a` kept for `b` (R250). -/
def Dev.withCapture (d : Dev) (o : Op) (a b : Nat) : Op :=
  { o with capQ := o.capQ.set [] b (d.capturePan a).1, capRam := o.capRam.set [] b (d.capturePan a).2 }

/-- The carry pass of kind `k` into pan `b`, the only member (R249). -/
def carryPass (e : Nat) (o : Op) (b age : Nat) (k : PassKind) : Pass :=
  { kind := k, exec := some e, pan := b, anchor := o.dst, member := 0, module := o.module, digest := o.digest, full := [],
    img := .host [], age := age }

/-- The capture of a single member keeps what it read, and its two carry passes wait (R249, R250). -/
theorem Dev.opCapture_single {a b : Nat} (hop : d.op e = some o) (hsrc : o.srcs = [a]) (hdst : o.dsts = [b]) :
    d.opCapture e o =
      { (d.setOp e (some (d.withCapture o a b))).setOp e (some { d.withCapture o a b with phase := .carry }) with
        cfg := { d.cfg with
          passes := d.cfg.passes ++ [carryPass e o b d.cfg.passCtr .carryLogic] ++ [carryPass e o b (d.cfg.passCtr + 1) .carryRam]
          passCtr := d.cfg.passCtr + 2 } } := by
  have hcap : (d.setOp e (some (d.withCapture o a b))).op e = some (d.withCapture o a b) := Dev.op_setOp_same ..
  have hone : (d.withCapture o a b).dsts = [b] := hdst
  have hfold : foldS (fun d (y : Nat × Nat) => d.modOp e fun o => { o with
      capQ := o.capQ.set [] y.2 (d.capturePan y.1).1, capRam := o.capRam.set [] y.2 (d.capturePan y.1).2 }) d (o.srcs.zip o.dsts) =
      d.setOp e (some (d.withCapture o a b)) := by
    rw [hsrc, hdst]
    exact Dev.modOp_some hop _
  unfold Dev.opCapture
  dsimp only
  rw [hfold, hcap]
  dsimp only
  rw [Dev.carryPasses, Dev.modOp_some hcap, hone]
  rfl

/-- What a fold of one change of pans makes true of each pan it visits stays true. -/
theorem pan_foldS_modPan {P : Pan → Prop} {f : Pan → Pan} (hf : ∀ x, P (f x)) {l : List Nat} {q : Nat} (hq : q ∈ l) (d : Dev) :
    P ((foldS (fun d p => d.modPan p f) d l).pan q) := by
  induction l using List.reverseRecOn with
  | nil => cases hq
  | append_singleton l a ih =>
    rw [foldS, List.foldl_append]
    by_cases ha : q = a
    · rw [ha]
      exact (Dev.pan_modPan_same (foldS (fun d p => d.modPan p f) d l) a f) ▸ hf _
    · have hl : q ∈ l := by simpa [ha] using hq
      exact (Dev.pan_modPan_other (foldS (fun d p => d.modPan p f) d l) a f q ha) ▸ ih hl

/-! #### The commit point -/

theorem Dev.commitCore_recomputeHomes (d : Dev) : d.recomputeHomes.commitCore = d.commitCore := by
  unfold Dev.recomputeHomes
  refine commitCore_foldS _ _ fun e x => ?_
  obtain ⟨h, pool⟩ := x
  dsimp only
  split_ifs
  · rfl
  · unfold Dev.followPool
    extract_lets own rd
    split <;> rfl
  · rfl

theorem Dev.commitCore_unbindPorts (d : Dev) (ps : List Nat) : (d.unbindPorts ps).commitCore = d.commitCore := rfl

theorem Dev.commitCore_dropRes (d : Dev) (ps : List Nat) : (d.dropRes ps).commitCore = d.commitCore := rfl

theorem Dev.commitCore_setRes (d : Dev) (a w : Nat) (res : List ResEntry) : (d.setRes a w res).commitCore = d.commitCore := rfl

theorem Dev.commitCore_recordPlace (d : Dev) (o : Op) : (d.recordPlace o).commitCore = d.commitCore := by
  unfold Dev.recordPlace
  extract_lets r hist list guess usable old pend
  clear_value pend hist
  rfl

/-- A change of several pans is a change of the pans alone. -/
theorem foldS_modPan_frame (f : Pan → Pan) (l : List Nat) (d : Dev) :
    foldS (fun d p => d.modPan p f) d l = { d with pans := (foldS (fun d p => d.modPan p f) d l).pans } :=
  foldS_inv (fun t : Dev => t = { d with pans := t.pans }) _ d l (fun t p h => by rw [h]; rfl) rfl

/-- The commit point of a PLACE: each of its pans is at its commit, and the operation past its failure (R73, R105, R127). -/
theorem Dev.commitCore_opCommit_place (hop : d.op e = some o) (hplace : o.kind = .place) :
    (d.opCommit e o).commitCore =
      ((foldS (fun d p => d.atCommit p) d o.writes).setOp e (some { o with phase := .release, committed := true })).commitCore := by
  have hkeep : (foldS (fun d p => d.atCommit p) d o.writes).op e = some o := by
    rw [show foldS (fun d p => d.atCommit p) d o.writes = _ from foldS_modPan_frame _ o.writes d]
    exact hop
  unfold Dev.opCommit
  dsimp only
  rw [Dev.modOp_some hkeep, hplace]
  dsimp only
  rw [Dev.commitCore_recomputeHomes, Dev.commitCore_recordPlace, Dev.commitCore_setRes, Dev.commitCore_dropRes,
    Dev.commitCore_unbindPorts]

/-! #### The plane switch -/

theorem Dev.commitCore_unbindTags (d : Dev) (l : List Nat) : (d.unbindTags l).commitCore = d.commitCore := rfl

theorem Dev.commitCore_bindTags (d : Dev) (l : List (Nat × TagBind)) : (d.bindTags l).commitCore = d.commitCore := rfl

theorem Dev.commitCore_sendInval (d : Dev) (k : InvalKind) (e : Option Nat) : (d.sendInval k e).commitCore = d.commitCore := rfl

theorem Dev.commitCore_bindPorts (d : Dev) (res : List ResEntry) (a w : Nat) : (d.bindPorts res a w).commitCore = d.commitCore := by
  refine commitCore_foldS _ _ fun e x => ?_
  obtain ⟨c, i, p, l⟩ := x
  dsimp only
  split_ifs <;> rfl

/-- The registers of a pan that loads them are those of the slot (R145); loading its RAM leaves them. -/
theorem Dev.pan_loadRegs (d : Dev) (p k : Nat) :
    (((d.loadRegs p k).loadRam p).pan p).active = k ∧
      (((d.loadRegs p k).loadRam p).pan p).module = (if ((d.nvu p).slot k).empty then 0 else ((d.nvu p).slot k).module) := by
  simp [Dev.loadRam, Dev.loadRegs]

theorem Dev.pan_countPersist (d : Dev) (p : Nat) :
    ((d.countPersist p).pan p).active = (d.pan p).active ∧ ((d.countPersist p).pan p).module = (d.pan p).module := by
  simp [Dev.countPersist]

/-- After the plane switch the registers of a pan are those of the slot that is now selected (R145). -/
theorem Dev.pan_switchPlane (d : Dev) (p k : Nat) :
    ((d.switchPlane p k).pan p).active = k ∧
      ((d.switchPlane p k).pan p).module = (if ((d.nvu p).slot k).empty then 0 else ((d.nvu p).slot k).module) := by
  unfold Dev.switchPlane
  extract_lets old d1 cfg kept d2 bgs d3
  obtain ⟨hactive, hmodule⟩ := Dev.pan_loadRegs d p k
  obtain ⟨hactive3, hmodule3⟩ := Dev.pan_countPersist d3 p
  have hfab : d2.commitCore = (d1.loadRam p).commitCore :=
    Dev.commitCore_modFab (d1.loadRam p) p fun g => { g with bHold := kept, init := [] }
  have hheld : d3.commitCore = (d1.loadRam p).commitCore := hfab
  obtain ⟨hactive2, hmodule2, -, -, -, -⟩ := Dev.regs_of_core hheld p
  clear_value d3
  obtain ⟨ha, hm, -, -, -, -⟩ := Dev.regs_of_core (Dev.commitCore_panSources (d3.countPersist p) p fun x =>
    { x with srcCommitGsr := true, srcStop := false, srcEmpty := x.empty || x.blank }) p
  rw [Dev.pan_modPan_same] at ha hm
  rw [ha, hm, hactive3, hmodule3, hactive2, hmodule2]
  exact ⟨hactive, hmodule⟩

theorem Dev.op_loadRam (d : Dev) (p e : Nat) : (d.loadRam p).op e = d.op e := Dev.op_modPan ..

theorem Dev.op_loadRegs (d : Dev) (p k e : Nat) : (d.loadRegs p k).op e = d.op e := Dev.op_modPan ..

theorem Dev.op_countPersist (d : Dev) (p e : Nat) : (d.countPersist p).op e = d.op e := Dev.op_modPan ..

theorem Dev.op_switchPlane (d : Dev) (p k e : Nat) : (d.switchPlane p k).op e = d.op e := by
  unfold Dev.switchPlane
  extract_lets old d1 cfg kept d2 bgs d3
  have h2 : d2.op e = d.op e := by rw [Dev.op_modPan, Dev.op_loadRam, Dev.op_loadRegs]
  have h3 : d3.op e = d.op e := h2
  clear_value d3
  rw [Dev.op_of_core (Dev.commitCore_panSources (d3.countPersist p) p _) e, Dev.op_modPan, Dev.op_countPersist, h3]

/-- A destination member at the plane switch: the new plane under GSR, its port held, QREQ withdrawn, RUNNING (R73, R127). -/
def Dev.switchMember (d : Dev) (p : Nat) (c : Cause) : Dev :=
  (((d.switchPlane p (d.shadow p)).modPan p fun x => { x with port := .held, handover := true, stopPend := none }).setQreq p
    false).setUnit (uPan p) .running c

theorem Dev.ust_switchMember (d : Dev) (p : Nat) (c : Cause) : (d.switchMember p c).ust (uPan p) = .running :=
  Dev.setUnit_ust_same ..

theorem Dev.op_switchMember (d : Dev) (p : Nat) (c : Cause) (e : Nat) : (d.switchMember p c).op e = d.op e := by
  have hrake (t : Dev) : (t.setUnit (uPan p) .running c).op e = t.op e := by rw [Dev.op, (Dev.setUnit_frame ..).2]; rfl
  obtain ⟨a, hreq⟩ := Dev.commitCore_setQreq
    ((d.switchPlane p (d.shadow p)).modPan p fun x => { x with port := .held, handover := true, stopPend := none }) p false
  rw [Dev.switchMember, hrake, Dev.op_of_core hreq, Dev.op_modPan, Dev.op_modPan, Dev.op_switchPlane]

/-- What a switched member stands at. -/
theorem Dev.pan_switchMember (d : Dev) (p : Nat) (c : Cause) :
    ((d.switchMember p c).pan p).active = d.shadow p ∧ ((d.switchMember p c).pan p).port = .held ∧
      ((d.switchMember p c).pan p).handover = true ∧
      ((d.switchMember p c).pan p).module =
        (if ((d.nvu p).slot (d.shadow p)).empty then 0 else ((d.nvu p).slot (d.shadow p)).module) := by
  have hpans (t : Dev) : (t.setUnit (uPan p) .running c).pan p = t.pan p := by rw [Dev.pan, (Dev.setUnit_frame ..).1]; rfl
  obtain ⟨hactive, hmodule⟩ := Dev.pan_switchPlane d p (d.shadow p)
  obtain ⟨a, hreq⟩ := Dev.commitCore_setQreq
    ((d.switchPlane p (d.shadow p)).modPan p fun x => { x with port := .held, handover := true, stopPend := none }) p false
  obtain ⟨ha, hm, hp, hh, -, -⟩ := Dev.regs_of_core hreq p
  rw [Dev.pan_modPan_same, Dev.pan_modPan_same] at ha hm hp hh
  rw [Dev.switchMember, hpans]
  rw [ha, hm, hp, hh]
  exact ⟨hactive, rfl, rfl, hmodule⟩

/-- The switch of one member leaves its operation as switched, past what the pins settle. -/
theorem Dev.commitCore_opSwitch_single (hop : d.op e = some o) (hdst : o.dsts = [p]) :
    (d.opSwitch e o).commitCore = ((d.switchMember p o.iss.cause).setOp e (some { o with switched := true })).commitCore := by
  unfold Dev.opSwitch
  extract_lets c d1 old moved d2 d3 d4
  have h1 : d1 = d.switchMember p o.iss.cause := by
    simp only [d1, c, hdst, foldS, List.foldl_cons, List.foldl_nil, Dev.switchMember]
  have h3 : d3.commitCore = (d.switchMember p o.iss.cause).commitCore := by
    rw [Dev.commitCore_bindPorts, Dev.commitCore_unbindPorts, Dev.commitCore_bindTags, Dev.commitCore_unbindTags, h1]
  have hop3 : d3.op e = some o := (Dev.op_of_core h3 e).trans ((Dev.op_switchMember ..).trans hop)
  have h4 : d4 = d3.setOp e (some { o with switched := true }) := Dev.modOp_some hop3 _
  rw [Dev.commitCore_refreshPins, Dev.commitCore_sendInval, h4, Dev.commitCore_setOp, h3, Dev.commitCore_setOp]

/-! #### The release -/

/-- What executes after a descriptor has ended. -/
theorem Dev.endExec_execs {x : Exec} (h : d.exec e = some x) (status unit : Nat) (info : DWord) :
    (d.endExec e status unit info).execs = d.execs.set none e none := by
  unfold Dev.endExec
  rw [h]
  dsimp only
  split
  · split_ifs
    · rfl
    · exact (Dev.writeCpl_slots ..).2
  · rfl
  · rfl

theorem Dev.endExec_exec_same (d : Dev) (e status unit : Nat) (info : DWord) : (d.endExec e status unit info).exec e = none := by
  rcases h : d.exec e with _ | x
  · rw [Dev.endExec, h]
    exact h
  · rw [Dev.exec, Dev.endExec_execs h, Tab.get_set_same]

/-- No descriptor starts where another ends. -/
theorem Dev.endExec_exec_none (h : d.exec e = none) (g status unit : Nat) (info : DWord) :
    (d.endExec g status unit info).exec e = none := by
  rcases hg : d.exec g with _ | x
  · rw [Dev.endExec, hg]
    exact h
  · rw [Dev.exec, Dev.endExec_execs hg, Tab.get_set, show Tab.get none d.execs e = none from h, ite_self]

theorem Dev.fenceDone_exec_none (h : d.exec e = none) (g : Nat) : (d.fenceDone g).1.exec e = none := by
  rcases hy : (d.fenceDone g).1.exec e with _ | y
  · rfl
  · obtain ⟨z, hz, -⟩ := Dev.fenceDone_iss d g e y hy
    exact absurd (h.symm.trans hz) (by simp)

theorem Dev.completeN_exec_none (h : d.exec e = none) (k g status unit : Nat) (info : DWord) :
    (d.completeN k g status unit info).exec e = none := by
  induction k generalizing d g status unit info with
  | zero => exact h
  | succ k ih =>
    have hended := Dev.fenceDone_exec_none (Dev.endExec_exec_none h g status unit info) g
    unfold Dev.completeN
    dsimp only
    split
    · exact hended
    · exact ih hended _ _ _ _

/-- A descriptor that has completed executes no longer, whichever fences end with it. -/
theorem Dev.complete_exec_same (d : Dev) (e status unit : Nat) (info : DWord) : (d.complete e status unit info).exec e = none := by
  have hended := Dev.fenceDone_exec_none (Dev.endExec_exec_same d e status unit info) e
  unfold Dev.complete Dev.completeN
  dsimp only
  split
  · exact hended
  · exact Dev.completeN_exec_none hended _ _ _ _ _

/-- The ports of released sources are empty (R284). -/
def Dev.emptyPorts (d : Dev) (ps : List Nat) : Dev := foldS (fun d p => d.modPan p fun x => { x with port := .empty }) d ps

/-- A released member: its borders and its port open, its sources of GSR and hold withdrawn (R73, R111). -/
def Pan.released (x : Pan) : Pan :=
  { x with shut := false, handover := false, port := .opened, srcCommitGsr := false, srcCommitHold := false }

/-- The release of one member opens it and its operation is gone; the pins, the channels and the completion settle after
that (R73, R111, R284). -/
theorem Dev.commitCore_opRelease_single (hdst : o.dsts = [p]) :
    (d.opRelease e o).commitCore = (((d.emptyPorts o.srcs).modPan p Pan.released).setOp e none).commitCore := by
  unfold Dev.opRelease
  extract_lets d0 d1 d2 d3 d4
  refine (Dev.complete_replied ..).commitCore.trans ?_
  change _ = ((d0.modPan p Pan.released).setOp e none).commitCore
  have h1 : d1 = d0.modPan p fun x => { x with shut := false, handover := false, port := .opened } := by
    simp only [d1, hdst, foldS, List.foldl_cons, List.foldl_nil]
  have h2 : d2 = d1.panSources p fun x => { x with srcCommitGsr := false, srcCommitHold := false } := by
    simp only [d2, hdst, Dev.panSources]
  have h4 : d4.commitCore = (d2.setOp e none).commitCore :=
    (commitCore_foldS _ _ Dev.commitCore_flushChannel).trans (Dev.commitCore_refreshPins _)
  rw [h4, Dev.commitCore_setOp, h2, Dev.commitCore_panSources, Dev.commitCore_modPan, h1, Dev.commitCore_modPan, Dev.commitCore_setOp,
    Dev.commitCore_modPan, Dev.pan_modPan_same, Function.update_idem]
  rfl

end Commit

end Sys2Proof.Machine

/-! ### Commit follows quiesce -/

namespace Sys2Proof.Machine

section Steps

variable {d : Dev} {p e : Nat} {o : Op}

/-- COMMIT_POINT of a PLACE: the operation is past its failure, its pans' software sources are clear, and no unit changes
(R73, R127). -/
theorem opCommitPoint_place
    (hfind : d.findOp (fun o => o.phase == .records && o.root == p && o.jobs.isEmpty && o.toDrain.isEmpty) = some (e, o))
    (hop : d.op e = some o) (hplace : o.kind = .place) :
    (opCommitPoint p d).op e = some { o with phase := .release, committed := true } ∧
      (∀ u, (opCommitPoint p d).unit u = d.unit u) ∧ (opCommitPoint p d).nv = d.nv ∧
      ∀ q ∈ o.dsts, ((opCommitPoint p d).pan q).softAssert = false ∧ ((opCommitPoint p d).pan q).softHold = false ∧
        ((opCommitPoint p d).pan q).busCont = 0 := by
  have hcommit : opCommitPoint p d = d.opCommit e o := by simp only [opCommitPoint, hfind]
  have hcore := Dev.commitCore_opCommit_place hop hplace
  have hframe := foldS_modPan_frame (fun x => { x with softAssert := false, softHold := false, busCont := 0 }) o.writes d
  have hpan (q : Nat) (hq : q ∈ o.dsts) := pan_foldS_modPan
    (P := fun x : Pan => x.softAssert = false ∧ x.softHold = false ∧ x.busCont = 0)
    (f := fun x => { x with softAssert := false, softHold := false, busCont := 0 }) (fun _ => ⟨rfl, rfl, rfl⟩)
    (List.mem_append_left o.srcs hq) d
  rw [hcommit]
  refine ⟨(Dev.op_of_core hcore e).trans (Dev.op_setOp_same ..), fun u => (Dev.unit_of_core hcore u).trans ?_,
    (Dev.nv_of_core hcore).trans ?_, fun q hq => ?_⟩
  · exact (congrArg (fun t : Dev => t.unit u) hframe :)
  · exact (congrArg Dev.nv hframe :)
  · have hctl := Dev.controls_of_core hcore q
    obtain ⟨ha, hh, hb⟩ := hpan q hq
    exact ⟨(congrArg Pan.softAssert hctl :).trans ha, (congrArg Pan.softHold hctl :).trans hh, (congrArg Pan.busCont hctl :).trans hb⟩

/-- PLANE_SWITCH of a single destination (R127, R145). -/
theorem opPlaneSwitch_single (hfind : d.findOp (fun o => o.committed && !o.switched && o.dsts.contains p) = some (e, o))
    (hop : d.op e = some o) (hdst : o.dsts = [p]) :
    (opPlaneSwitch p d).ust (uPan p) = .running ∧ ((opPlaneSwitch p d).pan p).active = d.shadow p ∧
      ((opPlaneSwitch p d).pan p).port = .held ∧ ((opPlaneSwitch p d).pan p).handover = true ∧
      ((opPlaneSwitch p d).pan p).module =
        (if ((d.nvu p).slot (d.shadow p)).empty then 0 else ((d.nvu p).slot (d.shadow p)).module) ∧
      (opPlaneSwitch p d).op e = some { o with switched := true } := by
  have hswitch : opPlaneSwitch p d = d.opSwitch e o := by simp only [opPlaneSwitch, hfind]
  have hcore := Dev.commitCore_opSwitch_single hop hdst
  obtain ⟨ha, hm, hp, hh, -, -⟩ := Dev.regs_of_core hcore p
  obtain ⟨hactive, hport, hhand, hmodule⟩ := Dev.pan_switchMember d p o.iss.cause
  have hst := Dev.ust_of_core hcore (uPan p)
  rw [Dev.ust_setOp, Dev.ust_switchMember] at hst
  rw [Dev.pan_setOp] at ha hm hp hh
  rw [hswitch, ha, hp, hh, hm]
  exact ⟨hst, hactive, hport, hhand, hmodule, (Dev.op_of_core hcore e).trans (Dev.op_setOp_same ..)⟩

/-- BORDER_RELEASE of a single destination (R73, R111, R284). -/
theorem opBorderRelease_single
    (hfind : d.findOp (fun o => o.switched && o.settle.isEmpty && o.invalDone && o.dsts.contains p) = some (e, o))
    (hdst : o.dsts = [p]) :
    ((opBorderRelease p d).pan p).shut = false ∧ ((opBorderRelease p d).pan p).handover = false ∧
      ((opBorderRelease p d).pan p).port = .opened ∧ ((opBorderRelease p d).pan p).srcCommitHold = false ∧
      (opBorderRelease p d).op e = none ∧ (opBorderRelease p d).exec e = none := by
  have hrelease : opBorderRelease p d = d.opRelease e o := by simp only [opBorderRelease, hfind]
  have hcore := Dev.commitCore_opRelease_single (d := d) (e := e) hdst
  obtain ⟨-, -, hp, hh, hs, hc⟩ := Dev.regs_of_core hcore p
  rw [Dev.pan_setOp, Dev.pan_modPan_same] at hp hh hs hc
  rw [hrelease]
  exact ⟨hs, hh, hp, hc, (Dev.op_of_core hcore e).trans (Dev.op_setOp_same ..), Dev.complete_exec_same ..⟩

end Steps

/-- Settles O26: the quiesce steps by what each does to the operation's lists, the steps of the commit by the core of the
device that settling and the pins leave. -/
theorem commitFollowsQuiesce : Obligations.CommitFollowsQuiesce := by
  refine ⟨fun s p e o => ?_, fun s p e o => ?_⟩
  · intro d hp
    have qack : ∀ {t : Dev}, opQack p d = t → Takes (.qack p) s fun u => u = t :=
      takes_eq (f := opQack p) rfl (decide_eq_true hp)
    refine ⟨fun hlow hst => ?_, fun hnone => ?_, fun hreq hack hclk hhigh hfind hop hmore => ?_,
      fun hreq hack hclk hhigh hfind hop hlast => ?_, fun hfind hop hdrained => ?_, fun hfind hop hforce => ?_⟩
    · exact qack (opQack_low hlow hst)
    · exact Dev.qackHigh_unwired hnone
    · exact qack ((opQack_asked hreq hack hclk hhigh hfind).trans (Dev.opAck_more hop hmore))
    · exact qack ((opQack_asked hreq hack hclk hhigh hfind).trans (Dev.opAck_last hop hlast))
    · exact takes_eq (f := opPortDrained p) rfl (decide_eq_true hp) (opPortDrained_found hfind hop hdrained)
    · exact takes_eq (f := opQuiesceTimeout p) rfl (decide_eq_true hp) (opQuiesceTimeout_unforced hfind hop hforce)
  · intro d hp hop
    have hp65 : p < 65 := by omega
    refine ⟨fun j rest hnv hclk hrec hphase hjobs h0 h8 => ?_, fun b hfind hsrc hdst => ?_, fun hfind hplace => ?_,
      fun hfind hdst => ?_, fun x hfind hdst hexec => ?_⟩
    · exact takes_eq (f := opRecordWordWritten p) rfl (decide_eq_true hp65)
        (opRecordWordWritten_word hnv hclk hrec hop hphase hjobs h0 h8)
    · refine takes_of_runCmd (f := opCaptureDone p) rfl (decide_eq_true hp) ?_
      rw [opCaptureDone, hfind]
      dsimp only
      rw [Dev.opCapture_single hop hsrc hdst]
      exact ⟨rfl, Dev.op_setOp_same .., _, _, List.append_assoc .., rfl, rfl, rfl, rfl, rfl, rfl⟩
    · exact takes_of_runCmd (f := opCommitPoint p) rfl (decide_eq_true hp65) (opCommitPoint_place hfind hop hplace)
    · exact takes_of_runCmd (f := opPlaneSwitch p) rfl (decide_eq_true hp) (opPlaneSwitch_single hfind hop hdst)
    · exact takes_of_runCmd (f := opBorderRelease p) rfl (decide_eq_true hp) (opBorderRelease_single hfind hdst)

end Sys2Proof.Machine

end

section

-- As above: one proof after another, within the check's memory.
set_option Elab.async false

/-! ### Bytes of a record (R9, R121, R176) -/

namespace Sys2Proof.Machine

@[simp] theorem length_leBytes (n x : Nat) : (leBytes n x).length = n := by
  induction n generalizing x with
  | zero => rfl
  | succ n ih => rw [leBytes, List.length_cons, ih]

/-- The bytes of a number spell it, as far as they reach. -/
theorem ofLe_leBytes (n x : Nat) : ofLe (leBytes n x) = x % 256 ^ n := by
  induction n generalizing x with
  | zero => rw [leBytes, ofLe, pow_zero, Nat.mod_one]
  | succ n ih =>
    rw [leBytes, ofLe, ih, BitVec.toNat_ofNat, pow_succ' 256 n, Nat.mod_mul]

/-- A word survives its bytes. -/
theorem ofNat_ofLe_leBytes (n : Nat) (w : BitVec (8 * n)) : BitVec.ofNat (8 * n) (ofLe (leBytes n w.toNat)) = w := by
  have hlt : w.toNat < 256 ^ n := (pow_mul 2 8 n) ▸ w.isLt
  rw [ofLe_leBytes, Nat.mod_eq_of_lt hlt, BitVec.ofNat_toNat, BitVec.setWidth_eq]

/-- A field reads as the bytes that stand at its offset. -/
theorem slice_append (as bs cs : List Byte) : slice (as ++ (bs ++ cs)) as.length bs.length = bs := by
  simp [slice]

theorem leAt_append_leBytes (as cs : List Byte) (n x : Nat) :
    leAt (as ++ (leBytes n x ++ cs)) as.length n = ofLe (leBytes n x) := by
  have hslice := slice_append as (leBytes n x) cs
  rw [length_leBytes] at hslice
  rw [leAt, hslice]

@[simp] theorem length_frameBytes (f : FrameBits) : (frameBytes f).length = 512 := length_leBytes ..

theorem frameOf_frameBytes (f : FrameBits) : frameOf (frameBytes f) = f := ofNat_ofLe_leBytes 512 f

/-- A frame with its check, as a FRAMES record carries it (R176). -/
def carriedFrame (f : FrameBits) (w : Word) : List Byte := frameBytes f ++ leBytes 4 w.toNat

@[simp] theorem length_carriedFrame (f : FrameBits) (w : Word) : (carriedFrame f w).length = 516 := by
  simp [carriedFrame]

theorem frameOf_carriedFrame (f : FrameBits) (w : Word) : frameOf ((carriedFrame f w).take 512) = f := by
  rw [carriedFrame, List.take_left' (length_frameBytes f), frameOf_frameBytes]

theorem wordAt_carriedFrame (f : FrameBits) (w : Word) : wordAt (carriedFrame f w) 512 = w := by
  have hread := leAt_append_leBytes (frameBytes f) [] 4 w.toNat
  rw [length_frameBytes, List.append_nil] at hread
  rw [wordAt, carriedFrame, hread]
  exact ofNat_ofLe_leBytes 4 w

/-- What a FRAMES record of one frame reads as: its address, its count and the frame (R176). -/
theorem frameRecord_fields {a : Nat} (ha : a < 2 ^ 32) (f : FrameBits) (w : Word) :
    leAt (leBytes 4 a ++ (leBytes 4 1 ++ carriedFrame f w)) 0 4 = a ∧
      leAt (leBytes 4 a ++ (leBytes 4 1 ++ carriedFrame f w)) 4 4 = 1 ∧
      (leBytes 4 a ++ (leBytes 4 1 ++ carriedFrame f w)).length = 524 ∧
      slice ((leBytes 4 a ++ (leBytes 4 1 ++ carriedFrame f w)).drop 8) 0 516 = carriedFrame f w := by
  refine ⟨?_, ?_, by simp, ?_⟩
  · exact (leAt_append_leBytes [] _ 4 a).trans ((ofLe_leBytes 4 a).trans (Nat.mod_eq_of_lt ha))
  · have hread := leAt_append_leBytes (leBytes 4 a) (carriedFrame f w) 4 1
    rw [length_leBytes] at hread
    exact hread
  · rw [← List.append_assoc, List.drop_left' (by simp)]
    simp [slice]

/-! #### Device frames of the pans (R51, R176) -/

section Addresses

variable {p r : Nat}

theorem devUnit_pan (hp : p < 64) (hr : r < 6144) : devUnit (6144 * p + r) = (p, r) := by
  rw [devUnit, if_pos (by omega)]
  congr 1 <;> omega

theorem devAddr_pan (hp : p < 64) (hr : r < 6144) : devAddr (6144 * p + r) = 0x10000 * p + (r / 64 * 256 + r % 64) := by
  have hpan : p ≠ uGlobal := by rw [uGlobal]; omega
  rw [devAddr, devUnit_pan hp hr]
  exact if_neg hpan

theorem devAddr_pan_lt (hp : p < 64) (hr : r < 6144) : devAddr (6144 * p + r) < 2 ^ 24 := by
  rw [devAddr_pan hp hr]
  omega

/-- The address of a pan's frame leads back to it. -/
theorem devIndex_devAddr_pan (hp : p < 64) (hr : r < 6144) : devIndex (devAddr (6144 * p + r)) = some (6144 * p + r) := by
  have hcell : r / 64 * 256 + r % 64 < 0x10000 := by omega
  have hpan : (0x10000 * p + (r / 64 * 256 + r % 64)) / 0x10000 = p := by omega
  have harea : (0x10000 * p + (r / 64 * 256 + r % 64)) / 0x400000 = 0 := Nat.div_eq_of_lt (by omega)
  have hcol : (0x10000 * p + (r / 64 * 256 + r % 64)) / 256 % 256 = r / 64 := by omega
  have hminor : (0x10000 * p + (r / 64 * 256 + r % 64)) % 256 = r % 64 := by omega
  simp only [devIndex, devAddr_pan hp hr, hcol, hminor, harea, hpan, Nat.zero_mod, Nat.mod_eq_of_lt hp]
  rw [if_neg (by omega), if_pos trivial, if_pos (by omega)]
  congr 1
  omega

end Addresses

end Sys2Proof.Machine

/-! ### The records of a load (R121, R176, R177, R186) -/

namespace Sys2Proof.Machine

section Records

variable {d : Dev} {h : RecHdr} {l : Load}

theorem Dev.conditions_of_portWaits (hw : d.portWaits = true) :
    d.cfg.phase = .waitStream ∧ echoMode d.cfg.mode = false ∧ d.ust uCfgPort ≠ .faulted ∧ d.nvStopped = false ∧
      d.pllDead 0 = false := by
  simpa [Dev.portWaits, and_assoc] using hw

/-- A record addressed to a device that takes a stream goes, once forwarded, to the load (R192, R194). -/
theorem Dev.record_taken (hw : d.portWaits = true) (hl : d.cfg.load = some l) (hs : d.cfg.synced = true) (ht : d.targeted h = true)
    (ty : Byte) (payload : List Byte) (k : Dev → Load → Dev) :
    d.record ty h payload k = k (d.forward (8 + payload.length) (headerBytes ty h payload.length ++ payload)) l := by
  obtain ⟨hphase, hecho, hport, -, hclk⟩ := Dev.conditions_of_portWaits hw
  have hfwd {n : Nat} {out : List Byte} : (d.forward n out).cfg = d.cfg ∧ (d.forward n out).targeted h = d.targeted h ∧
      (d.forward n out).ust uCfgPort = d.ust uCfgPort ∧ (d.forward n out).portWaits = d.portWaits := ⟨rfl, rfl, rfl, rfl⟩
  obtain ⟨hcfg, htarget, hust, hwaits⟩ := hfwd (n := 8 + payload.length) (out := headerBytes ty h payload.length ++ payload)
  simp [Dev.record, hphase, hecho, hport, hclk, hcfg, htarget, hust, hwaits, hw, hl, hs, ht]

/-- A record in clear, in a load without a key, goes on as it is (R176). -/
theorem Dev.plainRecord_clear (hkey : l.keyed = false) (henc : recEnc h = false) (ty : Byte) (payload : List Byte)
    (k : Dev → Load → List Byte → Dev) : d.plainRecord ty h payload l k = k d { l with lastTag := false } payload := by
  simp [Dev.plainRecord, hkey, henc]

theorem Dev.streamStart_started (hst : l.started = true) : d.streamStart l = none := if_pos hst

/-! #### The next frame of a pan's plane -/

/-- A frame that programs at once (R121). -/
theorem Dev.loadWrite_first (d : Dev) (u r : Nat) (f : FrameBits) :
    d.loadWrite u r f .first =
      ({ d.modNv u fun n => { n with frames := n.frames.set 0 (8192 * d.shadow u + r) f } with
         cfg := { d.cfg with framesCount := satAdd d.cfg.framesCount 1 } }, true) := rfl

theorem Dev.nvu_loadWrite_first (d : Dev) (u r : Nat) (f : FrameBits) :
    (d.loadWrite u r f .first).1.nvu u = { d.nvu u with frames := (d.nvu u).frames.set 0 (8192 * d.shadow u + r) f } :=
  Dev.nvu_modNv_same d u fun n => { n with frames := n.frames.set 0 (8192 * d.shadow u + r) f }

theorem Dev.nvu_loadWrite_first_other (d : Dev) {u q : Nat} (hq : q ≠ u) (r : Nat) (f : FrameBits) :
    (d.loadWrite u r f .first).1.nvu q = d.nvu q :=
  Dev.nvu_modNv_other d u (fun n => { n with frames := n.frames.set 0 (8192 * d.shadow u + r) f }) q hq

variable {p r : Nat} {v : Byte × Word × DWord} {f : FrameBits}

/-- The frame that follows the last one of the same unit leaves no gap (R122). -/
theorem Dev.fillGap_next (hp : p < 64) (hr0 : 0 < r) (hr : r < 6144) (hlast : l.last = some (6144 * p + r - 1))
    (cs : List WriteCheck) : d.fillGap l (6144 * p + r) cs = .inl (d, cs) := by
  have hprev : devUnit (6144 * p + r - 1) = (p, r - 1) := by
    rw [show 6144 * p + r - 1 = 6144 * p + (r - 1) by omega, devUnit_pan hp (by omega)]
  have hnone : r - (r - 1 + 1) = 0 := by omega
  simp only [Dev.fillGap, devUnit_pan hp hr, hlast, hprev, if_true, hnone, Dev.zeroFrames]

/-- A load after one more frame of the pan it was loading (R176, R186). -/
def Load.withFrame (l : Load) (n r : Nat) (f : FrameBits) : Load :=
  { l with
    last := some n, frames := l.frames + 1, epochFrames := l.epochFrames + 1, census := censusAdd 0 l.census (frameEnables r f) }

/-- The next frame of an open pan, sound and within the census, is written into the shadow (R121, R176, R186). -/
theorem Dev.streamFrame_next (hp : p < 64) (hr0 : 0 < r) (hr : r < 6144) (hopen : l.pansets.get none p = some (false, v))
    (hlast : l.last = some (6144 * p + r - 1)) (hcensus : censusBad (censusAdd 0 l.census (frameEnables r f)) = false) (a : Nat)
    (cs : List WriteCheck) :
    d.streamFrame l a (some (6144 * p + r)) (carriedFrame f (frameCheckAt p r f)) (.first :: cs) =
      .inl ((d.loadWrite p r f .first).1, l.withFrame (6144 * p + r) r f, cs) := by
  have hpan : p ≠ uGlobal := by rw [uGlobal]; omega
  have hprev : devUnit (6144 * p + r - 1) = (p, r - 1) := by
    rw [show 6144 * p + r - 1 = 6144 * p + (r - 1) by omega, devUnit_pan hp (by omega)]
  have hafter : ¬ 6144 * p + r ≤ 6144 * p + r - 1 := by omega
  simp [Dev.streamFrame, devUnit_pan hp hr, hpan, hopen, hlast, hafter, frameOf_carriedFrame, wordAt_carriedFrame, hprev, hcensus,
    Dev.fillGap_next hp hr0 hr hlast, Dev.loadWrite_first, Load.withFrame]

/-- A list of one frame, the next of an open pan, is that frame's step (R176). -/
theorem Dev.streamFrames_next (hkey : l.keyed = false) (hp : p < 64) (hr0 : 0 < r) (hr : r < 6144)
    (hopen : l.pansets.get none p = some (false, v)) (hlast : l.last = some (6144 * p + r - 1))
    (hcensus : censusBad (censusAdd 0 l.census (frameEnables r f)) = false) (a : Nat) {bs : List Byte}
    (hbs : slice bs 0 516 = carriedFrame f (frameCheckAt p r f)) :
    d.streamFrames a (some (6144 * p + r)) bs 1 0 l [.first] =
      .inl ((d.loadWrite p r f .first).1, l.withFrame (6144 * p + r) r f) := by
  have hin : 6144 * p + r < 395264 := by omega
  simp only [Dev.streamFrames, Option.bind_some, Nat.add_zero, if_pos hin, Nat.mul_zero, hbs, hkey, Bool.false_and, Bool.false_eq_true,
    if_false, Dev.streamFrame_next hp hr0 hr hopen hlast hcensus]

/-- A FRAMES record of one frame, the next of an open pan (R121, R176). -/
theorem opFramesRecord_next (hw : d.portWaits = true) (hl : d.cfg.load = some l) (hs : d.cfg.synced = true) (ht : d.targeted h = true)
    (hkey : l.keyed = false) (hst : l.started = true) (henc : recEnc h = false) (hp : p < 64) (hr0 : 0 < r) (hr : r < 6144)
    (hopen : l.pansets.get none p = some (false, v)) (hlast : l.last = some (6144 * p + r - 1))
    (hcensus : censusBad (censusAdd 0 l.census (frameEnables r f)) = false) {bs : List Byte}
    (hbs : bs = leBytes 4 (devAddr (6144 * p + r)) ++ (leBytes 4 1 ++ carriedFrame f (frameCheckAt p r f))) :
    opFramesRecord h bs [.first] d =
      ((d.forward (8 + bs.length) (headerBytes 0x21 h bs.length ++ bs)).loadWrite p r f .first).1.putLoad
        ({ l with lastTag := false }.withFrame (6144 * p + r) r f) := by
  have haddr := devAddr_pan_lt hp hr
  obtain ⟨ha, hn, hlen, hframe⟩ := frameRecord_fields (haddr.trans (by decide)) f (frameCheckAt p r f)
  rw [← hbs] at ha hn hlen hframe
  have hlen' : ¬ bs.length ≠ 8 + 516 * 1 := not_not.2 hlen
  rw [opFramesRecord, Dev.record_taken hw hl hs ht, Dev.plainRecord_clear hkey henc]
  have hnext := Dev.streamFrames_next (d := d.forward (8 + bs.length) (headerBytes 0x21 h bs.length ++ bs))
    (l := { l with lastTag := false }) hkey hp hr0 hr hopen hlast hcensus (devAddr (6144 * p + r)) hframe
  generalize hclear : ({ l with lastTag := false } : Load) = l' at hnext ⊢
  have hst' : l'.started = true := by rw [← hclear, hst]
  have hself : { l' with started := true } = l' := by rw [← hst']
  rw [Dev.streamStart_started hst']
  simp only [ha, hn, if_neg hlen', if_pos haddr, devIndex_devAddr_pan hp hr, hself, hnext]

/-- END of a load in clear with the right count goes to the end of the load (R177). -/
theorem opEndRecord_counted (hw : d.portWaits = true) (hl : d.cfg.load = some l) (hs : d.cfg.synced = true) (ht : d.targeted h = true)
    (hkey : l.keyed = false) (hst : l.started = true) {bs : List Byte} (hlen : bs.length = 8) (hcount : leAt bs 0 4 = l.frames)
    (hbar : d.encBarred h = false) (cs : List WriteCheck) :
    opEndRecord h bs cs d = (d.forward 16 (headerBytes 0x30 h 8 ++ bs)).endLoad l cs := by
  have hbar' (n : Nat) (out : List Byte) : (d.forward n out).encBarred h = false := hbar
  simp [opEndRecord, Dev.record_taken hw hl hs ht, hlen, hbar', Dev.streamStart_started hst, hkey, hcount]

/-- With a number left for the commit, a load ends by its commit, or fails at the frame that does not read back (R126, R177, R186). -/
theorem Dev.endLoad_numbered {seq : Word} (hseq : d.newSeq planeUnits = some seq) (cs : List WriteCheck) :
    d.endLoad l cs =
      match (if l.last.any fun k => (devUnit k).1 == uGlobal then d else d.openShadow uGlobal).fillRest l cs with
      | .inl (e, _) => e.commitLoad l seq
      | .inr (e, a) => e.loadFail stFrame a := by
  rw [Dev.endLoad, hseq]
  dsimp only
  generalize Dev.fillRest _ l cs = out
  rcases out with ⟨e, cs1⟩ | ⟨e, a⟩
  · rfl
  · rfl

end Records

end Sys2Proof.Machine

/-! ### Changes of the pans alone (R65, R70, R107, R137) -/

namespace Sys2Proof.Machine

/-- The devices differ at most in their pans and in the free values taken. -/
def Dev.OnlyPans (d t : Dev) : Prop := t = { d with pans := t.pans, freeCtr := t.freeCtr }

namespace Dev.OnlyPans

variable {a b c d : Dev}

theorem refl (d : Dev) : d.OnlyPans d := rfl

theorem trans (h1 : a.OnlyPans b) (h2 : b.OnlyPans c) : a.OnlyPans c := by
  unfold OnlyPans at *
  rw [h2, h1]

theorem foldS {α : Type} {f : Dev → α → Dev} (hf : ∀ e x, Dev.OnlyPans e (f e x)) (l : List α) : d.OnlyPans (Machine.foldS f d l) :=
  foldS_inv (fun e => d.OnlyPans e) f d l (fun e x h => h.trans (hf e x)) (refl d)

theorem ite {p : Prop} [Decidable p] (ha : d.OnlyPans a) (hb : d.OnlyPans b) : d.OnlyPans (if p then a else b) := by
  split_ifs
  · exact ha
  · exact hb

theorem modPan (d : Dev) (p : Nat) (f : Pan → Pan) : d.OnlyPans (d.modPan p f) := rfl

theorem settle (d : Dev) (i : Nat) : d.OnlyPans (d.settle i) := rfl

theorem sourcesOf (d : Dev) (ps : List Nat) (f : Pan → Pan) : d.OnlyPans (d.sourcesOf ps f) :=
  (foldS (fun e _ => modPan e _ _) ps).trans (foldS settle ps)

theorem reborder {f : Dev → Dev} (hf : ∀ e, Dev.OnlyPans e (f e)) (d : Dev) (ps : List Nat) : d.OnlyPans (d.reborder ps f) := by
  unfold Dev.reborder
  extract_lets near before d1 clamped d2
  have h1 : d.OnlyPans d1 := (show d.OnlyPans { d with freeCtr := d.freeCtr + evalFree } from rfl).trans (hf _)
  have h2 : d1.OnlyPans d2 := foldS (fun e _ => modPan e _ _) clamped
  exact (h1.trans h2).trans (foldS settle _)

theorem shutPan (d : Dev) (p : Nat) : d.OnlyPans (d.shutPan p) := by
  rw [Dev.shutPan, Dev.shutPans]
  exact reborder (fun _ => foldS (fun e i => modPan e i _) _) d _

theorem markFail (d : Dev) (p : Nat) (frame : Option Nat) : d.OnlyPans (d.markFail p frame) :=
  (shutPan d p).trans (modPan ..)

/-- In a start-up a verification only marks the pan (R17, R137). -/
theorem verifyPan_start (d : Dev) (p : Nat) (bad : Option Nat) : d.OnlyPans (d.verifyPan true p bad) :=
  ite (markFail d p bad) (ite (modPan ..) (markFail d p none))

theorem cfg_eq (h : a.OnlyPans b) : b.cfg = a.cfg := by rw [h]

end Dev.OnlyPans

end Sys2Proof.Machine

/-! ### The end of a load (R177, R188, R202) -/

namespace Sys2Proof.Machine

/-- How a load stands: in progress or over, loaded, and its error. -/
def CfgEng.loadResult (c : CfgEng) : Option Load × Bool × Bool := (c.load, c.loaded, c.err)

theorem CfgEng.fields_of_loadResult {a b : CfgEng} (h : a.loadResult = b.loadResult) :
    a.load = b.load ∧ a.loaded = b.loaded ∧ a.err = b.err := by
  simpa [loadResult] using h

theorem Dev.cfg_foldS {α : Type} {f : Dev → α → Dev} (hf : ∀ e x, (f e x).cfg = e.cfg) (d : Dev) (l : List α) :
    (foldS f d l).cfg = d.cfg :=
  foldS_inv (fun e : Dev => e.cfg = d.cfg) f d l (fun e x h => (hf e x).trans h) rfl

theorem Dev.restorePan_cfg (d : Dev) (p : Nat) : (d.restorePan p).cfg = d.cfg := by
  unfold Dev.restorePan
  split
  · rfl
  · dsimp only
    split <;> rfl

theorem Dev.writeStart_cfg (d : Dev) : d.writeStart.cfg = d.cfg := rfl

theorem Dev.loadPans_cfg (d : Dev) : d.loadPans.cfg = d.cfg := by
  unfold Dev.loadPans
  extract_lets d1 d2
  have h1 : d1.cfg = d.cfg := Dev.cfg_foldS (fun e p => (Dev.restorePan_cfg ((e.loadRam p).countPersist p) p).trans rfl) d _
  have h2 : d2.cfg = d1.cfg := (Dev.OnlyPans.sourcesOf d1 _ _).cfg_eq
  rw [Dev.writeStart_cfg, h2, h1]

/-- Verification leaves how a load stands (R136, R201). -/
theorem Dev.verifyStart_load (d : Dev) : d.verifyStart.cfg.loadResult = d.cfg.loadResult := by
  unfold Dev.verifyStart
  extract_lets mods full d1 cfg1 bgs1 d2
  have h1 : d1.cfg = d.cfg := by
    unfold d1
    split_ifs
    · refine Dev.cfg_foldS (fun e x => ?_) d _
      split_ifs <;> rfl
    · rfl
  have h2 : d2.cfg.loadResult = d.cfg.loadResult := by
    unfold d2
    split_ifs
    · rw [Dev.cfg_foldS (fun e p => (Dev.OnlyPans.verifyPan_start e p _).cfg_eq), h1]
    · change d1.cfg.loadResult = d.cfg.loadResult
      rw [h1]
  clear_value d2
  split_ifs
  · exact h2
  · exact h2

/-- The rest of a start-up leaves how a load stands (R201). -/
theorem Dev.finishStart_load (d : Dev) : d.finishStart.cfg.loadResult = d.cfg.loadResult := by
  unfold Dev.finishStart
  dsimp only
  split_ifs
  · exact Dev.verifyStart_load d
  · rw [Dev.loadPans_cfg]
    exact Dev.verifyStart_load d

/-- A load that commits is over and loaded (R177, R202). -/
theorem Dev.commitLoad_load (d : Dev) (l : Load) (seq : Word) :
    (d.commitLoad l seq).cfg.load = none ∧ (d.commitLoad l seq).cfg.loaded = true := by
  unfold Dev.commitLoad
  extract_lets d3 root recs d4 d5 k d6 d7 cfg7
  obtain ⟨hload, hloaded, -⟩ := CfgEng.fields_of_loadResult
    (Dev.finishStart_load { d7 with cfg := { d7.cfg with load := none, loaded := true } })
  exact ⟨hload, hloaded⟩

theorem Dev.cfgError_err (d : Dev) (status source addr pan : Nat) : (d.cfgError status source addr pan).cfg.err = true := by
  unfold Dev.cfgError
  split_ifs with h
  · exact h
  · rfl

/-- A load that fails is over, with its error noted (R188, R200). -/
theorem Dev.loadFail_load (d : Dev) (status addr : Nat) :
    (d.loadFail status addr).cfg.load = none ∧ (d.loadFail status addr).cfg.err = true := by
  unfold Dev.loadFail
  extract_lets d1 cfg2 d2
  have herr : d2.cfg.err = true := Dev.cfgError_err d status 0xF addr 0
  split_ifs
  · exact ⟨rfl, herr⟩
  · obtain ⟨hload, -, hkept⟩ := CfgEng.fields_of_loadResult (Dev.finishStart_load d2)
    exact ⟨hload, hkept.trans herr⟩

end Sys2Proof.Machine

/-! ### Frames are written and committed -/

namespace Sys2Proof.Machine

/-- Settles O24: the record's one frame is the next of an open pan and goes into its shadow; END goes to the end of the load, which
either commits or fails. -/
theorem framesAreWrittenAndCommitted : Obligations.FramesAreWrittenAndCommitted := by
  intro s h bs l p r v f seq d n hw hl hs ht hkey hst
  refine ⟨fun hp hr0 hr hopen hlast henc hbs hcensus => ?_, fun hlen hcount hbar hseq => ?_⟩
  · have hbs' : bs = leBytes 4 (devAddr n) ++ (leBytes 4 1 ++ carriedFrame f (frameCheckAt p r f)) := by
      rw [hbs, carriedFrame, List.append_assoc, List.append_assoc]
    refine takes_of_runCmd (f := opFramesRecord h bs [.first]) rfl rfl ?_
    rw [opFramesRecord_next hw hl hs ht hkey hst henc hp hr0 hr hopen hlast hcensus hbs']
    exact ⟨rfl, Dev.nvu_loadWrite_first .., fun q hq => Dev.nvu_loadWrite_first_other _ hq r f, rfl⟩
  · intro fwd cs
    refine takes_of_runCmd (f := opEndRecord h bs cs) rfl rfl ?_
    have hseq' : fwd.newSeq planeUnits = some seq := hseq
    rw [opEndRecord_counted hw hl hs ht hkey hst hlen hcount hbar, Dev.endLoad_numbered hseq']
    generalize Dev.fillRest _ l cs = out
    rcases out with ⟨e, cs1⟩ | ⟨e, a⟩
    · exact ⟨rfl, Dev.commitLoad_load ..⟩
    · exact ⟨rfl, Dev.loadFail_load ..⟩

end Sys2Proof.Machine

/-! ### Background services (R135, R140, R553, R554, R555) -/

namespace Sys2Proof.Machine

section Services

variable {d : Dev} {p u rel : Nat}

/-! #### The margin scan -/

/-- Where the unit's shadow holds nothing to scan, the scan goes on to the next frame (R554). -/
theorem Dev.scanNext_frame (hshadow : d.scansShadow u = false) (hnext : d.bgs.refreshPos + 1 < scanFrames) (shadow : Bool) :
    d.scanNext shadow u = { d with bgs := { d.bgs with refreshShadow := false, refreshPos := d.bgs.refreshPos + 1 } } := by
  simp [Dev.scanNext, hshadow, hnext]

theorem Dev.scansShadow_reinforce (d : Dev) (u : Nat) : (d.reinforce u).scansShadow u = d.scansShadow u := by
  simp [Dev.scansShadow, Dev.reinforce, Dev.countRefresh]

/-- A low-margin frame that still reads is reinforced, and the scan goes on (R140, R554). -/
theorem opMarginCheck_low (hruns : d.bgsRuns = true) (hctrl : bit d.bgs.ctrl 2 = true) (hnv : d.nvStopped = false)
    (hpos : devUnit d.bgs.refreshPos = (u, rel)) (hshadow : d.scansShadow u = false) (hnext : d.bgs.refreshPos + 1 < scanFrames) :
    opMarginCheck true false d = { d.reinforce u with bgs := { d.bgs with
      refreshCount := d.bgs.refreshCount + 1, refreshShadow := false, refreshPos := d.bgs.refreshPos + 1 } } := by
  have hcounted : ({ d.reinforce u with bgs := { d.bgs with refreshCount := d.bgs.refreshCount + 1 } } : Dev).scansShadow u = false :=
    (Dev.scansShadow_reinforce d u).trans hshadow
  simp only [opMarginCheck, hruns, hctrl, hnv, hpos, hshadow, Bool.not_true, Bool.or_self, Bool.false_eq_true, if_false, if_true,
    Bool.and_false]
  exact Dev.scanNext_frame hcounted hnext false

theorem Dev.nvu_reinforce (d : Dev) (u : Nat) : (d.reinforce u).nvu u = { d.nvu u with refresh := satInc (d.nvu u).refresh } :=
  Dev.nvu_modNv_same d u fun n => { n with refresh := satInc n.refresh }

theorem Dev.lowMargin_reinforce (d : Dev) (u : Nat) : ((d.reinforce u).pan u).lowMargin = true := by
  simp [Dev.reinforce]

/-! #### Signature checks and deferred verification -/

/-- A pan whose active plane carries its signature shows VERIFIED after a full verification (R135, R137). -/
theorem Dev.checkPan_signed (hcheck : d.checkable p = true) (hsigned : d.signed p = true) :
    d.checkPan p none = d.modPan p fun x => { x with verified := true } := by
  have hserves : d.ust (uPan p) ≠ .faulted := by
    simp only [Dev.checkable, Bool.and_eq_true, Bool.or_eq_true, beq_iff_eq] at hcheck
    rcases hcheck.1.2 with h | h <;> simp [h]
  simp [Dev.checkPan, Dev.verifyPan, hsigned, Dev.faultAck, hserves]

/-- A committed pan that waits for its check leaves the queue with it (R554). -/
theorem opSignatureCheck_queued (hruns : d.bgsRuns = true) (hctrl : bit d.bgs.ctrl 1 = true) (hdefer : d.bgs.deferTodo = [])
    (hfirst : d.firstFree d.bgs.sigQueue = some p) (hcheck : d.checkable p = true) (hsigned : d.signed p = true) :
    opSignatureCheck none d =
      ({ d with bgs := { d.bgs with sigQueue := d.bgs.sigQueue.erase p } } : Dev).modPan p fun x => { x with verified := true } := by
  have hempty : d.bgs.deferTodo.isEmpty = true := List.isEmpty_iff.2 hdefer
  simp only [opSignatureCheck, hruns, hctrl, hempty, hfirst, hcheck, Bool.not_true, Bool.or_self, Bool.false_eq_true,
    if_false, if_true]
  exact Dev.checkPan_signed (d := { d with bgs := { d.bgs with sigQueue := d.bgs.sigQueue.erase p } }) hcheck hsigned

/-- A deferred verification that others follow takes its pan off the list and counts it (R553). -/
theorem opDeferredVerify_more (hruns : d.bgsRuns = true) (hfirst : d.firstFree d.bgs.deferTodo = some p)
    (hmore : d.bgs.deferTodo.erase p ≠ []) (hcheck : d.checkable p = true) (hsigned : d.signed p = true) :
    opDeferredVerify none d =
      ({ d with bgs := { d.bgs with deferTodo := d.bgs.deferTodo.erase p, deferCount := d.bgs.deferCount + 1 } } : Dev).modPan p
        fun x => { x with verified := true } := by
  have hmore' : (d.bgs.deferTodo.erase p).isEmpty = false := by simpa using hmore
  simp only [opDeferredVerify, hruns, hfirst, hcheck, hmore', b2n, Bool.false_eq_true, if_false, if_true]
  exact Dev.checkPan_signed
    (d := { d with bgs := { d.bgs with deferTodo := d.bgs.deferTodo.erase p, deferCount := d.bgs.deferCount + 1 } }) hcheck hsigned

/-! #### Pan self-test -/

/-- A change of a pan's sources changes pans alone. -/
theorem Dev.OnlyPans.panSources (d : Dev) (p : Nat) (f : Pan → Pan) : d.OnlyPans (d.panSources p f) :=
  Dev.OnlyPans.sourcesOf d [p] f

theorem Dev.selfTest_panSources (d : Dev) (p : Nat) (f : Pan → Pan) : ((d.panSources p f).pan p).selfTest = (f (d.pan p)).selfTest := by
  have hctl := Dev.controls_of_core (Dev.commitCore_panSources d p f) p
  rw [Dev.pan_modPan_same] at hctl
  exact (congrArg Pan.selfTest hctl :)

theorem opPanSelftestStart_found (hruns : d.bgsRuns = true) (hctrl : bit d.bgs.ctrl 5 = true) (hrun : d.bgs.pstRun = none)
    (hfind : (List.range 64).find? (fun q => decide (d.bgs.pstNext ≤ q) && d.mayTest q) = some p) :
    opPanSelftestStart d =
      ({ d with bgs := { d.bgs with pstNext := p + 1, pstRun := some p, pstDemand := false } } : Dev).panSources p
        fun x => { x with selfTest := true } := by
  simp [opPanSelftestStart, hruns, hctrl, hrun, hfind, Dev.startPst]

/-- A periodic test that finds no defect ends with its result (R555, R567). -/
theorem opPanSelftestDone_sound (hruns : d.bgsRuns = true) (hctrl : bit d.bgs.ctrl 5 = true) (hrun : d.bgs.pstRun = some p)
    (hdemand : d.bgs.pstDemand = false) :
    opPanSelftestDone none d =
      ({ d with bgs := { d.bgs with pstRun := none, pstLast := BitVec.ofNat 6 p, pstLastFail := false } } : Dev).panSources p
        fun x => { x with selfTest := false } := by
  have hclk : d.pllDead 0 = false := by
    simp only [Dev.bgsRuns, Bool.and_eq_true, Bool.not_eq_true'] at hruns
    exact hruns.2
  simp [opPanSelftestDone, hruns, hctrl, hrun, hdemand, hclk]

end Services

/-- Settles O34: each service by what one of its steps does. -/
theorem backgroundServicesCheckPans : Obligations.BackgroundServicesCheckPans := by
  intro s p u rel d hruns
  refine ⟨fun hctrl hnv hpos hshadow hnext => ?_, fun hctrl hdefer hfirst hcheck hsigned => ?_,
    fun hfirst hmore hcheck hsigned => ?_, fun hctrl hrun hfind => ?_, fun hctrl hrun hdemand => ?_⟩
  · refine takes_of_runCmd (f := opMarginCheck true false) rfl rfl ?_
    rw [opMarginCheck_low hruns hctrl hnv hpos hshadow hnext]
    exact ⟨rfl, Dev.nvu_reinforce d u, Dev.lowMargin_reinforce d u⟩
  · exact takes_eq (f := opSignatureCheck none) rfl rfl (opSignatureCheck_queued hruns hctrl hdefer hfirst hcheck hsigned)
  · exact takes_eq (f := opDeferredVerify none) rfl rfl (opDeferredVerify_more hruns hfirst hmore hcheck hsigned)
  · refine takes_of_runCmd (f := opPanSelftestStart) rfl rfl ?_
    rw [opPanSelftestStart_found hruns hctrl hrun hfind]
    exact ⟨Dev.OnlyPans.panSources .., Dev.selfTest_panSources ..⟩
  · refine takes_of_runCmd (f := opPanSelftestDone none) rfl rfl ?_
    rw [opPanSelftestDone_sound hruns hctrl hrun hdemand]
    exact ⟨Dev.OnlyPans.panSources .., Dev.selfTest_panSources ..⟩

end Sys2Proof.Machine

/-! ### A descriptor in its unit (R351, R361, R370, R393)

What a descriptor's start leaves for the unit that takes it, and the record that ends it. -/

namespace Sys2Proof.Machine

section Taken

variable (d : Dev) (iss : Issuer) (x : Desc)

@[simp] theorem Dev.start_store : (d.start iss x).store = d.store := by cases iss <;> rfl
@[simp] theorem Dev.start_storeNv : (d.start iss x).storeNv = d.storeNv := by cases iss <;> rfl
@[simp] theorem Dev.start_out : (d.start iss x).out = d.out := by cases iss <;> rfl
@[simp] theorem Dev.start_nextExec : (d.start iss x).nextExec = d.nextExec + 1 := by cases iss <;> rfl
@[simp] theorem Dev.part_start (i : Nat) : (d.start iss x).part i = d.part i := by cases iss <;> rfl

/-- The execution record that a start makes, for what waits for `k` (R361). -/
def Dev.startedExec (k : ExecKind) : Exec :=
  { iss := iss, opcode := BitVec.ofNat 8 (fld (dword x 0) 0 8), flags := BitVec.ofNat 8 (fld (dword x 0) 8 8)
    tag := BitVec.ofNat 16 (fld (dword x 0) 16 16)
    idx := (match iss with | .ring p q => ((d.hp p).sq q).head | _ => 0), kind := k }

theorem Dev.exec_start : (d.start iss x).exec d.nextExec = some (d.startedExec iss x .rake) := by
  cases iss <;> simp [Dev.start, Dev.exec, Dev.startedExec]

theorem Dev.exec_start_setKind (k : ExecKind) :
    ((d.start iss x).setKind d.nextExec k).exec d.nextExec = some (d.startedExec iss x k) := by
  rw [Dev.exec_setKind_same, Dev.exec_start]
  rfl

/-- A start of a ring's descriptor advances HEAD and leaves the rest of the ring's place (R361). -/
theorem Dev.sq_start (p q : Nat) :
    (((d.start (.ring p q) x).hp p).sq q).head = (((d.hp p).sq q).head + 1) % ringSize ((d.hp p).sq q).cfg ∧
      (((d.start (.ring p q) x).hp p).sq q).cfg = ((d.hp p).sq q).cfg := by
  simp [Dev.start, Dev.modSq, Dev.modCq, Dev.modHp, Dev.hp, HostPort.sq]

/-- A start reserves a slot of the completion ring and leaves the ring's place (R361). -/
theorem Dev.cq_start (p q : Nat) :
    let k := fld ((d.hp p).sq q).cfg 16 2
    let c := ((d.start (.ring p q) x).hp p).cq k
    c.baseLo = ((d.hp p).cq k).baseLo ∧ c.baseHi = ((d.hp p).cq k).baseHi ∧ c.tail = ((d.hp p).cq k).tail ∧
      c.phase = ((d.hp p).cq k).phase := by
  simp [Dev.start, Dev.modSq, Dev.modCq, Dev.modHp, Dev.hp, HostPort.sq, HostPort.cq]

theorem Dev.conf_start (p q : Nat) : ((d.start (.ring p q) x).hp p).conf = (d.hp p).conf := by
  simp [Dev.start, Dev.modSq, Dev.modCq, Dev.modHp, Dev.hp]

end Taken

/-- A port whose ring may start a descriptor may make requests (R343, R361). -/
theorem Dev.asks_of_startable {d : Dev} {p q : Nat} {x : Desc} (h : d.startable (.ring p q) x = true) : (d.hp p).conf.asks = true := by
  have hready : d.ringReady p q x = true := h
  simp only [Dev.ringReady, Bool.and_eq_true] at hready
  simp only [Dev.hostRuns, Bool.and_eq_true] at hready
  tauto

/-- A descriptor of a unit whose clock runs goes on from its start (R391, R541). -/
theorem Dev.beginAt_mayStart {d : Dev} {iss : Issuer} {x : Desc} {op : Nat} {stalls : Bool} {masks : List (Nat × Nat)}
    (hclk : stalls = false) (h : d.mayStart iss x op false false masks) (k : Dev → Nat → Dev) :
    d.beginAt stalls iss x op masks k = k (d.start iss x) d.nextExec := by
  rw [Dev.beginAt, hclk]
  exact Dev.begin_mayStart h k

/-- The Store's own state is apart from what starts and completions change. -/
theorem Dev.Replied.withStore {a b : Dev} (h : a.Replied b) (s : StoreCtl) :
    ({ a with store := s } : Dev).Replied { b with store := s } := by
  obtain ⟨hframe, hports, l, hout⟩ := h
  refine ⟨?_, hports, l, hout⟩
  rw [hframe]

/-! #### In the Store -/

section InStore

variable (d : Dev) (iss : Issuer) (x : Desc) (k : ExecKind) (s : StoreCtl)

/-- The device whose Store has taken a descriptor up: it has started, waits for `k`, and the Store is `s` (R361). -/
def Dev.inStore : Dev := { (d.start iss x).setKind d.nextExec k with store := s }

theorem Dev.storeNv_inStore : (d.inStore iss x k s).storeNv = d.storeNv := Dev.start_storeNv d iss x

theorem Dev.part_inStore (i : Nat) : (d.inStore iss x k s).part i = d.part i := Dev.part_start d iss x i

theorem Dev.storeDead_inStore : (d.inStore iss x k s).storeDead = d.storeDead := by
  have hust : (d.inStore iss x k s).ust uStore = d.ust uStore := Dev.ust_start d iss x uStore
  rw [Dev.storeDead, Dev.storeDead, hust]

theorem Dev.vaultOk_inStore (o : Byte) : (d.inStore iss x k s).vaultOk iss o = d.vaultOk iss o := by
  rw [Dev.vaultOk, Dev.vaultOk, Dev.part_inStore]

/-- A descriptor in the Store executes; the rest of the device is as it was, but for the Store. -/
theorem Dev.executes_inStore : d.Executes { d with store := s } (d.inStore iss x k s) iss x k :=
  ⟨((Dev.start_replied d iss x).trans (Dev.setKind_replied ..)).withStore s, Dev.start_nextExec d iss x, Dev.start_out d iss x,
    Dev.exec_start_setKind d iss x k⟩

end InStore

/-! #### The record of a ring's descriptor -/

section Record

variable {d : Dev} {p q e : Nat} {y : Exec}

/-- Where a completion record of the ring goes. -/
def HostPort.cplAddr (h : HostPort) (q : Nat) : DWord :=
  let c := h.cq (fld (h.sq q).cfg 16 2)
  BitVec.ofNat 64 (ringBase c.baseLo c.baseHi + 16 * c.tail)

/-- The end of a ring's descriptor emits its record first (R370, R393). -/
theorem Dev.complete_emits (hexec : d.exec e = some y) (hiss : y.iss = .ring p q) (horphan : y.orphan = false)
    (hasks : (d.hp p).conf.asks = true) (status unit : Nat) (info : DWord) :
    ∃ l, (d.complete e status unit info).out = d.out ++ [.hostWrite p ((d.hp p).cplAddr q)
      (wordsBytes (completionWords y.tag status q ((d.hp p).cq (fld ((d.hp p).sq q).cfg 16 2)).phase unit ((d.hp p).sq q).head info))
      false] ++ l := by
  have hwritten := (Dev.writeCpl_emits { d with execs := d.execs.set none e none } p q y.tag (y.flags.getLsbD 3) status unit info
    hasks).trans (Dev.ringAfter_replied _ p q e status (y.flags.getLsbD 0))
  have hend : d.endExec e status unit info =
      (({ d with execs := d.execs.set none e none } : Dev).writeCpl p q y.tag (y.flags.getLsbD 3) status unit info).ringAfter p q e
        status (y.flags.getLsbD 0) := by
    simp only [Dev.endExec, hexec, hiss, horphan, Bool.false_eq_true, if_false]
  rw [← hend] at hwritten
  obtain ⟨-, -, l, hl⟩ := hwritten.trans (Dev.complete_first d e status unit info)
  exact ⟨l, hl⟩

/-- A started descriptor of a ring that ends in a device with the rings of its start delivers its record (R370, R393). -/
theorem Dev.complete_delivers {t : Dev} {x : Desc} {k : ExecKind} (hexec : t.exec d.nextExec = some (d.startedExec (.ring p q) x k))
    (hport : t.hp p = (d.start (.ring p q) x).hp p) (hasks : (d.hp p).conf.asks = true) (hout : ∃ l, t.out = d.out ++ l)
    (status unit : Nat) (info : DWord) :
    d.Delivered (t.complete d.nextExec status unit info) (.ring p q) x status unit info := by
  obtain ⟨l, hl⟩ := hout
  have hasks' : (t.hp p).conf.asks = true := by rw [hport, Dev.conf_start, hasks]
  obtain ⟨m, hm⟩ := Dev.complete_emits hexec rfl rfl hasks' status unit info
  obtain ⟨hhead, hcfg⟩ := Dev.sq_start d x p q
  obtain ⟨hlo, hhi, htail, hphase⟩ := Dev.cq_start d x p q
  rw [hport, HostPort.cplAddr, hcfg, hlo, hhi, htail, hphase, hhead] at hm
  refine ⟨l ++ ([_] ++ m), hm.trans ?_, List.mem_append_right l (List.mem_append_left m (List.mem_singleton_self _))⟩
  rw [hl, List.append_assoc, List.append_assoc]
  rfl

end Record

/-! #### No completion starts a descriptor (R361) -/

theorem Dev.Events.nextExec {a b : Dev} (h : a.Events b) : b.nextExec = a.nextExec := by rw [h.1]

theorem Dev.postHost_nextExec (d : Dev) (p : Nat) (a : DWord) (bs : List Byte) (ro : Bool) :
    (d.postHost p a bs ro).nextExec = d.nextExec := by
  unfold Dev.postHost
  split <;> rfl

theorem Dev.writeCpl_nextExec (d : Dev) (p sq : Nat) (tag : BitVec 16) (irq : Bool) (status unit : Nat) (info : DWord) :
    (d.writeCpl p sq tag irq status unit info).nextExec = d.nextExec := by
  unfold Dev.writeCpl
  dsimp only
  split <;> split
  · exact (Dev.sendMsix_events ..).nextExec.trans (Dev.postHost_nextExec ..)
  · exact Dev.postHost_nextExec ..
  · exact (Dev.sendMsix_events ..).nextExec.trans (Dev.postHost_nextExec ..)
  · exact Dev.postHost_nextExec ..

theorem Dev.endExec_nextExec (d : Dev) (e status unit : Nat) (info : DWord) : (d.endExec e status unit info).nextExec = d.nextExec := by
  unfold Dev.endExec
  split
  · rfl
  · dsimp only
    split
    · split
      · rfl
      · exact Dev.writeCpl_nextExec ..
    all_goals rfl

theorem Dev.completeN_nextExec (d : Dev) (k e status unit : Nat) (info : DWord) :
    (d.completeN k e status unit info).nextExec = d.nextExec := by
  induction k generalizing d e status unit info with
  | zero => rfl
  | succ k ih =>
    have hended : ((d.endExec e status unit info).fenceDone e).1.nextExec = d.nextExec := Dev.endExec_nextExec ..
    unfold Dev.completeN
    dsimp only
    split
    · exact hended
    · exact (ih ..).trans hended

theorem Dev.complete_nextExec (d : Dev) (e status unit : Nat) (info : DWord) : (d.complete e status unit info).nextExec = d.nextExec :=
  Dev.completeN_nextExec ..

/-! #### Data for host memory (R347) -/

/-- The posted writes that carry a descriptor's data to its port's host. -/
def Dev.dataWrites (d : Dev) (e p addr : Nat) (bs : List Byte) : List Output :=
  (pieces (d.hp p).maxPayload addr bs.length (bs.length + 1)).map fun x =>
    .hostWrite p (BitVec.ofNat 64 x.1) (slice bs (x.1 - addr) x.2) (d.relaxed e p)

/-- Data for a host that takes requests leaves at once, and nothing else changes (R347). -/
theorem Dev.putHostData_ring {d : Dev} {p e : Nat} (horphan : d.orphaned e = false) (hasks : (d.hp p).conf.asks = true) (q addr : Nat)
    (bs : List Byte) : d.putHostData e (.ring p q) addr bs = { d with out := d.out ++ d.dataWrites e p addr bs } := by
  have hposts (l : List (Nat × Nat)) (o : List Output) :
      foldS (fun (d : Dev) (x : Nat × Nat) => d.postHost p (BitVec.ofNat 64 x.1) (slice bs (x.1 - addr) x.2) (d.relaxed e p))
          { d with out := o } l =
        { d with out := o ++ l.map fun x => .hostWrite p (BitVec.ofNat 64 x.1) (slice bs (x.1 - addr) x.2) (d.relaxed e p) } := by
    induction l generalizing o with
    | nil => rw [List.map_nil, List.append_nil]; rfl
    | cons x l ih =>
      have hstep : ({ d with out := o } : Dev).postHost p (BitVec.ofNat 64 x.1) (slice bs (x.1 - addr) x.2)
          (({ d with out := o } : Dev).relaxed e p) =
          { d with out := o ++ [.hostWrite p (BitVec.ofNat 64 x.1) (slice bs (x.1 - addr) x.2) (d.relaxed e p)] } :=
        Dev.postHost_asks (d := { d with out := o }) hasks _ _ _
      rw [foldS, List.foldl_cons, hstep]
      refine (ih _).trans ?_
      rw [List.map_cons, List.append_assoc, List.singleton_append]
  simp only [Dev.putHostData, horphan, Bool.false_eq_true, if_false]
  exact hposts _ d.out

/-- What a descriptor waits for does not show in its data. -/
theorem Dev.dataWrites_setKind (d : Dev) (e p addr : Nat) (bs : List Byte) (k : ExecKind) :
    (d.setKind e k).dataWrites e p addr bs = d.dataWrites e p addr bs := by
  have hrelaxed : (d.setKind e k).relaxed e p = d.relaxed e p := by
    rw [Dev.relaxed, Dev.relaxed, Dev.exec_setKind_same, Option.any_map]
    rfl
  rw [Dev.dataWrites, Dev.dataWrites, hrelaxed]
  rfl

end Sys2Proof.Machine

/-! ### The Store's jobs (R149, R152, R413) -/

namespace Sys2Proof.Machine

section Jobs

variable {d : Dev} {j : StoreJob} {rest : List StoreJob}

theorem Dev.modJob_cons (h : d.store.jobs = j :: rest) (f : StoreJob → StoreJob) :
    d.modJob f = { d with store := { d.store with jobs := f j :: rest } } := by
  rw [Dev.modJob, h]

/-- A head job that neither waits nor awaits its header is not started again. -/
theorem Dev.startJobs_busy (h : d.store.jobs = j :: rest) (hwait : j.phase ≠ .waiting) (hread : j.phase ≠ .readHeader) :
    d.startJobs = d := by
  have hstart : d.startJobN (2 * d.store.jobs.length + 2) = d := by simp [Dev.startJobN, h, hwait]
  rw [Dev.startJobs, hstart]
  simp [Dev.feedJobs, h, hread]

/-- A head job that removes a catalogued image goes on to erase the other catalogue half (R413). -/
theorem Dev.startJobs_remove {e : Nat} {c : CatEntry} (h : d.store.jobs = [j]) (hexec : j.exec = some e) (hwait : j.phase = .waiting)
    (hact : j.action = 2) (hdead : d.storeDead = false) (hready : d.store.ready = true) (hcat : d.catEntry j.module = some c)
    (hslot : (d.part j.iss.reader).slot c.keySlot.toNat = true) :
    d.startJobs = { d with store := { d.store with jobs := [{ j with phase := .eraseHalf d.otherHalf }] } } := by
  have hstart : d.startJobN (2 * d.store.jobs.length + 2) =
      { d with store := { d.store with jobs := [{ j with phase := .eraseHalf d.otherHalf }] } } := by
    simp [Dev.startJobN, h, hexec, hwait, hact, hdead, hready, hcat, hslot, Dev.modJob_cons h]
  rw [Dev.startJobs, hstart]
  simp [Dev.feedJobs]

section StoreImage

variable {iss : Issuer} {x : Desc}

/-- A job of the Store that its descriptor starts. -/
def newStoreJob (e : Nat) (iss : Issuer) (x : Desc) : StoreJob := { exec := some e, iss := iss, desc := x, phase := .waiting }

variable (hdead : d.storeDead = false) (hclk : d.pllDead 0 = false)
  (hs : d.mayStart iss x 0x31 false false ([(2, 0xFFFFFFFC), (3, 0xFFFFFFFF), (4, 0xFFFFFFFF), (5, 0xFFFFFFFF)] ++ resFrom 6))
  (hact : fld (dword x 2) 0 2 = 2) (hperm : (d.part iss.reader).storeWrite = true)

include hdead hclk hs hact hperm

/-- STORE_IMAGE that removes joins the queue, and the head job starts (R152, R413). -/
theorem opStoreImage_remove :
    opStoreImage iss x d =
      (d.inStore iss x .store { d.store with jobs := d.store.jobs ++ [newStoreJob d.nextExec iss x] }).startJobs := by
  have hdead' : (d.start iss x).storeDead = false := by
    rw [Dev.storeDead, Dev.ust_start]
    exact hdead
  have hbegun := Dev.beginAt_mayStart hclk hs
  unfold opStoreImage
  simp only [hact, if_true]
  refine (hbegun _).trans ?_
  simp [hperm, hdead', Dev.inStore, newStoreJob]

/-- Behind a job that is being programmed it waits (R152). -/
theorem opStoreImage_behind (h : d.store.jobs = j :: rest) (hphase : j.phase = .programming) :
    d.Executes { d with store := { d.store with jobs := d.store.jobs ++ [newStoreJob d.nextExec iss x] } }
      (opStoreImage iss x d) iss x .store := by
  have hjobs : d.store.jobs ++ [newStoreJob d.nextExec iss x] = j :: (rest ++ [newStoreJob d.nextExec iss x]) := by
    rw [h, List.cons_append]
  rw [opStoreImage_remove hdead hclk hs hact hperm, Dev.startJobs_busy hjobs (by simp [hphase]) (by simp [hphase])]
  exact Dev.executes_inStore ..

/-- Alone in the queue it goes on to erase the other catalogue half (R413). -/
theorem opStoreImage_erases {c : CatEntry} (h : d.store.jobs = []) (hready : d.store.ready = true)
    (hcat : d.catEntry (dword x 1) = some c) (hslot : (d.part iss.reader).slot c.keySlot.toNat = true) :
    d.Executes { d with store := { d.store with jobs := [{ newStoreJob d.nextExec iss x with phase := .eraseHalf d.otherHalf }] } }
      (opStoreImage iss x d) iss x .store := by
  let new := newStoreJob d.nextExec iss x
  let t := d.inStore iss x .store { d.store with jobs := [new] }
  have hslot' : (t.part iss.reader).slot c.keySlot.toNat = true := by rw [Dev.part_inStore, hslot]
  have hstarted : t.startJobs = d.inStore iss x .store { d.store with jobs := [{ new with phase := .eraseHalf d.otherHalf }] } :=
    Dev.startJobs_remove (j := new) rfl rfl rfl hact ((Dev.storeDead_inStore ..).trans hdead) hready hcat hslot'
  rw [opStoreImage_remove hdead hclk hs hact hperm, h, List.nil_append]
  change d.Executes _ t.startJobs iss x .store
  rw [hstarted]
  exact Dev.executes_inStore ..

end StoreImage

/-- A library unit that a job erases, with others to follow, is erased and counted (R149, R152). -/
theorem opStoreEraseDone_erasing {u : Nat} {l : List Nat} (hwrites : d.storeWrites = true) (h : d.store.jobs = j :: rest)
    (hphase : j.phase = .erasing l) (hu : u ∈ l.take 8) (hmore : l.erase u ≠ []) :
    opStoreEraseDone u d = ((d.eraseLib u).countErase u).modJob fun _ => { j with phase := .erasing (l.erase u) } := by
  simp [opStoreEraseDone, hwrites, h, hphase, hu, hmore]

/-- An image that reads back stands in its units, and the other catalogue half is erased next (R152). -/
theorem opStoreProgramDone_image (hwrites : d.storeWrites = true) (h : d.store.jobs = j :: rest) (hphase : j.phase = .programming) :
    opStoreProgramDone true d =
      ({ d with storeNv := { d.storeNv with lib := d.storeNv.lib.setList 0xFF (65536 * j.first) j.image } } : Dev).modJob
        fun j => { j with phase := .eraseHalf d.otherHalf } := by
  simp only [opStoreProgramDone, hwrites, h, hphase, Dev.programImage, Bool.not_true, Bool.false_eq_true, if_false, if_true]
  rfl

end Jobs

end Sys2Proof.Machine

/-! ### The vault (R158–R162, R415) -/

namespace Sys2Proof.Machine

section Vault

variable {d : Dev} {j : VaultJob} {iss : Issuer} {x : Desc}

/-- A vault job that its descriptor starts. -/
def newVaultJob (e : Nat) (iss : Issuer) (x : Desc) (write : Bool) : VaultJob :=
  { exec := e, iss := iss, desc := x, write := write, readOk := true, phase := .waiting }

/-- The device whose Store holds a job for descriptor `x`, just started (R161). -/
def Dev.withVaultJob (d : Dev) (iss : Issuer) (x : Desc) (write : Bool) : Dev :=
  d.inStore iss x .vault { d.store with vjobs := d.store.vjobs ++ [newVaultJob d.nextExec iss x write] }

theorem Dev.storeDead_withVaultJob (d : Dev) (iss : Issuer) (x : Desc) (write : Bool) :
    (d.withVaultJob iss x write).storeDead = d.storeDead := Dev.storeDead_inStore ..

theorem Dev.vjobs_withVaultJob (h : d.store.vjobs = []) (iss : Issuer) (x : Desc) (write : Bool) :
    (d.withVaultJob iss x write).store.vjobs = [newVaultJob d.nextExec iss x write] := by
  change d.store.vjobs ++ [_] = [_]
  rw [h, List.nil_append]

section Begun

variable (hclk : d.pllDead 0 = false) (hid : vaultIdOk x = true)

include hclk hid

theorem opVaultWrite_begun (hs : d.mayStart iss x 0x32 false false ([(1, 0xFFFF0000), (2, 0xFFFF0000)] ++ resFrom 5))
    (hlen : fld (dword x 2) 0 16 ≤ 4032)
    (hrange : fld (dword x 2) 0 16 ≠ 0 → badRange iss (dqword x 3).toNat (fld (dword x 2) 0 16) = false) :
    opVaultWrite iss x d = (d.withVaultJob iss x true).runVault (newVaultJob d.nextExec iss x true) := by
  have hfits : ¬ 4032 < fld (dword x 2) 0 16 := by omega
  refine (Dev.beginAt_mayStart hclk hs _).trans ?_
  by_cases hzero : fld (dword x 2) 0 16 = 0
  · simp [hid, hzero, Dev.vaultJob, Dev.withVaultJob, Dev.inStore, newVaultJob]
  · simp [hid, hfits, hrange hzero, Dev.vaultJob, Dev.withVaultJob, Dev.inStore, newVaultJob]

theorem opVaultRead_begun (hs : d.mayStart iss x 0x33 false false ([(1, 0xFFFF0000), (2, 0xFFFF0000)] ++ resFrom 5))
    (hrange : badRange iss (dqword x 3).toNat (fld (dword x 2) 0 16) = false) :
    opVaultRead iss x true d = (d.withVaultJob iss x false).runVault (newVaultJob d.nextExec iss x false) := by
  refine (Dev.beginAt_mayStart hclk hs _).trans ?_
  simp [hid, hrange, Dev.vaultJob, Dev.withVaultJob, Dev.inStore, newVaultJob]

end Begun

/-- A job alone in the vault waits for no other. -/
theorem Dev.vaultHeld_alone (h : d.store.vjobs = [j]) : d.vaultHeld j = false := by
  simp [Dev.vaultHeld, h]

/-- A vault job waits for the index (R162). -/
theorem Dev.runVault_waits (hdead : d.storeDead = false) (hready : d.store.vaultReady = false) : d.runVault j = d := by
  simp [Dev.runVault, hdead, hready]

/-- A permitted deletion alone in the vault, within the limits, is ready to be programmed (R159, R161). -/
theorem Dev.runVault_deletion (h : d.store.vjobs = [j]) (hdead : d.storeDead = false) (hready : d.store.vaultReady = true)
    (hwrite : j.write = true) (hperm : ∀ r, d.storeNv.current (vaultId j.desc) = some r → d.vaultOk j.iss r.2.owner = true)
    (hzero : fld (dword j.desc 2) 0 16 = 0) (hroom : d.vaultRoom (vaultId j.desc) 0 = true) :
    d.runVault j = { d with store := { d.store with vjobs := [{ j with phase := .ready }] } } := by
  have hallowed : ((d.storeNv.current (vaultId j.desc)).any fun r => !d.vaultOk j.iss r.2.owner) = false := by
    rcases hcur : d.storeNv.current (vaultId j.desc) with _ | r
    · rfl
    · simp [hperm r hcur]
  simp [Dev.runVault, hdead, hready, Dev.vaultHeld_alone h, hallowed, hwrite, hzero, hroom, Dev.putVault, h]

/-- A permitted read alone in the vault gives the current copy's data and header (R415). -/
theorem Dev.runVault_read {u : Nat} {r : VaultRec} (h : d.store.vjobs = [j]) (hdead : d.storeDead = false)
    (hready : d.store.vaultReady = true) (hread : j.write = false) (hok : j.readOk = true)
    (hcur : d.storeNv.current (vaultId j.desc) = some (u, r)) (hperm : d.vaultOk j.iss r.owner = true) :
    d.runVault j = (d.putHostData j.exec j.iss (dqword j.desc 3).toNat (r.data.take (fld (dword j.desc 2) 0 16))).endVault j.exec stDone
      (pack64 [(r.length.toNat, 0, 16), (r.owner.toNat, 16, 8), (r.seq.toNat, 32, 32)]) := by
  simp [Dev.runVault, hdead, hready, Dev.vaultHeld_alone h, hcur, hperm, hread, hok]

/-- A read of the vault by a ring answers with the copy's header, after its data (R370, R415). -/
theorem Dev.vaultRead_answers {p q : Nat} (hstart : d.startable (.ring p q) x = true) (hnone : d.store.vjobs = []) (addr : Nat)
    (bs : List Byte) (info : DWord) :
    let t := ((d.withVaultJob (.ring p q) x false).putHostData d.nextExec (.ring p q) addr bs).endVault d.nextExec stDone info
    d.Answered d t (.ring p q) x stDone uStore info ∧
      ∃ l, t.out = ((d.start (.ring p q) x).putHostData d.nextExec (.ring p q) addr bs).out ++ l := by
  intro t
  have hasks := Dev.asks_of_startable hstart
  have hasks' : ((d.start (.ring p q) x).hp p).conf.asks = true := by rw [Dev.conf_start, hasks]
  have horphan : (d.start (.ring p q) x).orphaned d.nextExec = false := by rw [Dev.orphaned, Dev.exec_start]; rfl
  have horphan' : (d.withVaultJob (.ring p q) x false).orphaned d.nextExec = false := by
    change (((d.start (.ring p q) x).setKind d.nextExec .vault).exec d.nextExec).any _ = false
    rw [Dev.exec_start_setKind]
    rfl
  let d0 := d.start (.ring p q) x
  let out := d0.out ++ d0.dataWrites d.nextExec p addr bs
  let t1 : Dev := { d0.setKind d.nextExec .vault with out := out }
  have hput : (d0.putHostData d.nextExec (.ring p q) addr bs).out = out := by rw [Dev.putHostData_ring horphan hasks']
  have ht : t = t1.complete d.nextExec stDone uStore info := by
    have hstore : { d.store with vjobs := [] } = d0.store := by rw [Dev.start_store, ← hnone]
    have hdata : (d.withVaultJob (.ring p q) x false).dataWrites d.nextExec p addr bs = d0.dataWrites d.nextExec p addr bs :=
      Dev.dataWrites_setKind ..
    simp only [t, t1, out]
    rw [Dev.putHostData_ring horphan' hasks', Dev.endVault, Dev.vjobs_withVaultJob hnone, hdata]
    have hgone : ([newVaultJob d.nextExec (.ring p q) x false].filter fun j => j.exec != d.nextExec) = [] := by simp [newVaultJob]
    rw [hgone]
    change ({ t1 with store := { d.store with vjobs := [] } } : Dev).complete d.nextExec stDone uStore info = _
    rw [hstore]
    rfl
  have hreplied : d.Replied t1 :=
    ((Dev.start_replied d _ x).trans (Dev.setKind_replied d0 _ _)).trans ⟨rfl, fun _ => .refl _, _, rfl⟩
  have hexec : t1.exec d.nextExec = some (d.startedExec (.ring p q) x .vault) := Dev.exec_start_setKind d _ x .vault
  have hended := Dev.complete_replied t1 d.nextExec stDone uStore info
  rw [ht, hput]
  exact ⟨⟨hreplied.trans hended, Dev.complete_nextExec .., Dev.complete_delivers hexec rfl hasks ⟨_, rfl⟩ ..⟩, hended.2.2⟩

section Descriptors

variable (hdead : d.storeDead = false) (hclk : d.pllDead 0 = false) (hid : vaultIdOk x = true)

include hdead hclk hid

/-- VAULT_WRITE waits for the index (R162). -/
theorem opVaultWrite_waits (hs : d.mayStart iss x 0x32 false false ([(1, 0xFFFF0000), (2, 0xFFFF0000)] ++ resFrom 5))
    (hlen : fld (dword x 2) 0 16 ≤ 4032)
    (hrange : fld (dword x 2) 0 16 ≠ 0 → badRange iss (dqword x 3).toNat (fld (dword x 2) 0 16) = false)
    (hready : d.store.vaultReady = false) :
    d.Executes { d with store := { d.store with vjobs := d.store.vjobs ++ [newVaultJob d.nextExec iss x true] } }
      (opVaultWrite iss x d) iss x .vault := by
  rw [opVaultWrite_begun hclk hid hs hlen hrange, Dev.runVault_waits ((Dev.storeDead_withVaultJob ..).trans hdead) hready]
  exact Dev.executes_inStore ..

/-- A deletion alone in the vault is ready to be programmed (R159). -/
theorem opVaultWrite_deletes (hs : d.mayStart iss x 0x32 false false ([(1, 0xFFFF0000), (2, 0xFFFF0000)] ++ resFrom 5))
    (hzero : fld (dword x 2) 0 16 = 0) (hready : d.store.vaultReady = true) (hnone : d.store.vjobs = [])
    (hperm : ∀ r, d.storeNv.current (vaultId x) = some r → d.vaultOk iss r.2.owner = true) (hroom : d.vaultRoom (vaultId x) 0 = true) :
    d.Executes { d with store := { d.store with vjobs := [{ newVaultJob d.nextExec iss x true with phase := .ready }] } }
      (opVaultWrite iss x d) iss x .vault := by
  have hperm' (r : Nat × VaultRec) (hr : (d.withVaultJob iss x true).storeNv.current (vaultId x) = some r) :
      (d.withVaultJob iss x true).vaultOk iss r.2.owner = true := by
    rw [Dev.withVaultJob, Dev.storeNv_inStore] at hr
    exact (Dev.vaultOk_inStore ..).trans (hperm r hr)
  have hroom' : (d.withVaultJob iss x true).vaultRoom (vaultId x) 0 = true := by
    rw [Dev.vaultRoom, Dev.withVaultJob, Dev.storeNv_inStore]
    exact hroom
  have hlen : fld (dword x 2) 0 16 ≤ 4032 := by omega
  rw [opVaultWrite_begun hclk hid hs hlen fun h => absurd hzero h,
    Dev.runVault_deletion (Dev.vjobs_withVaultJob hnone ..) ((Dev.storeDead_withVaultJob ..).trans hdead) hready rfl hperm' hzero hroom']
  exact Dev.executes_inStore ..

/-- VAULT_READ gives the current copy's header, after its data (R415). -/
theorem opVaultRead_answers {p q u : Nat} {r : VaultRec} (hiss : iss = .ring p q)
    (hs : d.mayStart iss x 0x33 false false ([(1, 0xFFFF0000), (2, 0xFFFF0000)] ++ resFrom 5))
    (hrange : badRange iss (dqword x 3).toNat (fld (dword x 2) 0 16) = false) (hready : d.store.vaultReady = true)
    (hnone : d.store.vjobs = []) (hcur : d.storeNv.current (vaultId x) = some (u, r)) (hperm : d.vaultOk iss r.owner = true) :
    let t := opVaultRead iss x true d
    d.Answered d t iss x stDone uStore (pack64 [(r.length.toNat, 0, 16), (r.owner.toNat, 16, 8), (r.seq.toNat, 32, 32)]) ∧
      ∃ l, t.out = ((d.start iss x).putHostData d.nextExec iss (dqword x 3).toNat (r.data.take (fld (dword x 2) 0 16))).out ++ l := by
  subst hiss
  have hcur' : (d.withVaultJob (.ring p q) x false).storeNv.current (vaultId x) = some (u, r) := by
    rw [Dev.withVaultJob, Dev.storeNv_inStore]
    exact hcur
  rw [opVaultRead_begun hclk hid hs hrange,
    Dev.runVault_read (Dev.vjobs_withVaultJob hnone ..) ((Dev.storeDead_withVaultJob ..).trans hdead) hready rfl rfl hcur'
      ((Dev.vaultOk_inStore ..).trans hperm)]
  obtain ⟨-, -, hstart, -⟩ := hs
  exact Dev.vaultRead_answers hstart hnone ..

end Descriptors

/-- What is put into an order is in the list. -/
theorem mem_orderBy_ins {α : Type} {before : α → α → Bool} {a x : α} {l : List α} (h : x ∈ orderBy.ins before a l) : x = a ∨ x ∈ l := by
  induction l with
  | nil => exact .inl (by simpa [orderBy.ins] using h)
  | cons y l ih =>
    unfold orderBy.ins at h
    split_ifs at h
    · rcases List.mem_cons.1 h with rfl | h
      · exact .inr List.mem_cons_self
      · exact (ih h).imp_right (List.mem_cons_of_mem y)
    · exact List.mem_cons.1 h

theorem mem_of_mem_orderBy {α : Type} {before : α → α → Bool} {x : α} {l : List α} (h : x ∈ orderBy before l) : x ∈ l := by
  induction l with
  | nil => exact h
  | cons a l ih =>
    rcases mem_orderBy_ins (show x ∈ orderBy.ins before a (orderBy before l) from h) with rfl | h
    · exact List.mem_cons_self
    · exact List.mem_cons_of_mem a (ih h)

/-- Where no vault job waits, none is taken up. -/
theorem Dev.resumeVault_none (h : ∀ j ∈ d.store.vjobs, j.phase ≠ .waiting) : d.resumeVault = d := by
  have hnone : (d.store.vjobs.filter fun j => j.phase == .waiting) = [] := List.filter_eq_nil_iff.2 (by simpa using h)
  rw [Dev.resumeVault, hnone]
  rfl

/-- The index of the vault is there; jobs that do not wait stay as they are, in the order of R36 (R162). -/
theorem opVaultIndexBuilt_settled (hdone : d.cfg.doneReleased = true) (hready : d.store.vaultReady = false)
    (hust : d.ust uStore ≠ .faulted) (hclk : d.pllDead 0 = false) (hnone : ∀ j ∈ d.store.vjobs, j.phase ≠ .waiting) :
    opVaultIndexBuilt d = { d with store := { d.store with
      vaultReady := true, vjobs := d.granted uStore (fun j => j.iss) d.store.vjobs } } := by
  simp only [opVaultIndexBuilt, hdone, hready, hclk, beq_eq_false_iff_ne.2 hust, Bool.not_true, Bool.or_self, Bool.false_eq_true, if_false]
  exact Dev.resumeVault_none fun j hj => hnone j (mem_of_mem_orderBy hj)

/-- With no job before it, a programming that completes is the vault's (R159). -/
theorem opStoreProgramDone_vault (hwrites : d.storeWrites = true) (hnone : d.store.jobs = []) (readsBack : Bool) :
    opStoreProgramDone readsBack d = d.programVault := by
  simp [opStoreProgramDone, hwrites, hnone]

section Program

variable (hready : d.store.vjobs.find? (fun j => j.phase == .ready) = some j)

include hready

/-- A first record of an ID is appended with SEQ 1, and its VAULT_WRITE completes (R158, R159). -/
theorem Dev.programVault_first {d1 : Dev} (hcur : d.storeNv.current (vaultId j.desc) = none)
    (hroom : d.vaultRoom (vaultId j.desc) (fld (dword j.desc 2) 0 16) = true)
    (happend : d.vaultAppend (mkVault (vaultId j.desc) (vaultOwner j.iss) 1 (j.data.take (fld (dword j.desc 2) 0 16))) = some d1) :
    d.programVault = (d1.endVault j.exec stDone 1).resumeVault := by
  simp only [Dev.programVault, hready, hcur, hroom, happend, Bool.not_true, Bool.false_eq_true, if_false]
  rfl

/-- A record beyond the limits ends with NO_ROOM (R161, R162). -/
theorem Dev.programVault_full (hroom : d.vaultRoom (vaultId j.desc) (fld (dword j.desc 2) 0 16) = false) :
    d.programVault = (d.endVault j.exec stNoRoom 0).resumeVault := by
  simp [Dev.programVault, hready, hroom]

end Program

/-- The vault compacts the log unit with the fewest live bytes (R160). -/
theorem Dev.compacts_least {u : Nat} (hwrites : d.storeWrites = true) (hready : d.store.vaultReady = true) (herased : d.erasedLog < 2)
    (hleast : argMin (fun u => ((((d.storeNv.liveRecords.filter fun e => e.1 == u).map fun e => e.2.size).sum : Nat) : Int))
      (((List.range 60).map fun i => 1988 + i).filter fun u =>
        u != d.storeNv.head && !(d.storeNv.log.get [] u).isEmpty && !d.store.work.worn.contains u) = some u) :
    d.compacts = some u := by
  have hfew : decide (2 ≤ d.erasedLog) = false := decide_eq_false (by omega)
  simp only [Dev.compacts, hwrites, hready, hfew, Bool.not_true, Bool.or_self, Bool.false_eq_true, if_false]
  simpa only [Nat.cast_list_sum, List.map_map, Function.comp_def] using hleast

/-- A log unit of which nothing is kept is erased (R160). -/
theorem opVaultCompaction_dead {u : Nat} (hcompacts : d.compacts = some u) (hkeeps : d.storeNv.keeps u = []) :
    opVaultCompaction d = ({ d with storeNv := { d.storeNv with log := d.storeNv.log.set [] u [] } } : Dev).countErase u := by
  simp [opVaultCompaction, hcompacts, hkeeps]

/-- A parity failure of a Store without work only faults it, and the Rake looks again at what waits (R20). -/
theorem opStoreParityFault_idle (hust : d.ust uStore = .running) (hjobs : d.store.jobs = []) (hvjobs : d.store.vjobs = []) :
    opStoreParityFault d = (d.fault uStore stInternal 0).resumeRake := by
  have hstore : (d.fault uStore stInternal 0).store = d.store := by
    rw [(Dev.fault_events d uStore stInternal 0 (by simp [hust])).1]
    rfl
  have hempty : ({ d.fault uStore stInternal 0 with store := { d.store with jobs := [] } } : Dev) = d.fault uStore stInternal 0 := by
    rw [← hjobs, ← hstore]
  have hguard : (d.ust uStore == .faulted || d.ust uStore == .off || d.ust uStore == .asleep) = false := by rw [hust]; rfl
  unfold opStoreParityFault
  rw [hguard, if_neg Bool.false_ne_true]
  extract_lets d1 d2 js maps store d3
  have hd2 : d2 = d1 := by
    simp only [d2]
    rw [hstore, hvjobs]
    rfl
  have hjs : js = [] := by
    simp only [js, hd2]
    rw [hstore, hjobs]
  have hd3 : d3 = d1 := by
    simp only [d3, store, maps, hjs, hd2]
    rw [hstore]
    exact hempty
  rw [hd3]

end Vault

end Sys2Proof.Machine

/-! ### Store does its work -/

namespace Sys2Proof.Machine

/-- Settles O30: a descriptor of the Store leaves its job in the queue and goes as far as the queue, the index and the limits allow;
an erase or a programming that completes takes the head job, or the first record that is ready, one step on. -/
theorem storeDoesItsWork : Obligations.StoreDoesItsWork := by
  refine ⟨fun s p q x => ?_, fun s => ?_⟩
  · intro d iss e vmask n hdead hclk
    refine ⟨fun hs hact hperm => ⟨fun j r hjobs hphase => ?_, fun c hjobs hready hcat hslot => ?_⟩,
      fun hs hid hlen hrange => ⟨fun hready => ?_, fun hready hzero hnone hperm hroom => ?_⟩,
      fun u r hs hid hrange hready hnone hcur hperm => ?_⟩
    · exact takes_of_runCmd (f := opStoreImage iss x) rfl hs.1 (opStoreImage_behind hdead hclk hs hact hperm hjobs hphase)
    · exact takes_of_runCmd (f := opStoreImage iss x) rfl hs.1 (opStoreImage_erases hdead hclk hs hact hperm hjobs hready hcat hslot)
    · exact takes_of_runCmd (f := opVaultWrite iss x) rfl hs.1 (opVaultWrite_waits hdead hclk hid hs hlen hrange hready)
    · exact takes_of_runCmd (f := opVaultWrite iss x) rfl hs.1
        (opVaultWrite_deletes hdead hclk hid hs hzero hready hnone hperm hroom)
    · exact takes_of_runCmd (f := opVaultRead iss x true) rfl hs.1
        (opVaultRead_answers hdead hclk hid rfl hs hrange hready hnone hcur hperm)
  · intro d
    refine ⟨fun j rest u l hwrites hjobs hphase hu hmore hlt => ?_, fun j rest hwrites hjobs hphase => ?_,
      fun j d1 hwrites hjobs hready hcur hroom happend => ?_, fun j hwrites hjobs hready hroom => ?_,
      fun hdone hready hust hclk hnone => ?_, fun u hwrites hready herased hkeeps hleast => ?_, fun hust hjobs hvjobs => ?_⟩
    · refine takes_eq (f := opStoreEraseDone u) rfl (decide_eq_true hlt) ?_
      rw [opStoreEraseDone_erasing hwrites hjobs hphase hu hmore]
      exact Dev.modJob_cons (d := (d.eraseLib u).countErase u) hjobs _
    · refine takes_eq (f := opStoreProgramDone true) rfl rfl ?_
      rw [opStoreProgramDone_image hwrites hjobs hphase]
      exact Dev.modJob_cons (d := { d with storeNv := { d.storeNv with lib := d.storeNv.lib.setList 0xFF (65536 * j.first) j.image } })
        hjobs _
    · refine takes_eq (f := opStoreProgramDone true) rfl rfl ?_
      rw [opStoreProgramDone_vault hwrites hjobs]
      exact Dev.programVault_first hready hcur hroom happend
    · refine takes_eq (f := opStoreProgramDone true) rfl rfl ?_
      rw [opStoreProgramDone_vault hwrites hjobs]
      exact Dev.programVault_full hready hroom
    · exact takes_eq (f := opVaultIndexBuilt) rfl rfl (opVaultIndexBuilt_settled hdone hready hust hclk hnone)
    · exact takes_eq (f := opVaultCompaction) rfl rfl (opVaultCompaction_dead (Dev.compacts_least hwrites hready herased hleast) hkeeps)
    · exact takes_eq (f := opStoreParityFault) rfl rfl (opStoreParityFault_idle hust hjobs hvjobs)

end Sys2Proof.Machine

end

section

-- As above: one proof after another, within the check's memory.
set_option Elab.async false

/-! ### Records that build up a load (R171, R173, R174, R176, R183, R184)

What each record comes to once it is addressed to a device that takes a stream: forwarded, and its change made to the load. -/

namespace Sys2Proof.Machine

/-- The bytes of a REGW record of one pair: an address and a value (R174). -/
theorem regwPair_fields {a v : Nat} (ha : a < 2 ^ 32) (hv : v < 2 ^ 32) :
    (leBytes 4 a ++ leBytes 4 v).length = 8 ∧ leAt (leBytes 4 a ++ leBytes 4 v) 0 4 = a ∧
      leAt (leBytes 4 a ++ leBytes 4 v) 4 4 = v := by
  have haddr := leAt_append_leBytes [] (leBytes 4 v) 4 a
  have hvalue := leAt_append_leBytes (leBytes 4 a) [] 4 v
  rw [List.append_nil, length_leBytes, ofLe_leBytes, show 256 ^ 4 = 2 ^ 32 by decide, Nat.mod_eq_of_lt hv] at hvalue
  rw [ofLe_leBytes, show 256 ^ 4 = 2 ^ 32 by decide, Nat.mod_eq_of_lt ha] at haddr
  exact ⟨by simp, haddr, hvalue⟩

section Sync

variable {d : Dev}

@[simp] theorem Dev.forward_cfg (d : Dev) (n : Nat) (out : List Byte) : (d.forward n out).cfg = d.cfg := rfl
@[simp] theorem Dev.ust_forward (d : Dev) (n : Nat) (out : List Byte) (u : Nat) : (d.forward n out).ust u = d.ust u := rfl
@[simp] theorem Dev.portWaits_forward (d : Dev) (n : Nat) (out : List Byte) : (d.forward n out).portWaits = d.portWaits := rfl
@[simp] theorem Dev.targeted_forward (d : Dev) (n : Nat) (out : List Byte) (h : RecHdr) :
    (d.forward n out).targeted h = d.targeted h := rfl

/-- A device that loads nothing takes the sync sequence, which ends the error latch of the load before; one that waits for a stream
starts a load (R171, R200). -/
theorem opSyncSequence_unloaded (hclk : d.pllDead 0 = false) (hphase : d.cfg.phase ≠ .held) (hecho : echoMode d.cfg.mode = false)
    (hport : d.ust uCfgPort ≠ .faulted) (hl : d.cfg.load = none) (pad : Nat) :
    let t := opSyncSequence pad d
    t = { d with cfg := { d.cfg with synced := true, errLatched := false, load := if d.portWaits then some {} else none },
                 test := t.test, out := t.out } := by
  have hheld : (d.cfg.phase == .held) = false := beq_eq_false_iff_ne.2 hphase
  have hfault : (d.ust uCfgPort == .faulted) = false := beq_eq_false_iff_ne.2 hport
  simp only [opSyncSequence, Dev.forward_cfg, Dev.ust_forward, Dev.portWaits_forward, hclk, hheld, hecho, hfault, hl, Option.isSome_none,
    Bool.or_self, Bool.false_eq_true, if_false]
  rfl

/-- A device that waits for a stream starts a load at the sync sequence (R171). -/
theorem opSyncSequence_waits (hw : d.portWaits = true) (hl : d.cfg.load = none) (pad : Nat) :
    let t := opSyncSequence pad d
    t = { d with cfg := { d.cfg with synced := true, errLatched := false, load := some {} }, test := t.test, out := t.out } := by
  obtain ⟨hphase, hecho, hport, -, hclk⟩ := Dev.conditions_of_portWaits hw
  have htaken := opSyncSequence_unloaded hclk (by simp [hphase]) hecho hport hl pad
  rwa [if_pos hw] at htaken

/-- One that waits for none only notes the sync (R200). -/
theorem opSyncSequence_idle (hw : d.portWaits = false) (hclk : d.pllDead 0 = false) (hphase : d.cfg.phase ≠ .held)
    (hecho : echoMode d.cfg.mode = false) (hport : d.ust uCfgPort ≠ .faulted) (hl : d.cfg.load = none) (pad : Nat) :
    let t := opSyncSequence pad d
    t = { d with cfg := { d.cfg with synced := true, errLatched := false }, test := t.test, out := t.out } := by
  have htaken := opSyncSequence_unloaded hclk hphase hecho hport hl pad
  rwa [if_neg (by simp [hw]), ← hl] at htaken

end Sync

section Taken

variable {d : Dev} {h : RecHdr} {l : Load} {bs : List Byte}

/-- The device that has sent a record of a stream on (R192). -/
def Dev.sentOn (d : Dev) (ty : Byte) (h : RecHdr) (bs : List Byte) : Dev :=
  d.forward (8 + bs.length) (headerBytes ty h bs.length ++ bs)

/-- A record in a keyed load whose epoch has room must be encrypted (R176, R184). -/
theorem Dev.plainRecord_unencrypted (hkey : l.keyed = true) (hroom : l.epochFrames ≠ 256) (hshort : l.short = false)
    (henc : recEnc h = false) (ty : Byte) (payload : List Byte) (k : Dev → Load → List Byte → Dev) :
    d.plainRecord ty h payload l k = d.loadFail stAuth 0xFFFFFE := by
  simp [Dev.plainRecord, hkey, hroom, hshort, henc]

/-- An encrypted record joins what the next tag covers, its header as additional data (R184). -/
theorem Dev.plainRecord_encrypted (hkey : l.keyed = true) (hroom : l.epochFrames ≠ 256) (hshort : l.short = false)
    (henc : recEnc h = true) (ty : Byte) (payload : List Byte) (k : Dev → Load → List Byte → Dev) :
    d.plainRecord ty h payload l k =
      k d { l with lastTag := false, aad := l.aad ++ headerBytes ty h payload.length, ct := l.ct ++ payload }
        ((gcmDecrypt l.key l.nonce (l.ct ++ payload)).drop l.ct.length) := by
  simp [Dev.plainRecord, hkey, hroom, hshort, henc]

variable (hw : d.portWaits = true) (hl : d.cfg.load = some l) (hs : d.cfg.synced = true) (ht : d.targeted h = true)

include hw hl hs ht

theorem opUnknownRecord_encrypted (hkey : l.keyed = true) (hroom : l.epochFrames ≠ 256) (hshort : l.short = false)
    (henc : recEnc h = true) (ty : Byte) :
    opUnknownRecord ty h bs d = (d.sentOn ty h bs).putLoad
      { l with lastTag := false, aad := l.aad ++ headerBytes ty h bs.length, ct := l.ct ++ bs } := by
  rw [opUnknownRecord, Dev.record_taken hw hl hs ht, Dev.plainRecord_encrypted hkey hroom hshort henc, Dev.sentOn]

theorem opUnknownRecord_unencrypted (hkey : l.keyed = true) (hroom : l.epochFrames ≠ 256) (hshort : l.short = false)
    (henc : recEnc h = false) (ty : Byte) : opUnknownRecord ty h bs d = (d.sentOn ty h bs).loadFail stAuth 0xFFFFFE := by
  rw [opUnknownRecord, Dev.record_taken hw hl hs ht, Dev.plainRecord_unencrypted hkey hroom hshort henc, Dev.sentOn]

variable (hkey : l.keyed = false) (henc : recEnc h = false)

include hkey henc

theorem opNopRecord_clear : opNopRecord h bs d = (d.sentOn 0x02 h bs).putLoad { l with lastTag := false } := by
  rw [opNopRecord, Dev.record_taken hw hl hs ht, Dev.plainRecord_clear hkey henc, Dev.sentOn]

theorem opUnknownRecord_clear (ty : Byte) :
    opUnknownRecord ty h bs d = (d.sentOn ty h bs).putLoad { l with lastTag := false } := by
  rw [opUnknownRecord, Dev.record_taken hw hl hs ht, Dev.plainRecord_clear hkey henc, Dev.sentOn]

/-- A REGW record of one pair that the load takes (R174). -/
theorem opRegwRecord_pair {a v : Nat} {l1 : Load} (ha : a < 2 ^ 32) (hv : v < 2 ^ 32) (hbs : bs = leBytes 4 a ++ leBytes 4 v)
    (hreg : d.streamReg { l with lastTag := false } a v = .inl l1) :
    opRegwRecord h bs d = (d.sentOn 0x10 h bs).putLoad l1 := by
  obtain ⟨hlen, haddr, hvalue⟩ := regwPair_fields ha hv
  rw [← hbs] at hlen haddr hvalue
  have hsent : (d.sentOn 0x10 h bs).streamReg { l with lastTag := false } a v = .inl l1 := hreg
  have hwhole : ¬ bs.length % 8 ≠ 0 := by omega
  have hpairs : (List.range (bs.length / 8)).map (fun i => (leAt bs (8 * i) 4, leAt bs (8 * i + 4) 4)) = [(a, v)] := by
    rw [hlen]
    simp [haddr, hvalue]
  rw [opRegwRecord, Dev.record_taken hw hl hs ht, Dev.plainRecord_clear hkey henc, ← Dev.sentOn]
  simp only [if_neg hwhole, hpairs, Dev.streamRegs, hsent]

/-- KEY begins key epoch 0 with a key of its slot and its nonce (R183). -/
theorem opKeyRecord_begins (hlen : bs.length = 16) (hst : l.started = false) (hslot : d.deviceSlotOk (some (leAt bs 0 1)) = true) :
    opKeyRecord h bs d = (d.sentOn 0x11 h bs).putLoad { l with
      keyed := true, nonce := slice bs 4 12, key := kdf (d.slotKey (leAt bs 0 1)) (slice bs 4 12) 0, lastTag := false } := by
  have hsent : (d.sentOn 0x11 h bs).deviceSlotOk (some (leAt bs 0 1)) = true := hslot
  rw [opKeyRecord, Dev.record_taken hw hl hs ht, ← Dev.sentOn]
  simp only [hlen, hkey, hst, henc, hsent, ne_eq, not_true_eq_false, if_false, Bool.not_true, Bool.or_false, Bool.false_eq_true]
  rfl

/-- Without a KEY record a TAG closes nothing (R184). -/
theorem opTagRecord_clear (hlen : bs.length = 16) : opTagRecord h bs d = (d.sentOn 0x12 h bs).putLoad { l with lastTag := true } := by
  rw [opTagRecord, Dev.record_taken hw hl hs ht, ← Dev.sentOn]
  simp [Dev.encBarred, henc, hlen, hkey]

/-- PANSET of a pan that the load leaves empty: it is noted, and no shadow is opened (R173, R176). -/
theorem opPansetRecord_empty (hlen : bs.length = 24) (hst : l.started = true)
    (hempty : ((slice bs 1 1).any fun b => b.getLsbD 0) = true) (hp : leAt bs 0 1 < 64) (hnew : l.pansets.get none (leAt bs 0 1) = none) :
    opPansetRecord h bs d = (d.sentOn 0x20 h bs).putLoad { l with
      lastTag := false
      pansets := l.pansets.set none (leAt bs 0 1) (some (true, BitVec.ofNat 8 (leAt bs 2 1), wordAt bs 4, BitVec.ofNat 64 (leAt bs 8 8))) } := by
  have hgood : ¬ (bs.length ≠ 24 ∨ 64 ≤ leAt bs 0 1 ∨ (l.pansets.get none (leAt bs 0 1)).isSome = true) := by
    simp [hlen, hnew, hp]
  rw [opPansetRecord, Dev.record_taken hw hl hs ht, Dev.plainRecord_clear hkey henc, ← Dev.sentOn,
    Dev.streamStart_started (l := { l with lastTag := false }) hst]
  simp only [if_neg hgood, hempty, if_true, hst]

end Taken

/-! #### CHAIN, foreign records and the timeout (R189, R193, R194) -/

section Chain

variable {d : Dev} {h : RecHdr} {bs : List Byte}

/-- A device after a CHAIN record that gives it position `v`: the next value has gone out (R193). -/
def Dev.chained (d : Dev) (h : RecHdr) (v : Nat) : Dev :=
  let e := d.forward 10 (headerBytes 0x01 h 2 ++ leBytes 2 (v + 1))
  { e with cfg := { e.cfg with posSet := true, pos := BitVec.ofNat 8 v } }

section Position

variable (hclk : d.pllDead 0 = false) (hphase : d.cfg.phase ≠ .held) (hs : d.cfg.synced = true)
  (hecho : echoMode d.cfg.mode = false) (hport : d.ust uCfgPort ≠ .faulted) (hall : h.target = 0xFFFF) (hlen : bs.length = 2)
  (hpos : leAt bs 0 2 ≤ 255)

include hclk hphase hs hecho hport hall hlen hpos

/-- A device that loads nothing takes its position (R193). -/
theorem opChainRecord_unloaded (hl : (if d.portWaits then d.cfg.load else none) = none) :
    opChainRecord h bs d = d.chained h (leAt bs 0 2) := by
  simp [opChainRecord, hclk, hphase, hs, hecho, hport, hall, hlen, hpos, hl, Dev.chained]

/-- In a load in clear the record counts as one of the load besides (R176, R193). -/
theorem opChainRecord_loading {l : Load} (hl : (if d.portWaits then d.cfg.load else none) = some l) (hkey : l.keyed = false)
    (henc : recEnc h = false) : opChainRecord h bs d = (d.chained h (leAt bs 0 2)).putLoad { l with lastTag := false } := by
  have ht : d.targeted h = true := by simp [Dev.targeted, hall]
  simp [opChainRecord, hclk, hphase, hs, hecho, hport, hall, hlen, hpos, hl, ht, hkey, Dev.plainRecord_clear hkey henc, Dev.chained]

end Position

/-- A record for another position only goes on (R194). -/
theorem opForeignRecord_untargeted (hclk : d.pllDead 0 = false) (hphase : d.cfg.phase ≠ .held) (ht : d.targeted h = false)
    (ty : Byte) : opForeignRecord ty h bs d = d.sentOn ty h bs := by
  simp [opForeignRecord, Dev.record, hclk, hphase, ht, Dev.sentOn]

/-- A blank device whose load fails first notes the error and waits for a new stream (R188, R200, R202). -/
theorem Dev.loadFail_blank (herr : d.cfg.err = false) (hblank : d.cfg.blank = true) (status addr : Nat) :
    d.loadFail status addr = { d with cfg := { d.cfg with
      err := true, errStatus := BitVec.ofNat 8 status, errSource := 0xF, errAddr := BitVec.ofNat 24 addr, errPan := 0
      load := none, synced := false, errLatched := true, loadFailed := true } } := by
  simp [Dev.loadFail, Dev.cfgError, herr, hblank]

theorem opCfgTimeout_loading {l : Load} (hw : d.portWaits = true) (hl : d.cfg.load = some l) :
    opCfgTimeout d = d.loadFail stTrunc l.frames := by
  simp [opCfgTimeout, hw, hl]

end Chain

end Sys2Proof.Machine

/-! ### Stream records build the load -/

namespace Sys2Proof.Machine

/-- Settles O23: a record that the device takes is forwarded and changes the load by its type, in clear or under the key; CHAIN,
a foreign record and the timeout are taken without a load as well. -/
theorem streamRecordsBuildTheLoad : Obligations.StreamRecordsBuildTheLoad := by
  refine ⟨fun s h bs l ty pad => ?_, fun s h bs ty l => ?_⟩
  · intro d fwd after
    refine ⟨fun hw hl => ?_, fun hw hclk hphase hecho hport hl => ?_, fun hw hl hs ht => ⟨fun hkey henc => ?_, fun hkey hroom hshort => ?_⟩⟩
    · exact takes_of_runCmd (f := opSyncSequence pad) rfl rfl (opSyncSequence_waits hw hl pad)
    · exact takes_of_runCmd (f := opSyncSequence pad) rfl rfl (opSyncSequence_idle hw hclk hphase hecho hport hl pad)
    · have takes_regw {a v : Nat} {l1 : Load} (ha : a < 2 ^ 32) (hv : v < 2 ^ 32) (hbs : bs = leBytes 4 a ++ leBytes 4 v)
          (hreg : d.streamReg { l with lastTag := false } a v = .inl l1) : Takes (.regwRecord h bs) s fun t => t = after 0x10 l1 :=
        takes_eq (f := opRegwRecord h bs) rfl rfl (opRegwRecord_pair hw hl hs ht hkey henc ha hv hbs hreg)
      refine ⟨?_, fun hst hbs => ?_, fun hst v hv hroll hbs => ?_, fun v hv hbs => ?_, fun v hv hbs => ?_,
        fun hlen hst hslot => ?_, fun hlen => ?_, ?_, fun hlen hst hempty hp hnew => ?_⟩
      · exact takes_eq (f := opNopRecord h bs) rfl rfl (opNopRecord_clear hw hl hs ht hkey henc)
      · exact takes_regw (by decide) (by decide) hbs (by simp [Dev.streamReg, hst])
      · exact takes_regw (by decide) hv hbs (by simp [Dev.streamReg, hst, hroll])
      · exact takes_regw (by decide) hv hbs rfl
      · exact takes_regw (by decide) hv hbs rfl
      · exact takes_eq (f := opKeyRecord h bs) rfl rfl (opKeyRecord_begins hw hl hs ht hkey henc hlen hst hslot)
      · exact takes_eq (f := opTagRecord h bs) rfl rfl (opTagRecord_clear hw hl hs ht hkey henc hlen)
      · exact takes_eq (f := opUnknownRecord ty h bs) rfl rfl (opUnknownRecord_clear hw hl hs ht hkey henc ty)
      · exact takes_eq (f := opPansetRecord h bs) rfl rfl (opPansetRecord_empty hw hl hs ht hkey henc hlen hst hempty hp hnew)
    · exact ⟨fun henc => takes_eq (f := opUnknownRecord ty h bs) rfl rfl
          (opUnknownRecord_unencrypted hw hl hs ht hkey hroom hshort henc ty),
        fun henc => takes_eq (f := opUnknownRecord ty h bs) rfl rfl
          (opUnknownRecord_encrypted hw hl hs ht hkey hroom hshort henc ty)⟩
  · intro d
    refine ⟨fun hclk hphase hs hecho hport hall hlen hpos hclear => ?_, fun hclk hphase ht => ?_, fun hw hl herr hblank => ?_⟩
    · refine takes_eq (f := opChainRecord h bs) rfl rfl ?_
      change opChainRecord h bs d = _
      cases hload : (if d.portWaits then d.cfg.load else none) with
      | none =>
        have hkeeps : (if d.portWaits then d.cfg.load.map (fun l' => { l' with lastTag := false }) else d.cfg.load) = d.cfg.load := by
          split_ifs at hload ⊢ with hw
          · rw [hload, Option.map_none]
          · rfl
        rw [opChainRecord_unloaded hclk hphase hs hecho hport hall hlen hpos hload, hkeeps]
        rfl
      | some l1 =>
        obtain ⟨hw, hl⟩ : d.portWaits = true ∧ d.cfg.load = some l1 := by simpa using hload
        obtain ⟨hkey, henc⟩ := hclear l1 hw hl
        rw [opChainRecord_loading hclk hphase hs hecho hport hall hlen hpos hload hkey henc, if_pos hw, hl]
        rfl
    · exact takes_eq (f := opForeignRecord ty h bs) rfl rfl (opForeignRecord_untargeted hclk hphase ht ty)
    · refine takes_eq (f := opCfgTimeout) rfl rfl ?_
      rw [opCfgTimeout_loading hw hl]
      exact Dev.loadFail_blank herr hblank stTrunc l.frames

end Sys2Proof.Machine

end

section

-- As above: one proof after another, within the check's memory.
set_option Elab.async false

/-! ### Relay blocks (R175, R452)

RELAY_SEND reads everything from the device as it stood before; each relay link then changes alone. -/

namespace Sys2Proof.Machine

/-- A relay link that is RUNNING: RELAY_EN is in force, and its peer has RELAY 1 (R452). -/
def Dev.relays (d : Dev) (n : Nat) : Bool := d.breraRuns n && bit (d.link n).inForce 11 && (d.link n).peer.any fun h => h.relay

/-- The STATE that a relay link is sent: LOCAL and the states of the other relay links (R452). -/
def Dev.relayValue (d : Dev) (n : Nat) : Bool :=
  d.relayLocal && (d.relayPorts.filter fun m => m ≠ n && d.relayLink m).all d.relayState

/-- What RELAY_SEND of device `d` does at port `n` to the device `a` that it has reached. -/
def Dev.relayAt (d a : Dev) (n : Nat) : Dev :=
  if d.relays n then (a.modLink n fun l => { l with relayOut := d.relayValue n }).emit (.linkRelay n (d.relayValue n)) else a

theorem opRelaySend_on {d : Dev} (hon : bit d.cfg.opts 3 = true) : opRelaySend d = foldS d.relayAt d (List.range 96) := by
  rw [opRelaySend, hon]
  rfl

theorem opRelaySend_off {d : Dev} (hoff : bit d.cfg.opts 3 = false) : opRelaySend d = d := by
  simp [opRelaySend, hoff]

section Fold

variable (d a : Dev) (ns : List Nat)

/-- RELAY_SEND changes the links and what goes out, nothing else. -/
theorem Dev.relaySends_frame :
    let t := foldS d.relayAt a ns
    t = { a with links := t.links, out := t.out } := by
  refine foldS_inv (fun t : Dev => t = { a with links := t.links, out := t.out }) d.relayAt a ns (fun t n h => ?_) rfl
  unfold Dev.relayAt
  split_ifs
  · rw [h]
    rfl
  · exact h

theorem Dev.link_relayAt (n m : Nat) :
    (d.relayAt a n).link m = if n = m ∧ d.relays m then { a.link m with relayOut := d.relayValue m } else a.link m := by
  by_cases hn : d.relays n = true
  · rw [Dev.relayAt, if_pos hn, Dev.link_emit]
    rcases eq_or_ne n m with rfl | hne
    · rw [Dev.link_modLink_same, if_pos ⟨rfl, hn⟩]
    · rw [Dev.link_modLink_other _ _ _ _ hne.symm, if_neg fun hboth => hne hboth.1]
  · rw [Dev.relayAt, if_neg hn, if_neg]
    rintro ⟨rfl, hm⟩
    exact hn hm

/-- Each running relay link among the ports shows the value that it is sent; the others keep what they have. -/
theorem Dev.link_relaySends (m : Nat) :
    (foldS d.relayAt a ns).link m =
      if m ∈ ns ∧ d.relays m then { a.link m with relayOut := d.relayValue m } else a.link m := by
  induction ns generalizing a with
  | nil => simp [foldS]
  | cons n ns ih =>
    have hcons : foldS d.relayAt a (n :: ns) = foldS d.relayAt (d.relayAt a n) ns := rfl
    rw [hcons, ih, Dev.link_relayAt]
    by_cases hm : d.relays m = true
    · by_cases hn : n = m
      · simp [hm, hn]
      · simp [hm, hn, Ne.symm hn]
    · simp [hm]

theorem Dev.out_relayAt (n : Nat) :
    (d.relayAt a n).out = a.out ++ if d.relays n then [.linkRelay n (d.relayValue n)] else [] := by
  unfold Dev.relayAt
  split_ifs
  · rfl
  · rw [List.append_nil]

/-- One RELAY block goes out on each running relay link among the ports (R452). -/
theorem Dev.out_relaySends :
    (foldS d.relayAt a ns).out = a.out ++ (ns.filter d.relays).map fun n => .linkRelay n (d.relayValue n) := by
  induction ns generalizing a with
  | nil => simp [foldS]
  | cons n ns ih =>
    have hcons : foldS d.relayAt a (n :: ns) = foldS d.relayAt (d.relayAt a n) ns := rfl
    rw [hcons, ih, Dev.out_relayAt, List.append_assoc, List.filter_cons]
    split_ifs
    · rfl
    · rfl

end Fold

/-- STATE of a running relay link follows a RELAY block (R452). -/
theorem opRelayBlock_relays {d : Dev} {n : Nat} (hn : d.relays n = true) (hfar : d.farLoop n = false) (st : Bool) :
    opRelayBlock n st d = d.modLink n fun l => { l with relayIn := st } := by
  rw [opRelayBlock, hfar, if_neg Bool.false_ne_true, ← Dev.relays, if_pos hn]

/-- SYS_START rises with its event, and what it feeds settles (R453). -/
theorem opSysStart_rises {d : Dev} {atPps : Bool} (hlow : d.glb.sysStart = false) (hsys : d.sys = true)
    (halign : bit d.cfg.opts 1 = atPps) :
    ∃ e, ({ d with glb := { d.glb with sysStart := true } } : Dev).Events e ∧ opSysStart atPps d = e.refreshPins := by
  refine ⟨_, Dev.event_events _ (uLink (d.relayPorts.headD 0)) 0x04 0 (BitVec.ofNat 64 (b2n atPps)), ?_⟩
  simp [opSysStart, hlow, hsys, halign]

/-! ### SLEEP blocks (R455, R528) -/

section Sleep

variable {d : Dev} {n : Nat}

/-- The answer goes to the port that asked: it is noted, and where the sleep controller asks the port, it accepts or refuses
(R455, R528). -/
theorem Dev.sleepAnswer_eq (d : Dev) (n : Nat) (ok : Bool) :
    d.sleepAnswer n ok =
      let e := d.modLink n fun l => { l with sleepAsked := false, sleepOk := ok }
      if d.isAsked (uLink n) then (if ok then e.acceptUnit (uLink n) else e.refuseUnit (uLink n) 0) else e := by
  have hasked (f : LinkPort → LinkPort) : (d.modLink n f).isAsked (uLink n) = d.isAsked (uLink n) := rfl
  unfold Dev.sleepAnswer
  cases hc : d.isAsked (uLink n) <;> simp [hasked, hc]

theorem opSleepAnswerTimeout_asked (hasked : (d.link n).sleepAsked = true) : opSleepAnswerTimeout n d = d.sleepAnswer n false :=
  if_pos hasked

variable (hruns : d.breraRuns n = true) (hfar : d.farLoop n = false)

include hruns hfar

theorem opSleepBlock_request_idle (hidle : d.linkIdle (d.lhome n) = true) :
    opSleepBlock n .request d = (d.modLink n fun l => { l with peerAsleep := true }).emit (.linkSleep n .accept) := by
  simp [opSleepBlock, hruns, hfar, hidle]

theorem opSleepBlock_request_busy (hbusy : d.linkIdle (d.lhome n) = false) :
    opSleepBlock n .request d = d.emit (.linkSleep n .refuse) := by
  simp [opSleepBlock, hruns, hfar, hbusy]

theorem opSleepBlock_accept (hasked : (d.link n).sleepAsked = true) : opSleepBlock n .accept d = d.sleepAnswer n true := by
  simp [opSleepBlock, hruns, hfar, hasked]

theorem opSleepBlock_refuse (hasked : (d.link n).sleepAsked = true) : opSleepBlock n .refuse d = d.sleepAnswer n false := by
  simp [opSleepBlock, hruns, hfar, hasked]

end Sleep

end Sys2Proof.Machine

/-! ### Relay and sleep blocks -/

namespace Sys2Proof.Machine

/-- Settles O44: RELAY_SEND reads the device as it stood before, so each running relay link is sent its own value whatever the order;
a SLEEP block or its absence comes to one answer. -/
theorem relayAndSleepBlocks : Obligations.RelayAndSleepBlocks := by
  refine ⟨fun s n st atPps hn => ?_, fun s n hn => ?_⟩
  · intro d relays
    refine ⟨fun hrelay hfar => ?_, fun hoff => ?_, fun hon => ?_, fun hlow hsys halign => ?_⟩
    · exact takes_eq (f := opRelayBlock n st) rfl (decide_eq_true hn) (opRelayBlock_relays hrelay hfar st)
    · exact takes_eq (f := opRelaySend) rfl rfl (opRelaySend_off hoff)
    · refine takes_of_runCmd (f := opRelaySend) rfl rfl ?_
      rw [opRelaySend_on hon]
      refine ⟨Dev.relaySends_frame d d _, fun m hm => ⟨fun hrelay => ?_, fun hrelay => ?_⟩⟩
      · exact (Dev.link_relaySends d d _ m).trans (if_neg fun hboth => Bool.false_ne_true (hrelay.symm.trans hboth.2))
      · have hin : m ∈ List.range 96 := List.mem_range.2 hm
        have hsent : Output.linkRelay m (d.relayValue m) ∈ (foldS d.relayAt d (List.range 96)).out := by
          rw [Dev.out_relaySends]
          exact List.mem_append_right _ (List.mem_map_of_mem (List.mem_filter.2 ⟨hin, hrelay⟩))
        exact ⟨(Dev.link_relaySends d d _ m).trans (if_pos ⟨hin, hrelay⟩), hsent⟩
    · exact takes_of_runCmd (f := opSysStart atPps) rfl rfl (opSysStart_rises hlow hsys halign)
  · intro d answered
    refine ⟨fun hruns hfar => ⟨fun hidle => ?_, fun hbusy => ?_, fun hasked => ⟨?_, ?_⟩⟩, fun hasked => ?_⟩
    · exact takes_eq (f := opSleepBlock n .request) rfl (decide_eq_true hn) (opSleepBlock_request_idle hruns hfar hidle)
    · exact takes_eq (f := opSleepBlock n .request) rfl (decide_eq_true hn) (opSleepBlock_request_busy hruns hfar hbusy)
    · exact takes_eq (f := opSleepBlock n .accept) rfl (decide_eq_true hn)
        ((opSleepBlock_accept hruns hfar hasked).trans (Dev.sleepAnswer_eq d n true))
    · exact takes_eq (f := opSleepBlock n .refuse) rfl (decide_eq_true hn)
        ((opSleepBlock_refuse hruns hfar hasked).trans (Dev.sleepAnswer_eq d n false))
    · exact takes_eq (f := opSleepAnswerTimeout n) rfl (decide_eq_true hn)
        ((opSleepAnswerTimeout_asked hasked).trans (Dev.sleepAnswer_eq d n false))

end Sys2Proof.Machine

end

section

set_option Elab.async false

/-! ### Requests as they move (R280, R281)

A request that takes a new stage and a response that leaves for its ingress change the Sluice alone. -/

namespace Sys2Proof.Machine

/-- The devices differ at most in the Sluice and in the activity that telemetry counts. -/
def Dev.OnlySluice (d t : Dev) : Prop := t = { d with sl := t.sl, tele := t.tele }

namespace Dev.OnlySluice

variable {a b c : Dev}

theorem trans (h1 : a.OnlySluice b) (h2 : b.OnlySluice c) : a.OnlySluice c := by
  unfold OnlySluice at *
  rw [h2, h1]

theorem modIng (d : Dev) (i : Nat) (f : Ingress → Ingress) : d.OnlySluice (d.modIng i f) := rfl

theorem modDest (d : Dev) (k : Nat) (f : SlDest → SlDest) : d.OnlySluice (d.modDest k f) := rfl

theorem stageReq (d : Dev) (r : Nat) (s : ReqStage) : d.OnlySluice (d.stageReq r s) := rfl

theorem dropReq (d : Dev) (r : Nat) : d.OnlySluice (d.dropReq r) := rfl

theorem panBeats (d : Dev) (p k : Nat) : d.OnlySluice (d.panBeats p k) := rfl

/-- What goes out after such a change stands behind what went out before it. -/
theorem emits (h : a.OnlySluice b) (l : List Output) :
    let t : Dev := { b with out := b.out ++ l }
    t = { a with sl := t.sl, tele := t.tele, out := a.out ++ l } := by
  unfold OnlySluice at h
  rw [h]

theorem emit (h : a.OnlySluice b) (o : Output) :
    b.emit o = { a with sl := (b.emit o).sl, tele := (b.emit o).tele, out := a.out ++ [o] } :=
  h.emits [o]

end Dev.OnlySluice

@[simp] theorem Dev.req_stageReq_same (d : Dev) (r : Nat) (s : ReqStage) :
    (d.stageReq r s).req r = (d.req r).map fun q => { q with stage := s } :=
  Dev.req_modReq_same ..

@[simp] theorem Dev.req_dropReq_same (d : Dev) (r : Nat) : (d.dropReq r).req r = none := by
  simp [Dev.req, Dev.dropReq]

theorem Dev.respond_some {d : Dev} {r : Nat} {q : SlIn} (hreq : d.req r = some q) (lines : List (Byte × Line)) :
    d.respond r lines =
      (d.stageReq r .responding).modIng q.ingress fun i => { i with resp := i.resp ++ [{ rid := r, lines := lines }] } := by
  rw [Dev.respond, hreq]

theorem Dev.foldS_emit {α : Type} (f : α → Output) (d : Dev) (l : List α) :
    foldS (fun d x => d.emit (f x)) d l = { d with out := d.out ++ l.map f } := by
  induction l generalizing d with
  | nil => rw [List.map_nil, List.append_nil]; rfl
  | cons x l ih =>
    have hstep : foldS (fun d x => d.emit (f x)) d (x :: l) = foldS (fun d x => d.emit (f x)) (d.emit (f x)) l := rfl
    rw [hstep, ih]
    simp [Dev.emit]

/-! ### Pan ports (R280–R283) -/

section PanPort

variable {d : Dev} {p : Nat}

theorem opClose_held (h : d.ust (uPan p) = .staged ∨ ((d.pan p).srcCommitHold = true ∧ d.ust (uPan p) = .running)) :
    opClose p .held d = d.setPan p { d.pan p with port := .held } :=
  if_pos (by simpa using h)

theorem opClose_refusing (h : d.ust (uPan p) = .quiesced ∨ ((d.pan p).srcCommitHold = true ∧ d.ust (uPan p) = .running)) :
    opClose p .refusing d = d.setPan p { d.pan p with port := .refusing } :=
  if_pos (by simpa using h)

theorem opClose_empty (h : d.ust (uPan p) ∈ [UState.idle, .staged, .faulted, .off]) :
    opClose p .empty d = d.setPan p { d.pan p with port := .empty } :=
  if_pos (by simpa [or_assoc] using h)

theorem opOpen_released (hruns : d.ust (uPan p) = .running) (hshut : (d.pan p).shut = false)
    (hheld : (d.pan p).srcCommitHold = false) : opOpen p d = d.setPan p { d.pan p with port := .opened } :=
  if_pos (by simp [hruns, hshut, hheld])

end PanPort

section Endpoint

/-- Pan port `p` hands request `r` over under this ITAG; the others stay queued, and its beats are counted (R280, R281). -/
def Dev.handOver (d : Dev) (p r tg : Nat) (rest : List Nat) (beats : Nat) : Dev :=
  ((d.modDest p fun t => { t with queue := rest }).stageReq r (.atModule p tg)).panBeats p beats

/-- The module of pan `p` answers request `r` of ingress `i` with these lines: its slot is free again (R281, R282). -/
def Dev.moduleAnswer (d : Dev) (p r i : Nat) (lines : List (Byte × Line)) (beats : Nat) : Dev :=
  (((d.freeSlot p).panBeats p beats).stageReq r .responding).modIng i fun g =>
    { g with resp := g.resp ++ [{ rid := r, lines := lines }] }

/-- Ingress `i` gives the response of request `r` to the module of pan `p`: both are done with (R280, R281). -/
def Dev.handBack (d : Dev) (p r i : Nat) (rest : List SlResp) (beats : Nat) : Dev :=
  ((d.modIng i fun g => { g with resp := rest }).dropReq r).panBeats p beats

variable (d : Dev) (p r i tg beats : Nat)

theorem Dev.onlySluice_handOver (rest : List Nat) : d.OnlySluice (d.handOver p r tg rest beats) :=
  ((Dev.OnlySluice.modDest d p _).trans (.stageReq _ r _)).trans (.panBeats _ p beats)

theorem Dev.dest_handOver (rest : List Nat) : (d.handOver p r tg rest beats).dest p = { d.dest p with queue := rest } :=
  Dev.dest_modDest_same d p fun t => { t with queue := rest }

theorem Dev.req_handOver (rest : List Nat) :
    (d.handOver p r tg rest beats).req r = (d.req r).map fun q => { q with stage := .atModule p tg } :=
  Dev.req_stageReq_same ..

theorem Dev.onlySluice_moduleAnswer (lines : List (Byte × Line)) : d.OnlySluice (d.moduleAnswer p r i lines beats) :=
  (((Dev.OnlySluice.modDest d p _).trans (.panBeats _ p beats)).trans (.stageReq _ r _)).trans (.modIng _ i _)

theorem Dev.dest_moduleAnswer (lines : List (Byte × Line)) :
    (d.moduleAnswer p r i lines beats).dest p = { d.dest p with granted := (d.dest p).granted - 1 } :=
  Dev.dest_modDest_same d p fun t => { t with granted := t.granted - 1 }

theorem Dev.req_moduleAnswer (lines : List (Byte × Line)) :
    (d.moduleAnswer p r i lines beats).req r = (d.req r).map fun q => { q with stage := .responding } :=
  Dev.req_stageReq_same ..

theorem Dev.resp_moduleAnswer (lines : List (Byte × Line)) :
    ((d.moduleAnswer p r i lines beats).ing i).resp = (d.ing i).resp ++ [{ rid := r, lines := lines }] :=
  congrArg Ingress.resp (Dev.ing_modIng_same ..)

theorem Dev.onlySluice_handBack (rest : List SlResp) : d.OnlySluice (d.handBack p r i rest beats) :=
  ((Dev.OnlySluice.modIng d i _).trans (.dropReq _ r)).trans (.panBeats _ p beats)

theorem Dev.ing_handBack (rest : List SlResp) : (d.handBack p r i rest beats).ing i = { d.ing i with resp := rest } :=
  Dev.ing_modIng_same d i fun g => { g with resp := rest }

theorem Dev.req_handBack (rest : List SlResp) : (d.handBack p r i rest beats).req r = none :=
  Dev.req_dropReq_same ..

end Endpoint

section Channels

variable {d : Dev} {p r : Nat} {q : SlIn} (hsound : q.poison = false) (hruns : d.sluiceStops = false)

include hsound hruns

/-- An open port hands its oldest request to the module under its lowest free ITAG (R280, R281). -/
theorem opEndpointRequest_opened {rest : List Nat} {tg : Nat} (hqueue : (d.dest p).queue = r :: rest) (hreq : d.req r = some q)
    (hawake : d.domSleeps p = false) (hport : (d.pan p).port = .opened) (hbe : q.write = true → q.be ≠ 0)
    (htag : d.freeItag p = some tg) :
    opEndpointRequest p d = (d.handOver p r tg rest (if q.write then q.lines else 1)).emit
      (.rqi p tg q.loc (BitVec.ofNat 34 (slOff q.addr)) q.write q.lines (BitVec.ofNat 16 (d.reqUnit q)) (d.reqDev q) q.be q.data) := by
  have heffect : (q.write && q.be == 0) = false := by simpa using hbe
  simp only [opEndpointRequest, hqueue, hreq, hruns, hawake, hport, hsound, heffect, htag, Bool.or_false, Bool.and_false,
    Bool.false_eq_true, if_false]
  rfl

/-- A module's answer reaches the requester's ingress with its own status (R281, R282). -/
theorem opEndpointResponse_sound {tg : Nat} (hat : d.live.find? (fun e => e.2.stage == .atModule p tg) = some (r, q))
    (hreq : d.req r = some q) (st : Byte) (data : List Line) :
    opEndpointResponse p tg st data d = d.moduleAnswer p r q.ingress
      (if q.write then [(st, 0)] else (List.range q.lines).map fun i => (st, data.getD i 0)) (if q.write then 1 else q.lines) := by
  have hreq1 (k : Nat) : ((d.freeSlot p).panBeats p k).req r = some q := hreq
  rw [opEndpointResponse, hruns, if_neg Bool.false_ne_true, hat]
  cases hw : q.write <;> simp [hw, hsound, Dev.respond_some (hreq1 _), Dev.moduleAnswer]

/-- The oldest response of an ingress goes beat by beat to the module that asked (R280, R281). -/
theorem opResponseDelivery_pan {i tid : Nat} {x : SlResp} {rest : List SlResp} (hresp : (d.ing i).resp = x :: rest)
    (hreq : d.req x.rid = some q) (hby : q.by_ = .pan p tid) (hawake : i < 64 → d.domSleeps i = false)
    (hport : (d.pan p).port = .opened) (hfree : (d.pan p).held = false) :
    opResponseDelivery i d =
      let t := d.handBack p x.rid i rest x.lines.length
      { t with out := t.out ++ (indexed x.lines).map fun y => Output.rsi p tid y.1 y.2.1 y.2.2 (y.1 + 1 == x.lines.length) } := by
  have hgoes : (d.sluiceStops || (decide (i < 64) && d.domSleeps i)) = false := by simpa [hruns] using hawake
  have hclean : q.poisons x.lines = false := by simp [SlIn.poisons, hsound]
  let d1 := (d.modIng i fun g => { g with resp := rest }).dropReq x.rid
  have hopen : ((d1.pan p).port == .opened && !(d1.pan p).held) = true := by
    have hpan : d1.pan p = d.pan p := rfl
    rw [hpan, hport, hfree]
    rfl
  simp only [opResponseDelivery, hresp, hreq, hgoes, hclean, SlIn.seen, hby, Dev.panResponse, hopen, d1, Bool.false_eq_true,
    if_false, if_true]
  exact Dev.foldS_emit _ _ _

end Channels

/-- Settles O12: a port changes state by the table of R283, and each request and response moves by one step of its own. -/
theorem panPortsCarryRequests : Obligations.PanPortsCarryRequests := by
  refine ⟨fun s p hp => ⟨fun h => ?_, fun h => ?_, fun h => ?_, fun hruns hshut hheld => ?_⟩, fun s p hp => ⟨?_, ?_⟩, ?_⟩
  · exact takes_eq (f := opClose p .held) rfl (decide_eq_true hp) (opClose_held h)
  · exact takes_eq (f := opClose p .refusing) rfl (decide_eq_true hp) (opClose_refusing h)
  · exact takes_eq (f := opClose p .empty) rfl (decide_eq_true hp) (opClose_empty h)
  · exact takes_eq (f := opOpen p) rfl (decide_eq_true hp) (opOpen_released hruns hshut hheld)
  · intro r rest q tg hqueue hreq hruns hawake hport hsound hbe htag
    refine takes_of_runCmd (f := opEndpointRequest p) rfl (decide_eq_true hp) ?_
    rw [opEndpointRequest_opened hsound hruns hqueue hreq hawake hport hbe htag]
    refine ⟨(Dev.onlySluice_handOver ..).emit _, ?_, ?_⟩
    · rw [Dev.dest_emit, Dev.dest_handOver]
    · rw [Dev.req_emit, Dev.req_handOver, hreq]
      rfl
  · intro tg st data r q htg hlen hat hreq hsound hruns
    have hwf : (Instr.endpointResponse p tg st data).wf = true := 
      Bool.and_eq_true_iff.2 ⟨Bool.and_eq_true_iff.2 ⟨decide_eq_true hp, decide_eq_true htg⟩, decide_eq_true hlen⟩
    refine takes_of_runCmd (f := opEndpointResponse p tg st data) rfl hwf ?_
    rw [opEndpointResponse_sound hsound hruns hat hreq]
    refine ⟨Dev.onlySluice_moduleAnswer .., Dev.dest_moduleAnswer .., ?_, Dev.resp_moduleAnswer ..⟩
    rw [Dev.req_moduleAnswer, hreq]
    rfl
  · intro s i p tid x rest q hi hresp hreq hby hsound hruns hawake hport hfree
    refine takes_of_runCmd (f := opResponseDelivery i) rfl (decide_eq_true hi) ?_
    rw [opResponseDelivery_pan hsound hruns hresp hreq hby hawake hport hfree]
    refine ⟨(Dev.onlySluice_handBack ..).emits _, ?_, ?_, ?_⟩
    · exact Dev.ing_handBack s.dev p x.rid i x.lines.length rest
    · exact Dev.req_handBack s.dev p x.rid i x.lines.length rest
    · rfl

end Sys2Proof.Machine

/-! ### What waits behind a miss (R274)

A REPLY sends on every request that its number names, and none of the steps on the way puts a request behind a miss again. -/

namespace Sys2Proof.Machine

/-! #### The sending side of a link leaves the Sluice -/

theorem Dev.sendPacket_sl (d : Dev) (h : Nat) (p : Packet) : (d.sendPacket h p).sl = d.sl :=
  foldS_inv (fun t : Dev => t.sl = d.sl) _ _ _ (fun _ _ ht => ht) rfl

theorem Dev.flushLinkN_sl (d : Dev) (h k : Nat) : (d.flushLinkN h k).sl = d.sl := by
  induction k generalizing d with
  | zero => rfl
  | succ k ih =>
    unfold Dev.flushLinkN
    dsimp only
    split
    · rfl
    · rw [ih, Dev.sendPacket_sl]
      rfl

theorem Dev.wakePeer_sl (d : Dev) (h : Nat) : (d.wakePeer h).sl = d.sl := by
  unfold Dev.wakePeer
  dsimp only
  split
  · exact foldS_inv (fun t : Dev => t.sl = d.sl) _ _ _ (fun _ _ ht => ht) rfl
  · rfl

theorem Dev.flushLink_sl (d : Dev) (h : Nat) : (d.flushLink h).sl = d.sl := by
  unfold Dev.flushLink
  split_ifs
  · rfl
  · exact Dev.wakePeer_sl d h
  · exact Dev.flushLinkN_sl ..

theorem Dev.req_queuePacket (d : Dev) (h : Nat) (p : Packet) (r : Nat) : (d.queuePacket h p).req r = d.req r := by
  have hsl : (d.queuePacket h p).sl = d.sl := Dev.flushLink_sl _ h
  rw [Dev.req, hsl, Dev.req]

/-! #### Requests that wait for no REPLY -/

/-- Request `r` does not wait behind a miss: it has gone on, or is no request any more. -/
def Dev.GoneOn (d : Dev) (r : Nat) : Prop := ∀ q, d.req r = some q → q.stage ≠ .lookup

/-- What took `d` to `t` left request `r` as it was or has it gone on. -/
def Dev.SendsOn (r : Nat) (d t : Dev) : Prop := t.req r = d.req r ∨ t.GoneOn r

namespace Dev.SendsOn

variable {r : Nat} {a b c d t : Dev}

theorem refl (r : Nat) (d : Dev) : SendsOn r d d := .inl rfl

theorem trans (h1 : SendsOn r a b) (h2 : SendsOn r b c) : SendsOn r a c := by
  rcases h2 with h2 | h2
  · rcases h1 with h1 | h1
    · exact .inl (h2.trans h1)
    · exact .inr fun q hq => h1 q (h2.symm.trans hq)
  · exact .inr h2

theorem goneOn (h : SendsOn r d t) (hd : d.GoneOn r) : t.GoneOn r := by
  rcases h with h | h
  · exact fun q hq => hd q (h.symm.trans hq)
  · exact h

theorem foldS {α : Type} {f : Dev → α → Dev} (hf : ∀ d x, SendsOn r d (f d x)) (l : List α) : SendsOn r d (Machine.foldS f d l) :=
  foldS_inv (SendsOn r d) f d l (fun t x ht => ht.trans (hf t x)) (refl r d)

end Dev.SendsOn

theorem Dev.goneOn_of_none {d : Dev} {k : Nat} (hnone : d.req k = none) : d.GoneOn k := by
  intro q hq
  rw [hnone] at hq
  cases hq

theorem Dev.goneOn_modReq {d : Dev} {k : Nat} {f : SlIn → SlIn} (hf : ∀ q, (f q).stage ≠ .lookup) : (d.modReq k f).GoneOn k := by
  intro q hq
  rw [Dev.req_modReq_same] at hq
  obtain ⟨q0, -, rfl⟩ := Option.map_eq_some_iff.1 hq
  exact hf q0

theorem Dev.SendsOn.modReq (r : Nat) (d : Dev) (k : Nat) {f : SlIn → SlIn} (hf : ∀ q, (f q).stage ≠ .lookup) :
    SendsOn r d (d.modReq k f) := by
  rcases eq_or_ne r k with rfl | hne
  · exact .inr (Dev.goneOn_modReq hf)
  · exact .inl (Dev.req_modReq_other d k f r hne)

theorem Dev.SendsOn.dropReq (r : Nat) (d : Dev) (k : Nat) : SendsOn r d (d.dropReq k) := by
  rcases eq_or_ne r k with rfl | hne
  · exact .inr (Dev.goneOn_of_none (Dev.req_dropReq_same d r))
  · exact .inl (Tab.get_set_other none d.sl.reqs k r none hne)

/-! #### The steps of a translated request -/

section Translated

variable (r : Nat) (d : Dev) (k : Nat)

theorem Dev.sendsOn_respond (lines : List (Byte × Line)) : Dev.SendsOn r d (d.respond k lines) := by
  unfold Dev.respond
  split
  · exact .refl r d
  · exact Dev.SendsOn.modReq r d k fun _ => ReqStage.noConfusion

theorem Dev.sendsOn_answer (st : Nat) : Dev.SendsOn r d (d.answer k st) := by
  unfold Dev.answer
  split
  · exact .refl r d
  · dsimp only
    split
    · exact Dev.sendsOn_respond r (d.slErr _ st _) k _
    · exact Dev.sendsOn_respond r d k _

theorem Dev.sendsOn_egress (h : Nat) : Dev.SendsOn r d (d.egress h k) := by
  have hqueue (t : Dev) (p : Packet) : Dev.SendsOn r t (t.queuePacket h p) := .inl (Dev.req_queuePacket t h p r)
  unfold Dev.egress
  split
  · exact .refl r d
  · dsimp only
    split
    · exact Dev.sendsOn_answer r d k _
    · split
      · exact (Dev.SendsOn.dropReq r d k).trans (hqueue _ _)
      · split
        · exact Dev.sendsOn_answer r d k _
        · exact (Dev.SendsOn.modReq r (d.modLink h _) k fun _ => ReqStage.noConfusion).trans (hqueue _ _)

theorem Dev.sendsOn_enterDest (n : Nat) : Dev.SendsOn r d (d.enterDest n k) := by
  unfold Dev.enterDest
  split_ifs
  · exact Dev.SendsOn.modReq r d k fun _ => ReqStage.noConfusion
  · exact Dev.sendsOn_egress r (d.freeSlot n) k _

theorem Dev.sendsOn_spend (i n : Nat) : Dev.SendsOn r d (d.spend i n) := by
  refine Dev.SendsOn.foldS (fun t x => ?_) _
  dsimp only
  split_ifs
  · exact .refl r t
  · exact Dev.sendsOn_enterDest r (t.modIng i _) x n

theorem Dev.sendsOn_admitBank (n : Nat) : Dev.SendsOn r d (d.admitBank n) := by
  unfold Dev.admitBank
  split
  · split
    · exact Dev.SendsOn.modReq r (d.grantTo _ _) _ fun _ => ReqStage.noConfusion
    · exact .refl r d
  · exact .refl r d

theorem Dev.goneOn_answer (st : Nat) : (d.answer k st).GoneOn k := by
  unfold Dev.answer
  split
  next hnone => exact Dev.goneOn_of_none hnone
  next q hreq =>
    have hrespond (t : Dev) (ht : t.req k = some q) (lines : List (Byte × Line)) : (t.respond k lines).GoneOn k := by
      rw [Dev.respond_some ht]
      exact Dev.goneOn_modReq fun _ => ReqStage.noConfusion
    dsimp only
    split
    · exact hrespond (d.slErr _ st q) hreq _
    · exact hrespond d hreq _

theorem Dev.goneOn_wantSlot (n : Nat) : (d.wantSlot k n).GoneOn k := by
  unfold Dev.wantSlot
  split
  next hnone => exact Dev.goneOn_of_none hnone
  next => exact (Dev.sendsOn_spend k _ _ n).goneOn (Dev.goneOn_modReq fun _ => ReqStage.noConfusion)

/-- A request that is translated goes on, to its destination or back with a status (R274, R276, R277). -/
theorem Dev.goneOn_translated (ans : Option TcEntry) : (d.translated k ans).GoneOn k := by
  unfold Dev.translated
  split
  next hnone => exact Dev.goneOn_of_none hnone
  next => exact Dev.goneOn_answer d k _
  next =>
    split_ifs
    · exact Dev.goneOn_answer d k _
    · split
      · exact Dev.goneOn_wantSlot _ k _
      · split_ifs
        · exact Dev.goneOn_answer d k _
        · exact (Dev.sendsOn_admitBank k _ _).goneOn (Dev.goneOn_modReq fun _ => ReqStage.noConfusion)

theorem Dev.sendsOn_wantSlot (n : Nat) : Dev.SendsOn r d (d.wantSlot k n) := by
  unfold Dev.wantSlot
  split
  · exact .refl r d
  · exact (Dev.SendsOn.modReq r d k fun _ => ReqStage.noConfusion).trans (Dev.sendsOn_spend r _ _ n)

theorem Dev.sendsOn_translated (ans : Option TcEntry) : Dev.SendsOn r d (d.translated k ans) := by
  rcases eq_or_ne r k with rfl | hne
  · exact .inr (Dev.goneOn_translated d r ans)
  unfold Dev.translated
  split
  · exact .refl r d
  · exact Dev.sendsOn_answer r d k _
  · split_ifs
    · exact Dev.sendsOn_answer r d k _
    · split
      · exact .trans (.inl (Dev.req_modReq_other d k _ r hne)) (Dev.sendsOn_wantSlot r _ k _)
      · split_ifs
        · exact Dev.sendsOn_answer r d k _
        · exact (Dev.SendsOn.modReq r d k fun _ => ReqStage.noConfusion).trans (Dev.sendsOn_admitBank r _ _)

end Translated

/-! #### The REPLY -/

/-- One request's turn as a REPLY arrives: it is translated by the answer where it waits for it. -/
def Dev.resume (waits : SlIn → Bool) (ans : Option TcEntry) (t : Dev) (e : Nat × SlIn) : Dev :=
  if (t.req e.1).any waits then t.translated e.1 ans else t

theorem Dev.sendsOn_resume (waits : SlIn → Bool) (ans : Option TcEntry) (r : Nat) (t : Dev) (e : Nat × SlIn) :
    Dev.SendsOn r t (t.resume waits ans e) := by
  unfold Dev.resume
  split_ifs
  · exact Dev.sendsOn_translated r t e.1 ans
  · exact .refl r t

/-- A listed request that waits has gone on when each listed request has had its turn. -/
theorem Dev.goneOn_foldS_resume {waits : SlIn → Bool} {q : SlIn} (hwaits : waits q = true) (ans : Option TcEntry) {r : Nat}
    {l : List (Nat × SlIn)} {x : SlIn} (hmem : (r, x) ∈ l) {t : Dev} (ht : t.req r = some q ∨ t.GoneOn r) :
    (foldS (Dev.resume waits ans) t l).GoneOn r := by
  induction l generalizing t with
  | nil => cases hmem
  | cons e l ih =>
    have hstep : Dev.SendsOn r t (t.resume waits ans e) := Dev.sendsOn_resume waits ans r t e
    rcases List.mem_cons.1 hmem with rfl | hrest
    · have hturn : (t.resume waits ans (r, x)).GoneOn r := by
        rcases ht with hreq | hgone
        · rw [Dev.resume, hreq, Option.any_some, if_pos hwaits]
          exact Dev.goneOn_translated t r ans
        · exact hstep.goneOn hgone
      exact (Dev.SendsOn.foldS (Dev.sendsOn_resume waits ans r) l).goneOn hturn
    · refine ih hrest ?_
      rcases ht with hreq | hgone
      · exact hstep.imp_left fun hsame => hsame.trans hreq
      · exact .inr (hstep.goneOn hgone)

section Reply

variable {d : Dev} {i : Nat} {m : Miss}

/-- In the canonical form a listed entry is what its key reads as. -/
theorem Tab.get_of_mem {α : Type} [DecidableEq α] {v0 v : α} {t : Tab α} {k : Nat} (hwf : t.wf v0 = true) (hmem : (k, v) ∈ t) :
    t.get v0 k = v := by
  induction t with
  | nil => cases hmem
  | cons a t ih =>
    obtain ⟨j, w⟩ := a
    simp only [Tab.wf, Bool.and_eq_true] at hwf
    obtain ⟨⟨-, habove⟩, hrest⟩ := hwf
    rw [Tab.get_cons]
    rcases List.mem_cons.1 hmem with heq | hin
    · cases heq
      exact if_pos rfl
    · have hlt : j < k := (Tab.above_iff t j).1 habove (k, v) hin
      rw [if_neg hlt.ne', ih hrest hin]

theorem Dev.req_of_live (hreqs : d.sl.reqs.wf none = true) {r : Nat} {q : SlIn} (hlive : (r, q) ∈ d.live) : d.req r = some q := by
  obtain ⟨⟨k, o⟩, hmem, hpair⟩ := List.mem_filterMap.1 hlive
  obtain ⟨q0, ho, heq⟩ := Option.map_eq_some_iff.1 hpair
  cases heq
  rw [← ho]
  exact Tab.get_of_mem hreqs hmem

/-- The REPLY that no INVAL is ahead of sends on each live request that waits for it, where the table of requests is in the
canonical form (R270, R274). -/
theorem opReply_goneOn (hreqs : d.sl.reqs.wf none = true) (hruns : d.sluiceStops = false)
    (hfind : (d.ing i).misses.find? (fun m => m.reply.isSome) = some m)
    (hfirst : d.invalBefore (ingressRouter i) m.sent = false) {r : Nat} {q : SlIn} (hlive : (r, q) ∈ d.live) (hi : q.ingress = i)
    (hstage : q.stage = .lookup) (htag : slTag q.addr = m.tag) (hk : pageOf q.addr = m.k) : (opReply i d).GoneOn r := by
  have harrives : (if d.sluiceStops then none else ((d.ing i).misses.find? fun m => m.reply.isSome).filter fun m =>
      !d.invalBefore (ingressRouter i) m.sent) = some m := by
    simp [hruns, hfind, hfirst, Option.filter_some]
  unfold opReply
  dsimp only
  rw [harrives]
  exact Dev.goneOn_foldS_resume (by simp [hi, hstage, htag, hk]) _ hlive (.inl (Dev.req_of_live hreqs hlive))

/-! ### A request number listed twice -/

/-- Pan `i`'s read of the first line behind tag 5, as it waits behind a miss. -/
def tag5Read (i : Nat) : SlIn :=
  { ingress := i, by_ := .pan i 0, addr := BitVec.ofNat 64 (5 * 2 ^ 34), write := false, lines := 1, be := BitVec.allOnes 64, data := []
    poison := false, flip := none, stage := .lookup, tier := 5 }

/-- The REPLY for tag 5, which is unbound, on its way to pan 0's ingress. -/
def unboundTag5 : Miss := { tag := 5, k := 0, reply := some none }

/-- Number 0 stands twice in the table of requests: a read by pan 1, and behind it the read by pan 0 that waits for the REPLY. -/
def twiceListed : Dev :=
  { sl := { ingress := [(0, { misses := [unboundTag5] })], reqs := [(0, some (tag5Read 1)), (0, some (tag5Read 0))] } }

/-- The REPLY finds pan 1's read under number 0, which waits at another ingress, and leaves it where it is. -/
theorem req_opReply_twiceListed : (opReply 0 twiceListed).req 0 = some (tag5Read 1) := by decide

end Reply

theorem dev_of_takes {c : Instr} {f : Dev → Dev} {s : State} {P : Dev → Prop} (he : exec c s = runCmd c f s) (hc : c.wf = true)
    (h : Takes c s P) : P (f s.dev) := by
  obtain ⟨t, hnext, -, hP⟩ := h
  rw [he, runCmd_next hc] at hnext
  cases hnext
  exact hP

/-- Refutes O11: where a number stands twice in the table of requests, `live` lists both, while REPLY sends on only the one that the
number reads as; so pan 0's read of `twiceListed` is live and waits for the REPLY, and number 0 still waits after it. In a table in
the canonical form this clause holds (`opReply_goneOn`): the statement lacks that hypothesis. -/
theorem not_sluiceFindsDestinations : ¬ Obligations.SluiceFindsDestinations := by
  rintro ⟨-, -, hthird, -, -⟩
  obtain ⟨-, -, -, hwaiting⟩ := hthird { dev := twiceListed } 0 0 (by decide) (by decide)
  have hsent : Takes (.reply 0) { dev := twiceListed } fun t => ∀ q', t.req 0 = some q' → q'.stage ≠ .lookup :=
    hwaiting unboundTag5 0 (tag5Read 0) rfl rfl rfl (by decide) rfl rfl rfl rfl
  exact dev_of_takes (f := opReply 0) rfl rfl hsent (tag5Read 1) req_opReply_twiceListed rfl

end Sys2Proof.Machine

end

section

set_option Elab.async false

/-! ### Registers of a bank (R313, R320, R336, R339, R341) -/

namespace Sys2Proof.Machine

/-- A low field within the mask of a write of RW fields is the one written. -/
theorem fld_merge_low (m old new : Word) (n : Nat) (hm : ∀ i, i < n → m.getLsbD i = true) :
    fld (merge m old new) 0 n = fld new 0 n := by
  have hbits : (merge m old new).setWidth n = new.setWidth n := by
    ext i hi
    simp [merge, hm i hi]
  simpa [fld, nfld] using congrArg BitVec.toNat hbits

/-- A write of BANK_CTRL takes the RW fields, and a new strength starts the re-encode pass at page 0 (R313, R336). -/
theorem Bank.writeCtrl_eq (b : Bank) (v : Word) :
    b.writeCtrl v = { b with
      ctrl := (b.ctrl &&& ~~~0x1F) ||| (v &&& 0x1F)
      recode := if fld v 0 2 = fld b.ctrl 0 2 then b.recode else some 0 } := by
  have hstrength : fld (merge 0x1F b.ctrl v) 0 2 = fld v 0 2 := fld_merge_low _ _ _ _ (by decide)
  simp only [Bank.writeCtrl, hstrength]
  split <;> rfl

/-- A written selection leaves the banks. -/
@[simp] theorem Dev.bank_setSel (d : Dev) (path : Path) (off : Nat) (v : Word) (n : Nat) : (d.setSel path off v).bank n = d.bank n := by
  cases path <;> rfl

/-- A write of BANK_LOG_SEL that its writer reaches stores INDEX and KIND for it and makes the clears asked (R339, R632). -/
theorem Dev.writeLogSel_can {d : Dev} {path : Path} {n : Nat} (h : d.canWrite path (.bank n) 0x10) (v : Word) :
    d.writeLogSel path n v =
      (((d.entered path).setSel path (0x100010 + 256 * n) (v &&& 0x3F)).setBank n ((d.bank n).clearLogs v)).wrote path := by
  have hplace : 0x100010 + 256 * n - 0x10 + 0x10 = 0x100010 + 256 * n := by omega
  rw [Dev.writeLogSel, Dev.filtered_can h]
  simp [Dev.writeBlk, selMask, selBase, Dev.modBank, Bank.write, hplace]

/-- A CLEAR bit is no part of the selection (R339). -/
theorem logSel_or (v : Word) {c : Word} (hc : c &&& 0x3F = 0#32) : (v ||| c) &&& 0x3F = v &&& 0x3F := by
  rw [BitVec.and_comm, BitVec.and_or_distrib_left, BitVec.and_comm _ c, hc, BitVec.or_zero, BitVec.and_comm]

/-- Settles O13: each write goes through an open path that reaches its register, and the bank takes what `Bank.write` gives. -/
theorem bankRegistersTakeTheirFields : Obligations.BankRegistersTakeTheirFields := by
  intro s path n v hwf hn
  have hnames := wf_and_lt hwf hn
  refine ⟨fun h => takes_eq (f := opBankCtrlWrite path n v) rfl hnames ?_, fun h => takes_eq (f := opFlipArm path n v) rfl hnames ?_,
    fun h => ⟨takes_eq (f := opClearCe path n v) rfl hnames ?_, takes_eq (f := opClearUe path n v) rfl hnames ?_⟩⟩
  · rw [opBankCtrlWrite, Dev.filtered_can h, Dev.modBank, Dev.bank_entered, Bank.write, Bank.writeCtrl_eq]
  · rw [opFlipArm, Dev.filtered_can h, Dev.modBank, Dev.bank_entered]
    rfl
  · rw [opClearCe, Dev.writeLogSel_can h, logSel_or v (by decide)]
    simp [Bank.clearLogs, bit]
  · rw [opClearUe, Dev.writeLogSel_can h, logSel_or v (by decide)]
    simp [Bank.clearLogs, bit]

end Sys2Proof.Machine
end

section

set_option Elab.async false

/-! ### Requests at a bank (R307, R310) -/

namespace Sys2Proof.Machine

/-- What stands in a table after a write is the value written or stood there before. -/
theorem Tab.mem_set {α : Type} [DecidableEq α] {v0 v : α} {t : Tab α} {i : Nat} {e : Nat × α} (h : e ∈ t.set v0 i v) :
    e = (i, v) ∨ e ∈ t := by
  unfold Tab.set at h
  split_ifs at h
  · exact .inr (List.mem_of_mem_filter h)
  · exact Tab.mem_put t i v e h

section Waiting

variable {d : Dev} {n : Nat}

theorem Dev.waitingAt_nil_iff : d.waitingAt n = [] ↔ ∀ e ∈ d.live, ∀ page line, e.2.stage ≠ .atOutput n page line := by
  rw [Dev.waitingAt, List.filter_eq_nil_iff]
  refine forall₂_congr fun e _ => ?_
  split
  · simp_all
  · simp_all

/-- A request that takes a stage beyond the routers adds nothing to what waits there. -/
theorem Dev.waitingAt_stageReq (h : d.waitingAt n = []) (r : Nat) {s : ReqStage} (hs : ∀ b page line, s ≠ .atOutput b page line) :
    (d.stageReq r s).waitingAt n = [] := by
  rw [Dev.waitingAt_nil_iff] at h ⊢
  intro e he page line
  obtain ⟨⟨k, o⟩, hmem, hpair⟩ := List.mem_filterMap.1 he
  obtain ⟨q, ho, rfl⟩ := Option.map_eq_some_iff.1 hpair
  rcases Tab.mem_set hmem with hnew | hold
  · obtain ⟨q0, -, hq0⟩ := Option.map_eq_some_iff.1 ((congrArg Prod.snd hnew).symm.trans ho)
    rw [← hq0]
    exact hs n page line
  · exact h (k, q) (List.mem_filterMap.2 ⟨(k, o), hold, hpair⟩) page line

/-- With nobody in the router before it, a bank's queue takes nobody in (R310). -/
theorem Dev.admitBank_none (h : d.waitingAt n = []) : d.admitBank n = d := by
  unfold Dev.admitBank
  rw [h]
  split
  · next r q heq => split at heq <;> cases heq
  · rfl

end Waiting

/-- A bank without the request at the head of its queue. -/
def Bank.dequeued (b : Bank) : Bank := { b with queue := b.queue.drop 1 }

/-- A bank whose self-test has borrowed nothing is claimed as it stands (R330). -/
theorem Bank.claim_unborrowed {b : Bank} (h : b.borrow = none) (s : Nat) : b.claim s = b := by
  rw [Bank.claim, h]
  rfl

section Serving

variable {d : Dev} {n r page line i : Nat} {q : SlIn} {rest : List Nat} {b1 : Bank} {l : Line}

/-- A RUNNING bank whose Sluice, clock and domain run serves the request at the head of its queue (R307, R310). -/
theorem opBankRequest_serves (hsluice : d.sluiceStops = false) (hclk : d.pllDead 2 = false) (hdom : d.domSleeps (64 + n / 8) = false)
    (hruns : d.ust (uBank n) = .running) (hqueue : (d.bank n).queue = r :: rest) (hreq : d.req r = some q)
    (hstage : q.stage = .bank i page line) : opBankRequest n d = (d.serveBank n r q page line).admitBank n := by
  simp [opBankRequest, hsluice, hclk, hdom, hruns, hqueue, hreq, hstage]

/-- Bank `n` has become `b1` by the one line of a foreground request, and its work is counted. -/
def Dev.bankServed (d : Dev) (n page : Nat) (b1 : Bank) : Dev :=
  (d.setBank n b1).bankWork n ((d.bank n).slotOf page) (d.bank n) b1 [] 1 0 true

/-- A one-line read that answers DONE without events (R307). -/
theorem Dev.serveBank_read (hruns : d.ust (uBank n) = .running) (hread : q.write = false) (hlines : q.lines = 1)
    (hsound : q.poison = false) (hborrow : (d.bank n).borrow = none)
    (hline : (d.bank n).dequeued.readLine page line (d.reqUnit q) = { bank := b1, status := stDone, data := l, evs := [] }) :
    d.serveBank n r q page line = (d.bankServed n page b1).respond r [(BitVec.ofNat 8 stDone, l)] := by
  have hdone : BitVec.ofNat 8 stDone ≠ BitVec.ofNat 8 stUncorr := by decide
  unfold Dev.serveBank
  extract_lets b rest unit s b0 ls
  have hb0 : b0 = (d.bank n).dequeued := Bank.claim_unborrowed (b := rest) hborrow s
  have hls : ls = [line] := by simp [ls, hlines]
  simp [hruns, hread, hlines, hsound, hb0, hls, Bank.readLines, unit, hline, SlIn.poisons, hdone, Dev.bankServed, Dev.bankEvents, foldS, s, b]

/-- A one-line write that answers DONE without events marks its line dirty in a move of its page (R307, R325). -/
theorem Dev.serveBank_write (hruns : d.ust (uBank n) = .running) (hwrite : q.write = true) (hlines : q.lines = 1)
    (hsound : q.poison = false) (hbe : q.be ≠ 0#64) (hdata : q.data = [l]) (hborrow : (d.bank n).borrow = none)
    (hline : (d.bank n).dequeued.writeLines page (d.reqUnit q) q.be q.flip true [(line, l)] = (b1, stDone, [])) :
    d.serveBank n r q page line = ((d.bankServed n page b1).markDirty n page line 1).respond r [(BitVec.ofNat 8 stDone, 0)] := by
  have hdone : BitVec.ofNat 8 stDone ≠ BitVec.ofNat 8 stUncorr := by decide
  unfold Dev.serveBank
  extract_lets b rest unit s b0 ls
  have hb0 : b0 = (d.bank n).dequeued := Bank.claim_unborrowed (b := rest) hborrow s
  have hls : ls = [line] := by simp [ls, hlines]
  simp [hruns, hwrite, hlines, hsound, hbe, hdata, hb0, hls, unit, hline, SlIn.poisons, hdone, Dev.bankServed, Dev.bankEvents, foldS, s, b]

end Serving

/-! #### Lines of a page (R299, R302, R307) -/

section Lines

variable {b : Bank} {page n s : Nat} {l : Line}

/-- A line of a written page whose guard matches reads as it is stored (R307). -/
theorem Bank.readLine_sound (hwritten : (b.slot (b.slotOf page)).written = true) (hguard : b.guardOk (b.slotOf page) n = true)
    (req : Nat) : b.readLine page n req = { bank := b, status := stDone, data := b.line (b.slotOf page) n, evs := [] } := by
  simp [Bank.readLine, hwritten, hguard]

/-- A full-line write into a sound page, with no flip mask armed or asked for, stores its line (R302, R307, R320). -/
theorem Bank.writeLines_sound (hwritten : (b.slot (b.slotOf page)).written = true)
    (hclean : (b.slot (b.slotOf page)).poisoned = false) (hguard : b.guardOk (b.slotOf page) n = true) (harm : b.flipArm = false)
    {be : DWord} (hfull : be = BitVec.allOnes 64) (req : Nat) :
    b.writeLines page req be none true [(n, l)] = (b.storeLine (b.slotOf page) n l, stDone, []) := by
  have hstore : b.writeLine page n req be l =
      { bank := b.storeLine (b.slotOf page) n l, status := stDone, data := 0, evs := [] } := by
    simp [Bank.writeLine, hfull, hwritten, hclean, hguard]
  have hflip : (b.storeLine (b.slotOf page) n l).flipArm = false := by
    simpa [Bank.storeLine, hclean, Bank.modSlot, Bank.putLine] using harm
  simp [Bank.writeLines, hstore, Bank.takeFlip, hflip]

theorem Bank.storeLine_sound (hclean : (b.slot s).poisoned = false) : b.storeLine s n l =
    (b.putLine s n l).modSlot s fun x => { x with check := x.check ^^^ lineCheck x.t n (b.line s n ^^^ l) } := by
  simp [Bank.storeLine, hclean]

theorem Bank.line_storeLine (hclean : (b.slot s).poisoned = false) : (b.storeLine s n l).line s n = l := by
  simp [Bank.storeLine_sound hclean, Bank.modSlot, Bank.putLine, Bank.line]

theorem Bank.guards_storeLine (hclean : (b.slot s).poisoned = false) :
    (b.storeLine s n l).guards.get 0 (64 * s + n) = guardOf n l := by
  simp [Bank.storeLine_sound hclean, Bank.modSlot, Bank.putLine]

/-- Storing a line leaves every other line and guard. -/
theorem Bank.storeLine_other (hclean : (b.slot s).poisoned = false) {k : Nat} (hk : k ≠ 64 * s + n) :
    (b.storeLine s n l).lines.get 0 k = b.lines.get 0 k ∧ (b.storeLine s n l).guards.get 0 k = b.guards.get 0 k := by
  rw [Bank.storeLine_sound hclean]
  exact ⟨Tab.get_set_other _ _ _ _ _ hk, Tab.get_set_other _ _ _ _ _ hk⟩

/-- The check bytes of a page follow the line stored (R302). -/
theorem Bank.slot_storeLine (hclean : (b.slot s).poisoned = false) :
    (b.storeLine s n l).slot s = { b.slot s with check := (b.slot s).check ^^^ lineCheck (b.slot s).t n (b.line s n ^^^ l) } := by
  simp [Bank.storeLine_sound hclean, Bank.slot, Bank.modSlot, Bank.putLine]

theorem Bank.slot_storeLine_other (hclean : (b.slot s).poisoned = false) {j : Nat} (hj : j ≠ s) :
    (b.storeLine s n l).slot j = b.slot j := by
  simp [Bank.storeLine_sound hclean, Bank.slot, Bank.modSlot, Bank.putLine, Tab.get_modify_other _ _ _ _ _ hj]

end Lines

/-! #### The request served -/

section Served

variable {d : Dev} {n r page : Nat} {q : SlIn}

/-- A bank's service of a request changes the banks, the moves' dirty masks and what telemetry counts, and takes two free values
(R312, R325, R561). -/
def Dev.Served (d t : Dev) : Prop := t = { d with banks := t.banks, tele := t.tele, rake := t.rake, freeCtr := d.freeCtr + 2 }

@[simp] theorem Dev.bank_bankServed_same (d : Dev) (n page : Nat) (b1 : Bank) : (d.bankServed n page b1).bank n = b1 :=
  Dev.bank_setBank_same d n b1

theorem Dev.bank_bankServed_other (d : Dev) (n page : Nat) (b1 : Bank) (m : Nat) (hm : m ≠ n) :
    (d.bankServed n page b1).bank m = d.bank m :=
  Dev.bank_setBank_other d n b1 m hm

theorem Dev.served_bankServed (d : Dev) (n page : Nat) (b1 : Bank) : d.Served (d.bankServed n page b1) := rfl

theorem Dev.markDirty_frame (d : Dev) (n page first lines : Nat) :
    d.markDirty n page first lines = { d with rake := (d.markDirty n page first lines).rake } := by
  unfold Dev.markDirty
  split <;> rfl

theorem Dev.Served.markDirty {d t : Dev} (h : d.Served t) (n page first lines : Nat) : d.Served (t.markDirty n page first lines) := by
  unfold Dev.Served at h ⊢
  rw [Dev.markDirty_frame, h]

theorem Dev.bank_markDirty (d : Dev) (n page first lines m : Nat) : (d.markDirty n page first lines).bank m = d.bank m := by
  rw [Dev.markDirty_frame]
  rfl

/-- Request `r` has its answer on the way to the ingress that issued it (R280). -/
def Dev.answers (d : Dev) (r : Nat) (q : SlIn) (lines : List (Byte × Line)) : Dev :=
  (d.stageReq r .responding).modIng q.ingress fun i => { i with resp := i.resp ++ [{ rid := r, lines := lines }] }

theorem Dev.Served.answers_frame {t : Dev} (h : d.Served t) (r : Nat) (q : SlIn) (lines : List (Byte × Line)) :
    t.answers r q lines = { d with
      banks := t.banks, sl := (t.answers r q lines).sl, tele := t.tele, rake := t.rake, freeCtr := d.freeCtr + 2 } := by
  have hsluice : t.answers r q lines = { t with sl := (t.answers r q lines).sl } := rfl
  generalize (t.answers r q lines).sl = x at hsluice ⊢
  rw [hsluice, h]

theorem Dev.req_answers (hreq : d.req r = some q) (lines : List (Byte × Line)) :
    (d.answers r q lines).req r = some { q with stage := .responding } := by
  rw [Dev.answers, Dev.req_modIng, Dev.req_stageReq_same, hreq, Option.map_some]

theorem Dev.resp_answers (d : Dev) (r : Nat) (q : SlIn) (lines : List (Byte × Line)) :
    ((d.answers r q lines).ing q.ingress).resp = (d.ing q.ingress).resp ++ [{ rid := r, lines := lines }] := by
  rw [Dev.answers, Dev.ing_modIng_same]
  rfl

@[simp] theorem Dev.bank_answers (d : Dev) (r : Nat) (q : SlIn) (lines : List (Byte × Line)) (m : Nat) :
    (d.answers r q lines).bank m = d.bank m := rfl

/-- A bank that has served a request takes in nobody where nobody waits in the router before it (R310). -/
theorem Dev.Served.respond_admitBank {t : Dev} (h : d.Served t) (hreq : d.req r = some q) (hwaits : d.waitingAt n = [])
    (lines : List (Byte × Line)) :
    t.req r = some q ∧ t.ing q.ingress = d.ing q.ingress ∧ (t.respond r lines).admitBank n = t.answers r q lines := by
  have hsl : t.sl = d.sl := by rw [h]
  have hreq' : t.req r = some q := by rw [Dev.req, hsl]; exact hreq
  have hwaits' : t.waitingAt n = [] := by rw [Dev.waitingAt, Dev.live, hsl]; exact hwaits
  have hresp : t.respond r lines = t.answers r q lines := Dev.respond_some hreq' lines
  have hanswered : (t.answers r q lines).waitingAt n = [] := Dev.waitingAt_stageReq (s := .responding) hwaits' r nofun
  refine ⟨hreq', by rw [Dev.ing, hsl]; rfl, ?_⟩
  rw [hresp, Dev.admitBank_none hanswered]

end Served

/-- Settles O14: the request at the head of the queue is served alone, since nobody waits in the router before the bank. -/
theorem bankReadsAndWritesLines : Obligations.BankReadsAndWritesLines := by
  refine ⟨?_, ?_⟩
  · intro s n r page line i rest q d b hn hsluice hclk hdom hruns hqueue hreq hstage hread hlines hsound hwritten hguard hborrow hwaits
    have hserve := Dev.serveBank_read (r := r) hruns hread hlines hsound hborrow
      (Bank.readLine_sound (b := b.dequeued) hwritten hguard (d.reqUnit q))
    have hserved := d.served_bankServed n page b.dequeued
    have hbank := d.bank_bankServed_same n page b.dequeued
    have hothers := d.bank_bankServed_other n page b.dequeued
    have hrake : (d.bankServed n page b.dequeued).rake = d.rake := rfl
    generalize d.bankServed n page b.dequeued = d1 at hserve hserved hbank hothers hrake
    obtain ⟨hreq1, hing1, hdone⟩ := hserved.respond_admitBank hreq hwaits
      [(BitVec.ofNat 8 stDone, b.dequeued.line (b.dequeued.slotOf page) line)]
    refine takes_of_runCmd (f := opBankRequest n) rfl (decide_eq_true hn) ?_
    rw [opBankRequest_serves hsluice hclk hdom hruns hqueue hreq hstage, hserve, hdone]
    have hrest : b.dequeued = { b with queue := rest } := by rw [Bank.dequeued, hqueue]; rfl
    refine ⟨?_, hbank.trans hrest, hothers, Dev.req_answers hreq1 _, ?_⟩
    · exact (hserved.answers_frame r q _).trans (by rw [hrake]; rfl)
    · rw [Dev.resp_answers, hing1]
      rfl
  · intro s n r page line i rest q l d b sl hn hsluice hclk hdom hruns hqueue hreq hstage hwrite hlines hsound hbe hdata hflip harm
      hborrow hwritten hclean hguard hwaits
    have hstores : b.dequeued.writeLines page (d.reqUnit q) q.be q.flip true [(line, l)] =
        (b.dequeued.storeLine sl line l, stDone, []) := by
      rw [hflip]
      exact Bank.writeLines_sound (b := b.dequeued) hwritten hclean hguard harm hbe _
    have hserve := Dev.serveBank_write (r := r) hruns hwrite hlines hsound (by rw [hbe]; decide) hdata hborrow hstores
    have hserved := (d.served_bankServed n page (b.dequeued.storeLine sl line l)).markDirty n page line 1
    have hbank := (Dev.bank_markDirty _ n page line 1 n).trans (d.bank_bankServed_same n page (b.dequeued.storeLine sl line l))
    generalize (d.bankServed n page (b.dequeued.storeLine sl line l)).markDirty n page line 1 = d1 at hserve hserved hbank
    obtain ⟨hreq1, hing1, hdone⟩ := hserved.respond_admitBank hreq hwaits [(BitVec.ofNat 8 stDone, 0)]
    refine takes_of_runCmd (f := opBankRequest n) rfl (decide_eq_true hn) ?_
    rw [opBankRequest_serves hsluice hclk hdom hruns hqueue hreq hstage, hserve, hdone, Dev.bank_answers, hbank]
    refine ⟨?_, Bank.line_storeLine hclean, Bank.guards_storeLine hclean, fun k hk => Bank.storeLine_other (b := b.dequeued) hclean hk,
      Bank.slot_storeLine hclean, fun j hj => Bank.slot_storeLine_other (b := b.dequeued) hclean hj, ?_⟩
    · exact hserved.answers_frame r q _
    · rw [Dev.resp_answers, hing1]

end Sys2Proof.Machine
end

section

set_option Elab.async false

/-! ### Events leave a function's right to ask (R343)

An event that a function in D3hot holds sets PME_Status; the power state, and so what the function may ask for, stays. -/

namespace Sys2Proof.Machine

section Asks

variable {d : Dev} {p : Nat}

/-- A port's function may make requests as before. -/
def Dev.AsksSame (p : Nat) (d t : Dev) : Prop := (t.hp p).conf.asks = (d.hp p).conf.asks

theorem Dev.asksSame_modHp (d : Dev) (p q : Nat) {f : HostPort → HostPort} (hf : (f (d.hp q)).conf.asks = (d.hp q).conf.asks) :
    Dev.AsksSame p d (d.modHp q f) := by
  unfold Dev.AsksSame
  by_cases h : p = q
  · rw [h, Dev.hp_modHp_same, hf]
  · rw [Dev.hp_modHp_other d q f p h]

theorem Dev.asksSame_sendMsix (d : Dev) (p q v : Nat) : Dev.AsksSame p d (d.sendMsix q v) := by
  unfold Dev.sendMsix
  dsimp only
  split_ifs
  · rfl
  · exact Dev.asksSame_modHp d p q rfl
  · rfl

theorem Dev.asksSame_writeEvent (d : Dev) (p q : Nat) (e : HeldEv) : Dev.AsksSame p d (d.writeEvent q e) := by
  unfold Dev.writeEvent
  extract_lets eq d1
  have hport (c : Cq) : Dev.AsksSame p d (d1.modHp q fun h => { h with eq := c }) := Dev.asksSame_modHp d1 p q rfl
  dsimp only
  split_ifs
  · exact (Dev.asksSame_sendMsix _ p q _).trans (hport _)
  · exact hport _

theorem Dev.asksSame_flushLost (d : Dev) (p q : Nat) : Dev.AsksSame p d (d.flushLost q) := by
  unfold Dev.flushLost
  dsimp only
  split_ifs
  · exact (Dev.asksSame_writeEvent _ p q _).trans (Dev.asksSame_modHp d p q rfl)
  · rfl

theorem Dev.asksSame_deliverEvent (d : Dev) (p q : Nat) (e : HeldEv) : Dev.AsksSame p d (d.deliverEvent q e) := by
  unfold Dev.deliverEvent
  dsimp only
  split_ifs
  · exact Dev.asksSame_modHp d p q rfl
  · refine Eq.trans ?_ (Dev.asksSame_flushLost d p q)
    exact Dev.asksSame_modHp _ p q rfl
  · exact (Dev.asksSame_writeEvent _ p q e).trans (Dev.asksSame_flushLost d p q)

/-- PME_Status is no part of the power state (R343). -/
theorem CfgSpace.asks_pmeStatus (c : CfgSpace) (b : Bool) :
    ({ c with pmcsr := c.pmcsr ||| if b then 0x8000 else 0 } : CfgSpace).asks = c.asks := by
  have hlow : ∀ i, i < 2 → (c.pmcsr ||| if b then 0x8000 else 0).getLsbD i = c.pmcsr.getLsbD i := by
    intro i hi
    have hbit : (0x8000 : BitVec 16).getLsbD i = false := by interval_cases i <;> rfl
    rw [BitVec.getLsbD_or]
    split_ifs
    · rw [hbit, Bool.or_false]
    · simp
  simp only [CfgSpace.asks, CfgSpace.d3, hlow 0 (by decide), hlow 1 (by decide)]
  rfl

theorem Dev.asksSame_holdForD0 (d : Dev) (p q : Nat) (e : HeldEv) : Dev.AsksSame p d (d.holdForD0 q e) := by
  unfold Dev.holdForD0
  extract_lets d1
  have hheld : Dev.AsksSame p d d1 := Dev.asksSame_modHp d p q (CfgSpace.asks_pmeStatus _ _)
  split_ifs
  · exact hheld
  · exact hheld

theorem Dev.asksSame_eventAt (d : Dev) (p q u code status : Nat) (data : DWord) :
    Dev.AsksSame p d (d.eventAt q u code status data) := by
  unfold Dev.eventAt
  dsimp only
  split
  · split_ifs
    · exact Dev.asksSame_modHp d p q rfl
    · exact Dev.asksSame_holdForD0 d p q _
    · exact Dev.asksSame_deliverEvent d p q _
  · split_ifs
    · exact Dev.asksSame_modHp d p q rfl
    · exact Dev.asksSame_modHp d p q rfl
  · split_ifs
    · exact Dev.asksSame_modHp d p q rfl
    · exact Dev.asksSame_modHp d p q rfl

theorem Dev.asksSame_foldS {α : Type} {f : Dev → α → Dev} (hf : ∀ t a, Dev.AsksSame p t (f t a)) (l : List α) :
    Dev.AsksSame p d (foldS f d l) :=
  foldS_inv (Dev.AsksSame p d) f d l (fun t a ht => (hf t a).trans ht) rfl

theorem Dev.asksSame_event (d : Dev) (p u code status : Nat) (data : DWord) : Dev.AsksSame p d (d.event u code status data) := by
  refine Dev.asksSame_foldS (fun t q => ?_) _
  split_ifs
  · exact Dev.asksSame_eventAt t p q u code status data
  · rfl

end Asks

/-! ### The events of a bank (R319) -/

theorem Dev.bankEvents_events (d : Dev) (n : Nat) (evs : List BankEv) : d.Events (d.bankEvents n evs) :=
  Dev.Events.foldS _ evs d fun _ _ => Dev.event_events ..

@[simp] theorem Dev.bankEvents_nil (d : Dev) (n : Nat) : d.bankEvents n [] = d := rfl

theorem Dev.asksSame_bankEvents (d : Dev) (p n : Nat) (evs : List BankEv) : Dev.AsksSame p d (d.bankEvents n evs) :=
  Dev.asksSame_foldS (fun t _ => Dev.asksSame_event t p ..) evs

/-! ### An operation on its descriptor's start (R361, R370, R393) -/

section AtStart

variable {d d' t u : Dev} {iss : Issuer} {x : Desc}

/-- The rings, the right to ask and the executing descriptors are those of the start of `x`. -/
def Dev.AtStart (d t : Dev) (iss : Issuer) (x : Desc) : Prop :=
  (∀ p, (t.hp p).sqs = ((d.start iss x).hp p).sqs ∧ (t.hp p).cqs = ((d.start iss x).hp p).cqs ∧ Dev.AsksSame p (d.start iss x) t) ∧
    t.execs = (d.start iss x).execs ∧ t.nextExec = d.nextExec + 1 ∧ ∃ l, t.out = d.out ++ l

/-- A device with the rings and the executing descriptors of the start. -/
theorem Dev.atStart_of_eq (hhps : t.hps = (d.start iss x).hps) (hexecs : t.execs = (d.start iss x).execs)
    (hnext : t.nextExec = (d.start iss x).nextExec) (hout : ∃ l, t.out = d.out ++ l) : d.AtStart t iss x := by
  have hport (p : Nat) : t.hp p = (d.start iss x).hp p := by rw [Dev.hp, hhps, Dev.hp]
  refine ⟨fun p => ?_, hexecs, by rw [hnext, Dev.start_nextExec], hout⟩
  rw [Dev.AsksSame, hport]
  exact ⟨rfl, rfl, rfl⟩

theorem Dev.AtStart.bankEvents (h : d.AtStart t iss x) (n : Nat) (evs : List BankEv) : d.AtStart (t.bankEvents n evs) iss x := by
  obtain ⟨hports, hexecs, hnext, l, hout⟩ := h
  obtain ⟨hframe, hev, m, hadd, -⟩ := Dev.bankEvents_events t n evs
  refine ⟨fun p => ?_, by rw [hframe]; exact hexecs, by rw [hframe]; exact hnext, l ++ m, by rw [hadd, hout, List.append_assoc]⟩
  obtain ⟨hsqs, hcqs, hasks⟩ := hports p
  have hport := hev p
  unfold HostPort.EvSame at hport
  refine ⟨?_, ?_, (Dev.asksSame_bankEvents t p n evs).trans hasks⟩
  · rw [hport]; exact hsqs
  · rw [hport]; exact hcqs

/-- What ends there answers its descriptor. -/
theorem Dev.AtStart.complete {op : Nat} {force pinned : Bool} {masks : List (Nat × Nat)} (h : d.AtStart t iss x)
    (hs : d.mayStart iss x op force pinned masks) (hrep : d'.Replied t) (status unit : Nat) (info : DWord) :
    d.Answered d' (t.complete d.nextExec status unit info) iss x status unit info := by
  obtain ⟨hports, hexecs, hnext, hout⟩ := h
  obtain ⟨-, -, hready, -, -, hone⟩ := hs
  refine ⟨hrep.trans (Dev.complete_replied ..), by rw [Dev.complete_nextExec, hnext],
    Dev.complete_delivered d t iss x status unit info (fun p => (hports p).1) (fun p => (hports p).2.1) hexecs hout ?_ ?_⟩
  · cases iss <;> exact hone
  rintro p q rfl
  obtain ⟨-, -, hasks⟩ := hports p
  rw [hasks, Dev.conf_start, Dev.asks_of_startable hready]

/-- A bank set in both devices. -/
theorem Dev.Replied.setBank (h : d.Replied t) (n : Nat) (b : Bank) : (d.setBank n b).Replied (t.setBank n b) := by
  obtain ⟨hframe, hports, l, hout⟩ := h
  refine ⟨?_, hports, l, hout⟩
  rw [hframe]
  rfl

/-- What telemetry counts and the free values taken are apart from what completions change. -/
theorem Dev.Replied.counted (h : d.Replied t) (w : Tele) (k : Nat) :
    ({ d with tele := w, freeCtr := k } : Dev).Replied { t with tele := w, freeCtr := k } := by
  obtain ⟨hframe, hports, l, hout⟩ := h
  refine ⟨?_, hports, l, hout⟩
  rw [hframe]

end AtStart

section BankDescriptors

variable (d : Dev) (iss : Issuer) (x : Desc)

theorem Dev.start_banks : (d.start iss x).banks = d.banks := (congrArg Dev.banks (Dev.start_replied d iss x).1 :)

@[simp] theorem Dev.bank_start (n : Nat) : (d.start iss x).bank n = d.bank n := by rw [Dev.bank, Dev.start_banks, Dev.bank]
@[simp] theorem Dev.start_rake : (d.start iss x).rake = d.rake := (congrArg Dev.rake (Dev.start_replied d iss x).1 :)
@[simp] theorem Dev.start_freeCtr : (d.start iss x).freeCtr = d.freeCtr :=
  (congrArg Dev.freeCtr (Dev.start_replied d iss x).1 :)

/-- The work of a bank counts in telemetry and takes two free values (R312, R561). -/
theorem Dev.bankWork_frame (n s : Nat) (old new : Bank) (codes : List Nat) (fg bg : Nat) (fill : Bool) :
    ∃ w, d.bankWork n s old new codes fg bg fill = { d with tele := w, freeCtr := d.freeCtr + 2 } := ⟨_, rfl⟩

end BankDescriptors

section Ranges

variable {d : Dev} {iss : Issuer} {x : Desc} {n : Nat}

/-- SCRUB of a range of a RUNNING bank goes through the pages, raises what it found and ends (R315, R408). -/
theorem opScrub_scrubs
    (hs : d.mayStart iss x 0x20 false false ([(1, 0xFFFF0000), (2, 0xFFFF0080)] ++ resFrom 3)) (hbank : descBank x = some n)
    (hcount : fld (dword x 2) 8 8 ≠ 0) (hclk : d.pllDead 2 = false) (hend : fld (dword x 2) 0 7 + fld (dword x 2) 8 8 ≤ 128)
    (hin : d.inPart iss.reader (uBank n) = true) (hruns : d.ust (uBank n) = .running) {b : Bank} {k c u : Nat} {evs : List BankEv}
    (hscrub : (d.bank n).abortBorrow.scrubRange ((List.range (fld (dword x 2) 8 8)).map (fld (dword x 2) 0 7 + ·)) = (b, k, c, u, evs)) :
    ∃ w, opScrub iss x d =
      ({ ((d.start iss x).setBank n b).bankEvents n evs with tele := w, freeCtr := d.freeCtr + 2 } : Dev).complete d.nextExec stDone
        (uBank n) (pack64 [(k, 0, 16), (c, 16, 16), (u, 32, 16)]) := by
  have hfits : ¬ (fld (dword x 2) 8 8 = 0 ∨ 128 < fld (dword x 2) 0 7 + fld (dword x 2) 8 8) := by omega
  obtain ⟨w, hw⟩ := Dev.bankWork_frame (((d.start iss x).setBank n b).bankEvents n evs) n (b.slotOf (fld (dword x 2) 0 7)) (d.bank n) b
    (evs.map BankEv.code) (64 * k) 0 false
  have hctr : (((d.start iss x).setBank n b).bankEvents n evs).freeCtr = d.freeCtr :=
    (congrArg Dev.freeCtr (Dev.bankEvents_events _ n evs).1).trans (Dev.start_freeCtr d iss x)
  rw [hctr] at hw
  refine ⟨w, ?_⟩
  rw [opScrub, Dev.beginAt_mayStart hclk hs, ← hw]
  simp [hbank, hfits, hin, hruns, hscrub]

theorem opScrub_answers
    (hs : d.mayStart iss x 0x20 false false ([(1, 0xFFFF0000), (2, 0xFFFF0080)] ++ resFrom 3)) (hbank : descBank x = some n)
    (hcount : fld (dword x 2) 8 8 ≠ 0) (hclk : d.pllDead 2 = false) (hend : fld (dword x 2) 0 7 + fld (dword x 2) 8 8 ≤ 128)
    (hin : d.inPart iss.reader (uBank n) = true) (hruns : d.ust (uBank n) = .running) {b : Bank} {k c u : Nat} {evs : List BankEv}
    (hscrub : (d.bank n).abortBorrow.scrubRange ((List.range (fld (dword x 2) 8 8)).map (fld (dword x 2) 0 7 + ·)) = (b, k, c, u, evs)) :
    d.Answered { d.setBank n b with tele := (opScrub iss x d).tele, freeCtr := d.freeCtr + 2 } (opScrub iss x d) iss x stDone (uBank n)
      (pack64 [(k, 0, 16), (c, 16, 16), (u, 32, 16)]) := by
  obtain ⟨w, hscrubs⟩ := opScrub_scrubs hs hbank hcount hclk hend hin hruns hscrub
  let d0 := (d.start iss x).setBank n b
  have hstart : d.AtStart d0 iss x := Dev.atStart_of_eq rfl rfl rfl ⟨[], by simp [d0, Dev.setBank]⟩
  have hat := hstart.bankEvents n evs
  have hrep := ((Dev.start_replied d iss x).setBank n b).trans (Dev.bankEvents_events d0 n evs).replied
  have htele : (opScrub iss x d).tele = w := by
    rw [hscrubs]
    exact congrArg Dev.tele (Dev.complete_replied ..).1
  rw [htele, hscrubs]
  exact Dev.AtStart.complete (t := { d0.bankEvents n evs with tele := w, freeCtr := d.freeCtr + 2 }) hat hs (hrep.counted w _) ..

/-- Where no move of a page runs, none is to be given up at its retirement (R322). -/
theorem Dev.retiredMoves_nil {page : Nat} (h : d.movingPage n page = false) :
    (d.rake.moves.filter fun m => m.runs && ((m.srcBank == n && m.srcPage == page) || (m.dstBank == n && m.dstPage == page))) = [] := by
  rw [List.filter_eq_nil_iff]
  intro m hm hbad
  rw [Dev.movingPage, List.any_eq_false] at h
  have := h m hm
  simp only [PageMove.runs, Bool.and_eq_true, Bool.or_eq_true] at this hbad
  tauto

theorem Dev.answered_setBank {op : Nat} {force pinned : Bool} {masks : List (Nat × Nat)} (hs : d.mayStart iss x op force pinned masks)
    (b : Bank) (status unit : Nat) (info : DWord) :
    d.Answered (d.setBank n b) (((d.start iss x).setBank n b).complete d.nextExec status unit info) iss x status unit info :=
  Dev.AtStart.complete (t := (d.start iss x).setBank n b) (Dev.atStart_of_eq rfl rfl rfl ⟨[], by simp [Dev.setBank]⟩) hs
    ((Dev.start_replied d iss x).setBank n b) ..

/-- RETIRE of a page that holds nothing and does not move puts a spare slot in its place (R322, R409). -/
theorem opRetire_unwritten {k : Nat} (hs : d.mayStart iss x 0x21 false false ([(1, 0xFFFF0000), (2, 0xFFFFFF80)] ++ resFrom 3))
    (hbank : descBank x = some n) (hclk : d.pllDead 2 = false) (hin : d.inPart iss.reader (uBank n) = true)
    (hruns : d.ust (uBank n) = .running) (hstill : d.movingPage n (fld (dword x 2) 0 7) = false)
    (hspare : (d.bank n).freeSpare = some k) (hborrow : (d.bank n).borrow = none)
    (hunwritten : ((d.bank n).slot ((d.bank n).slotOf (fld (dword x 2) 0 7))).written = false) :
    let b := (d.bank n).remapTo (fld (dword x 2) 0 7) k
    opRetire iss x d = ((d.start iss x).setBank n b).complete d.nextExec stDone (uBank n)
      (pack64 [(k, 0, 8), ((List.range 8).countP fun i => !b.spareUsed.contains (128 + i), 8, 4)]) := by
  rw [opRetire, Dev.beginAt_mayStart hclk hs]
  simp [hbank, hin, hruns, Dev.retiredMoves_nil hstill, hspare, foldS, Bank.claim_unborrowed hborrow, hunwritten, hborrow]

/-- SNAPSHOT of UNITS with room for it writes the view at the address that it names and answers its length (R411). -/
theorem opSnapshot_units {a : Nat}
    (hs : d.mayStart iss x 0x30 false false ([(1, 0xFFFFFFFF), (2, 0xFFFFFFFC)] ++ resFrom 6)) (hkind : fld (dword x 2) 0 2 = 1)
    (haddr : (dqword x 3).toNat = a) (halign : a % 64 = 0) (hrange : badRange iss a (dword x 5).toNat = false)
    (hroom : ((d.start iss x).unitsView iss.reader).length ≤ (dword x 5).toNat) :
    let view := (d.start iss x).unitsView iss.reader
    opSnapshot iss x d =
      ((d.start iss x).putHostData d.nextExec iss a view).complete d.nextExec stDone iss.unit (BitVec.ofNat 64 view.length) := by
  have hfits : ¬ (dword x 5).toNat < ((d.start iss x).unitsView iss.reader).length := by omega
  have hmasks : (if fld (dword x 2) 0 2 = 0 then 0xFFFF0000 else 0xFFFFFFFF) = 0xFFFFFFFF := by rw [hkind]; rfl
  rw [opSnapshot, hmasks, Dev.begin_mayStart hs]
  simp [hkind, haddr, halign, hrange, hfits]

/-- Data for a ring's host goes out at its descriptor's start (R347). -/
theorem Dev.atStart_putHostData {p q : Nat} (hready : d.startable (.ring p q) x = true) (addr : Nat) (bs : List Byte) :
    d.AtStart ((d.start (.ring p q) x).putHostData d.nextExec (.ring p q) addr bs) (.ring p q) x ∧
      d.Replied ((d.start (.ring p q) x).putHostData d.nextExec (.ring p q) addr bs) := by
  have horphan : (d.start (.ring p q) x).orphaned d.nextExec = false := by rw [Dev.orphaned, Dev.exec_start]; rfl
  have hasks : ((d.start (.ring p q) x).hp p).conf.asks = true := by rw [Dev.conf_start, Dev.asks_of_startable hready]
  rw [Dev.putHostData_ring horphan hasks]
  exact ⟨Dev.atStart_of_eq rfl rfl rfl ⟨_, congrArg (· ++ _) (Dev.start_out d _ x)⟩,
    (Dev.start_replied d _ x).trans ⟨rfl, fun _ => .refl _, _, rfl⟩⟩

end Ranges

/-- Settles O18: each operation goes on from its descriptor's start, which leaves the banks. -/
theorem bankDescriptorsAnswer : Obligations.BankDescriptorsAnswer := by
  refine ⟨?_, ?_, ?_⟩
  · intro s iss x n d first count hs hbank hcount hclk hend hin hruns
    refine takes_of_runCmd (f := opScrub iss x) rfl hs.1 ?_
    exact opScrub_answers hs hbank hcount hclk hend hin hruns rfl
  · intro s iss x n k d page b hs hbank hclk hin hruns hstill hspare hborrow hunwritten
    refine takes_of_runCmd (f := opRetire iss x) rfl hs.1 ?_
    rw [opRetire_unwritten hs hbank hclk hin hruns hstill hspare hborrow hunwritten]
    exact Dev.answered_setBank hs ..
  · intro s p q x d iss d0 a view hs hkind halign hrange hroom
    refine takes_of_runCmd (f := opSnapshot iss x) rfl hs.1 ?_
    rw [opSnapshot_units hs hkind rfl halign hrange hroom]
    have ⟨_, _, hready, _⟩ := hs
    obtain ⟨hat, hrep⟩ := Dev.atStart_putHostData hready a view
    exact ⟨hat.complete hs hrep .., (Dev.complete_replied ..).2.2⟩

end Sys2Proof.Machine
end

section

set_option Elab.async false

/-! ### Transfers (R347, R366, R367, R368, R406, R407, R410) -/

namespace Sys2Proof.Machine

section Going

variable {d : Dev} {e : Nat} {iss : Issuer} {x : Xfer}

/-- A transfer into the Sluice that asks for nothing more of its source and has positions left waits for its lines. -/
theorem Dev.xferGo_waits (hsource : d.askSource e iss x = (d, x)) (hdst : x.dstSl = true) (hleft : x.wcur < x.limit) :
    d.xferGo e iss x = d.setKind e (.xfer x) := by
  have hended : x.ended = false := by simp [Xfer.ended, hleft]
  simp [Dev.xferGo, hsource, Dev.drainHost, hdst, hended]

/-- A transfer between places of the Sluice that failed at a position it has come to, with nothing out, ends there (R368). -/
theorem Dev.xferGo_fails {p st : Nat} (hsource : d.askSource e iss x = (d, x)) (hdst : x.dstSl = true) (hended : x.ended = true)
    (hfail : x.fail = some (p, st)) : d.xferGo e iss x = d.complete e st iss.unit (BitVec.ofNat 64 p) := by
  simp [Dev.xferGo, hsource, Dev.drainHost, hdst, hended, hfail]

end Going

/-! #### A pre-read that a descriptor takes or drops (R360) -/

section Preread

/-- A read of a pre-read of ring `q`'s index `i` is for nothing any more. -/
def HostReadSt.withoutPreread (q i : Nat) (y : HostReadSt) : HostReadSt := if y.why.prereads q i then { y with why := .dropped } else y

theorem HostReadSt.sent_withoutPreread (q i : Nat) (y : HostReadSt) : (y.withoutPreread q i).sent = y.sent := by
  unfold HostReadSt.withoutPreread
  split <;> rfl

/-- A host port whose ring `q` has given up the pre-read of index `i`. -/
def HostPort.withoutPreread (h : HostPort) (q i : Nat) : HostPort :=
  { h with
    sqs := h.sqs.modify {} q fun s => { s with preread := s.preread.set [] i [] }
    reads := h.reads.map fun r => (r.1, r.2.map (HostReadSt.withoutPreread q i)) }

@[simp] theorem HostPort.conf_withoutPreread (h : HostPort) (q i : Nat) : (h.withoutPreread q i).conf = h.conf := rfl
@[simp] theorem HostPort.nextRead_withoutPreread (h : HostPort) (q i : Nat) : (h.withoutPreread q i).nextRead = h.nextRead := rfl

/-- A read whose bytes are no longer wanted is outstanding all the same (R644). -/
theorem HostPort.mayAsk_withoutPreread (h : HostPort) (q i : Nat) : (h.withoutPreread q i).mayAsk = h.mayAsk := by
  have hsent (r : Nat × Option HostReadSt) :
      ((r.1, r.2.map (HostReadSt.withoutPreread q i)).2.any fun x => x.sent) = r.2.any fun x => x.sent := by
    rw [Option.any_map]
    exact congrArg (Option.any · r.2) (funext fun y => HostReadSt.sent_withoutPreread q i y)
  have hcount : (h.withoutPreread q i).inFlight = h.inFlight := by
    rw [HostPort.inFlight, HostPort.withoutPreread, List.filter_map, List.length_map, HostPort.inFlight]
    exact congrArg (fun f => (h.reads.filter f).length) (funext hsent)
  rw [HostPort.mayAsk, hcount, HostPort.conf_withoutPreread, HostPort.mayAsk]

/-- A ring's descriptor gets the bytes of its pre-read, and the pre-read is gone (R360). -/
theorem Dev.usePreread_ring {d : Dev} {e p q : Nat} {y : Exec} (hexec : d.exec e = some y) (hiss : y.iss = .ring p q) :
    (d.usePreread e).1 = ((d.hp p).sq q).preread.get [] y.idx ∧
      (d.usePreread e).2 = { d with hps := (d.usePreread e).2.hps } ∧
      (d.usePreread e).2.hp p = (d.hp p).withoutPreread q y.idx := by
  have hused : d.usePreread e = (((d.hp p).sq q).preread.get [] y.idx,
      (d.modSq p q fun s => { s with preread := s.preread.set [] y.idx [] }).modHp p fun h => { h with
        reads := h.reads.map fun r => (r.1, r.2.map fun z => if z.why.prereads q y.idx then { z with why := .dropped } else z) }) := by
    simp only [Dev.usePreread, hexec, hiss]
  rw [hused]
  refine ⟨rfl, rfl, ?_⟩
  rw [Dev.hp_modHp_same, Dev.modSq, Dev.hp_modHp_same]
  rfl

end Preread

section Asking

variable {d : Dev} {p q : Nat}

/-- A read of host memory leaves its port where fewer than 256 are outstanding and the function may ask (R343, R644). -/
theorem Dev.askHost_sent (h : (d.hp p).mayAsk = true) (why : ReadWhy) (addr len : Nat) :
    let t := d.askHost p why addr len
    t = { d with hps := t.hps, out := d.out ++ [.hostRead p (d.hp p).nextRead (BitVec.ofNat 64 addr) len] } ∧
      (t.hp p).reads.get none (d.hp p).nextRead = some { why := why, addr := BitVec.ofNat 64 addr, len := len, sent := true } := by
  have ht : d.askHost p why addr len = (d.modHp p fun h => { h with
      reads := h.reads.set none h.nextRead (some { why := why, addr := BitVec.ofNat 64 addr, len := len, sent := true })
      nextRead := h.nextRead + 1 }).emit (.hostRead p (d.hp p).nextRead (BitVec.ofNat 64 addr) len) := by
    simp [Dev.askHost, h]
  rw [ht]
  refine ⟨rfl, ?_⟩
  rw [Dev.hp_emit, Dev.hp_modHp_same, Tab.get_set_same]

/-- A transfer from host memory to the Sluice asks for the next piece of its source (R347, R406). -/
theorem Dev.xferGo_asks {e a n : Nat} {x : Xfer} (horphan : d.orphaned e = false) (hsrc : x.srcSl = false) (hdst : x.dstSl = true)
    (hpattern : x.pattern = none) (hout : x.hostOut = false) (hleft : x.rcur < x.limit) (ha : x.src.toNat + x.rcur = a)
    (hn : (d.hp p).readSpan a (x.limit - x.rcur) = n) :
    d.xferGo e (.ring p q) x = (d.askHost p (.copySrc e x.rcur) a n).setKind e (.xfer { x with hostOut := true, rcur := x.rcur + n }) := by
  have hmore : ¬ x.limit ≤ x.rcur := by omega
  subst ha hn
  simp [Dev.xferGo, Dev.askSource, hsrc, hout, hpattern, hmore, horphan, Dev.drainHost, hdst, Xfer.ended]

end Asking

/-- A bit of a low field is one of its word. -/
theorem bit_eq_testBit_fld {w : Word} {i n : Nat} (h : i < n) : bit w i = (fld w 0 n).testBit i := by
  simp [bit, fld, nfld, h, BitVec.testBit_toNat]

section Started

variable {d : Dev} {p q : Nat} {x : Desc}

/-- A start leaves the ring's pre-reads, its port's reads and the size set for them (R361). -/
theorem Dev.reads_start :
    (((d.start (.ring p q) x).hp p).sq q).preread = ((d.hp p).sq q).preread ∧
      ((d.start (.ring p q) x).hp p).reads = (d.hp p).reads ∧ ((d.start (.ring p q) x).hp p).nextRead = (d.hp p).nextRead := by
  simp [Dev.start, Dev.modSq, Dev.modCq, Dev.modHp, Dev.hp, HostPort.sq]

/-- A descriptor that waits for `k` from its start executes. -/
theorem Dev.executes_start (d : Dev) (iss : Issuer) (x : Desc) (k : ExecKind) :
    d.Executes d ((d.start iss x).setKind d.nextExec k) iss x k :=
  ⟨(Dev.start_replied d iss x).trans (Dev.setKind_replied ..), Dev.start_nextExec d iss x, Dev.start_out d iss x,
    Dev.exec_start_setKind d iss x k⟩

/-- FILL of a pool range forms its pattern for its lines (R407). -/
theorem opFill_executes {iss : Issuer} (hs : d.mayStart iss x 0x11 false false ([(1, 0xFFFFFFFF), (2, 0xFFFFFFFF)] ++ resFrom 8))
    (hpos : 0 < (dword x 5).toNat) (hlen : (dword x 5).toNat ≤ maxCopy) :
    d.Executes d (opFill iss x d) iss x (.xfer
      { srcSl := false, dstSl := true, src := 0, dst := dqword x 3, len := (dword x 5).toNat, pattern := some (dqword x 6) }) := by
  have hfits : ¬ ((dword x 5).toNat = 0 ∨ maxCopy < (dword x 5).toNat) := by omega
  rw [opFill, Dev.begin_mayStart hs]
  simp only [hfits, if_false]
  rw [Dev.xferGo_waits (by simp [Dev.askSource]) rfl hpos]
  exact Dev.executes_start ..

/-- FLIPTEST of an aligned line of its own device waits to present its write (R321, R410). -/
theorem opFliptest_executes {iss : Issuer} (hs : d.mayStart iss x 0x22 false false ([(1, 0xFFFFFFFF), (2, 0xFFFFFFE0)] ++ resFrom 7))
    (hword : fld (dword x 2) 0 5 ≤ 16) (halign : slOff (dqword x 3) % 64 = 0) (hown : slDev (dqword x 3) = d.ownId)
    (htag : 0xF000 ≤ slTag (dqword x 3)) :
    d.Executes d (opFliptest iss x d) iss x (.flip (dqword x 3) false
      (lineOf ((List.range 16).flatMap fun _ => leBytes 4 (dword x 5).toNat)) (fld (dword x 2) 0 5) (dword x 6)) := by
  have hid : (d.start iss x).ownId = d.ownId := by
    rw [Dev.ownId, (congrArg Dev.sl (Dev.start_replied d iss x).1 :), Dev.ownId]
  have hgood : ¬ (16 < fld (dword x 2) 0 5 ∨ slOff (dqword x 3) % 64 ≠ 0 ∨ slDev (dqword x 3) ≠ (d.start iss x).ownId ∨
      slTag (dqword x 3) < 0xF000) := by
    rw [hid]
    omega
  rw [opFliptest, Dev.begin_mayStart hs]
  simp only [hgood, if_false]
  exact Dev.executes_start ..

/-- A start of a ring's descriptor changes its port and the executing descriptors (R361). -/
theorem Dev.start_ring_frame : ∃ h t, d.start (.ring p q) x = { d with hps := h, execs := t, nextExec := d.nextExec + 1 } := by
  simp only [Dev.start, Dev.modSq, Dev.modCq, Dev.modHp]
  exact ⟨_, _, rfl⟩

/-- A ring's descriptor without a pre-read has no bytes from its start, and its port may ask for them as before (R360, R361). -/
theorem Dev.usePreread_start (hfresh : Tab.get [] ((d.hp p).sq q).preread ((d.hp p).sq q).head = []) :
    let t := (d.start (.ring p q) x).usePreread d.nextExec
    t.1 = [] ∧ t.2 = { d with hps := t.2.hps, execs := t.2.execs, nextExec := d.nextExec + 1 } ∧
      t.2.exec d.nextExec = some (d.startedExec (.ring p q) x .rake) ∧ (t.2.hp p).mayAsk = (d.hp p).mayAsk ∧
      (t.2.hp p).maxRead = (d.hp p).maxRead ∧ (t.2.hp p).nextRead = (d.hp p).nextRead := by
  intro t
  obtain ⟨hearly, hframe, hport⟩ := Dev.usePreread_ring (Dev.exec_start d (.ring p q) x) rfl
  obtain ⟨hpre, hreads, hnext⟩ := Dev.reads_start (d := d) (p := p) (q := q) (x := x)
  have hconf := Dev.conf_start d x p q
  have hexecs : t.2.execs = (d.start (.ring p q) x).execs := (congrArg Dev.execs hframe :)
  have hmay : ((d.start (.ring p q) x).hp p).mayAsk = (d.hp p).mayAsk := by
    rw [HostPort.mayAsk, HostPort.inFlight, hreads, hconf, HostPort.mayAsk, HostPort.inFlight]
  refine ⟨?_, ?_, ?_, ?_, ?_, ?_⟩
  · exact hearly.trans (by rw [hpre]; exact hfresh)
  · obtain ⟨h, m, hstart⟩ := Dev.start_ring_frame (d := d) (p := p) (q := q) (x := x)
    change t.2 = _ at hframe
    generalize t.2 = t2 at hframe ⊢
    rw [hframe, hstart]
  · rw [Dev.exec, hexecs]
    exact Dev.exec_start d _ x
  · rw [hport, HostPort.mayAsk_withoutPreread, hmay]
  · rw [hport, HostPort.maxRead, HostPort.conf_withoutPreread, hconf, HostPort.maxRead]
  · rw [hport, HostPort.nextRead_withoutPreread, hnext]

/-- COPY from host memory to the Sluice without a pre-read asks for the first piece of its source (R347, R406, R644). -/
theorem opCopy_asks
    (hs : d.mayStart (.ring p q) x 0x10 false false ([(1, 0xFFFFFFFF), (2, 0xFFFFFFFC)] ++ resFrom 8)) (hkind : fld (dword x 2) 0 2 = 2)
    (hpos : 0 < (dword x 7).toNat) (hlen : (dword x 7).toNat ≤ maxCopy)
    (hfresh : Tab.get [] ((d.hp p).sq q).preread ((d.hp p).sq q).head = []) (hfew : (d.hp p).inFlight < 256) :
    let t := opCopy (.ring p q) x d
    let n := min (min (d.hp p).maxRead (dword x 7).toNat) (4096 - (dqword x 3).toNat % 4096)
    t = { d with hps := t.hps, execs := t.execs, nextExec := d.nextExec + 1, out := d.out ++ [.hostRead p (d.hp p).nextRead (dqword x 3) n] } ∧
      (t.hp p).reads.get none (d.hp p).nextRead = some { why := .copySrc d.nextExec 0, addr := dqword x 3, len := n, sent := true } ∧
      (t.exec d.nextExec).map (fun y => y.kind) = some (.xfer
        { srcSl := false, dstSl := true, src := dqword x 3, dst := dqword x 5, len := (dword x 7).toNat, rcur := n, hostOut := true }) := by
  have ⟨_, _, hready, _⟩ := hs
  have hsrc : bit (dword x 2) 0 = false := by rw [bit_eq_testBit_fld (n := 2) (by decide), hkind]; rfl
  have hdst : bit (dword x 2) 1 = true := by rw [bit_eq_testBit_fld (n := 2) (by decide), hkind]; rfl
  have hmay : (d.hp p).mayAsk = true := by simp [HostPort.mayAsk, hfew, Dev.asks_of_startable hready]
  obtain ⟨hearly, hframe, hexec, hasks, hmax, hnext⟩ := Dev.usePreread_start (x := x) hfresh
  let x0 : Xfer := { srcSl := false, dstSl := true, src := dqword x 3, dst := dqword x 5, len := (dword x 7).toNat }
  have hop : opCopy (.ring p q) x d = ((d.start (.ring p q) x).usePreread d.nextExec).2.xferGo d.nextExec (.ring p q) x0 := by
    have hsome : (dword x 7).toNat ≠ 0 := by omega
    have hfits : ¬ maxCopy < (dword x 7).toNat := by omega
    rw [opCopy, Dev.begin_mayStart hs]
    simp [hsrc, hdst, hearly, badRange, hsome, hfits, x0]
  rw [hmay] at hasks
  generalize ((d.start (.ring p q) x).usePreread d.nextExec).2 = d1 at hop hframe hexec hasks hmax hnext
  have horphan : d1.orphaned d.nextExec = false := by rw [Dev.orphaned, hexec]; rfl
  let n := min (min (d.hp p).maxRead (dword x 7).toNat) (4096 - (dqword x 3).toNat % 4096)
  have hspan : (d1.hp p).readSpan (dqword x 3).toNat (dword x 7).toNat = n := by rw [HostPort.readSpan, hmax]
  obtain ⟨hsent, hread⟩ := Dev.askHost_sent hasks (.copySrc d.nextExec 0) (dqword x 3).toNat n
  rw [BitVec.ofNat_toNat, BitVec.setWidth_eq, hnext] at hsent hread
  rw [hop, Dev.xferGo_asks (x := x0) horphan rfl rfl rfl rfl hpos rfl hspan]
  have hexec2 : (d1.askHost p (.copySrc d.nextExec 0) (dqword x 3).toNat n).exec d.nextExec = some (d.startedExec (.ring p q) x .rake) := by
    rw [hsent]
    exact hexec
  generalize d1.askHost p (.copySrc d.nextExec x0.rcur) (dqword x 3).toNat n = d2 at hsent hread hexec2 ⊢
  refine ⟨?_, hread, ?_⟩
  · obtain ⟨h1, x1, hd1⟩ : ∃ h m, d1 = { d with hps := h, execs := m, nextExec := d.nextExec + 1 } := ⟨_, _, hframe⟩
    obtain ⟨h2, hd2⟩ : ∃ h, d2 = { d1 with hps := h, out := d1.out ++ [.hostRead p (d.hp p).nextRead (dqword x 3) n] } := ⟨_, hsent⟩
    rw [hd2, hd1, Dev.setKind]
  · rw [Dev.exec_setKind_same, hexec2]
    simp [x0, n]

/-- A transfer's lines that were answered BUSY are issued again (R367). -/
theorem opBusyRetry_again {e : Nat} {iss : Issuer} {y : Exec} {t : Xfer} (hexec : d.exec e = some y) (hiss : y.iss = iss)
    (hkind : y.kind = .xfer t) (hbusy : t.busy ≠ []) (hout : t.out = []) :
    opBusyRetry iss e d = d.setKind e (.xfer
      { t with busy := [], again := orderBy (fun a b => decide (a.pos < b.pos)) (t.busy ++ t.again), retry := true }) := by
  have hnone : (!t.busy.isEmpty) = true := by simpa using hbusy
  simp [opBusyRetry, hexec, hiss, hkind, hnone, hout]

/-- A transfer between places of the Sluice whose BUSY window has expired ends at its BUSY line once nothing is out (R367, R368). -/
theorem opBusyWindowExpiry_ends {e : Nat} {iss : Issuer} {y : Exec} {t : Xfer} {c : Chunk} (hexec : d.exec e = some y) (hiss : y.iss = iss)
    (hkind : y.kind = .xfer t) (hwin : t.busyWin = true) (hbusy : t.busy = [c]) (hagain : t.again = []) (hfail : t.fail = none)
    (hcome : c.pos ≤ t.wcur) (hwithin : c.pos ≤ t.len) (hout : t.out = []) (hhost : t.hostOut = false) (hdst : t.dstSl = true)
    (hsrc : t.srcSl = true) : opBusyWindowExpiry iss e d = d.complete e stBusy iss.unit (BitVec.ofNat 64 c.pos) := by
  have hat : min c.pos t.len = c.pos := by omega
  let t1 : Xfer := { t with busyWin := false, busyOver := true, retry := false, busy := [], again := [], fail := some (c.pos, stBusy) }
  have hnoted : opBusyWindowExpiry iss e d = d.xferGo e iss t1 := by
    simp [opBusyWindowExpiry, hexec, hiss, hkind, hwin, hbusy, hagain, foldS, Xfer.note, hfail, t1]
  have hended : t1.ended = true := by simp [Xfer.ended, Xfer.limit, t1, hout, hhost, hat, hcome]
  rw [hnoted, Dev.xferGo_fails (x := t1) (by simp [Dev.askSource, t1, hsrc]) hdst hended rfl]

end Started

/-- Settles O19: a transfer that waits, asks, retries or ends is what `Dev.xferGo` makes of it from its descriptor's start. -/
theorem dataMovesLineByLine : Obligations.DataMovesLineByLine := by
  refine ⟨?_, ?_⟩
  · intro s p q x d iss
    refine ⟨fun hs hpos hlen => ?_, fun hs hkind hpos hlen _ hfresh hfew => ?_, fun hs hword halign hown htag => ?_⟩
    · exact takes_of_runCmd (f := opFill iss x) rfl hs.1 (opFill_executes hs hpos hlen)
    · exact takes_of_runCmd (f := opCopy iss x) rfl hs.1 (opCopy_asks hs hkind hpos hlen hfresh hfew)
    · exact takes_of_runCmd (f := opFliptest iss x) rfl hs.1 (opFliptest_executes hs hword halign hown htag)
  · intro s iss e y x hwf hexec hiss hkind
    refine ⟨fun hbusy hout => ?_, fun c hwin hbusy hagain hfail hcome hwithin hout hhost hdst hsrc => ?_⟩
    · exact takes_eq (f := opBusyRetry iss e) rfl hwf (opBusyRetry_again hexec hiss hkind hbusy hout)
    · exact takes_eq (f := opBusyWindowExpiry iss e) rfl hwf
        (opBusyWindowExpiry_ends hexec hiss hkind hwin hbusy hagain hfail hcome hwithin hout hhost hdst hsrc)

end Sys2Proof.Machine
end

section

set_option Elab.async false

/-! ### Entering sleep (R525, R526, R528, R533) -/

namespace Sys2Proof.Machine

section Entering

variable {d : Dev} {iss : Issuer} {x : Desc} {u : Nat}

/-- Time and power are apart from what starts and completions change. -/
theorem Dev.Replied.withPower {a b : Dev} (h : a.Replied b) (t : TimeU) (p : Pwr) :
    ({ a with time := t, pwr := p } : Dev).Replied { b with time := t, pwr := p } := by
  obtain ⟨hframe, hports, l, hout⟩ := h
  refine ⟨?_, hports, l, hout⟩
  rw [hframe]

/-- Background services that run are asked first, and asking them changes nothing else (R526). -/
theorem Dev.askStep_first (h : d.ust uBgs = .running) (n : Nat) :
    d.askStep (n + 1) 1 = { d with pwr := { d.pwr with step := 1, asked := [uBgs], refused := [] } } := by
  have hasked : d.stepAsked 1 = [uBgs] := by
    simp [Dev.stepAsked, stepUnits, h, show unitDomain uBgs = none from rfl]
  have hclass : unitClass uBgs = 12 := rfl
  simp [Dev.askStep, hasked, foldS, Dev.askUnit, hclass]

/-- What the start of an entry leaves for its first step (R418, R525). -/
def Dev.entering (d : Dev) (mode : Nat) (e : Nat) : Dev := { d with
  time := { d.time with alarmRang := false }
  pwr := { d.pwr with
    phase := .entering, step := 1, modeIn := BitVec.ofNat 3 mode, keepIn := d.pwr.keep, resleepIn := BitVec.ofNat 16 (fld d.pwr.mode 8 16)
    waitExec := some e, stopped := [], early := none, asked := [uBgs], refused := [] } }

/-- WAIT with a mode samples it and asks background services first (R418, R525, R526). -/
theorem opWait_enters (hclk : d.pllDead 0 = false)
    (hs : d.mayStart iss x 0x50 false false ([(1, 0xFFFF0000), (2, 0xFFFF0000)] ++ resFrom 3)) (hunit : dword x 1 = 0)
    (hmode : 1 ≤ fld d.pwr.mode 0 3) (hmode' : fld d.pwr.mode 0 3 ≤ 4) (hperm : (d.part iss.reader).power = true)
    (hepoch : fld (dword x 2) 0 16 = 0xFFFF) (hawake : d.pwr.phase = .awake) (hdev : d.ust 0 = .running) (hbgs : d.ust uBgs = .running) :
    opWait iss x d = ((d.start iss x).setKind d.nextExec .wait).entering (fld d.pwr.mode 0 3) d.nextExec := by
  have hmode0 : (d.start iss x).pwr.mode = d.pwr.mode := by rw [Dev.start_pwr]
  have hphase : ((d.start iss x).pwr.phase != .awake) = false := by rw [Dev.start_pwr, hawake]; rfl
  have hruns : ((d.start iss x).ust 0 == .running) = true := by rw [Dev.ust_start, hdev]; rfl
  have hasked : ((d.start iss x).setKind d.nextExec .wait).ust uBgs = .running := (Dev.ust_start d iss x uBgs).trans hbgs
  have hgood : ¬ (dword x 1 ≠ 0 ∨ fld d.pwr.mode 0 3 = 0 ∨ 4 < fld d.pwr.mode 0 3) := by simp [hunit]; omega
  have hpermits : ((d.start iss x).part iss.reader).power = true := by rw [Dev.part_start, hperm]
  have hcheck (t : Dev) : t.epochCheck 0 (BitVec.ofNat 16 0xFFFF) false true = none := rfl
  rw [opWait, Dev.beginAt_mayStart hclk hs]
  generalize d.start iss x = d0 at hmode0 hphase hruns hasked hpermits ⊢
  simp only [hmode0, hgood, if_false, hpermits, hepoch, hphase, hruns, hcheck, Bool.not_true, Bool.false_eq_true]
  rw [← hmode0]
  exact Dev.askStep_first (d := { d0.setKind d.nextExec .wait with
    time := { d0.time with alarmRang := false }
    pwr := { d0.pwr with
      phase := .entering, step := 0, modeIn := BitVec.ofNat 3 (fld d0.pwr.mode 0 3), keepIn := d0.pwr.keep
      resleepIn := BitVec.ofNat 16 (fld d0.pwr.mode 8 16), waitExec := some d.nextExec, stopped := [], early := none } }) hasked 9

theorem opWait_executes (hclk : d.pllDead 0 = false)
    (hs : d.mayStart iss x 0x50 false false ([(1, 0xFFFF0000), (2, 0xFFFF0000)] ++ resFrom 3)) (hunit : dword x 1 = 0)
    (hmode : 1 ≤ fld d.pwr.mode 0 3) (hmode' : fld d.pwr.mode 0 3 ≤ 4) (hperm : (d.part iss.reader).power = true)
    (hepoch : fld (dword x 2) 0 16 = 0xFFFF) (hawake : d.pwr.phase = .awake) (hdev : d.ust 0 = .running) (hbgs : d.ust uBgs = .running) :
    d.Executes (d.entering (fld d.pwr.mode 0 3) d.nextExec) (opWait iss x d) iss x .wait := by
  rw [opWait_enters hclk hs hunit hmode hmode' hperm hepoch hawake hdev hbgs]
  have hrep := (Dev.start_replied d iss x).trans (Dev.setKind_replied _ d.nextExec .wait)
  have hsame := hrep.1
  refine ⟨?_, Dev.start_nextExec d iss x, Dev.start_out d iss x, Dev.exec_start_setKind d iss x .wait⟩
  have htime : ((d.start iss x).setKind d.nextExec .wait).time = d.time := (congrArg Dev.time hsame :)
  have hpwr : ((d.start iss x).setKind d.nextExec .wait).pwr = d.pwr := (congrArg Dev.pwr hsame :)
  unfold Dev.entering
  rw [htime, hpwr]
  exact hrep.withPower _ _

/-- A step with units still asked goes on (R526). -/
theorem Dev.stepEnd_waits (h : d.pwr.asked ≠ []) : d.stepEnd = d := by
  simp [Dev.stepEnd, h]

/-- The LTR message that a host port sends as it accepts (R533). -/
def Dev.ltrOf (d : Dev) (u : Nat) : List Output :=
  if unitClass u = 5 ∧ (d.sleepMode = 2 ∨ d.sleepMode = 3) ∧ d.ust u = .running ∧ (d.hp (unitIdx u)).conf.devCtl2.getLsbD 10 = true then
    [Output.ltr (unitIdx u) (if d.sleepMode = 2 then 20 else 400)]
  else []

/-- What a unit does as it accepts: a bank restores a borrowed slot (R332), a host port sends its LTR message (R533). -/
theorem Dev.onAccept_eq (h8 : unitClass u = 8 → u = uCfgPort) (h9 : unitClass u ≠ 9) (hC : unitClass u ≠ 0xC) :
    d.onAccept u = { if unitClass u = 2 then d.modBank (unitIdx u) Bank.abortBorrow else d with out := d.out ++ d.ltrOf u } := by
  have hnone (h : unitClass u ≠ 5) : d.out ++ d.ltrOf u = d.out := by simp [Dev.ltrOf, h]
  unfold Dev.onAccept
  split
  case h_1 h => exact absurd h hC
  case h_2 h =>
    have h2 : unitClass u ≠ 2 := by omega
    rw [if_pos (h8 h), if_neg h2, hnone (by omega)]
  case h_3 h => exact absurd h h9
  case h_4 h =>
    rw [if_pos h, hnone (by omega)]
    rfl
  case h_5 h =>
    have h2 : unitClass u ≠ 2 := by omega
    rw [if_neg h2]
    simp only [Bool.and_eq_true, Bool.or_eq_true, beq_iff_eq, Dev.ltrOf, h, true_and, and_assoc]
    split_ifs
    · rfl
    · rfl
    · rw [List.append_nil]
  case h_6 h2 h5 =>
    rw [if_neg h2, hnone h5]

section Asked

variable (hclk : d.pllDead 0 = false) (hasked : d.isAsked u = true) (hothers : ∃ v, v ∈ d.pwr.asked.erase u)

include hclk hasked hothers

/-- A unit that accepts leaves the list of those asked (R526). -/
theorem opUnitStopAccept_accepts (hok : d.stopOk u = true) (h8 : unitClass u = 8 → u = uCfgPort) (h9 : unitClass u ≠ 9)
    (hC : unitClass u ≠ 0xC) :
    opUnitStopAccept u d = { if unitClass u = 2 then d.modBank (unitIdx u) Bank.abortBorrow else d with
      out := d.out ++ d.ltrOf u
      pwr := { d.pwr with
        asked := d.pwr.asked.erase u, stopped := if d.gates u then d.pwr.stopped ++ [u] else d.pwr.stopped } } := by
  have hpwr : (if unitClass u = 2 then d.modBank (unitIdx u) Bank.abortBorrow else d).pwr = d.pwr := by split <;> rfl
  have hleft : d.pwr.asked.erase u ≠ [] := List.ne_nil_of_mem hothers.choose_spec
  rw [opUnitStopAccept, hasked, hok, hclk, Dev.acceptUnit, Dev.onAccept_eq h8 h9 hC]
  dsimp only
  rw [hpwr]
  exact Dev.stepEnd_waits hleft

/-- A unit that refuses is noted with its reason and leaves the list (R526, R528). -/
theorem opUnitStopRefuse_notes (hmay : d.mayRefuse u = true) (hu : u ≠ uStore) :
    opUnitStopRefuse u d = { d with pwr := { d.pwr with asked := d.pwr.asked.erase u, refused := d.pwr.refused ++ [(u, 0)] } } := by
  have hleft : d.pwr.asked.erase u ≠ [] := List.ne_nil_of_mem hothers.choose_spec
  have hreason : (if (decide (u = uStore) && d.noSave) = true then 2 else 0) = 0 := by simp [hu]
  rw [opUnitStopRefuse, hasked, hmay, hclk, hreason]
  exact Dev.stepEnd_waits hleft

end Asked

/-- Units that give no answer in time are noted as such (R526, R546). -/
theorem opPwrStopTimeout_notes (hclk : d.pllDead 0 = false) (hphase : d.pwr.phase = .entering) (hlate : d.pwr.asked.filter mayTimeout ≠ [])
    (hothers : (d.pwr.asked.filter fun u => !mayTimeout u) ≠ []) :
    opPwrStopTimeout d = { d with pwr := { d.pwr with
      asked := d.pwr.asked.filter fun u => !mayTimeout u
      refused := d.pwr.refused ++ (d.pwr.asked.filter mayTimeout).map fun u => (u, 1) } } := by
  have hgoes : ¬ (d.pwr.phase != .entering || (d.pwr.asked.filter mayTimeout).isEmpty || d.pllDead 0) = true := by
    rw [hphase, hclk, List.isEmpty_eq_false_iff.2 hlate]
    decide
  rw [opPwrStopTimeout]
  dsimp only
  rw [if_neg hgoes]
  exact Dev.stepEnd_waits hothers

end Entering

/-! ### Wake sources (R529, R531) -/

section Waking

variable {d : Dev} {code : BitVec 4} {u unit : Nat} {st : Straps} {cells : StartCells}

/-- An enabled source starts the wake of a device that sleeps, and is recorded (R529, R531). -/
theorem opWakeEvent_asleep (hen : bit d.pwr.wakeEn (code.toNat - 1) = true) (hsrc : d.wakeSource code.toNat unit = some u)
    (hphase : d.pwr.phase = .asleep) (hmode : d.sleepMode ≤ 3) :
    opWakeEvent code unit st cells d = { d with pwr := { d.pwr with
      phase := .waking, wakeCause := pack [(code.toNat, 0, 8), (u, 16, 16)], wakeCode := BitVec.ofNat 8 code.toNat
      wakeUnit := BitVec.ofNat 16 u, early := none } } := by
  have hshallow : d.sleepMode ≠ 4 := by omega
  rw [opWakeEvent, if_pos hen, hsrc]
  simp only [hphase, Dev.beginWake]
  rw [if_pos (by exact hshallow)]
  rfl

/-- A source that comes while the device still enters is kept for the drop (R529). -/
theorem opWakeEvent_entering (hen : bit d.pwr.wakeEn (code.toNat - 1) = true) (hsrc : d.wakeSource code.toNat unit = some u)
    (hphase : d.pwr.phase = .entering) (hfirst : d.pwr.early = none) :
    opWakeEvent code unit st cells d = { d with pwr := { d.pwr with early := some (code, u, st, cells) } } := by
  rw [opWakeEvent, if_pos hen, hsrc]
  simp [hphase, hfirst]

end Waking

end Sys2Proof.Machine
end

section

set_option Elab.async false

/-! ### What a wake leaves of units, executions and power (R533)

A device that wakes goes through its host ports, pans and links. What that does beside the units' transitions and the
executions' ends leaves the states of the units, the executing descriptors and the power unit. -/

namespace Sys2Proof.Machine

/-- The units, the executing descriptors and the power unit of a device. -/
structure RestCore where
  units : Tab UnitSt
  execs : Tab (Option Exec)
  pwr : Pwr

def Dev.rest (d : Dev) : RestCore := { units := d.units, execs := d.execs, pwr := d.pwr }

section Rest

variable {d t : Dev}

theorem Dev.Events.rest (h : d.Events t) : t.rest = d.rest := by
  rw [h.1]
  rfl

theorem Dev.rest_foldS {α : Type} {f : Dev → α → Dev} (hf : ∀ e a, (f e a).rest = e.rest) (l : List α) (d : Dev) :
    (foldS f d l).rest = d.rest :=
  foldS_inv (fun e : Dev => e.rest = d.rest) f d l (fun e a he => (hf e a).trans he) rfl

variable (d : Dev)

@[simp] theorem Dev.rest_emit (o : Output) : (d.emit o).rest = d.rest := rfl
@[simp] theorem Dev.rest_modHp (p : Nat) (f : HostPort → HostPort) : (d.modHp p f).rest = d.rest := rfl
@[simp] theorem Dev.rest_modSq (p q : Nat) (f : Sq → Sq) : (d.modSq p q f).rest = d.rest := rfl
@[simp] theorem Dev.rest_modCq (p q : Nat) (f : Cq → Cq) : (d.modCq p q f).rest = d.rest := rfl
@[simp] theorem Dev.rest_modMg (v : MgmtIf) (f : Mgmt → Mgmt) : (d.modMg v f).rest = d.rest := rfl
@[simp] theorem Dev.rest_modPan (p : Nat) (f : Pan → Pan) : (d.modPan p f).rest = d.rest := rfl
@[simp] theorem Dev.rest_modLink (n : Nat) (f : LinkPort → LinkPort) : (d.modLink n f).rest = d.rest := rfl
@[simp] theorem Dev.rest_modIng (n : Nat) (f : Ingress → Ingress) : (d.modIng n f).rest = d.rest := rfl
@[simp] theorem Dev.rest_stageReq (r : Nat) (s : ReqStage) : (d.stageReq r s).rest = d.rest := rfl
@[simp] theorem Dev.rest_noteFault (u st : Nat) : (d.noteFault u st).rest = d.rest := rfl
@[simp] theorem Dev.rest_modOp (e : Nat) (f : Op → Op) : (d.modOp e f).rest = d.rest := rfl
@[simp] theorem Dev.rest_event (u code status : Nat) (data : DWord) : (d.event u code status data).rest = d.rest :=
  (Dev.event_events d u code status data).rest

/-! #### Pans and pins -/

@[simp] theorem Dev.rest_settle (i : Nat) : (d.settle i).rest = d.rest := rfl

theorem pinStable_rest (k : RestCore) : PinStable fun t => t.rest = k where
  modPin _ _ _ h := h
  modFport _ _ _ h := h
  emit _ _ h := h
  event _ _ _ _ _ h := (Dev.rest_event ..).trans h
  pinIn _ _ _ h := h
  settle _ _ h := h

theorem Dev.rest_refreshPins : d.refreshPins.rest = d.rest := (pinStable_rest d.rest).refreshPins rfl

theorem Dev.rest_sourcesOf (ps : List Nat) (f : Pan → Pan) : (d.sourcesOf ps f).rest = d.rest :=
  (Dev.rest_foldS Dev.rest_settle _ _).trans (Dev.rest_foldS (fun e i => Dev.rest_modPan e i _) _ _)

theorem Dev.rest_setQreq (p : Nat) (l : Bool) : (d.setQreq p l).rest = d.rest := by
  unfold Dev.setQreq
  split_ifs
  · rfl
  · rfl

theorem Dev.rest_shutPans (ps : List Nat) : (d.shutPans ps).rest = d.rest :=
  (Dev.rest_foldS Dev.rest_settle _ _).trans
    ((Dev.rest_foldS (fun e (x : Nat × List Nat × Tab (Option Bool)) => Dev.rest_modPan e x.1 _) _ _).trans
      (Dev.rest_foldS (fun e i => Dev.rest_modPan e i _) _ _))

/-! #### Host ports -/

theorem Dev.rest_sendMsix (p v : Nat) : (d.sendMsix p v).rest = d.rest := (Dev.sendMsix_events d p v).rest

theorem Dev.rest_postHost (p : Nat) (a : DWord) (bs : List Byte) (ro : Bool) : (d.postHost p a bs ro).rest = d.rest := by
  unfold Dev.postHost
  split_ifs
  · rfl
  · rfl

theorem Dev.rest_askHost (p : Nat) (why : ReadWhy) (addr len : Nat) : (d.askHost p why addr len).rest = d.rest := by
  unfold Dev.askHost
  dsimp only
  split_ifs
  · rfl
  · rfl

theorem Dev.rest_putHostData (e : Nat) (iss : Issuer) (addr : Nat) (bs : List Byte) : (d.putHostData e iss addr bs).rest = d.rest := by
  unfold Dev.putHostData
  cases iss with
  | ring p q =>
    dsimp only
    split_ifs
    · rfl
    · exact Dev.rest_foldS (fun t _ => Dev.rest_postHost t ..) _ _
  | smbus => rfl
  | jtag => rfl

theorem Dev.rest_writeCpl (p q : Nat) (tag : BitVec 16) (irq : Bool) (status unit : Nat) (info : DWord) :
    (d.writeCpl p q tag irq status unit info).rest = d.rest := by
  have hpost := Dev.rest_postHost d p
  unfold Dev.writeCpl
  extract_lets s k c d1 c1
  have h1 : d1.rest = d.rest := hpost ..
  dsimp only
  split
  all_goals
    split
    · exact (Dev.rest_sendMsix ..).trans h1
    · exact h1

theorem Dev.rest_deliverEvent (p : Nat) (e : HeldEv) : (d.deliverEvent p e).rest = d.rest := (Dev.deliverEvent_events d p e).rest

theorem Dev.rest_askWaiting (p : Nat) : (d.askWaiting p).rest = d.rest := by
  unfold Dev.askWaiting
  split_ifs
  · rfl
  · split
    · rfl
    · rfl

theorem Dev.rest_releasePosted (p : Nat) : (d.releasePosted p).rest = d.rest := by
  unfold Dev.releasePosted
  split_ifs
  · rfl
  · exact (Dev.rest_foldS (fun t _ => Dev.rest_askWaiting t p) _ _).trans (Dev.rest_foldS (fun t _ => Dev.rest_emit t _) _ _)

theorem Dev.rest_flushHeld (p : Nat) : (d.flushHeld p).rest = d.rest := by
  unfold Dev.flushHeld
  dsimp only
  split_ifs
  · rfl
  · exact Dev.rest_foldS (fun t e => Dev.rest_deliverEvent t p e) _ _

theorem Dev.rest_sendPending (p v : Nat) : (d.sendPending p v).rest = d.rest := by
  unfold Dev.sendPending
  dsimp only
  split_ifs
  · exact Dev.rest_sendMsix ..
  · rfl

theorem Dev.rest_askCancel (p q : Nat) : (d.askCancel p q).rest = d.rest := by
  unfold Dev.askCancel
  dsimp only
  split_ifs
  · rfl
  · exact Dev.rest_askHost ..

theorem Dev.rest_sqBell (p q : Nat) (v : Word) : (d.sqBell p q v).rest = d.rest := by
  unfold Dev.sqBell
  dsimp only
  split_ifs
  · rfl
  · rfl
  · exact Dev.rest_askCancel ..
  · rfl

theorem Dev.rest_cancelOut (p q k : Nat) : (d.cancelOut p q k).rest = d.rest := by
  induction k generalizing d with
  | zero => rfl
  | succ k ih =>
    unfold Dev.cancelOut
    dsimp only
    split
    · split_ifs
      · rfl
      · exact (ih _).trans (Dev.rest_writeCpl ..)
    · rfl

theorem Dev.rest_cancelGo (p q : Nat) : (d.cancelGo p q).rest = d.rest := by
  have hout : (d.cancelOut p q 8).rest = d.rest := Dev.rest_cancelOut ..
  unfold Dev.cancelGo
  generalize d.cancelOut p q 8 = d1 at hout ⊢
  dsimp only
  split_ifs
  · rfl
  · exact (Dev.rest_askCancel ..).trans hout
  · exact (Dev.rest_foldS (fun t (x : Nat × Word) => Dev.rest_sqBell t p q x.2) _ _).trans ((Dev.rest_modSq ..).trans hout)

theorem Dev.rest_hostAgain (p : Nat) : (d.hostAgain p).rest = d.rest := by
  unfold Dev.hostAgain
  have hsent := Dev.rest_foldS (fun t v => Dev.rest_sendPending t p v) (List.range 64) ((d.releasePosted p).flushHeld p)
  exact (Dev.rest_foldS (fun t q => Dev.rest_cancelGo t p q) _ _).trans
    (hsent.trans ((Dev.rest_flushHeld _ p).trans (Dev.rest_releasePosted d p)))

end Rest

end Sys2Proof.Machine
end

section

set_option Elab.async false

/-! #### Requests at the Sluice and packets of a link -/

namespace Sys2Proof.Machine

section Traffic

variable (d : Dev)

@[simp] theorem Dev.rest_freeSlot (k : Nat) : (d.freeSlot k).rest = d.rest := rfl

theorem Dev.rest_respond (r : Nat) (lines : List (Byte × Line)) : (d.respond r lines).rest = d.rest := by
  unfold Dev.respond
  split
  · rfl
  · rfl

theorem Dev.rest_answer (r status : Nat) : (d.answer r status).rest = d.rest := by
  unfold Dev.answer
  split
  · rfl
  · refine (Dev.rest_respond ..).trans ?_
    split
    · rfl
    · rfl

theorem Dev.rest_sendPacket (h : Nat) (p : Packet) : (d.sendPacket h p).rest = d.rest :=
  (Dev.rest_foldS (fun t _ => Dev.rest_emit t _) _ _).trans (Dev.rest_modLink ..)

theorem Dev.rest_wakePeer (h : Nat) : (d.wakePeer h).rest = d.rest := by
  unfold Dev.wakePeer
  dsimp only
  split_ifs
  · exact (Dev.rest_foldS (fun t _ => Dev.rest_emit t _) _ _).trans (Dev.rest_modLink ..)
  · rfl

theorem Dev.rest_flushLinkN (h k : Nat) : (d.flushLinkN h k).rest = d.rest := by
  induction k generalizing d with
  | zero => rfl
  | succ k ih =>
    unfold Dev.flushLinkN
    dsimp only
    split
    · rfl
    · exact (ih _).trans ((Dev.rest_sendPacket ..).trans (Dev.rest_modLink ..))

theorem Dev.rest_flushLink (h : Nat) : (d.flushLink h).rest = d.rest := by
  unfold Dev.flushLink
  split_ifs
  · rfl
  · exact Dev.rest_wakePeer ..
  · exact Dev.rest_flushLinkN ..

theorem Dev.rest_queuePacket (h : Nat) (p : Packet) : (d.queuePacket h p).rest = d.rest :=
  (Dev.rest_flushLink ..).trans (Dev.rest_modLink ..)

theorem Dev.rest_egress (h r : Nat) : (d.egress h r).rest = d.rest := by
  unfold Dev.egress
  split
  · rfl
  · split
    · exact Dev.rest_answer ..
    · dsimp only
      split
      · exact Dev.rest_queuePacket ..
      · split
        · exact Dev.rest_answer ..
        · exact Dev.rest_queuePacket ..

theorem Dev.rest_enterDest (k r : Nat) : (d.enterDest k r).rest = d.rest := by
  unfold Dev.enterDest
  split_ifs
  · rfl
  · exact (Dev.rest_egress ..).trans (Dev.rest_freeSlot ..)

theorem Dev.rest_spend (i k : Nat) : (d.spend i k).rest = d.rest := by
  refine Dev.rest_foldS (fun t r => ?_) _ _
  dsimp only
  split_ifs
  · rfl
  · exact (Dev.rest_enterDest ..).trans (Dev.rest_modIng ..)

theorem Dev.rest_wantSlot (r k : Nat) : (d.wantSlot r k).rest = d.rest := by
  unfold Dev.wantSlot
  split
  · rfl
  · exact (Dev.rest_spend ..).trans (Dev.rest_stageReq ..)

theorem Dev.rest_pushRxLine (n : Nat) : (d.pushRxLine n).rest = d.rest := by
  unfold Dev.pushRxLine
  dsimp only
  split
  · split_ifs
    · rfl
    · exact Dev.rest_wantSlot ..
  · rfl

/-! #### Waking pans, and what follows the wake (R70, R155, R533) -/

theorem Dev.rest_wakePans (slept : List Nat) : (d.wakePans slept).rest = d.rest := by
  have hqreq (t : Dev) (p : Nat) : (if t.sleepQreq p then t.setQreq p false else t).rest = t.rest := by
    split_ifs
    · exact Dev.rest_setQreq ..
    · rfl
  unfold Dev.wakePans
  extract_lets runs d1 open_ d2
  have h1 : d1.rest = d.rest := Dev.rest_foldS hqreq runs d
  have h2 : d2.rest = d1.rest := Dev.rest_foldS (fun e p => Dev.rest_modPan e p _) open_ d1
  exact (Dev.rest_sourcesOf ..).trans (h2.trans h1)

theorem Dev.rest_wakeSaves (ps : List Nat) : (d.wakeSaves ps).rest = d.rest := by
  unfold Dev.wakeSaves
  split_ifs
  · exact Dev.rest_sourcesOf ..
  · refine Dev.rest_foldS (fun t q => ?_) _ _
    split
    · rfl
    · rfl

theorem Dev.rest_noteWoken (t : Dev) : (d.noteWoken t).rest = t.rest := rfl

theorem Dev.rest_afterWake (pans : List Nat) : (d.afterWake pans).rest = d.rest := by
  have hpins : (foldS Dev.settle d pans).refreshPins.rest = d.rest :=
    (Dev.rest_refreshPins _).trans (Dev.rest_foldS Dev.rest_settle pans d)
  refine (Dev.rest_foldS (fun (t : Dev) (e : Nat × LinkPort) => ?_) _ _).trans hpins
  split_ifs
  · rfl
  · exact Dev.rest_pushRxLine ..

end Traffic

/-! ### Units that stay awake (R533) -/

/-- What holds from the moment the units in `v` have woken: none of them is asleep, no operation of the Rake waits for the
device, and the power unit stands as it does. -/
def Dev.Calm (v : Nat → Prop) (w : Pwr) (d : Dev) : Prop :=
  (∀ u, v u → d.ust u ≠ .asleep) ∧ (∀ e y, (e, some y) ∈ d.execs → ∀ z, y.kind ≠ .waitRake z) ∧ d.pwr = w

namespace Dev.Calm

section Basics

variable {v : Nat → Prop} {w : Pwr} {d t : Dev}

theorem of_rest (h : d.Calm v w) (hrest : t.rest = d.rest) : t.Calm v w := by
  obtain ⟨hust, hkind, hpwr⟩ := h
  have hunits : t.units = d.units := congrArg RestCore.units hrest
  have hexecs : t.execs = d.execs := congrArg RestCore.execs hrest
  have hp : t.pwr = d.pwr := congrArg RestCore.pwr hrest
  refine ⟨?_, ?_, hp.trans hpwr⟩
  · intro u hu
    rw [Dev.ust, Dev.unit, hunits]
    exact hust u hu
  · rwa [hexecs]

theorem foldS {α : Type} {f : Dev → α → Dev} (hf : ∀ t a, Dev.Calm v w t → Dev.Calm v w (f t a)) (l : List α) (h : d.Calm v w) :
    (foldS f d l).Calm v w :=
  foldS_inv (Dev.Calm v w) f d l hf h

/-- A transition to any other state than ASLEEP. -/
theorem setUnit (h : d.Calm v w) (u : Nat) {n : UState} (hn : n ≠ .asleep) (c : Cause) : (d.setUnit u n c).Calm v w := by
  by_cases hsame : d.ust u = n
  · rwa [Dev.setUnit_same d u n c hsame]
  · refine of_rest ?_ (Dev.setUnit_events d u n c hsame).rest
    obtain ⟨hust, hkind, hpwr⟩ := h
    refine ⟨fun x hx => ?_, hkind, hpwr⟩
    by_cases hxu : x = u
    · rw [hxu, Dev.ust_putUnit_same]
      exact hn
    · rw [Dev.ust_putUnit_other _ _ _ _ hxu]
      exact hust x hx

/-- Executions of which none waits for the Rake. -/
theorem execs {x : Tab (Option Exec)} (h : d.Calm v w) (hx : ∀ e y, (e, some y) ∈ x → ∀ z, y.kind ≠ .waitRake z) :
    ({ d with execs := x } : Dev).Calm v w := by
  obtain ⟨hust, -, hpwr⟩ := h
  exact ⟨hust, hx, hpwr⟩

/-- An execution that begins to wait for anything but the Rake. -/
theorem setKind (h : d.Calm v w) (e : Nat) {k : ExecKind} (hk : ∀ z, k ≠ .waitRake z) : (d.setKind e k).Calm v w := by
  have ⟨_, hkind, _⟩ := h
  refine h.execs fun g y hy => ?_
  rcases Tab.mem_set hy with hnew | hold
  · obtain ⟨x, -, rfl⟩ := Option.map_eq_some_iff.1 (congrArg Prod.snd hnew).symm
    exact hk
  · exact hkind g y hold

end Basics

end Dev.Calm

end Sys2Proof.Machine
end

section

set_option Elab.async false

/-! #### Executions and transfers (R366, R368, R370) -/

namespace Sys2Proof.Machine

section Transfers

variable (d : Dev)

theorem Dev.rest_ringAfter (p q e status : Nat) (f : Bool) : (d.ringAfter p q e status f).rest = d.rest := rfl

theorem Dev.rest_askSource (e : Nat) (iss : Issuer) (x : Xfer) : (d.askSource e iss x).1.rest = d.rest := by
  unfold Dev.askSource
  split
  · rfl
  · cases iss with
    | ring p q =>
      dsimp only
      split
      · rfl
      · exact Dev.rest_askHost ..
    | smbus => rfl
    | jtag => rfl

theorem Dev.rest_drainHost (e : Nat) (iss : Issuer) (x : Xfer) : (d.drainHost e iss x).1.rest = d.rest := by
  unfold Dev.drainHost
  split
  · rfl
  · exact Dev.rest_putHostData ..

end Transfers

namespace Dev.Calm

variable {v : Nat → Prop} {w : Pwr} {d t : Dev}

/-- A change of each execution that lets none wait for the Rake. -/
theorem mapExecs (h : d.Calm v w) (f : Exec → Exec) (hf : ∀ y z, (f y).kind = .waitRake z → y.kind = .waitRake z) :
    ({ d with execs := d.execs.map fun e : Nat × Option Exec => (e.1, e.2.map f) } : Dev).Calm v w := by
  have ⟨_, hkind, _⟩ := h
  refine h.execs fun e y hy z hz => ?_
  obtain ⟨⟨g, o⟩, ho, hmap⟩ := List.mem_map.1 hy
  obtain ⟨x, rfl, rfl⟩ := Option.map_eq_some_iff.1 (congrArg Prod.snd hmap)
  exact hkind g x ho z (hf x z hz)

theorem endExec (h : d.Calm v w) (e status unit : Nat) (info : DWord) : (d.endExec e status unit info).Calm v w := by
  have ⟨_, hkind, _⟩ := h
  unfold Dev.endExec
  split
  · exact h
  · next x hx =>
    have hgone : ({ d with execs := d.execs.set none e none } : Dev).Calm v w := by
      refine h.execs fun g y hy => ?_
      rcases Tab.mem_set hy with hnew | hold
      · cases hnew
      · exact hkind g y hold
    generalize ({ d with execs := d.execs.set none e none } : Dev) = d1 at hgone ⊢
    dsimp only
    split
    · split
      · exact hgone.of_rest (Dev.rest_modHp ..)
      · exact hgone.of_rest ((Dev.rest_ringAfter ..).trans (Dev.rest_writeCpl ..))
    · exact hgone.of_rest (Dev.rest_modMg ..)
    · exact hgone.of_rest (Dev.rest_modMg ..)

theorem fenceDone (h : d.Calm v w) (e : Nat) : (d.fenceDone e).1.Calm v w := by
  refine h.mapExecs _ fun y z hz => ?_
  split at hz
  · cases hz
  · exact hz

theorem completeN (h : d.Calm v w) (k e status unit : Nat) (info : DWord) : (d.completeN k e status unit info).Calm v w := by
  induction k generalizing d e status unit info with
  | zero => exact h
  | succ k ih =>
    have hended : ((d.endExec e status unit info).fenceDone e).1.Calm v w := (h.endExec ..).fenceDone e
    unfold Dev.completeN
    dsimp only
    split
    · exact hended
    · exact ih hended ..

theorem complete (h : d.Calm v w) (e status unit : Nat) (info : DWord) : (d.complete e status unit info).Calm v w := h.completeN ..

theorem xferGo (h : d.Calm v w) (e : Nat) (iss : Issuer) (x : Xfer) : (d.xferGo e iss x).Calm v w := by
  have hasked := h.of_rest (Dev.rest_askSource d e iss x)
  rcases hsource : d.askSource e iss x with ⟨d1, x1⟩
  rw [hsource] at hasked
  have hdrained := hasked.of_rest (Dev.rest_drainHost d1 e iss x1)
  rcases hdrain : d1.drainHost e iss x1 with ⟨d2, x2⟩
  rw [hdrain] at hdrained
  simp only [Dev.xferGo, hsource, hdrain]
  split
  · split
    · exact hdrained.complete ..
    · exact hdrained.complete ..
  · refine hdrained.setKind e fun z hz => ?_
    cases hz

/-- Bytes that an operation asks for come at once, fail at once, or are read from the host. -/
theorem askBytes (h : d.Calm v w) {e : Nat} {iss : Issuer} {why : ReadWhy} {addr len : Nat} {now : Dev → List Byte → Dev}
    {fail : Dev → Dev} (hnow : ∀ bs, (now d bs).Calm v w) (hfail : (fail d).Calm v w) :
    (d.askBytes e iss why addr len now fail).Calm v w := by
  cases iss with
  | ring p q =>
    unfold Dev.askBytes
    dsimp only
    split
    · exact hfail
    · exact h.of_rest (Dev.rest_askHost ..)
  | smbus => exact hnow _
  | jtag => exact hnow _

/-! #### The vault and the Store's jobs (R149, R152, R413, R415) -/

theorem endVault (h : d.Calm v w) (e st : Nat) (info : DWord) : (d.endVault e st info).Calm v w := by
  have hgone (s : StoreCtl) : ({ d with store := s } : Dev).Calm v w := h.of_rest rfl
  exact (hgone _).complete ..

theorem putVault (h : d.Calm v w) (e : Nat) (f : VaultJob → VaultJob) : (d.putVault e f).Calm v w := h.of_rest rfl

theorem wearOut (h : d.Calm v w) (u : Nat) : (d.wearOut u).Calm v w := by
  unfold Dev.wearOut
  dsimp only
  split_ifs
  · exact h
  · exact h.of_rest rfl
  · exact h.of_rest rfl

theorem vaultData (h : d.Calm v w) (e : Nat) (bs : List Byte) : (d.vaultData e bs).Calm v w := by
  have hput (f : VaultJob → VaultJob) : (d.putVault e f).Calm v w := h.putVault e f
  unfold Dev.vaultData
  dsimp only
  split
  · exact hput _
  · split
    · exact (hput _).putVault ..
    · exact (hput _).askBytes (fun _ => (hput _).putVault ..) ((hput _).endVault ..)

theorem runVault (h : d.Calm v w) (j : VaultJob) : (d.runVault j).Calm v w := by
  have hput (f : VaultJob → VaultJob) : (d.putVault j.exec f).Calm v w := h.putVault ..
  unfold Dev.runVault
  extract_lets e id cur n addr
  clear_value cur
  split
  · exact h.endVault ..
  split
  · exact h
  split
  · exact h.endVault ..
  split
  · split
    · exact h.endVault ..
    · split
      · exact (hput _).putVault ..
      · exact (hput _).askBytes (fun _ => (hput _).vaultData ..) ((hput _).endVault ..)
  · split
    · exact h.endVault ..
    · split
      · exact (h.wearOut _).endVault ..
      · exact (h.of_rest (Dev.rest_putHostData ..)).endVault ..

theorem vaultArrived_none (h : d.Calm v w) (e : Nat) : (d.vaultArrived e none).Calm v w :=
  foldS (fun _ j ht => ht.runVault j) _ (h.endVault e stHostAbort 0)

theorem modJob (h : d.Calm v w) (f : StoreJob → StoreJob) : (d.modJob f).Calm v w := by
  unfold Dev.modJob
  split
  · exact h.of_rest rfl
  · exact h

mutual

theorem endJobN (n st : Nat) (info : DWord) {d : Dev} (h : d.Calm v w) : (d.endJobN n st info).Calm v w := by
  match n with
  | 0 => unfold Dev.endJobN; exact h
  | n + 1 =>
    unfold Dev.endJobN
    split
    · exact h
    · next j r _ =>
      have hleft : ({ d with store := { d.store with jobs := r } } : Dev).Calm v w := h.of_rest rfl
      dsimp only
      split
      · exact startJobN n (hleft.complete ..)
      · exact startJobN n hleft

theorem startJobN (n : Nat) {d : Dev} (h : d.Calm v w) : (d.startJobN n).Calm v w := by
  match n with
  | 0 => unfold Dev.startJobN; exact h
  | n + 1 =>
    unfold Dev.startJobN
    split
    · exact h
    split
    · exact h
    split
    · exact h.modJob _
    split
    · exact endJobN n _ _ h
    split
    · exact h
    dsimp only
    split
    · exact endJobN n _ _ h
    split
    · exact endJobN n _ _ h
    split
    · exact h.modJob _
    split
    · split
      · exact endJobN n _ _ (h.modJob _)
      · exact (h.modJob _).of_rest (Dev.rest_askHost ..)
    · exact h.modJob _

end

theorem endJob (h : d.Calm v w) (st : Nat) (info : DWord) : (d.endJob st info).Calm v w := endJobN _ _ _ h

theorem askJob (h : d.Calm v w) {j : StoreJob} {off len : Nat} {now : Dev → List Byte → Dev} (hnow : ∀ bs, (now d bs).Calm v w) :
    (d.askJob j off len now).Calm v w := by
  unfold Dev.askJob
  split
  · exact h
  · exact h.askBytes hnow (h.endJob ..)

theorem storeAlloc (h : d.Calm v w) (j : StoreJob) (i : ImgHdr) : (d.storeAlloc j i).Calm v w := by
  unfold Dev.storeAlloc
  dsimp only
  split
  · exact h.endJob ..
  split
  · exact h.endJob ..
  split
  · exact h.endJob ..
  split
  · exact h.endJob ..
  · exact h.modJob _

theorem storeResource (h : d.Calm v w) (j : StoreJob) (bs : List Byte) : (d.storeResource j bs).Calm v w := by
  unfold Dev.storeResource
  dsimp only
  split
  · exact h.endJob ..
  split
  · exact h.endJob ..
  split
  · exact h.endJob ..
  split
  · exact h.endJob ..
  · exact (h.modJob _).storeAlloc ..

theorem storeHeader (h : d.Calm v w) (j : StoreJob) : (d.storeHeader j).Calm v w := by
  unfold Dev.storeHeader
  dsimp only
  split
  · exact h.storeResource ..
  · exact (h.modJob _).askJob fun _ => (h.modJob _).storeResource ..

theorem storeBody (h : d.Calm v w) (j : StoreJob) : (d.storeBody j).Calm v w := by
  unfold Dev.storeBody
  split
  · exact h.modJob _
  · exact (h.modJob _).askJob fun _ => (h.modJob _).modJob _

theorem storeArrived (h : d.Calm v w) (bs : List Byte) : (d.storeArrived bs).Calm v w := by
  unfold Dev.storeArrived
  split
  · exact h
  · next j _ _ =>
    have hjob (k : StoreJob) : (d.modJob fun _ => k).Calm v w := h.modJob _
    split
    · dsimp only
      split
      · exact (hjob _).askJob fun _ => hjob _
      · exact (hjob _).storeHeader _
    · dsimp only
      split
      · exact h.storeResource ..
      · exact (hjob _).askJob fun _ => hjob _
    · exact (hjob _).storeBody _
    · exact h

theorem feedJobs (h : d.Calm v w) (n : Nat) : (d.feedJobs n).Calm v w := by
  induction n generalizing d with
  | zero => exact h
  | succ n ih =>
    unfold Dev.feedJobs
    split
    · dsimp only
      split
      · exact ih (h.storeArrived _)
      · exact h
    · exact h

theorem storeRead_none (h : d.Calm v w) (e : Nat) : (d.storeRead e none).Calm v w := by
  unfold Dev.storeRead
  split
  · exact (startJobN _ (h.endJob stHostAbort 0)).feedJobs _
  · exact h

end Dev.Calm

end Sys2Proof.Machine
end

section

set_option Elab.async false

/-! #### Operations of the Rake that end or stage anew (R196, R220, R223, R234) -/

namespace Sys2Proof.Machine

section Passes

variable (d : Dev)

@[simp] theorem Dev.rest_sendInval (k : InvalKind) (e : Option Nat) : (d.sendInval k e).rest = d.rest := rfl
@[simp] theorem Dev.rest_returnTokens (p n : Nat) : (d.returnTokens p n).rest = d.rest := rfl

theorem Dev.rest_refund (x : Pass) : (d.refund x).rest = d.rest := by
  unfold Dev.refund
  split
  · rfl
  · rfl
  · split
    · rfl
    · rfl

theorem Dev.rest_cfgError (status source addr pan : Nat) : (d.cfgError status source addr pan).rest = d.rest := by
  unfold Dev.cfgError
  split
  · rfl
  · rfl

theorem Dev.rest_freshStaging (e : Nat) : (d.freshStaging e).rest = d.rest := by
  unfold Dev.freshStaging
  split
  · rfl
  · rfl

end Passes

namespace Dev.Calm

variable {v : Nat → Prop} {w : Pwr} {d t : Dev}

theorem quitLane (h : d.Calm v w) (x : Pass) : (d.quitLane x).Calm v w := by
  have hgone : ((d.dropPass x).modPan x.pan fun p => { p with shadowWriting := false }).Calm v w := h.of_rest rfl
  unfold Dev.quitLane
  extract_lets d1
  split
  · exact hgone
  · split
    · exact hgone.setUnit _ (by decide) _
    · exact hgone

theorem leaveLane (h : d.Calm v w) (x : Pass) (ok : Bool) : (d.leaveLane x ok).Calm v w := by
  unfold Dev.leaveLane
  split
  · exact h.quitLane x
  · refine quitLane ?_ x
    exact h.of_rest rfl

theorem quit (h : d.Calm v w) (x : Pass) (ok : Bool) : ((d.leaveLane x ok).refund x).Calm v w :=
  (h.leaveLane x ok).of_rest (Dev.rest_refund ..)

theorem discardPre (h : d.Calm v w) (p : Nat) : (d.discardPre p).Calm v w := by
  unfold Dev.discardPre
  split
  · exact h
  · dsimp only
    refine foldS (fun t q ht => ?_) _ (foldS (fun t x ht => ?_) _ h)
    · exact ht.of_rest rfl
    · split
      · exact ht.quit x false
      · exact ht

theorem toStaged (h : d.Calm v w) (o : Op) (p : Nat) : (d.toStaged o p).Calm v w := by
  unfold Dev.toStaged
  split
  · exact h.setUnit _ (by decide) _
  · exact h

theorem stageMember (h : d.Calm v w) (e : Nat) (o : Op) (p : Nat) : (d.stageMember e o p).Calm v w := by
  have hpan (f : Pan → Pan) : (d.modPan p f).Calm v w := h.of_rest rfl
  unfold Dev.stageMember
  dsimp only
  split
  · exact hpan _
  · exact (hpan _).toStaged o p

theorem returnUnit (h : d.Calm v w) (u : Nat) {s : UState} (hs : s ≠ .asleep) (c : Cause) : (d.returnUnit u s c).Calm v w := by
  unfold Dev.returnUnit
  split
  · exact (h.of_rest rfl : (d.noteFault u 0).Calm v w).setUnit u hs c
  · exact h.setUnit u hs c

theorem unstage (h : d.Calm v w) (o : Op) (p : Nat) : (d.unstage o p).Calm v w := by
  unfold Dev.unstage
  dsimp only
  split
  · exact h.returnUnit _ (by decide) _
  · exact h.returnUnit _ (by decide) _

theorem unhold (h : d.Calm v w) (c : Cause) (ps : List Nat) : (d.unhold c ps).Calm v w := by
  refine of_rest (foldS (fun t p ht => ?_) ps h) (Dev.rest_sourcesOf ..)
  exact (ht.of_rest (Dev.rest_modPan ..)).setUnit _ (by decide) c

theorem undoOp (h : d.Calm v w) (e : Nat) (o : Op) : (d.undoOp e o).Calm v w := by
  unfold Dev.undoOp
  extract_lets c carry due d0 d1 d2 d3 d4
  have h0 : d0.Calm v w := foldS (fun t p ht => ht.of_rest (Dev.rest_returnTokens ..)) due h
  have h1 : d1.Calm v w := foldS (fun t x ht => ht.quit x false) _ h0
  have h2 : d2.Calm v w := by
    refine foldS (fun t p ht => ?_) _ h1
    extract_lets t1 t2
    have ht1 : t1.Calm v w := ht.of_rest (Dev.rest_modPan ..)
    clear_value t1
    have ht2 : t2.Calm v w := by
      unfold t2
      split
      · exact ht1.unstage o p
      · exact ht1
    clear_value t2
    split
    · exact ht2.of_rest ((Dev.rest_sourcesOf ..).trans (Dev.rest_modPan ..))
    · exact ht2
  have h3 : d3.Calm v w := by
    refine foldS (fun t p ht => ?_) _ h2
    split
    · exact ht.of_rest (Dev.rest_setQreq ..)
    · exact ht
  have h4 : d4.Calm v w := (h3.of_rest (Dev.rest_sourcesOf ..)).unhold c o.held
  exact h4.of_rest (Dev.rest_refreshPins _)

theorem failOp (h : d.Calm v w) (e status unit : Nat) (info : DWord) : (d.failOp e status unit info).Calm v w := by
  unfold Dev.failOp
  split
  · exact h.complete ..
  · exact (h.undoOp e _).complete ..

theorem startRecords (h : d.Calm v w) (e : Nat) : (d.startRecords e).Calm v w := by
  unfold Dev.startRecords
  split
  · exact h
  · next o _ =>
    split
    · exact h.failOp ..
    · have h0 : (Machine.foldS (fun d p => d.discardPre p) d o.srcs).Calm v w := foldS (fun t p ht => ht.discardPre p) _ h
      dsimp only
      split
      · exact of_rest (foldS (fun t p ht => ht.toStaged o p) o.dsts h0) (Dev.rest_modOp ..)
      · exact h0.of_rest (Dev.rest_modOp ..)

theorem holdAll_none (h : d.Calm v w) (e : Nat) : (d.holdAll e []).Calm v w := by
  unfold Dev.holdAll
  split
  · exact h
  · next o _ =>
    extract_lets c ran d1 d2 d3 d4
    have h1 : d1.Calm v w := by
      have hshut := h.of_rest ((Dev.rest_shutPans _ o.holds).trans (Dev.rest_sourcesOf d o.holds fun x => { x with srcCommitHold := true }))
      refine foldS (fun t p ht => ?_) _ hshut
      extract_lets was t1
      have ht1 : t1.Calm v w := ht.of_rest rfl
      split
      · exact ht1.setUnit _ (by decide) c
      · exact ht1
    have h4 : d4.Calm v w := (h1.of_rest rfl : d3.Calm v w).of_rest (Dev.rest_refreshPins d3)
    clear_value d4
    have hop (f : Op → Op) : (d4.modOp e f).Calm v w := h4.of_rest rfl
    split
    · refine of_rest (startRecords ?_ e) (Dev.rest_sendInval ..)
      exact h4.of_rest rfl
    · split
      · exact hop _
      · exact h4.startRecords e
    · exact h4.startRecords e

theorem quiesce (h : d.Calm v w) (e : Nat) : (d.quiesce e).Calm v w := by
  unfold Dev.quiesce
  split
  · exact h
  · next o _ =>
    extract_lets run d1
    have h1 : d1.Calm v w := foldS (fun t p ht => ht.of_rest (Dev.rest_setQreq ..)) _ (h.of_rest (Dev.rest_modOp ..))
    split
    · exact h1.holdAll_none e
    · exact h1

theorem makeReal (h : d.Calm v w) (e : Nat) : (d.makeReal e).Calm v w := by
  unfold Dev.makeReal
  split
  · exact h
  · next o _ =>
    refine quiesce (foldS (fun t p ht => (ht.stageMember e o p).toStaged o p) _ ?_) e
    exact h.of_rest rfl

theorem retryHit (h : d.Calm v w) (a : Nat) : (d.retryHit a).Calm v w := by
  refine foldS (fun t y ht => ?_) _ h
  obtain ⟨e, o⟩ := y
  dsimp only
  split
  · exact ht
  split
  · exact of_rest (foldS (fun t p ht => ht.discardPre p) _ ht) (Dev.rest_freshStaging ..)
  split
  · exact ht.makeReal e
  · exact ht

theorem passFail (h : d.Calm v w) (x : Pass) (status addr : Nat) : (d.passFail x status addr).Calm v w := by
  unfold Dev.passFail
  split
  · refine retryHit (discardPre ?_ _) _
    exact h.of_rest rfl
  · exact (h.of_rest (Dev.rest_cfgError ..)).failOp ..
  · exact h

theorem imageFailed (h : d.Calm v w) (e : Nat) : (d.imageFailed e).Calm v w := by
  unfold Dev.imageFailed
  split
  · exact h
  · split
    · exact h.failOp ..
    · exact h.failOp ..
    · split
      · exact h.passFail ..
      · exact h.failOp ..

/-! #### Host ports (R350, R533) -/

theorem neededRead_none (h : d.Calm v w) (why : ReadWhy) : (d.neededRead why none).Calm v w := by
  unfold Dev.neededRead
  split
  · split
    · split
      · exact h.xferGo ..
      · exact h
    · exact h
  · split
    · contradiction
    · exact h.imageFailed _
    · exact h.storeRead_none _
  · exact h.vaultArrived_none _
  · exact h

theorem loseHost (h : d.Calm v w) (p : Nat) : (d.loseHost p).Calm v w := by
  unfold Dev.loseHost
  extract_lets whys d1 d2 d3 d4
  clear_value whys
  have h1 : d1.Calm v w := foldS (fun t q ht => ht.of_rest (Dev.rest_modSq ..)) _ h
  clear_value d1
  have h2 : d2.Calm v w := by
    refine h1.mapExecs _ fun y z hz => ?_
    split at hz
    · exact hz
    · exact hz
  have h3 : d3.Calm v w := h2.of_rest (Dev.rest_modHp ..)
  clear_value d3
  have h4 : d4.Calm v w := foldS (fun t why ht => ht.neededRead_none why) whys (foldS (fun t k ht => ht.of_rest (Dev.rest_modCq ..)) _ h3)
  split
  · exact h4
  · exact h4.of_rest (Dev.rest_modHp ..)

theorem wakeHost (h : d.Calm v w) (p : Nat) : (d.wakeHost p).Calm v w := by
  have hback : (d.modHp p fun x => { x with lost := false }).Calm v w := h.of_rest rfl
  unfold Dev.wakeHost
  extract_lets d1
  split
  · exact hback.of_rest (Dev.rest_hostAgain ..)
  · split
    · exact loseHost (hback.setUnit _ (n := .idle) (by decide) _) p
    · exact hback

end Dev.Calm

end Sys2Proof.Machine
end

section

set_option Elab.async false

/-! ### Units that wake (R533) -/

namespace Sys2Proof.Machine

section Units

variable {v : Nat} {d : Dev}

/-- What a transition leaves of a unit, of the executions and of the power unit. -/
theorem Dev.setUnit_rest (u : Nat) {n : UState} {c : Cause} (h : d.ust u ≠ n) : (d.setUnit u n c).rest = (d.putUnit u n).rest :=
  (Dev.setUnit_events d u n c h).rest

theorem Dev.unit_of_rest {t : Dev} (h : t.rest = d.rest) (u : Nat) : t.unit u = d.unit u := by
  have hunits : t.units = d.units := congrArg RestCore.units h
  rw [Dev.unit, hunits, Dev.unit]

theorem Dev.ust_of_rest {t : Dev} (h : t.rest = d.rest) (u : Nat) : t.ust u = d.ust u := congrArg UnitSt.st (Dev.unit_of_rest h u)

/-- A unit that wakes makes one transition, to the state that it had before (R533). -/
theorem Dev.wakeUnit_eq {u : Nat} (hu : u < 65536) :
    ∃ t : Dev, t.rest = d.rest ∧ d.wakeUnit u = t.setUnit u (d.unit u).prior .device := by
  unfold Dev.wakeUnit
  extract_lets k back
  split
  · next h =>
    simp only [Bool.and_eq_true, decide_eq_true_eq, beq_iff_eq] at h
    obtain ⟨hclass, hback⟩ := h
    have hport : uFport k = u := by
      simp only [uFport, k, unitIdx, unitClass] at hclass ⊢
      omega
    refine ⟨d.modFport k FPort.emptied, rfl, ?_⟩
    rw [Dev.fportToIdle, hport, ← hback]
  · split
    · exact ⟨d.modFport k fun x => { x with integrating := true }, rfl, rfl⟩
    · exact ⟨d, rfl, rfl⟩

/-- Where unit `v` has a state to come back to, waking any unit leaves it one, and leaves it awake where it is. -/
theorem Dev.wakeUnit_prior {u : Nat} (hu : u < 65536) (hprior : (d.unit v).prior ≠ .asleep) :
    ((d.wakeUnit u).unit v).prior ≠ .asleep ∧ (d.ust v ≠ .asleep ∨ v = u → (d.wakeUnit u).ust v ≠ .asleep) := by
  obtain ⟨t, hrest, hwake⟩ := Dev.wakeUnit_eq (d := d) hu
  have hunit := Dev.unit_of_rest hrest
  rw [hwake]
  by_cases hsame : t.ust u = (d.unit u).prior
  · rw [Dev.setUnit_same _ _ _ _ hsame, hunit, Dev.ust_of_rest hrest]
    refine ⟨hprior, fun h => h.elim id ?_⟩
    rintro rfl
    rw [Dev.ust_of_rest hrest] at hsame
    rwa [hsame]
  · have hput := Dev.setUnit_rest (c := .device) u hsame
    rw [Dev.unit_of_rest hput, Dev.ust_of_rest hput]
    by_cases hvu : v = u
    · subst hvu
      have hnot : ((d.unit v).prior == UState.asleep) = false := by simpa using hprior
      rw [Dev.ust_putUnit_same, Dev.unit_putUnit_same, hnot]
      exact ⟨by simp, fun _ => hprior⟩
    · rw [Dev.ust_putUnit_other _ _ _ _ hvu, Dev.unit_putUnit_other _ _ _ _ hvu, hunit, Dev.ust_of_rest hrest]
      exact ⟨hprior, fun h => h.resolve_right hvu⟩

theorem Dev.wakeUnit_execs {u : Nat} (hu : u < 65536) : (d.wakeUnit u).execs = d.execs ∧ (d.wakeUnit u).pwr = d.pwr := by
  obtain ⟨t, hrest, hwake⟩ := Dev.wakeUnit_eq (d := d) hu
  have hexecs : t.execs = d.execs := congrArg RestCore.execs hrest
  have hpwr : t.pwr = d.pwr := congrArg RestCore.pwr hrest
  rw [hwake]
  by_cases hsame : t.ust u = (d.unit u).prior
  · rw [Dev.setUnit_same _ _ _ _ hsame]
    exact ⟨hexecs, hpwr⟩
  · have hput := Dev.setUnit_rest (c := .device) u hsame
    exact ⟨(congrArg RestCore.execs hput :).trans hexecs, (congrArg RestCore.pwr hput :).trans hpwr⟩

/-- A unit with a state to come back to is awake once the units of a list that it may stand in have woken (R533). -/
theorem Dev.wakeUnits_ust {us : List Nat} (hus : ∀ u ∈ us, u < 65536) (hprior : (d.unit v).prior ≠ .asleep)
    (hv : d.ust v ≠ .asleep ∨ v ∈ us) : (us.foldl Dev.wakeUnit d).ust v ≠ .asleep := by
  induction us generalizing d with
  | nil => exact hv.resolve_right List.not_mem_nil
  | cons u us ih =>
    obtain ⟨hu, hrest⟩ := List.forall_mem_cons.1 hus
    obtain ⟨hprior', hawake⟩ := Dev.wakeUnit_prior hu hprior
    rw [List.mem_cons, ← or_assoc] at hv
    exact ih hrest hprior' (hv.imp hawake id)

theorem Dev.wakeUnits_execs {us : List Nat} (hus : ∀ u ∈ us, u < 65536) :
    (us.foldl Dev.wakeUnit d).execs = d.execs ∧ (us.foldl Dev.wakeUnit d).pwr = d.pwr := by
  induction us generalizing d with
  | nil => exact ⟨rfl, rfl⟩
  | cons u us ih =>
    obtain ⟨hu, hrest⟩ := List.forall_mem_cons.1 hus
    obtain ⟨hexecs, hpwr⟩ := Dev.wakeUnit_execs (d := d) hu
    obtain ⟨hx, hp⟩ := ih (d := d.wakeUnit u) hrest
    exact ⟨hx.trans hexecs, hp.trans hpwr⟩

theorem classCount_le (c : Nat) : classCount c ≤ 128 := by
  unfold classCount
  split <;> omega

theorem lt_of_mem_allUnits {u : Nat} (h : u ∈ allUnits) : u < 65536 := by
  obtain ⟨c, hc, hu⟩ := List.mem_flatMap.1 h
  have hclass : c < 16 := List.mem_range.1 hc
  rcases List.mem_append.1 hu with hmap | hport
  · obtain ⟨i, hi, rfl⟩ := List.mem_map.1 hmap
    have hidx : i < 128 := lt_of_lt_of_le (List.mem_range.1 hi) (classCount_le c)
    omega
  · split_ifs at hport
    · rw [List.mem_singleton.1 hport]
      decide
    · exact absurd hport List.not_mem_nil

/-- The units that a wake brings back: all but the time unit that have a state to come back to. -/
def Dev.Wakes (d : Dev) (v : Nat) : Prop := v ∈ allUnits ∧ v ≠ uTime ∧ (d.unit v).prior ≠ .asleep

/-- Once the units have woken, those with a state to come back to are awake (R533). -/
theorem Dev.wakeUnits_calm (hrake : ∀ y ∈ d.running, ∀ z, y.2.kind ≠ .waitRake z) : (d.wakeUnits fun _ => true).Calm d.Wakes d.pwr := by
  let us := allUnits.filter fun u => true && d.ust u == .asleep && u != uTime
  have hus : ∀ u ∈ us, u < 65536 := fun u hu => lt_of_mem_allUnits (List.mem_of_mem_filter hu)
  obtain ⟨hexecs, hpwr⟩ := Dev.wakeUnits_execs (d := d) hus
  refine Dev.Calm.foldS (fun t u ht => ht.of_rest (Dev.rest_noteFault ..)) _ (d := us.foldl Dev.wakeUnit d) ⟨?_, ?_, hpwr⟩
  · rintro v ⟨hv, htime, hprior⟩
    refine Dev.wakeUnits_ust hus hprior ?_
    by_cases hust : d.ust v = .asleep
    · exact .inr (List.mem_filter.2 ⟨hv, by simp [hust, htime]⟩)
    · exact .inl hust
  · rw [hexecs]
    exact fun e y hy z => hrake (e, y) (List.mem_filterMap.2 ⟨(e, some y), hy, rfl⟩) z

end Units

/-! ### The end of a wake (R531, R533) -/

section Complete

variable {v : Nat → Prop} {us : Nat} {w : Pwr} {d : Dev}

theorem Dev.Calm.wakeLink (h : d.Calm v w) (hmode : w.modeIn.toNat = 1) (slept : List Nat) (n : Nat) : (d.wakeLink slept n).Calm v w := by
  have hshallow : d.sleepMode = 1 := by
    obtain ⟨-, -, hpwr⟩ := h
    rw [Dev.sleepMode, hpwr, hmode]
  rw [Dev.wakeLink, hshallow]
  exact h

/-- Where no operation waits for the device, the Rake resumes none. -/
theorem Dev.Calm.resumeRake (h : d.Calm v w) : d.resumeRake = d := by
  obtain ⟨-, hkind, -⟩ := h
  have hnone (y : Nat × Exec) (hy : y ∈ d.granted uRake (fun y => y.2.iss) d.running) : ∀ z, y.2.kind ≠ .waitRake z := by
    obtain ⟨⟨e, o⟩, ho, hmap⟩ := List.mem_filterMap.1 (mem_of_mem_orderBy hy)
    obtain ⟨x, rfl, rfl⟩ := Option.map_eq_some_iff.1 hmap
    exact hkind e x ho
  rw [Dev.resumeRake]
  generalize d.granted uRake (fun y => y.2.iss) d.running = l at hnone ⊢
  refine List.foldlRecOn (motive := (· = d)) l _ rfl fun t ht y hy => ?_
  split
  · next z hz => exact absurd hz (hnone y hy z)
  · exact ht

/-- The power unit of a device that has woken (R529, R533). -/
def Pwr.awake (w : Pwr) (us : Nat) : Pwr := { w with
  phase := .awake, step := 0, modeIn := 0, slept := [], awoken := [], waking := [], stopped := [], asked := [], savedPans := []
  rakeMoved := false, lastSleep := satU32 us, waitExec := none, pfwNap := false }

/-- A device that wakes from mode 1 answers its WAIT once its units, host ports and pans have woken (R533). -/
theorem opWakeComplete_eq {e : Nat} (hphase : d.pwr.phase = .waking) (hmode : d.sleepMode = 1) (hwait : d.pwr.waitExec = some e)
    (hrake : ∀ y ∈ d.running, ∀ z, y.2.kind ≠ .waitRake z) :
    ∃ (t : Dev) (n : Nat) (info : DWord), opWakeComplete us d = (t.complete e stDone 0 info).resumeRake ∧ t.Calm d.Wakes (d.pwr.awake n) := by
  have hgoes : ¬ (d.pwr.phase != .waking || (d.sleepMode == 3 && d.time.slept.isSome)) = true := by
    simp [hphase, hmode]
  have hshallow : d.sleepMode ≠ 3 := by omega
  unfold opWakeComplete
  rw [if_neg hgoes]
  extract_lets p n d1 d2 d3 d4 d5 d6 d7 d8 q d9
  have h1 : d1.Calm d.Wakes d.pwr := Dev.wakeUnits_calm hrake
  clear_value d1
  have h2 : d2.Calm d.Wakes d.pwr := by
    unfold d2
    rwa [if_neg hshallow]
  clear_value d2
  have h3 : d3.Calm d.Wakes d.pwr := Dev.Calm.foldS (fun t p ht => ht.wakeHost p) _ h2
  clear_value d3
  have h4 : d4.Calm d.Wakes d.pwr := Dev.Calm.foldS (fun t n ht => ht.wakeLink hmode _ n) _ h3
  clear_value d4
  have h6 : d6.Calm d.Wakes d.pwr := h4.of_rest ((Dev.rest_wakeSaves ..).trans (Dev.rest_wakePans ..))
  clear_value d6
  have h7 : d7.Calm d.Wakes d.pwr := by
    unfold d7
    split
    · exact h6.setUnit _ (by decide) _
    · exact h6
  clear_value d7
  have h8 : d8.Calm d.Wakes d.pwr := h7.of_rest (Dev.rest_noteWoken ..)
  clear_value d8
  have h9 : d9.Calm d.Wakes (d.pwr.awake n) := by
    obtain ⟨hust, hkind, hpwr⟩ := h8
    refine Dev.Calm.of_rest (d := { d8 with pwr := d.pwr.awake n }) ⟨hust, hkind, rfl⟩ ((Dev.rest_afterWake ..).trans ?_)
    rw [← hpwr]
    rfl
  clear_value d9
  refine ⟨d9, n, pack64 [(p.wakeCode.toNat, 0, 8), (p.wakeUnit.toNat, 16, 16), ((satU32 n).toNat, 32, 32)], ?_, h9⟩
  rw [show p.waitExec = some e from hwait]

end Complete

/-- Settles O31: asking, accepting, refusing and the wake sources are their operations' cases; what wakes last leaves the units
awake that had a state to come back to. -/
theorem sleepAndWakeStepByStep : Obligations.SleepAndWakeStepByStep := by
  refine ⟨?_, ?_⟩
  · intro s iss x u d mode hclk
    refine ⟨fun hs hunit hmode hmode' hperm hepoch hawake hdev hbgs => ?_,
      fun hu hasked hothers => ⟨fun hok h8 h9 hC => ?_, fun hmay hstore => ?_⟩, fun hphase hlate hothers => ?_⟩
    · exact takes_of_runCmd (f := opWait iss x) rfl hs.1 (opWait_executes hclk hs hunit hmode hmode' hperm hepoch hawake hdev hbgs)
    · exact takes_eq (f := opUnitStopAccept u) rfl (decide_eq_true hu) (opUnitStopAccept_accepts hclk hasked hothers hok h8 h9 hC)
    · exact takes_eq (f := opUnitStopRefuse u) rfl (decide_eq_true hu) (opUnitStopRefuse_notes hclk hasked hothers hmay hstore)
    · exact takes_eq (f := opPwrStopTimeout) rfl rfl (opPwrStopTimeout_notes hclk hphase hlate hothers)
  · intro s code u unit us st cells d hunit hcells
    have hwf : (decide (unit < 65536) && cells.wf) = true := by rw [decide_eq_true hunit, hcells]; rfl
    refine ⟨fun hen hsrc => ⟨fun hphase hmode => ?_, fun hphase hfirst => ?_⟩, fun e x hphase hmode hwait hexec hrake => ?_⟩
    · exact takes_eq (f := opWakeEvent code unit st cells) rfl hwf (opWakeEvent_asleep hen hsrc hphase hmode)
    · exact takes_eq (f := opWakeEvent code unit st cells) rfl hwf (opWakeEvent_entering hen hsrc hphase hfirst)
    · refine takes_of_runCmd (f := opWakeComplete us) rfl rfl ?_
      obtain ⟨t, n, info, hwakes, hcalm⟩ := opWakeComplete_eq (us := us) hphase hmode hwait hrake
      have hdone := hcalm.complete e stDone 0 info
      have hgone := Dev.complete_exec_same t e stDone 0 info
      rw [hwakes, hdone.resumeRake]
      obtain ⟨hust, -, hpwr⟩ := hdone
      rw [hpwr]
      exact ⟨rfl, rfl, rfl, rfl, rfl, hgone, fun v hv htime hprior => hust v ⟨hv, htime, hprior⟩⟩

end Sys2Proof.Machine
end
